-- ==== Sys2Proof/Word.lean ====
section
/-!
DEFINITION. The word types of the model: a byte and a string of bytes, least significant or lowest address first
(R5).
-/

namespace Sys2Proof

/-- One byte. -/
abbrev Byte := BitVec 8

/-- Bytes in the order in which they stand in memory. -/
abbrev Bytes := List (BitVec 8)

end Sys2Proof
end

