-- ==== Sys2Proof/Machine/Types.lean ====
section
/-!
DEFINITION. The plain-data types of which the machine's state is made: one structure per unit, table entry
or record that the spec lays out, each field with the value it holds at reset.
-/

namespace Sys2Proof.Machine

/-- Power states of R17 and the unpowered module. -/
inductive PState where
  | off | asleep | awake | lit | running
  deriving DecidableEq, Repr, Inhabited

/-- Job states of R70. -/
inductive JobSt where
  | noJob | loaded | strict | loose | held | catchup | complete
  deriving DecidableEq, Repr, Inhabited

/-- SC.STATE codes of R32. -/
inductive ScState where
  | invalid | open | stalled | broken | closed
  deriving DecidableEq, Repr, Inhabited

/-- BELL.STATE codes of R250. -/
inductive BellSt where
  | idle | armed | done
  deriving DecidableEq, Repr, Inhabited

/-- Accumulator tag of R89. -/
inductive AccTag where
  | finite | satPos | satNeg | nan
  deriving DecidableEq, Repr, Inhabited

/-- FH.ROLE codes of R153. -/
inductive LaneRole where
  | inService | spare | bridged | calibrating | unassigned
  deriving DecidableEq, Repr, Inhabited

/-- Group modes of R170. -/
inductive GroupMode where
  | native | xn5 | faceplate
  deriving DecidableEq, Repr, Inhabited

/-- 1588 port states of R241. -/
inductive PortSt where
  | disabled | master | slave | passive
  deriving DecidableEq, Repr, Inhabited

/-- Crosspoint states of R190 to R199. -/
inductive XpSt where
  | dark | waiting | stepping | held | failed
  deriving DecidableEq, Repr, Inhabited

/-- PFX_STATUS.PA_ROLE codes of R325. -/
inductive PfxRole where
  | off | controlling | pairedSender | standby | stoodDown | failed
  deriving DecidableEq, Repr, Inhabited

/-- Phase of a plan between acceptance and completion (R184, R190, R191). -/
inductive PlanPhase where
  | waiting | active
  deriving DecidableEq, Repr, Inhabited

/-- Source of a Rote table's contents (R273, ROTE_ACTIVE payload). -/
inductive RoteSrc where
  | empty | seed | preload | learnt
  deriving DecidableEq, Repr, Inhabited

/-- What a tile-store code word's stored bits hold beside its data (R126, R131). -/
inductive SramKind where
  | correctable | uncorrectable | poisoned
  deriving DecidableEq, Repr, Inhabited

/-- Phase of a lane step (R281). -/
inductive CalPhase where
  | tx | rx
  deriving DecidableEq, Repr, Inhabited

/-- A host command whose effect is an MRAM write, as it waits under the write inhibit (R377). -/
inductive NvCmd where
  /-- CHANNEL_RETIRE. -/
  | retire (chan : Nat)
  /-- ROW_REMAP: removal or not, channel, sub-channel, bank, row. -/
  | remap (remove : Bool) (chan sub bank row : Nat)
  /-- SOFT_REPAIR_WRITE. -/
  | soft (die index : Nat) (entry : BitVec 32)
  /-- FIELD_FUSE_BURN. -/
  | fuse (die word : Nat) (entry : BitVec 32)
  /-- CHANNEL_RESTORE. -/
  | restore (chan : Nat)
  /-- OPERATOR_KEY_SET: index, removal or not, key, signing key index or 255. -/
  | key (index : Nat) (remove : Bool) (key : BitVec 768) (signer : Nat)
  /-- DAYBOOK_CLEAR: first and last number, whether the mirror takes its record, key index. -/
  | clear (first last : Nat) (ok : Bool) (signer : Nat)
  deriving DecidableEq, Repr, Inhabited

/-- Tile header, 32 bytes (R25). -/
structure TileHdr where
  /-- `TH.PROD_STN` (R25). -/
  prodStn : BitVec 16 := 0
  /-- `TH.PROD_MOD` (R25). -/
  prodMod : BitVec 12 := 0
  /-- `TH.JOBTAG` (R25). -/
  jobTag : BitVec 32 := 0
  /-- `TH.GRID`, signed (R25). -/
  grid : BitVec 16 := 0
  /-- `TH.GRID_MODE` (R25). -/
  gridMode : BitVec 2 := 0
  /-- `TH.FLAGS` (R25). -/
  flags : BitVec 8 := 0
  /-- `TH.SCALE_OFF` (R25). -/
  scaleOff : BitVec 11 := 0
  /-- `TH.PLEN` (R25). -/
  plen : BitVec 17 := 0
  /-- `TH.SCALE_PLACE` (R25). -/
  scalePlace : BitVec 2 := 0
  /-- `TH.LAYOUT` (R25). -/
  layout : BitVec 2 := 0
  /-- `TH.COLS_M1` (R25). -/
  colsM1 : BitVec 9 := 0
  /-- `TH.ROWS_M1` (R25). -/
  rowsM1 : BitVec 9 := 0
  /-- `TH.TSEQ` (R25). -/
  tseq : BitVec 32 := 0
  /-- `TH.TCOL` (R25). -/
  tcol : BitVec 16 := 0
  /-- `TH.TROW` (R25). -/
  trow : BitVec 16 := 0
  /-- `TH.FORMAT` (R25). -/
  format : BitVec 8 := 0
  /-- `TH.STREAM` (R25). -/
  stream : BitVec 20 := 0
  deriving DecidableEq, Repr, Inhabited

/-- Forward entry, 48 bits (R33). -/
structure Fwd where
  /-- `FWD.KIND` (R33). -/
  kind : BitVec 2 := 0
  /-- `FWD.MODULE` (R33). -/
  module : BitVec 12 := 0
  /-- `FWD.FX` (R33). -/
  fx : BitVec 4 := 0
  /-- `FWD.LINK` (R33). -/
  link : BitVec 3 := 0
  /-- `FWD.DIE` (R33). -/
  die : BitVec 2 := 0
  /-- `FWD.DST_STREAM` (R33). -/
  dstStream : BitVec 20 := 0
  deriving DecidableEq, Repr, Inhabited

/-- Stream context, 64 bytes (R32). -/
structure StreamCtx where
  /-- `SC.STATE` (R32). -/
  state : ScState := .invalid
  /-- `SC.SRC_REMOTE` (R32). -/
  srcRemote : Bool := false
  /-- `SC.PROD_STN` (R32). -/
  prodStn : BitVec 16 := 0
  /-- `SC.CONS_MASK` (R32). -/
  consMask : BitVec 80 := 0
  /-- `SC.FWD0` (R32). -/
  fwd0 : Fwd := {}
  /-- `SC.FWD1` (R32). -/
  fwd1 : Fwd := {}
  /-- `SC.BUF_BASE` (R32). -/
  bufBase : BitVec 21 := 0
  /-- `SC.SLOT_SIZE` (R32). -/
  slotSize : BitVec 9 := 0
  /-- `SC.SLOT_CNT_M1` (R32). -/
  slotCntM1 : BitVec 6 := 0
  /-- `SC.TSEQ_HEAD` (R32). -/
  tseqHead : BitVec 32 := 0
  /-- `SC.TSEQ_TAIL` (R32). -/
  tseqTail : BitVec 32 := 0
  /-- `SC.HOLD_MS` (R32). -/
  holdMs : BitVec 16 := 0
  /-- `SC.SR_STREAM` (R32). -/
  srStream : BitVec 32 := 0
  /-- `SC.CSEQ` (R32). -/
  cseq : BitVec 32 := 0
  /-- `SC.SYNC_EN` (R32). -/
  syncEn : Bool := false
  /-- `SC.SYNC_ID` (R32). -/
  syncId : BitVec 16 := 0
  /-- `SC.STICKY` (R32). -/
  sticky : BitVec 8 := 0
  /-- `SC.CREDITS` (R32). -/
  credits : BitVec 16 := 0
  /-- `SC.PART_CELLS` (R32). -/
  partCells : BitVec 7 := 0
  /-- `SC.HOLD_ELAPSED` (R32). -/
  holdElapsed : BitVec 16 := 0
  deriving DecidableEq, Repr, Inhabited

/-- One tile of a forward that has been sent and not acknowledged in full (R211, R212). -/
structure SentTile where
  /-- Tile number (R211). -/
  tseq : BitVec 32 := 0
  /-- Cell number of its cell 0 (R211). -/
  base : BitVec 32 := 0
  /-- Its cell count C (R211). -/
  cells : Nat := 0
  /-- Cells of it placed on the link so far (R232). -/
  placed : Nat := 0
  deriving DecidableEq, Repr, Inhabited

/-- Transmit side of a forward (R211, R212, R219, R221, R231). -/
structure FwdState where
  /-- Oldest tile not yet sent along the forward (R210). -/
  nextTile : BitVec 32 := 0
  /-- Oldest tile with which the forward has not finished (R212). -/
  doneTile : BitVec 32 := 0
  /-- Newest acknowledgement value A received (R218). -/
  ackA : BitVec 32 := 0
  /-- Tiles sent and not acknowledged in full, oldest first (R212). -/
  sent : List SentTile := []
  /-- Doublings of the resend timer since A last rose (R219). -/
  timerMult : Nat := 0
  /-- Expiries without progress (R219). -/
  expiries : Nat := 0
  /-- The resend timer runs (R219). -/
  timerOn : Bool := false
  /-- Number of the next new cell of this pair of contexts (R211). -/
  cseq : BitVec 32 := 0
  /-- Loose-mode credits held, in cells (R221). -/
  credits : BitVec 16 := 0
  /-- C_max of the receiving ring, as the newest grant gave it (R221). -/
  cmax : Nat := 0
  /-- A reset entry has come since loose mode was entered (R221). -/
  creditReset : Bool := false
  /-- STREAM_TX_STALLED has been raised for this condition (R231). -/
  stalledRaised : Bool := false
  /-- A kind 1 copy of the oldest tile is in transit (R213). -/
  copying : Bool := false
  deriving DecidableEq, Repr, Inhabited

/-- A tile in progress of a receiving context (R217). -/
structure RxTile where
  /-- Base cell number (R217). -/
  base : BitVec 32 := 0
  /-- Its cell count C (R217). -/
  cells : Nat := 0
  /-- Cell indices already placed (R217). -/
  placed : List Nat := []
  /-- Header fields its cells carry (R148). -/
  hdr : TileHdr := {}
  /-- Fabric time at which its newest cell was placed (R229). -/
  cellFt : BitVec 64 := 0
  deriving DecidableEq, Repr, Inhabited

/-- Receive side of a remote stream (R217, R218, R221, R229, R230). -/
structure RxState where
  /-- Tiles in progress, oldest first (R217). -/
  tiles : List RxTile := []
  /-- Logical link its cells arrive on, fibre × 64 + link, plus one (R218). -/
  via : Nat := 0
  /-- Credits to be granted in the next entry (R221). -/
  grant : Nat := 0
  /-- The next entry carries LA.RESET (R221). -/
  grantReset : Bool := false
  /-- Base of the broken tile, while cells of it may still come (R230). -/
  brokenBase : Option (BitVec 32) := none
  /-- Next tile's base after a break (R230). -/
  brokenEnd : BitVec 32 := 0
  /-- The next completed tile carries RESYNC (R230). -/
  resync : Bool := false
  /-- Fabric time of the last STREAM_BREAK sent (R230). -/
  breakAt : BitVec 64 := 0
  deriving DecidableEq, Repr, Inhabited

/-- Sync object (R37). -/
structure SyncObj where
  /-- `SO.SAT` (R37). -/
  sat : Bool := false
  /-- `SO.NOTIFY` (R37). -/
  notify : Bool := false
  /-- `SO.VECTOR` (R37). -/
  vector : BitVec 6 := 0
  /-- `SO.THRESH` (R37). -/
  thresh : BitVec 16 := 0
  /-- `SO.COUNT` (R37). -/
  count : BitVec 32 := 0
  deriving DecidableEq, Repr, Inhabited

/-- Trap record, 40 bytes (R61). -/
structure TrapRec where
  /-- `TRAP.BELL` (R61). -/
  bell : BitVec 64 := 0
  /-- `TRAP.WPERIOD` (R61). -/
  wperiod : BitVec 32 := 0
  /-- `TRAP.STN` (R61). -/
  stn : BitVec 16 := 0
  /-- `TRAP.INDEX` (R61). -/
  index : BitVec 16 := 0
  /-- `TRAP.ITER` (R61). -/
  iter : BitVec 16 := 0
  /-- `TRAP.OFFSET` (R61). -/
  offset : BitVec 26 := 0
  /-- `TRAP.OPC` (R61). -/
  opc : BitVec 8 := 0
  /-- `TRAP.CAUSE` (R61). -/
  cause : BitVec 16 := 0
  /-- `TRAP.DETAIL` (R61). -/
  detail : BitVec 112 := 0
  deriving DecidableEq, Repr, Inhabited

/-- An output in flight: a word that has issued and whose output is not complete (R57, R21). -/
structure Outst where
  /-- Station (R57). -/
  stn : BitVec 16 := 0
  /-- Output stream (R57). -/
  stream : BitVec 20 := 0
  /-- Tile number (R57). -/
  tseq : BitVec 32 := 0
  /-- Cc of the period at which it completes (R57). -/
  doneCc : Nat := 0
  /-- Runs still to come of a tile that is built up, 0 when none (R21). -/
  left : Nat := 0
  /-- Inputs that `IW.REL` releases when the word completes: mask bit, stream and tile (R52). -/
  rel : List (Nat × BitVec 20 × BitVec 32) := []
  /-- The word has no output tile (R57). -/
  noTile : Bool := false
  /-- `TH.FLAGS` the tile will complete with (R25). -/
  sf : BitVec 8 := 0
  /-- Index of the word (R74). -/
  idx : Nat := 0
  /-- Cc by which the word issued after its scheduled cc (R56). -/
  slip : Nat := 0
  deriving DecidableEq, Repr, Inhabited

/-- Position of a station in one entry of its binding table (R53). -/
structure BindPos where
  /-- Tile the next input use takes (R53). -/
  inNext : BitVec 32 := 0
  /-- Bursts placed of the tile an RDRUN last started (R53). -/
  bursts : Nat := 0
  /-- Tile an RDRUN last started and that is not complete (R21). -/
  building : Option (BitVec 32) := none
  /-- Flags gathered for the tile being built (R26). -/
  flags : BitVec 8 := 0
  /-- An uncorrectable burst was met: zeros to the end of the tile (R131). -/
  zeroFrom : Bool := false
  deriving DecidableEq, Repr, Inhabited

/-- One station of the loaded job (R53 to R61, R73). -/
structure StnState where
  /-- Expanded words issued in the work period (R56). -/
  pc : Nat := 0
  /-- Work period the station is executing (R73). -/
  period : Nat := 0
  /-- Cc at which each unit is free again: 1 the station's array, 2 + a link or HX channel, 100 + a sub-channel (R56). -/
  busy : List (Nat × Nat) := []
  /-- Earliest cc of the next issue: the cc after that of the last word (R56). -/
  last : Nat := 0
  /-- Cc at which its words without output have completed (R60). -/
  doneAt : Nat := 0
  /-- Index of the word without output that completes last (R74). -/
  doneIdx : Nat := 0
  /-- Its slip (R56). -/
  doneSlip : Nat := 0
  /-- Trap record, when the station has stopped at a trap (R61). -/
  trap : Option TrapRec := none
  deriving DecidableEq, Repr, Inhabited

/-- Accumulator of an MX station (R87 to R92). -/
structure MxAcc where
  /-- Open (R91). -/
  isOpen : Bool := false
  /-- Placed for XS (R90). -/
  xs : Bool := false
  /-- Rows of the output (R87). -/
  rows : Nat := 0
  /-- Columns of the output (R87). -/
  cols : Nat := 0
  /-- Floor exponent F of each output element, in row-major order (R87). -/
  floors : List Int := []
  /-- Window W with its guard bits, one per output element (R87). -/
  win : List Int := []
  /-- Special-value tag of each output element (R89). -/
  tags : List AccTag := []
  /-- Grid mode taken from the C tile (R90). -/
  gridMode : BitVec 2 := 0
  /-- Scale placement taken from the C tile (R90). -/
  gridPlace : BitVec 2 := 0
  /-- Per-tile grid of the C tile (R90). -/
  grid : BitVec 16 := 0
  /-- Per-block grid words of the C tile (R90). -/
  words : List (BitVec 16) := []
  /-- SXOVF and POISON of the inputs so far (R26). -/
  flags : BitVec 8 := 0
  deriving DecidableEq, Repr, Inhabited

/-- Accumulation of an SX station (R102 to R104). -/
structure SxAcc where
  /-- Open (R104). -/
  isOpen : Bool := false
  /-- Grid source (R102). -/
  src : BitVec 2 := 0
  /-- One grid per block (gridsrc 2) (R101). -/
  perBlock : Bool := false
  /-- H is 40 (gridsrc 2) (R101). -/
  h40 : Bool := false
  /-- A tile has been added since SUM_OPEN (R104). -/
  added : Bool := false
  /-- The EXPMAX register as SUM_OPEN found it (gridsrc 2) (R101). -/
  reg : List (BitVec 8) := []
  /-- Rows (R102). -/
  rows : Nat := 0
  /-- Columns (R102). -/
  cols : Nat := 0
  /-- Layout of the first added tile (R102). -/
  layout : BitVec 2 := 0
  /-- Block direction of the accumulation (R101). -/
  place : BitVec 2 := 0
  /-- Grid mode of its results (R101). -/
  gridMode : BitVec 2 := 0
  /-- Grid of each element, in storage order (R102). -/
  grids : List Int := []
  /-- Integer of each element, in storage order (R103). -/
  sum : List Int := []
  /-- Tag of each element (R103). -/
  tags : List AccTag := []
  /-- SXOVF and POISON of the tiles added (R26). -/
  flags : BitVec 8 := 0
  deriving DecidableEq, Repr, Inhabited

/-- A SUMPASS whose passing tile has not left in full (R105, R232). -/
structure SumRun where
  /-- Its FX (R232). -/
  stn : BitVec 16 := 0
  /-- The word (R232). -/
  word : BitVec 128 := 0
  /-- Its index (R232). -/
  index : Nat := 0
  /-- Its iteration (R232). -/
  iter : Nat := 0
  /-- Its offset (R232). -/
  off : Nat := 0
  /-- Stream of the arriving tile (R232). -/
  inStream : BitVec 20 := 0
  /-- The arriving tile (R232). -/
  inTile : BitVec 32 := 0
  /-- Stream of the passing tile (R232). -/
  stream : BitVec 20 := 0
  /-- Forward that it serves (R232). -/
  fwd : Nat := 0
  /-- The passing tile (R232). -/
  tile : BitVec 32 := 0
  /-- Its cell count (R232). -/
  cells : Nat := 0
  /-- Cells that have been added (R232). -/
  added : List Nat := []
  /-- Elements saturated so far (R106). -/
  sat : Nat := 0
  /-- SXOVF stands in an input (R106). -/
  had : Bool := false
  deriving DecidableEq, Repr, Inhabited

/-- One HX DMA channel (R57, R131). -/
structure HxCh where
  /-- A transfer is in progress (R57). -/
  busy : Bool := false
  /-- Halted on an uncorrectable error until HX_RESTART (R131). -/
  halted : Bool := false
  /-- The transfer in progress is H2D (R55). -/
  toTile : Bool := false
  /-- Tile stream of the transfer (R55). -/
  stream : BitVec 20 := 0
  /-- Tile of the transfer (R55). -/
  tseq : BitVec 32 := 0
  /-- Host address from the descriptor tile (R55). -/
  host : BitVec 64 := 0
  /-- Length from the descriptor tile (R55). -/
  len : BitVec 32 := 0
  /-- Module address from the descriptor tile, where it names one (R112). -/
  mpa : Option (BitVec 44) := none
  /-- Its descriptor could not be used (R131). -/
  bad : Bool := false
  /-- Inputs to release at the end: mask bit, stream and tile (R52). -/
  rel : List (Nat × BitVec 20 × BitVec 32) := []
  /-- Index of the word whose transfer is in progress (R74). -/
  idx : Nat := 0
  /-- Its slip (R56). -/
  slip : Nat := 0
  deriving DecidableEq, Repr, Inhabited

/-- Daybook record, 64 bytes (R398). -/
structure DbRec where
  /-- `DB.PAYLOAD`, bytes given; the rest zero (R398). -/
  payload : List (BitVec 8) := []
  /-- `DB.SUPP` (R398). -/
  supp : BitVec 16 := 0
  /-- `DB.SRC` (R398). -/
  src : BitVec 16 := 0
  /-- `DB.FLAGS` bit 0 MIRRORED (R398). -/
  mirrored : Bool := false
  /-- `DB.FLAGS` bit 1 NARROW (R398). -/
  narrow : Bool := false
  /-- `DB.FLAGS` bit 2 LASTGASP (R398). -/
  lastGasp : Bool := false
  /-- `DB.FLAGS` bit 3 PARITY (R398). -/
  parity : Bool := false
  /-- `DB.SEV` (R400). -/
  sev : BitVec 3 := 0
  /-- `DB.CODE` (R398). -/
  code : BitVec 16 := 0
  /-- `DB.ERA` (R398). -/
  era : BitVec 16 := 0
  /-- `DB.COUNT` (R398). -/
  count : BitVec 48 := 0
  deriving DecidableEq, Repr, Inhabited

/-- Token bucket of one event code (R402). -/
structure Bucket where
  /-- Tokens held (R402). -/
  tokens : Nat := 16
  /-- Burst; 0 exempts the code (R402). -/
  burst : Nat := 16
  /-- Refill per s (R402). -/
  refill : Nat := 4
  /-- Pending suppressed count (R402). -/
  supp : Nat := 0
  deriving DecidableEq, Repr, Inhabited

/-- Sequence checkpoint copy in MRAM (R403). -/
structure Ckpt where
  /-- Its CRC is good (R403). -/
  valid : Bool := true
  /-- Era (R403). -/
  era : BitVec 16 := 0
  /-- Ceiling, or the exact next count when closed (R403). -/
  count : BitVec 48 := 0
  /-- CLOSED (R403). -/
  closed : Bool := true
  deriving DecidableEq, Repr, Inhabited

/-- The Daybook (R398 to R412). -/
structure Daybook where
  /-- Era in force, in the always-on domain (R401). -/
  era : BitVec 16 := 0
  /-- Next count, in the always-on domain (R401). -/
  count : BitVec 48 := 0
  /-- SRAM ring, oldest first (R404). -/
  ring : List DbRec := []
  /-- MRAM mirror, oldest first (R404). -/
  mirror : List DbRec := []
  /-- Last-gasp bank, oldest first (R404). -/
  bank : List DbRec := []
  /-- Records waiting for the mirror (R377). -/
  mirrorQ : List DbRec := []
  /-- Drop counter of the ring (R405). -/
  ringDrop : BitVec 32 := 0
  /-- Drop counter of the mirror, in MRAM (R405). -/
  mirrorDrop : BitVec 32 := 0
  /-- Drop counter of the bank (R405). -/
  bankDrop : BitVec 32 := 0
  /-- Token buckets by event code (R402). -/
  buckets : List (Nat × Bucket) := []
  /-- Checkpoint copy A (R403). -/
  ckptA : Ckpt := {}
  /-- Checkpoint copy B (R403). -/
  ckptB : Ckpt := {}
  /-- Copy B is the newer (R403). -/
  ckptNewerB : Bool := false
  /-- Narrow mode (R410). -/
  narrow : Bool := false
  /-- The ring has failed (R409). -/
  ringFailed : Bool := false
  /-- Mirror out of service (R410). -/
  mirrorOut : Bool := false
  /-- Ranges whose mirror records await the background erase (R407). -/
  erase : List (Nat × Nat) := []
  /-- Records held by their sources during an SV restart (R412). -/
  srcHeld : List DbRec := []
  /-- The SV restart of a warm start is in progress, so records are held by their sources (R412). -/
  svDown : Bool := false
  deriving DecidableEq, Repr, Inhabited

/-- What a reply needs of the packet it answers (R337, R344). -/
structure PktRef where
  /-- `PK.SEQ`, or the list index (R337). -/
  seq : BitVec 32 := 0
  /-- `PK.TAG` (R337). -/
  tag : BitVec 16 := 0
  /-- `PK.OPCODE` (R337). -/
  opcode : BitVec 16 := 0
  /-- `PK.FLAGS.IRQ` (R337). -/
  irq : Bool := false
  /-- The packet came from a list (R344). -/
  list : Bool := false
  deriving DecidableEq, Repr, Inhabited

/-- A packet taken and without its final reply (R335, R340). -/
structure Held where
  /-- Its header fields (R335). -/
  ref : PktRef := {}
  /-- `PK.FLAGS.FENCE` (R340). -/
  fence : Bool := false
  /-- `PK.LEVEL`: expert (R337). -/
  level : Bool := false
  /-- `PK.TARGET` (R337). -/
  target : BitVec 8 := 0
  /-- Parameter bytes, padding and trailer included (R339). -/
  params : List (BitVec 8) := []
  /-- It has begun (R340). -/
  begun : Bool := false
  /-- It has sent its first reply (R340). -/
  replied : Bool := false
  /-- It had begun at an FLR, and its replies are discarded (R328). -/
  mute : Bool := false
  deriving DecidableEq, Repr, Inhabited

/-- A reply waiting to be written (R344). -/
structure Reply where
  /-- The packet answered (R344). -/
  ref : PktRef := {}
  /-- `RP.STATUS` (R344). -/
  status : BitVec 16 := 0
  /-- `RP.KIND` 1 (R344). -/
  interim : Bool := false
  /-- `RP.PTR` (R344). -/
  ptr : Bool := false
  /-- `RP.DATA` (R344). -/
  data : List (BitVec 8) := []
  deriving DecidableEq, Repr, Inhabited

/-- An event push waiting to be written (R345, R347). -/
structure Push where
  /-- The record pushed (R347). -/
  record : DbRec := {}
  /-- The copy of DAYBOOK_STORE_FAIL that is exempt from dropping (R409). -/
  sure : Bool := false
  deriving DecidableEq, Repr, Inhabited

/-- MSI-X table entry (R327, R329, R352). -/
structure MsixEntry where
  /-- Message address (R329). -/
  addr : BitVec 64 := 0
  /-- Message data (R329). -/
  data : BitVec 32 := 0
  /-- Vector control, bit 0 the mask (R329). -/
  ctl : BitVec 32 := 1
  deriving DecidableEq, Repr, Inhabited

/-- An EXECUTE_LIST being taken (R342, R343). -/
structure ListRun where
  /-- The EXECUTE_LIST packet (R342). -/
  ref : PktRef := {}
  /-- List bytes not yet taken (R342). -/
  left : List (BitVec 8) := []
  /-- K of the next list packet (R342). -/
  index : Nat := 0
  /-- The stop parameter (R343). -/
  stop : Bool := false
  /-- The fetch ended in an error after the bytes that came (R343). -/
  fetchErr : Bool := false
  /-- Packets taken (R355). -/
  taken : Nat := 0
  /-- Packets refused (R355). -/
  refused : Nat := 0
  /-- Taking has ended, with this status (R343). -/
  ended : Option (BitVec 16) := none
  deriving DecidableEq, Repr, Inhabited

/-- An access to LPDDR that waits for the host port (R119, R333). -/
structure PortAcc where
  /-- 0 BAR2 read, 1 BAR2 write, 2 MEM_READ, 3 MEM_WRITE or MEM_FILL, 4 an aged merge entry (R119). -/
  kind : Nat := 0
  /-- Module address of its first byte; of an aged entry, its code word (R112). -/
  mpa : Nat := 0
  /-- Its bytes (R355). -/
  len : Nat := 0
  /-- The bytes to write, repeated as far as the length goes (R355). -/
  data : List (BitVec 8) := []
  /-- Bytes accessed so far (R119). -/
  done : Nat := 0
  /-- Bytes read so far (R333). -/
  got : List (BitVec 8) := []
  /-- The packet that it answers (R355). -/
  ref : PktRef := {}
  /-- Host address of MEM_READ (R355). -/
  host : Nat := 0
  /-- Its reply counts in 8 bytes (R355). -/
  wide : Bool := false
  deriving DecidableEq, Repr, Inhabited

/-- Host interface (R327 to R352). -/
structure HostIf where
  /-- The PCIe link is up (R327). -/
  pcieUp : Bool := false
  /-- Aperture lines written and not taken (R334). -/
  apLines : List (Nat × List (BitVec 8)) := []
  /-- `HI_APERTURE.EXPECT_SEQ` (R332). -/
  expectSeq : BitVec 32 := 0
  /-- `HI_APERTURE.HALT` (R332). -/
  halt : Bool := false
  /-- `HI_APERTURE.CONSUME` (R332). -/
  consume : BitVec 14 := 0
  /-- `HI_APERTURE.FREE` (R332). -/
  free : BitVec 15 := 16384
  /-- Lines freed since the previous reply record (R335). -/
  credit : BitVec 16 := 0
  /-- `HI_RING_BASE` (R331). -/
  ringBase : BitVec 64 := 0
  /-- `HI_RING_CFG.EN` (R332). -/
  ringEn : Bool := false
  /-- `HI_RING_CFG.SIZE` (R332). -/
  ringSize : BitVec 5 := 12
  /-- `HI_RING_PROD` (R331). -/
  prod : BitVec 32 := 0
  /-- `HI_RING_CONS` (R331). -/
  cons : BitVec 32 := 0
  /-- `RP.PHASE` of the pass in progress (R345). -/
  phase : Bool := true
  /-- `HI_IRQ_MOD.TIME` (R332). -/
  irqTime : BitVec 16 := 0
  /-- `HI_IRQ_MOD.COUNT` (R332). -/
  irqCount : BitVec 10 := 1
  /-- `HI_EVENT_PUSH.DROPPED` (R332). -/
  dropped : BitVec 16 := 0
  /-- `HI_EVENT_PUSH.URGENT` (R332). -/
  urgent : BitVec 3 := 3
  /-- `HI_EVENT_PUSH.PUSH` (R332). -/
  push : BitVec 3 := 0
  /-- `HI_LATCH.REMAIN` (R332). -/
  latchRemain : BitVec 16 := 0
  /-- `HI_LATCH.GROUPS`, bit g for group g (R332). -/
  latchGroups : BitVec 12 := 0
  /-- `HI_BAR2_WIN.WIN` (R331). -/
  bar2Win : BitVec 8 := 0
  /-- MSI-X table (R329). -/
  msix : List (Nat × MsixEntry) := []
  /-- MSI-X pending-bit array (R329). -/
  pba : BitVec 64 := 0
  /-- Packets taken and without their final reply, in the order taken (R335). -/
  held : List Held := []
  /-- Replies waiting to be written, oldest first (R345). -/
  replies : List Reply := []
  /-- Event pushes due, oldest first (R347). -/
  pushes : List Push := []
  /-- Records written since vector 0 was last raised (R351). -/
  unsig : Nat := 0
  /-- REPLY_RING_FULL has been raised for this filling (R345). -/
  fullRaised : Bool := false
  /-- The packet list in progress (R342). -/
  lists : Option ListRun := none
  /-- Latched high half of FT_NOW (R451). -/
  ftLatch : BitVec 32 := 0
  /-- A latched high half of FT_NOW waits (R451). -/
  ftLatched : Bool := false
  /-- Latched high half of PPS_IN_TS (R451). -/
  ppsLatch : BitVec 32 := 0
  /-- A latched high half of PPS_IN_TS waits (R451). -/
  ppsLatched : Bool := false
  /-- Current nonce (R348). -/
  nonce : Option (BitVec 256) := none
  /-- Service cycle at which the nonce was given (R348). -/
  nonceAt : Nat := 0
  /-- Count of nonces given (R348). -/
  nonceCtr : Nat := 0
  /-- Accesses to LPDDR that wait for their host port, oldest first (R119). -/
  hostPort : List PortAcc := []
  /-- Posted writes to BAR0 that a waiting BAR2 write holds back: offset and bytes, oldest first (R333). -/
  heldWrites : List (Nat × List (BitVec 8)) := []
  deriving DecidableEq, Repr, Inhabited

/-- Sideband signals and board-management values (R436, R438). -/
structure Pins where
  /-- `BM_VIN`, 0.1 V (R438). -/
  vin : BitVec 16 := 0
  /-- `BM_IIN`, 0.1 A (R438). -/
  iin : BitVec 16 := 0
  /-- `BM_COOL` inlet, 0.1 °C (R438). -/
  coolIn : BitVec 16 := 0
  /-- `BM_COOL` outlet, 0.1 °C (R438). -/
  coolOut : BitVec 16 := 0
  /-- `BM_TJMAX` (R438). -/
  tjMax : BitVec 16 := 0x8000
  /-- `BM_ALERT`; ALERT_N is low while it is not zero (R438). -/
  alert : BitVec 8 := 0
  /-- PERST# is asserted (R436). -/
  perst : Bool := false
  /-- REFCLK100 is present (R436). -/
  refclk : Bool := true
  /-- WAKE# is asserted (R436). -/
  wake : Bool := false
  /-- THERMTRIP_N is asserted (R436). -/
  thermtrip : Bool := false
  /-- PWR_GOOD is high (R436). -/
  pwrGood : Bool := false
  /-- PPS_OUT pulses driven since reset (R254). -/
  ppsOutSecs : Nat := 0
  /-- Pulses driven on each BELLk_OUT (R249). -/
  bellPulses : List (Nat × Nat) := []
  /-- PPS_OUT and BELLk_OUT drive their inactive level (R443). -/
  pinsDriven : Bool := false
  deriving DecidableEq, Repr, Inhabited

/-- Supply, power states and limits (R374 to R397). -/
structure Power where
  /-- The always-on domain is powered (R374). -/
  aon : Bool := false
  /-- Power state (R378). -/
  ps : PState := .off
  /-- After POWER_FAIL, the always-on domain runs from its own store (R375). -/
  holdUp : Bool := false
  /-- End of the power-state transition in progress (R380). -/
  target : Option PState := none
  /-- SET_POWER_STATE packet that waits for it (R380). -/
  targetPkt : Option PktRef := none
  /-- Input below the SAG_WARN band (R374). -/
  sag : Bool := false
  /-- MRAM writes are inhibited (R377). -/
  nvInhibit : Bool := false
  /-- NV_WRITE_INHIBIT has been raised in this inhibit (R377). -/
  nvRaised : Bool := false
  /-- Cause of the last POWER_FAIL: 1 undervoltage, 2 overvoltage (R375). -/
  failCause : BitVec 8 := 0
  /-- A POWER_FAIL took place since the last start (R448). -/
  failSeen : Bool := false
  /-- SV runs on its internal oscillator (R383). -/
  intOsc : Bool := false
  /-- Issue throttle in force (R393). -/
  throttle : Bool := false
  /-- Its cause: 1 junction, 2 current (R393). -/
  throttleWhy : BitVec 8 := 0
  /-- Its die (R393). -/
  throttleDie : BitVec 8 := 0
  /-- Compute cores powered off by a thermal trip (R394). -/
  coreOff : Bool := false
  /-- Power cap, W (R387). -/
  capW : BitVec 16 := 3400
  /-- Input-current limit, A (R387). -/
  capA : BitVec 8 := 100
  /-- Power cap held in MRAM (R387). -/
  nvCapW : BitVec 16 := 3400
  /-- Input-current limit held in MRAM (R387). -/
  nvCapA : BitVec 8 := 100
  /-- Withdrawn points: (die × 4 + point, passes since withdrawal) (R385). -/
  oppOff : List (Nat × Nat) := []
  /-- Dies that failed at 1.60 GHz (R385). -/
  dieOut : List Nat := []
  /-- Service cycle at which the transition began (R380). -/
  stageMs : Nat := 0
  deriving DecidableEq, Repr, Inhabited

/-- Boot registers and the start in progress (R356 to R373). -/
structure Boot where
  /-- `BOOT_STATUS.STAGE` (R358). -/
  stage : BitVec 4 := 0
  /-- `BOOT_STATUS.KIND` (R358). -/
  kind : BitVec 2 := 0
  /-- `BOOT_STATUS.COLD_FAILS` (R358). -/
  coldFails : BitVec 2 := 0
  /-- `BOOT_STATUS.WARM_FAILS` (R358). -/
  warmFails : BitVec 2 := 0
  /-- `BOOT_STATUS.CAUSE` (R358). -/
  cause : BitVec 6 := 0
  /-- `BOOT_STATUS.LAST_FAIL` (R358). -/
  lastFail : BitVec 8 := 0
  /-- `BOOT_STATUS.FW_REFUSE` (R358). -/
  fwRefuse : BitVec 4 := 0
  /-- `BOOT_STATUS.SIG` (R358). -/
  sig : BitVec 2 := 0
  /-- `BOOT_STATUS.TRAIN_FAILED` (R358). -/
  trainFailed : BitVec 16 := 0
  /-- Service cycle at which the start began; ELAPSED_MS counts from it (R358). -/
  startSc : Nat := 0
  /-- Ms the start took, once it has ended (R358). -/
  endMs : Option Nat := none
  /-- `BOOT_CTL.PERST_WARM` (R359). -/
  perstWarm : Bool := false
  /-- `BOOT_CTL.COMB_HOLD` (R359). -/
  combHold : Bool := false
  /-- `BOOT_FW_ADDR` (R359). -/
  fwAddr : BitVec 64 := 0
  /-- `BOOT_FW_LEN` (R359). -/
  fwLen : BitVec 32 := 0
  /-- A firmware fetch is in progress (R359). -/
  fetching : Bool := false
  /-- The firmware has reported that it is running (R362). -/
  fwRunning : Bool := false
  /-- The firmware has stopped after FIRMWARE_FATAL (R400). -/
  fwFatal : Bool := false
  /-- A start is in progress (R356). -/
  starting : Bool := false
  /-- Kind of the failed start that awaits its retry (R369). -/
  failedKind : Option (BitVec 2) := none
  /-- PERST# is asserted with warm intent (R356). -/
  perstIntent : Bool := false
  /-- The warm start in progress came from PERST# (R367). -/
  warmPerst : Bool := false
  /-- Channels trained in full in this start (R373). -/
  fullTrained : BitVec 16 := 0
  /-- Bell rings whose SV actions wait for step 7 (R371). -/
  elapsedPkt : List Nat := []
  deriving DecidableEq, Repr, Inhabited

/-- Identity and profiles (R1, R43 to R46, R449, R450). -/
structure Ident where
  /-- `ID_MODULE.ID` (R449). -/
  idField : BitVec 12 := 0xFFF
  /-- `ID_MODULE.ASSIGNED` (R449). -/
  assigned : Bool := false
  /-- `ID_MODULE.STORED` (R449). -/
  stored : Bool := true
  /-- Identifier held in MRAM (R450). -/
  nvId : BitVec 12 := 0xFFF
  /-- ASSIGNED held in MRAM (R450). -/
  nvAssigned : Bool := false
  /-- Identifier in effect since the last transition to Lit (R450). -/
  active : BitVec 12 := 0xFFF
  /-- Stations the module profile lists as unavailable (R44). -/
  unavail : List (BitVec 16) := []
  /-- Post-package repairs done (R44). -/
  pprDone : List Nat := []
  deriving DecidableEq, Repr, Inhabited

/-- One link of the fabric profile (R45). -/
structure FabLink where
  /-- Transmitting module (R45). -/
  a : BitVec 12 := 0
  /-- Its fibre (R45). -/
  aFibre : BitVec 4 := 0
  /-- Receiving module (R45). -/
  b : BitVec 12 := 0
  /-- Its fibre (R45). -/
  bFibre : BitVec 4 := 0
  /-- Link number (R45). -/
  link : BitVec 3 := 0
  /-- Lane width (R45). -/
  width : Nat := 32
  /-- FEC mode: Light (R45). -/
  light : Bool := false
  /-- Latency budget (R45). -/
  budget : Nat := 0
  /-- Path tag of the physical link that carries it (R214). -/
  tag : BitVec 10 := 0
  deriving DecidableEq, Repr, Inhabited

/-- Fabric profile (R45). -/
structure FabProf where
  /-- Module list (R45). -/
  modules : List (BitVec 12) := []
  /-- Every link (R45). -/
  links : List FabLink := []
  /-- Cell time T_cell in 1/64 ns (R45). -/
  tCell : Nat := 2725
  /-- `NOTICE_BOUND_NS` (R45). -/
  noticeBoundNs : Nat := 0
  deriving DecidableEq, Repr, Inhabited

/-- Logical link of this module and its binding (R214, R215). -/
structure LogLink where
  /-- Logical fibre (R214). -/
  fibre : BitVec 4 := 0
  /-- Logical link number (R214). -/
  link : BitVec 3 := 0
  /-- Peer module (R214). -/
  peer : BitVec 12 := 0
  /-- Path tag (R214). -/
  tag : BitVec 10 := 0
  /-- Transmit side (R214). -/
  tx : Bool := true
  /-- FEC mode (R214). -/
  light : Bool := false
  /-- Latency budget (R214). -/
  budget : Nat := 0
  /-- Width (R215). -/
  width : Nat := 32
  /-- Bound to a physical link (R215). -/
  bound : Bool := true
  /-- Physical fibre (R215). -/
  pFibre : BitVec 4 := 0
  /-- Physical link number (R215). -/
  pLink : BitVec 6 := 0
  /-- Lines of the physical link that a plan took from it, until it is carried again (R215). -/
  was : List Nat := []
  deriving DecidableEq, Repr, Inhabited

/-- Profiles in force (R43 to R46, R214, R225). -/
structure Profiles where
  /-- Fabric profile in force (R46). -/
  fab : Option FabProf := none
  /-- Its canonical byte image (R43). -/
  fabImage : List (BitVec 8) := []
  /-- Its identifier, 0 when none is installed (R43). -/
  fabId : BitVec 384 := 0
  /-- Logical links of this module and their bindings (R214). -/
  logLinks : List LogLink := []
  deriving DecidableEq, Repr, Inhabited

/-- Binding table entry (R464). -/
structure Binding where
  /-- Stream identifier (R464). -/
  stream : BitVec 20 := 0
  /-- Format code (R464). -/
  format : BitVec 8 := 0
  /-- Layout (R464). -/
  layout : BitVec 2 := 0
  /-- Scale placement (R464). -/
  scalePlace : BitVec 2 := 0
  /-- Grid mode (R464). -/
  gridMode : BitVec 2 := 0
  /-- Rows minus one (R464). -/
  rowsM1 : BitVec 9 := 0
  /-- Columns minus one (R464). -/
  colsM1 : BitVec 9 := 0
  deriving DecidableEq, Repr, Inhabited

/-- Recess window (R67). -/
structure RecessWin where
  /-- Station (R67). -/
  stn : BitVec 16 := 0
  /-- Kind 1 to 3 (R67). -/
  kind : BitVec 16 := 0
  /-- Start offset in cc (R67). -/
  start : Nat := 0
  /-- Length in cc (R67). -/
  len : Nat := 0
  deriving DecidableEq, Repr, Inhabited

/-- Fast-plane slot table (R206). -/
structure SlotTable where
  /-- `FS.NSLOT` (R206). -/
  nslot : Nat := 0
  /-- Configuration entries (R206). -/
  confs : List (BitVec 512) := []
  /-- Configuration index of each slot (R206). -/
  slots : List Nat := []
  deriving DecidableEq, Repr, Inhabited

/-- Power-profile phase (R460). -/
structure PowerPhase where
  /-- Start offset in cc (R460). -/
  start : Nat := 0
  /-- Power of C0 to C3 in 0.5 W (R460). -/
  c : List Nat := []
  /-- LPDDR (R460). -/
  lpddr : Nat := 0
  /-- Photonics (R460). -/
  photonics : Nat := 0
  deriving DecidableEq, Repr, Inhabited

/-- Rote table seed entry (R460). -/
structure RoteSeed where
  /-- Engine (R460). -/
  engine : Nat := 0
  /-- Rote slot (R460). -/
  slot : Nat := 0
  /-- Bin values (R460). -/
  bins : List (BitVec 18) := []
  deriving DecidableEq, Repr, Inhabited

/-- A Timetable image as the module reads it (R47, R48, R460, R464). -/
structure Image where
  /-- `GTT.VERSION` (R47). -/
  version : BitVec 16 := 0
  /-- `GTT.MODULE` (R47). -/
  module : BitVec 16 := 0
  /-- `GTT.MPROF` (R47). -/
  mprof : BitVec 384 := 0
  /-- `GTT.FPROF` (R47). -/
  fprof : BitVec 384 := 0
  /-- `GTT.OPPOINT` (R47). -/
  oppoint : BitVec 8 := 0
  /-- `GTT.MEM_TCEIL` (R47). -/
  memTceil : BitVec 8 := 0
  /-- `GTT.STRETCH_LEAD` (R47). -/
  stretchLead : BitVec 16 := 0
  /-- `GTT.PERIOD_NS` (R47). -/
  periodNs : BitVec 32 := 0
  /-- `GTT.STRETCH_NS` (R47). -/
  stretchNs : BitVec 32 := 0
  /-- `GTT.END_CC` (R47). -/
  endCc : BitVec 32 := 0
  /-- `GTT.PERIOD_COUNT` (R47). -/
  periodCount : BitVec 64 := 0
  /-- Station programs (R48). -/
  programs : List (BitVec 16 × List (BitVec 128)) := []
  /-- Binding tables (R48). -/
  binds : List (BitVec 16 × List Binding) := []
  /-- Stream context table (R48). -/
  ctxs : List (BitVec 20 × StreamCtx) := []
  /-- Sync object table (R48). -/
  syncs : List (BitVec 16 × SyncObj) := []
  /-- Housekeeping tracks (R48). -/
  house : List (BitVec 16 × List (BitVec 128)) := []
  /-- Recess window table (R48). -/
  recess : List RecessWin := []
  /-- Fast-plane slot table (R48). -/
  slots : Option SlotTable := none
  /-- Power profile (R48). -/
  phases : List PowerPhase := []
  /-- A power-profile section is present (R48). -/
  hasPower : Bool := false
  /-- Rote table seed (R48). -/
  rote : List RoteSeed := []
  /-- SHA-384 of the whole image (R69). -/
  digest : BitVec 384 := 0
  deriving DecidableEq, Repr, Inhabited

/-- A stretch request of one module (R64). -/
structure StretchReq where
  /-- Requester (R64). -/
  module : BitVec 12 := 0
  /-- First stretched Bell count (R64). -/
  first : Nat := 0
  /-- First unstretched Bell count, once its unstretch notice has come (R64). -/
  close : Option Nat := none
  deriving DecidableEq, Repr, Inhabited

/-- The loaded job (R47 to R74, R388 to R390). -/
structure Job where
  /-- Job state (R70). -/
  st : JobSt := .noJob
  /-- Job number (R48). -/
  number : BitVec 64 := 0
  /-- SR seed (R81). -/
  seed : BitVec 64 := 0
  /-- Loaded image (R47). -/
  image : Option Image := none
  /-- T0 (R51). -/
  t0 : BitVec 64 := 0
  /-- Fabric time of the newest period Bell (R51). -/
  tb : BitVec 64 := 0
  /-- The Bell grid runs (R51). -/
  gridOn : Bool := false
  /-- Bell count b (R51). -/
  bell : Nat := 0
  /-- Work period w (R51). -/
  wper : Nat := 0
  /-- The period at hand is stretched (R63). -/
  stretched : Bool := false
  /-- Accepted start: loose, and the packet that waits for T0 (R51). -/
  startReq : Option (Bool × PktRef) := none
  /-- Accepted holds: names a work period, value, deferred, packet (R70). -/
  holds : List (Bool × Nat × Bool × PktRef) := []
  /-- JOB_LOAD packet that waits for Running (R380). -/
  loadPkt : Option PktRef := none
  /-- JOB_UNLOAD packet that waits for Lit (R380). -/
  unloadPkt : Option PktRef := none
  /-- Strict resume in CATCHUP: T_r and W (R70). -/
  resumeReq : Option (BitVec 64 × Nat) := none
  /-- Stations that have trapped since the last STATION_TRAP records (R61). -/
  newTraps : List (BitVec 16) := []
  /-- A late stretch notice has come (R65). -/
  late : Bool := false
  /-- A thermal trip has come (R394). -/
  tripped : Bool := false
  /-- Reason bits of the last entry to HELD (R71). -/
  reasons : BitVec 8 := 0
  /-- HELD by a trap, a warm start or a thermal trip: cannot be resumed (R61). -/
  noResume : Bool := false
  /-- Open stretch requests (R64). -/
  reqs : List StretchReq := []
  /-- This module's request is open (R388). -/
  ownReq : Bool := false
  /-- Consecutive unstretched periods that ended with the allowance below P_m (R388). -/
  below : Nat := 0
  /-- Consecutive Bells at which the allowance covered 1.05 × P_u (R389). -/
  above : Nat := 0
  /-- Consecutive stretched periods that ended above the allowance (R389). -/
  unmet : Nat := 0
  /-- Latest completion of the period's work, from the period Bell (R62). -/
  latest : Nat := 0
  /-- Largest slip of the period (R56). -/
  slipMax : Nat := 0
  /-- STRICT periods since load (R273). -/
  strictPeriods : Nat := 0
  /-- Period 0 has started (R51). -/
  first : Bool := false
  /-- Phase selected on each engine (R274). -/
  pphase : List (Nat × Nat) := []
  /-- Next fast-plane slot (R202). -/
  slot : Nat := 0
  /-- Fast-plane slot in progress: Bell count and slot (R204). -/
  slotOn : Option (Nat × Nat) := none
  /-- Housekeeping words issued in the period, by station (R66). -/
  hkPc : List (Nat × Nat) := []
  deriving DecidableEq, Repr, Inhabited

/-- Stations, their accumulators and channels. -/
structure Stations where
  /-- Stations by identifier (R56). -/
  st : List (Nat × StnState) := []
  /-- Binding positions, by station × 64 + entry (R53). -/
  bind : List (Nat × BindPos) := []
  /-- Outputs in flight, oldest first (R57). -/
  outst : List Outst := []
  /-- MX accumulators, by station × 4 + acc (R87). -/
  mx : List (Nat × MxAcc) := []
  /-- SX accumulations, by station × 4 + acc (R104). -/
  sx : List (Nat × SxAcc) := []
  /-- EXPMAX register of each SX, by station (R100). -/
  expmax : List (Nat × List (BitVec 8)) := []
  /-- HX channels, by die × 16 + channel (R57). -/
  hx : List (Nat × HxCh) := []
  deriving DecidableEq, Repr, Inhabited

/-- Stream contexts and the two sides of their hops. -/
structure Streams where
  /-- Stream contexts by identifier (R32). -/
  ctx : List (Nat × StreamCtx) := []
  /-- Next tile each consumer releases, by stream × 128 + bit (R29). -/
  rel : List (Nat × BitVec 32) := []
  /-- Forwards, by stream × 2 + entry (R211). -/
  fwd : List (Nat × FwdState) := []
  /-- Receiving contexts by identifier (R217). -/
  rx : List (Nat × RxState) := []
  /-- Receiving contexts that owe a LINK_ACK entry, oldest change first (R218). -/
  ackQ : List Nat := []
  /-- Duplicates counted since the last record, by stream (R217). -/
  dup : List (Nat × Nat) := []
  /-- SUMPASS words in progress, oldest first (R232). -/
  sums : List SumRun := []
  /-- CELL_NO_SLOT counted since the last record, by stream (R217). -/
  noSlot : List (Nat × Nat) := []
  /-- Cells discarded since the last CELL_CRC_ERROR, by fibre × 64 + link (R149). -/
  crcErr : List (Nat × Nat) := []
  deriving DecidableEq, Repr, Inhabited

/-- Row remap entry (R135). -/
structure RowRemap where
  /-- Bank key: (channel × 2 + sub-channel) × 16 + bank (R135). -/
  bank : Nat := 0
  /-- Row replaced (R135). -/
  row : Nat := 0
  /-- Spare row index 0 to 15 (R135). -/
  spare : Nat := 0
  deriving DecidableEq, Repr, Inhabited

/-- Merge-buffer entry (R127). -/
structure MergeEnt where
  /-- Code-word address (R127). -/
  key : Nat := 0
  /-- Bytes written (R127). -/
  mask : BitVec 32 := 0
  /-- Bytes (R127). -/
  bytes : List (BitVec 8) := []
  /-- Order of entry, for age (R127). -/
  seq : Nat := 0
  deriving DecidableEq, Repr, Inhabited

/-- LPDDR command timing of a sub-channel: open rows and the earliest cc of the next commands (R58). -/
structure LpT where
  /-- Open row of each bank, plus one (R109). -/
  open_ : List (Nat × Nat) := []
  /-- Row that a bank's last ACT opened, plus one: the row to re-activate after a refresh (R66). -/
  want : List (Nat × Nat) := []
  /-- Earliest next ACT or refresh of each bank (R57). -/
  bankAt : List (Nat × Nat) := []
  /-- Earliest next run of each bank (R57). -/
  colAt : List (Nat × Nat) := []
  /-- Earliest next precharge of each bank (R57). -/
  preAt : List (Nat × Nat) := []
  /-- Earliest next run on the sub-channel (R57). -/
  busAt : Nat := 0
  /-- Earliest next read run after a write run (R44). -/
  rdAt : Nat := 0
  /-- Earliest next ACT of any bank (R44). -/
  actAt : Nat := 0
  /-- End of the all-bank refresh (R57). -/
  refAt : Nat := 0
  /-- Cc of the last four ACTs, newest first (R44). -/
  acts : List Nat := []
  deriving DecidableEq, Repr, Inhabited

/-- State of one sub-channel (R125, R129, R130). -/
structure SubCh where
  /-- Open rows and command timing (R58). -/
  t : LpT := {}
  /-- Degraded mark (R125). -/
  degraded : Bool := false
  /-- Its first uncorrectable burst has occurred (R125). -/
  uncSeen : Bool := false
  /-- Corrected symbols of the 1 s window: pin, service cycle; a pin's 16-bit count is theirs (R125). -/
  pins : List (Nat × Nat) := []
  /-- Scrub position: (bank × 98,304 + row) × 64 + column block (R130). -/
  scrub : Nat := 0
  /-- Service cycle at which this pass began (R130). -/
  scrubAt : Nat := 0
  /-- Corrected in this pass (R130). -/
  scrubCor : Nat := 0
  /-- Uncorrectable in this pass (R130). -/
  scrubUnc : Nat := 0
  /-- Emergency refreshes due (R129). -/
  emDue : Nat := 0
  /-- Refreshes issued since reset (R128). -/
  refs : Nat := 0
  deriving DecidableEq, Repr, Inhabited

/-- Package and MM state (R129, R136). -/
structure Pkg where
  /-- Last temperature reading (R129). -/
  temp : Int := 0
  /-- The last reading lies above the limit (R129). -/
  hot : Bool := false
  /-- The doubled emergency rate is in force (R129). -/
  double_ : Bool := false
  /-- Emergency refreshes inserted since the last record (R129). -/
  inserted : Nat := 0
  deriving DecidableEq, Repr, Inhabited

/-- LPDDR6 memory (R109 to R139). -/
structure MemSys where
  /-- Stored symbols: byte 36 × burst number + symbol (R122). -/
  cells : List (Nat × BitVec 8) := []
  /-- Interleave key in force (R115). -/
  ikey : BitVec 64 := 0
  /-- Row remap tables, in MRAM (R135). -/
  remaps : List RowRemap := []
  /-- Retired channels, in MRAM (R137). -/
  retired : List Nat := []
  /-- Channels held out for this power-up (R364). -/
  heldOut : List Nat := []
  /-- Training values that MRAM holds: channel, and the package's identity as saved (R364). -/
  trained : List (Nat × BitVec 64) := []
  /-- Sub-channels, by channel × 2 + sub-channel (R109). -/
  sub : List (Nat × SubCh) := []
  /-- Packages (R109). -/
  pkg : List (Nat × Pkg) := []
  /-- Distinct uncorrectable bursts of the 24 h: burst number, service cycle (R137). -/
  distinct : List (Nat × Nat) := []
  /-- Corrected since the last MEM_CORRECTED record (R139). -/
  corSince : Nat := 0
  /-- LPDDR merge buffers, oldest first (R127). -/
  merge : List MergeEnt := []
  /-- Entries made so far (R127). -/
  mergeSeq : Nat := 0
  /-- Bursts of the 1 ms window, by (source × 256 + channel) (R118). -/
  hot : List (Nat × Nat) := []
  /-- Service cycle of each source's last CHANNEL_HOTSPOT, plus one (R118). -/
  hotAt : List (Nat × Nat) := []
  /-- LPDDR is in self-refresh (R128). -/
  selfRef : Bool := true
  /-- The MMs refresh by themselves (R128). -/
  idleRef : Bool := false
  /-- Zero-fill has ended in this start (R138). -/
  filled : Bool := false
  /-- Service cycle at which the fill of this start began (R138). -/
  fillAt : Nat := 0
  /-- Remap requests held until unload: remove, bank key, row (R135). -/
  deferred : List (Bool × Nat × Nat) := []
  /-- Post-package repairs in progress (R136). -/
  ppr : List (RowRemap × PktRef) := []
  /-- Soft repair map in MRAM, by die × 256 + index (R134). -/
  soft : List (Nat × BitVec 32) := []
  /-- Field fuse words, by die × 32 + word (R134). -/
  fuses : List (Nat × BitVec 32) := []
  /-- Repairs applied at the last cold start: entry, die (R133). -/
  applied : List (BitVec 32 × Nat) := []
  /-- Excluded tile-store macros, die × 1024 + macro (R133). -/
  excluded : List Nat := []
  /-- Host-port access sequences issued since reset (R119). -/
  hostSeqs : Nat := 0
  deriving DecidableEq, Repr, Inhabited

/-- Tile store and the SRAMs beside it (R111, R126). -/
structure TileStore where
  /-- Data bytes, by die × 2²⁹ + offset (R112). -/
  cells : List (Nat × BitVec 8) := []
  /-- Code words whose stored check bits do not agree, by word address (R126). -/
  marks : List (Nat × SramKind) := []
  /-- SRAM merge buffers, oldest first (R127). -/
  merge : List MergeEnt := []
  deriving DecidableEq, Repr, Inhabited

/-- Comb source (R140, R141, R294). -/
structure Comb where
  /-- Lit (R140). -/
  lit : Bool := false
  /-- Frequency-locked (R141). -/
  locked : Bool := false
  /-- It has lost lock or power (R141). -/
  failed : Bool := false
  /-- `KOP.DRIVE` (R294). -/
  drive : BitVec 16 := 0
  /-- `KOP.CAVITY` (R294). -/
  cavity : BitVec 16 := 0
  /-- `KOP.TUNE` (R294). -/
  tune : BitVec 16 := 0
  /-- `KOP.TEMP` (R294). -/
  temp : BitVec 16 := 0
  /-- `KOP.VALID` (R294). -/
  valid : Bool := false
  deriving DecidableEq, Repr, Inhabited

/-- Data lane of a fibre: LANE_STATE and the frame-header fields it sends (R153, R158). -/
structure Lane where
  /-- `FH.ROLE` (R153). -/
  role : LaneRole := .unassigned
  /-- `LANE_STATE.SPARE` (R158). -/
  spare : Bool := false
  /-- `LANE_STATE.SUBST` (R158). -/
  subst : Bool := false
  /-- `LANE_STATE.CAL` (R158). -/
  cal : Bool := false
  /-- `LANE_STATE.FAILED` (R158). -/
  failed : Bool := false
  /-- `LANE_STATE.INSERVICE` (R158). -/
  inService : Bool := false
  /-- `LANE_STATE.CAL_SUSPECT` of the transmitting side (R158,). -/
  suspect : Bool := false
  /-- `LANE_STATE.CAL_SUSPECT` of the receiving side (R158,). -/
  suspectRx : Bool := false
  /-- `LANE_STATE.FEC_LOCK` (R158). -/
  fecLock : Bool := false
  /-- `LANE_STATE.SUBST_FOR` (R158). -/
  substFor : BitVec 6 := 0
  /-- `LANE_STATE.LINK` (R158). -/
  link : BitVec 6 := 0
  /-- `LANE_STATE.POS` (R158). -/
  pos : BitVec 5 := 0
  /-- `LANE_STATE.BER_LOG` (R158). -/
  berLog : BitVec 10 := 0
  /-- Path tag the lane sends (R153). -/
  tag : BitVec 10 := 0
  /-- The transmitter of the lane is on (R165). -/
  txOn : Bool := false
  deriving DecidableEq, Repr, Inhabited

/-- A change announced in frame headers (R153, R154). -/
structure Announce where
  /-- Fibre (R153). -/
  fibre : Nat := 0
  /-- Lane (R153). -/
  lane : Nat := 0
  /-- `FH.NEXT_ROLE` (R153). -/
  role : LaneRole := .inService
  /-- `FH.NEXT_LINK` (R153). -/
  link : BitVec 6 := 0
  /-- `FH.NEXT_POS` (R153). -/
  pos : BitVec 5 := 0
  /-- `FH.NEXT_WIDTH_M1` plus one (R153). -/
  width : Nat := 1
  /-- `FH.NEXT_SFC` (R153). -/
  sfc : BitVec 32 := 0
  deriving DecidableEq, Repr, Inhabited

/-- Relief of a lane by the spare in progress (R160, R161). -/
structure Relief where
  /-- Fibre (R160). -/
  fibre : Nat := 0
  /-- The spare S (R160). -/
  spare : Nat := 0
  /-- The lane X (R160). -/
  lane : Nat := 0
  /-- Link j (R160). -/
  link : BitVec 6 := 0
  /-- Position p (R160). -/
  pos : BitVec 5 := 0
  /-- X has failed: no bridge (R161). -/
  forFail : Bool := false
  /-- Step of R160 in progress (R160). -/
  step : Nat := 1
  /-- LANE_FORCE_SPARE or CAL_LANE_STEP packet that waits (R355). -/
  pkt : Option PktRef := none
  deriving DecidableEq, Repr, Inhabited

/-- One fibre: receive side, transmit side and beacon (R164 to R166). -/
structure Fibre where
  /-- Loss of signal (R164). -/
  los : Bool := true
  /-- Service cycle at which the signal was lost (R164). -/
  losAt : Nat := 0
  /-- Automatic power reduction (R165). -/
  apr : Bool := false
  /-- Pilots and beacon are sent (R165). -/
  pilots : Bool := false
  /-- Mode of its group (same on four fibres) (R170). -/
  mode : GroupMode := .native
  /-- `BC.MODULE` last received (R166). -/
  rxModule : BitVec 12 := 0
  /-- `BC.PORT` (R166). -/
  rxPort : BitVec 4 := 0
  /-- `BC.RANK` (R166). -/
  rxRank : BitVec 4 := 0xF
  /-- `BC.RC_STATE` (R166). -/
  rxRc : BitVec 4 := 0
  /-- `BC.RC_ID` (R166). -/
  rxRcId : BitVec 32 := 0
  /-- `BC.STEPPING` (R166). -/
  rxStep : BitVec 8 := 0
  /-- A valid beacon has been received since the signal came (R166). -/
  beaconOk : Bool := false
  /-- Superframe counter of the transmitter (R153). -/
  sfc : BitVec 32 := 0
  /-- Received lanes in role 2, with the superframes in which each has shown it (R160). -/
  bridges : List (Nat × Nat) := []
  /-- `FH.ROLE` of each received lane (R153). -/
  roles : List (Nat × Nat) := []
  /-- Newest received frame header that announces a change, by lane (R154). -/
  rxNext : List (Nat × BitVec 256) := []
  deriving DecidableEq, Repr, Inhabited

/-- A cell that has its place on a link, until its lane frame is sent (R145, R156). -/
structure TxCell where
  /-- Cell slot: counted from the start of the superframe, or over the link's cell slots of the period in slot mode (R156). -/
  slot : Nat := 0
  /-- Position in the link (R156). -/
  pos : Nat := 0
  /-- Header without CRC and lane tag (R148). -/
  hdr : Nat := 0
  /-- Payload (R148). -/
  body : List (BitVec 8) := []
  deriving DecidableEq, Repr, Inhabited

/-- Physical link end (R155, R190, R239). -/
structure PhysLink where
  /-- Fibre (R155). -/
  fibre : Nat := 0
  /-- Link number (R155). -/
  link : BitVec 6 := 0
  /-- Transmit end (ORIGIN) or receive end (TERMINUS) (R155). -/
  tx : Bool := true
  /-- Its lanes in position order (R155). -/
  lanes : List Nat := []
  /-- Path tag (R179). -/
  tag : BitVec 10 := 0
  /-- Express hops (R186). -/
  hops : Nat := 0
  /-- Module at the other end (R186). -/
  peer : BitVec 12 := 0
  /-- Fibre at the other end (R186). -/
  peerFibre : BitVec 4 := 0
  /-- In service (R190). -/
  inService : Bool := false
  /-- Deskewed and FEC-locked (step 3) (R190). -/
  locked : Bool := false
  /-- Outcome of step 4 (R190). -/
  verified : Option Bool := none
  /-- Next service sequence number (R150). -/
  svcSeq : BitVec 32 := 0
  /-- Fabric time of the last service slot (R156). -/
  svcAt : BitVec 64 := 0
  /-- First slot after the last tile, counted from the last service slot (R156). -/
  freeSlot : Nat := 0
  /-- Cells placed whose lane frames are still to be sent (R156). -/
  queue : List TxCell := []
  /-- Service slots since the start of the superframe (R156). -/
  svcNo : Nat := 0
  deriving DecidableEq, Repr, Inhabited

/-- A switch of K4 in progress (R141). -/
structure K4Swap where
  /-- The source that K4 replaces, or that comes back (R141). -/
  src : Nat := 0
  /-- 1 lost lock, 2 output fell, 3 host (R141). -/
  cause : Nat := 0
  /-- The source comes back in K4's place (R355). -/
  back : Bool := false
  /-- COMB_SWAP packet that waits (R355). -/
  pkt : Option PktRef := none
  deriving DecidableEq, Repr, Inhabited

/-- Optical side of the module. -/
structure Optics where
  /-- Comb sources K0 to K4 (R140). -/
  combs : List (Nat × Comb) := []
  /-- The source that K4 stands in for (R141). -/
  k4For : Option Nat := none
  /-- Switch of K4 in progress (R141). -/
  k4Swap : Option K4Swap := none
  /-- Fibres F0 to F15 (R164). -/
  fibres : List (Nat × Fibre) := []
  /-- Lanes, by fibre × 33 + lane (R158). -/
  lanes : List (Nat × Lane) := []
  /-- Physical link ends (R155). -/
  links : List PhysLink := []
  /-- Announced changes (R154). -/
  announce : List Announce := []
  /-- Reliefs in progress (R160). -/
  reliefs : List Relief := []
  /-- Links that run at a reduced width: fibre × 64 + link, width (R162). -/
  degraded : List (Nat × Nat) := []
  /-- FEC mode light, by fibre × 64 + link (R146). -/
  fec : List (Nat × Bool) := []
  deriving DecidableEq, Repr, Inhabited

/-- Plan entry (R186). -/
structure PlanEnt where
  /-- `PE.KIND` (R186). -/
  kind : BitVec 4 := 0
  /-- `PE.IN_FIBRE` (R186). -/
  inFibre : BitVec 4 := 0
  /-- `PE.OUT_FIBRE` (R186). -/
  outFibre : BitVec 4 := 0
  /-- `PE.LINK` (R186). -/
  link : BitVec 3 := 0
  /-- `PE.PATH_TAG` (R186). -/
  tag : BitVec 10 := 0
  /-- `PE.HOPS` (R186). -/
  hops : BitVec 2 := 0
  /-- `PE.LINES` (R186). -/
  lines : BitVec 33 := 0
  /-- `PE.PEER` (R186). -/
  peer : BitVec 12 := 0
  /-- `PE.PEER_FIBRE` (R186). -/
  peerFibre : BitVec 4 := 0
  /-- A reserved bit is not zero (R186). -/
  resv : Bool := false
  deriving DecidableEq, Repr, Inhabited

/-- Path plan (R185). -/
structure Plan where
  /-- `PP.ACT` (R185). -/
  act : BitVec 64 := 0
  /-- `PP.PLAN_ID` (R185). -/
  planId : BitVec 32 := 0
  /-- `PP.MODULE` (R185). -/
  module : BitVec 12 := 0
  /-- `PP.NENT` (R185). -/
  nent : Nat := 0
  /-- `PP.MODE` (R185). -/
  mode : BitVec 2 := 0
  /-- `PP.NOTIFY`, its first `PP.NNOTIFY` entries (R185). -/
  notify : List (BitVec 12) := []
  /-- `PP.NNOTIFY` (R185). -/
  nnotify : Nat := 0
  /-- A reserved bit is not zero (R185). -/
  resv : Bool := false
  /-- Entries (R185). -/
  ents : List PlanEnt := []
  deriving DecidableEq, Repr, Inhabited

/-- A plan in force between acceptance and completion (R184, R190 to R193). -/
structure PlanRun where
  /-- The plan (R184). -/
  plan : Plan := {}
  /-- SET_LIGHT_PATHS packet, none for a fallback plan (R191). -/
  pkt : Option PktRef := none
  /-- Fallback index (R196). -/
  fallback : Option Nat := none
  /-- Waiting for PP.ACT, or active (R190). -/
  phase : PlanPhase := .waiting
  /-- Service cycle of activation (R190). -/
  startSc : Nat := 0
  /-- Waves of ring steps admitted (R193). -/
  waves : Nat := 0
  /-- Links of the share: fibre, link, transmit end (R191). -/
  links : List (Nat × Nat × Bool) := []
  /-- Links verified (R191). -/
  okLinks : Nat := 0
  /-- Links failed (R191). -/
  badLinks : Nat := 0
  /-- Re-bindings to take effect when the physical link enters service: peer, tag, transmit, fibre, link, width (R215). -/
  rebinds : List (BitVec 12 × BitVec 10 × Bool × BitVec 4 × BitVec 6 × Nat) := []
  deriving DecidableEq, Repr, Inhabited

/-- A crosspoint that is set or being set (R175, R190, R198, R199). -/
structure Xp where
  /-- Line (R175). -/
  line : Nat := 0
  /-- Incoming fibre, 16 local (R175). -/
  inp : Nat := 0
  /-- Outgoing fibre, 16 local (R175). -/
  out : Nat := 0
  /-- Held, stepping, waiting or failed (R190). -/
  st : XpSt := .held
  /-- Path tag (R179). -/
  tag : BitVec 10 := 0
  /-- Relocks of this ring step (R199). -/
  relocks : Nat := 0
  deriving DecidableEq, Repr, Inhabited

/-- Stored fallback plan (R194, R195). -/
structure Fallback where
  /-- Fault signature (R195). -/
  sig : BitVec 32 := 0
  /-- The plan (R194). -/
  plan : Plan := {}
  /-- Armed (R194). -/
  armed : Bool := false
  /-- It has run and awaits the host (R196). -/
  used : Bool := false
  /-- Its bytes as stored (R355). -/
  image : List (BitVec 8) := []
  /-- Fabric profile identifier when it was stored (R194). -/
  profId : BitVec 384 := 0
  deriving DecidableEq, Repr, Inhabited

/-- Roll-call result of a receiving fibre (R182, R183). -/
structure RcResult where
  /-- A beacon with the roll call's identifier was heard (R182). -/
  heard : Bool := false
  /-- Neighbour (R182). -/
  module : BitVec 12 := 0
  /-- Its port (R182). -/
  port : BitVec 4 := 0
  /-- Its rank (R182). -/
  rank : BitVec 4 := 0
  /-- Received pilot power, 0.1 dBm (R182). -/
  power : BitVec 16 := 0
  /-- Answers received (R182). -/
  answers : Nat := 0
  /-- Sum of t_rx − RA.T_TX (R183). -/
  sumOne : Int := 0
  /-- Last two-way sum (R183). -/
  twoWay : Int := 0
  /-- RA.T_TX of the last answer (R183). -/
  lastTx : BitVec 64 := 0
  /-- Local time of its reception (R183). -/
  lastRx : BitVec 64 := 0
  /-- Next RA.SEQ to send (R183). -/
  seqOut : BitVec 8 := 0
  deriving DecidableEq, Repr, Inhabited

/-- Switch plane, plans, fallback plans and roll call. -/
structure Paths where
  /-- Crosspoints that are set or being set (R175). -/
  xps : List Xp := []
  /-- Host plan or running plan (R184). -/
  plan : Option PlanRun := none
  /-- Fallback plan running (R196). -/
  fbRun : Option PlanRun := none
  /-- Fallback plans that wait for the running one: index, signature (R197). -/
  fbNext : List (Nat × BitVec 32) := []
  /-- Faults met while a warm start restarts the Prefects, oldest first (R371). -/
  faults : List (BitVec 32) := []
  /-- Stored fallback plans (R194). -/
  fallbacks : List (Nat × Fallback) := []
  /-- Heater allotment set by CE5 (R192). -/
  allotW : Nat := 80
  /-- `BC.RC_STATE` sent (R182). -/
  rcState : BitVec 4 := 0
  /-- `BC.RC_ID` sent (R182). -/
  rcId : BitVec 32 := 0
  /-- ROLL_CALL packet that waits for ROLL_CALL_DONE (R182). -/
  rcPkt : Option PktRef := none
  /-- Roll-call results by receiving fibre (R182). -/
  rc : List (Nat × RcResult) := []
  /-- Ring steps of each ring since manufacture, by 169 × line + 13 × input + output (R413). -/
  ringSteps : List (Nat × Nat) := []
  deriving DecidableEq, Repr, Inhabited

/-- 1588 port (R238, R241, R244). -/
structure Port where
  /-- Port state (R241). -/
  st : PortSt := .disabled
  /-- DelayAsymmetry, signed, 1/64 ns (R238). -/
  asym : BitVec 64 := 0
  /-- Mean path delay d (R244). -/
  delay : Int := 0
  /-- Sequence number of the next Pdelay_Req (R244). -/
  reqSeq : BitVec 16 := 0
  /-- T1 of the Pdelay_Req that awaits its answer (R244). -/
  reqTx : Option (BitVec 64) := none
  /-- Sequence number of the next Sync (R238). -/
  syncSeq : BitVec 16 := 0
  /-- Sequence number of the next Announce (R238). -/
  annSeq : BitVec 16 := 0
  /-- The last Announce received shows valid time (R246). -/
  annValid : Bool := false
  /-- Grandmaster's dataset in the last Announce received: priority1, clockClass, accuracy, variance, priority2, identity (R241). -/
  annKey : Nat := 0
  /-- Its stepsRemoved (R240). -/
  annSteps : Nat := 0
  /-- Module that sent it (R240). -/
  annSrc : BitVec 12 := 0
  /-- An Announce has been received within the receipt timeout (R243). -/
  annSeen : Bool := false
  /-- Messages discarded since the last record (R238). -/
  discarded : Nat := 0
  deriving DecidableEq, Repr, Inhabited

/-- Fabric time, frequency tree and 1PPS (R235 to R255). -/
structure Timing where
  /-- `FT_NOW` (R235). -/
  ft : BitVec 64 := 0
  /-- `FT_STATUS.VALID` (R451). -/
  valid : Bool := false
  /-- `FT_STATUS.GM` (R451). -/
  gm : Bool := false
  /-- TREE_DEPTH_EXCEEDED has been raised since a parent was last held (R241). -/
  depthRaised : Bool := false
  /-- TIME_NO_PATH has been raised since a time parent was last possible (R241). -/
  pathRaised : Bool := false
  /-- Grandmaster as this module knows it (R241). -/
  gmId : Option (BitVec 12) := none
  /-- `FT_STATUS.RANK` (R451). -/
  rank : BitVec 4 := 0xF
  /-- Receiving fibre of the frequency parent (R241). -/
  freqFibre : Option Nat := none
  /-- `BC.PARENT` (R241). -/
  freqModule : BitVec 12 := 0
  /-- `FT_STATUS.PARENT` with `PARENT_VALID` (R451). -/
  timeParent : Option (BitVec 12) := none
  /-- Port toward the time parent, 0 when none (R241). -/
  timePort : Nat := 0
  /-- Holdover (R246). -/
  holdover : Bool := false
  /-- Consecutive offsets below 2 ns (R246). -/
  goodOffs : Nat := 0
  /-- No Sync may step the time any more: it was stepped at the first, or has been valid (R246). -/
  stepped : Bool := false
  /-- Last offset (R355). -/
  lastOff : Int := 0
  /-- Correction still to be slewed (R236). -/
  slew : Int := 0
  /-- TIME_ADJUST offset still to be slewed (R245). -/
  adjLeft : Int := 0
  /-- TIME_SOURCE: 0 none, 1 PPS_IN, 2 faceplate (R355). -/
  source : BitVec 8 := 0
  /-- Its port (R355). -/
  srcPort : BitVec 8 := 0
  /-- Priority1 (R238). -/
  priority1 : BitVec 8 := 128
  /-- TAI time of the next PPS_IN pulse (R245). -/
  atPps : Option (BitVec 64) := none
  /-- `PPS_IN_TS` (R451). -/
  ppsTs : BitVec 64 := 0
  /-- `PPS_IN_CNT` (R451). -/
  ppsCnt : BitVec 32 := 0
  /-- PPS_IN_LOST stands (R254). -/
  ppsLost : Bool := false
  /-- Ports 1 to 24 (R238). -/
  ports : List (Nat × Port) := []
  deriving DecidableEq, Repr, Inhabited

/-- Bell descriptor, 256 bits (R250). -/
structure Bell where
  /-- `BELL.TIME` (R250). -/
  time : BitVec 64 := 0
  /-- `BELL.PERIOD` (R250). -/
  period : BitVec 48 := 0
  /-- `BELL.COUNT` (R250). -/
  count : BitVec 32 := 0
  /-- `BELL.WIDTH` (R250). -/
  width : BitVec 20 := 0
  /-- `BELL.POL` (R250). -/
  pol : Bool := false
  /-- `BELL.STATE` (R250). -/
  st : BellSt := .idle
  /-- `BELL.IRQ` (R250). -/
  irq : Bool := false
  /-- `BELL.VECTOR` (R250). -/
  vector : BitVec 6 := 0
  /-- `BELL.SYNC_EN` (R250). -/
  syncEn : Bool := false
  /-- `BELL.SYNC_OBJ` (R250). -/
  syncObj : BitVec 16 := 0
  /-- `BELL.SYNC_N` (R250). -/
  syncN : BitVec 16 := 0
  deriving DecidableEq, Repr, Inhabited

/-- Bells (R249 to R252). -/
structure Bells where
  /-- Descriptors: internal 0 to 63, pin 64 to 71 (R249). -/
  bells : List (Nat × Bell) := []
  /-- BELL_SET or BELL_CANCEL that takes effect after the next ring (R251). -/
  next : List (Nat × Option Bell) := []
  deriving DecidableEq, Repr, Inhabited

/-- Coefficient set, 160 bytes (R261). -/
structure CoefSet where
  /-- `CS.F0` to `CS.F3` (R261). -/
  f : List (BitVec 18) := []
  /-- `CS.XF` (R261). -/
  xf : BitVec 32 := 0
  /-- `CS.XO` (R261). -/
  xo : BitVec 32 := 0
  /-- `CS.KP` (R261). -/
  kp : BitVec 18 := 0
  /-- `CS.KI` (R261). -/
  ki : BitVec 18 := 0
  /-- `CS.KD` (R261). -/
  kd : BitVec 18 := 0
  /-- `CS.AD` (R261). -/
  ad : BitVec 18 := 0
  /-- `CS.IMIN` (R261). -/
  imin : BitVec 18 := 0
  /-- `CS.IMAX` (R261). -/
  imax : BitVec 18 := 0
  /-- `CS.OMIN` (R261). -/
  omin : BitVec 18 := 0
  /-- `CS.OMAX` (R261). -/
  omax : BitVec 18 := 0
  /-- `CS.SLEW` (R261). -/
  slew : BitVec 18 := 0
  /-- `CS.MARGIN` (R261). -/
  margin : BitVec 18 := 0
  /-- `CS.ROTE_L` (R261). -/
  roteL : BitVec 18 := 0
  /-- `CS.ROTE_Q` (R261). -/
  roteQ : BitVec 18 := 0
  /-- `CS.KFF` (R261). -/
  kff : BitVec 18 := 0
  /-- `CS.AFF` (R261). -/
  aff : BitVec 18 := 0
  /-- `CS.CFF` (R261). -/
  cff : BitVec 18 := 0
  deriving DecidableEq, Repr, Inhabited

/-- One control loop: descriptor, sets, state and flags (R262 to R270). -/
structure Loop where
  /-- `LD` descriptor (R262). -/
  desc : BitVec 256 := 0
  /-- Coefficient sets by region (R261). -/
  sets : List (Nat × CoefSet) := []
  /-- `LS.SP` (R263). -/
  sp : BitVec 18 := 0
  /-- Set-point accepted since the last sample (R267). -/
  spNew : Option (BitVec 18) := none
  /-- Sets accepted since the last sample, by region (R257). -/
  setsNew : List (Nat × CoefSet) := []
  /-- Sample instant last serviced, in intervals of the loop's rate (R258). -/
  inst : Option Nat := none
  /-- Crosspoint of a CE4 slot that these states belong to (R256). -/
  bank : Bool := false
  /-- `LS.MEAS` (R263). -/
  meas : BitVec 18 := 0
  /-- `LS.OUT` (R263). -/
  out : BitVec 18 := 0
  /-- `LS.INT` (R263). -/
  int : BitVec 48 := 0
  /-- `LS.REGION` (R263). -/
  region : Nat := 0
  /-- `LS.WIN` (R263). -/
  win : Bool := false
  /-- `LS.STALE` (R263). -/
  stale : Bool := false
  /-- `LS.ROTE_AGE` (R263). -/
  roteAge : BitVec 16 := 0
  /-- `LS.SAMPLES` (R263). -/
  samples : BitVec 32 := 0
  /-- `LF` sticky flags (R264). -/
  flags : BitVec 8 := 0
  /-- X₁ of the filter stages (R261). -/
  fx1 : List Int := []
  /-- X₂ (R261). -/
  fx2 : List Int := []
  /-- Y₁ (R261). -/
  fy1 : List Int := []
  /-- Y₂ (R261). -/
  fy2 : List Int := []
  /-- D (R265). -/
  dSt : Int := 0
  /-- Feed-forward state (R265). -/
  ffSt : Int := 0
  /-- Filtered error of the previous sample (R265). -/
  efPrev : Int := 0
  /-- Candidate u at the last sample (R265). -/
  demand : Int := 0
  /-- SAT_INT was applied at the previous sample (R269). -/
  satInt : Bool := false
  /-- Consecutive samples in saturation (R279). -/
  satRun : Nat := 0
  /-- Consecutive bad samples (R275). -/
  badRun : Nat := 0
  /-- Consecutive good samples since a fault (R275). -/
  goodRun : Nat := 0
  /-- SENSOR_FAULT stands (R275). -/
  faulted : Bool := false
  /-- The next sample starts in the region that contains v (R268). -/
  fresh : Bool := true
  deriving DecidableEq, Repr, Inhabited

/-- Rote table (R271 to R273). -/
structure Rote where
  /-- Bins in the Rote exponent (R271). -/
  bins : List (Nat × Int) := []
  /-- Source of its contents (R273). -/
  src : RoteSrc := .empty
  /-- Digest of the image it belongs to (R273). -/
  digest : BitVec 384 := 0
  /-- Its term has become active since load (R273). -/
  active : Bool := false
  /-- STRICT periods since the first active period (R273). -/
  age : BitVec 16 := 0
  /-- Bins already updated in this period (R271). -/
  done : List Nat := []
  deriving DecidableEq, Repr, Inhabited

/-- Control engines CE0 to CE5 (R256 to R279). -/
structure Engines where
  /-- Loops, by engine × 512 + loop (R256). -/
  loops : List (Nat × Loop) := []
  /-- States of the other crosspoint of each CE4 slot loop (R256). -/
  alt : List (Nat × Loop) := []
  /-- Rote tables, by engine × 64 + slot (R271). -/
  rote : List (Nat × Rote) := []
  /-- Relocks of the photonic rings, by (receive: 1) × 528 + fibre × 33 + line (R277). -/
  rings : List (Nat × Nat) := []
  /-- Measured power by source, 0.5 W (R274). -/
  measP : List (Nat × Nat) := []
  /-- Last winner of each group, by engine × 128 + group (R266). -/
  winners : List (Nat × Nat) := []
  deriving DecidableEq, Repr, Inhabited

/-- Temperature set of a lane and kind (R291, R297). -/
structure CalSet where
  /-- Five points of eight items (R297). -/
  pts : List Int := []
  /-- `JR.VALIDMAP` (R297). -/
  validMap : BitVec 8 := 0
  /-- `JR.TEMP` (R297). -/
  temp : Int := 0
  /-- Values in force (R290). -/
  inForce : List Int := []
  /-- Values that come into force at the next boundary (R290). -/
  due : List Int := []
  deriving DecidableEq, Repr, Inhabited

/-- Journal record (R297). -/
structure JourRec where
  /-- `JR.SEQ` (R297). -/
  seq : BitVec 64 := 0
  /-- `JR.KIND` (R297). -/
  kind : Nat := 1
  /-- `JR.FIBRE` (R297). -/
  fibre : Nat := 0
  /-- `JR.LANE` (R297). -/
  lane : Nat := 0
  /-- `JR.VALIDMAP` (R297). -/
  validMap : BitVec 8 := 0
  /-- `JR.TEMP` (R297). -/
  temp : Int := 0
  /-- `JR.SET` (R297). -/
  pts : List Int := []
  /-- Magic, reserved fields and CRC are correct (R299). -/
  good : Bool := true
  deriving DecidableEq, Repr, Inhabited

/-- Calibration of a lane in progress (R281). -/
structure LaneStep where
  /-- Lane X (R281). -/
  lane : Nat := 0
  /-- Phase (R281). -/
  phase : CalPhase := .tx
  /-- Results of run A, once it has passed (R287). -/
  runA : List Int := []
  /-- Run A has passed (R287). -/
  hasA : Bool := false
  /-- The attempt has been discarded (R286). -/
  dead : Bool := false
  /-- Runs completed, which count the phases in slot mode (R293). -/
  runs : Nat := 0
  /-- Superframe S₀ (R281). -/
  s0 : BitVec 32 := 0
  /-- CAL_LANE_STEP packet (R355). -/
  pkt : Option PktRef := none
  /-- Items updated so far (R355). -/
  items : Nat := 0
  /-- Role 3 has started (R281). -/
  rolled : Bool := false
  deriving DecidableEq, Repr, Inhabited

/-- Rotation of one fibre (R282). -/
structure Rotation where
  /-- A rotation runs (R282). -/
  running : Bool := false
  /-- Line of the spare (R158). -/
  line : Nat := 32
  /-- Steps made in this rotation (R282). -/
  steps : Nat := 0
  /-- Lanes skipped (R282). -/
  skipped : Nat := 0
  /-- Service cycle at which it started (R282). -/
  startSc : Nat := 0
  /-- Paused (R283). -/
  paused : Bool := false
  /-- Lane steps the host has asked for (R284). -/
  want : List (Nat × PktRef) := []
  /-- Lane step in progress, as origin (R281). -/
  step : Option LaneStep := none
  /-- Phase in progress of the received lane in role 3, as terminus; its `s0` counts superframes in that role (R281). -/
  rx : Option LaneStep := none
  deriving DecidableEq, Repr, Inhabited

/-- Recess calibration (R280 to R302). -/
structure Calib where
  /-- Rotation interval, s (R282). -/
  interval : BitVec 32 := 600
  /-- Fibre enables (R282). -/
  mask : BitVec 16 := 0xFFFF
  /-- Rotation of each fibre (R282). -/
  rot : List (Nat × Rotation) := []
  /-- Sets in use, by (kind × 16 + fibre) × 33 + lane (R291). -/
  sets : List (Nat × CalSet) := []
  /-- Consecutive failed attempts, by (kind × 16 + fibre) × 33 + lane (R288). -/
  fails : List (Nat × Nat) := []
  /-- Journal slots in MRAM (R297). -/
  journal : List (Nat × JourRec) := []
  /-- Slot at the head of the ring (R298). -/
  head : Nat := 0
  /-- Next JR.SEQ (R299). -/
  nextSeq : BitVec 64 := 0
  /-- Records that wait to be written (R300). -/
  queue : List JourRec := []
  /-- CAL_JOURNAL_INHIBITED has been raised in this inhibit (R300). -/
  inhRaised : Bool := false
  /-- EO bias registers (R295). -/
  eob : List (Nat × BitVec 32) := []
  /-- Next EO element to be captured (R293). -/
  eoNext : Nat := 0
  /-- Result of run A of that element (R293). -/
  eoRun : Option Int := none
  /-- Elements whose register awaits its boundary (R290). -/
  eoDue : List Nat := []
  /-- EO biases in force (R290). -/
  eoForce : List (Nat × BitVec 16) := []
  /-- Photonic and switch die temperatures, 0.01 °C (R291). -/
  dieTemp : List (Nat × Int) := []
  deriving DecidableEq, Repr, Inhabited

/-- One Prefect (R303 to R322). -/
structure PfxUnit where
  /-- Role (R325). -/
  role : PfxRole := .off
  /-- `HB.HEALTH` (R310). -/
  health : BitVec 8 := 0
  /-- `HB.INPUT_SEQ` (R303). -/
  inputSeq : BitVec 32 := 0
  /-- `HB.COUNT` last sent (R310). -/
  hbCount : BitVec 20 := 0
  /-- `HB.COUNT` last received from the partner (R311). -/
  rxCount : BitVec 20 := 0
  /-- Consecutive misses (R311). -/
  misses : Nat := 0
  /-- Heartbeats on X1 since the last good one on X0 (R311). -/
  miss0 : Nat := 0
  /-- Heartbeats on X0 since the last good one on X1 (R311). -/
  miss1 : Nat := 0
  /-- Consecutive heartbeats whose input number or epoch differs (R312). -/
  mism : Nat := 0
  /-- Service cycle of the last good heartbeat (R318). -/
  hbSc : Nat := 0
  /-- What its claim is for: 0 takeover, 1 revert, 2 commanded, 3 mode change, 4 re-pairing (R313). -/
  why : Nat := 0
  /-- A good heartbeat came in this interval (R311). -/
  got : Bool := false
  /-- Accepted claim last seen (R313). -/
  lastClaim : BitVec 32 := 0
  /-- Its own claim (R305). -/
  claim : BitVec 32 := 0
  /-- It has claimed and awaits acceptance (R319). -/
  claiming : Bool := false
  /-- Claims repeated (R319). -/
  retries : Nat := 0
  /-- It waits the settle window before its first command (R313). -/
  settling : Bool := false
  /-- The gates have accepted a newer claim of the partner since its last heartbeat (R313). -/
  partnerClaimed : Bool := false
  /-- It stood down for a path fault (R317). -/
  pathFault : Bool := false
  /-- Acknowledgement of each gate last seen (R308). -/
  ackSeen : List (Nat × BitVec 32) := []
  deriving DecidableEq, Repr, Inhabited

/-- A gate command (R306). -/
structure GateCmd where
  /-- `GC.CLAIM` (R306). -/
  claim : BitVec 32 := 0
  /-- `GC.SEQ` (R306). -/
  seq : BitVec 32 := 0
  /-- `GC.KIND` (R306). -/
  kind : BitVec 4 := 0
  /-- `GC.PAIR` (R306). -/
  pair : Bool := false
  /-- `GC.OPC` (R306). -/
  opc : BitVec 16 := 0
  /-- Payload (R306). -/
  payload : List (BitVec 8) := []
  deriving DecidableEq, Repr, Inhabited

/-- A gate (R304 to R309, R316). -/
structure Gate where
  /-- Accepted claim A (R307). -/
  claim : BitVec 32 := 0
  /-- P (R307). -/
  paired : Bool := false
  /-- Last executed sequence number (R308). -/
  ack : BitVec 32 := 0
  /-- Highest sequence number seen from PA at the epoch (R308). -/
  seenA : BitVec 32 := 0
  /-- From PB (R308). -/
  seenB : BitVec 32 := 0
  /-- Discard count (R308). -/
  discards : BitVec 16 := 0
  /-- Single-copy count (R308). -/
  singles : BitVec 16 := 0
  /-- Commands that arrived ahead of sequence (R309). -/
  ahead : List GateCmd := []
  /-- First copy that waits for the second (R316). -/
  first : Option GateCmd := none
  /-- Last command executed (R316). -/
  done : Option GateCmd := none
  /-- Service cycles of the newest PAIR_DIVERGED (R316). -/
  diverged : List Nat := []
  /-- Configuration: the commands executed, newest first (R304). -/
  config : List (BitVec 16 × List (BitVec 8)) := []
  deriving DecidableEq, Repr, Inhabited

/-- A Prefect-to-Prefect message that awaits its ACK (R323, R324). -/
structure P2pMsg where
  /-- `PM.DST` (R323). -/
  dst : BitVec 12 := 0
  /-- `PM.KIND` (R323). -/
  kind : BitVec 8 := 0
  /-- `PM.MSEQ` (R323). -/
  mseq : BitVec 24 := 0
  /-- Body: fault signature (R323). -/
  sig : BitVec 32 := 0
  /-- Copies sent (R324). -/
  copies : Nat := 1
  deriving DecidableEq, Repr, Inhabited

/-- The Prefect pair (R303 to R326). -/
structure Prefects where
  /-- PA (R303). -/
  pa : PfxUnit := {}
  /-- PB (R303). -/
  pb : PfxUnit := {}
  /-- Cross-link X0 up (R325). -/
  x0 : Bool := false
  /-- Cross-link X1 up (R325). -/
  x1 : Bool := false
  /-- Home Prefect: PB (R320). -/
  home : Bool := false
  /-- Revert hold-off, s (R320). -/
  holdOff : BitVec 16 := 10
  /-- `PFX_STATUS.HOLDOFF` (R325). -/
  holdLeft : BitVec 16 := 0
  /-- `PFX_STATUS.REVERT_EN` (R325). -/
  revertEn : Bool := true
  /-- Service cycles of the newest reverts (R321). -/
  reverts : List Nat := []
  /-- A revert has fallen due and waits for a plan to end (R320). -/
  revertDue : Bool := false
  /-- `PAIR_LIMIT` (R315). -/
  pairLimit : BitVec 16 := 64
  /-- Configured mode is hot pair (R315). -/
  hot : Bool := true
  /-- Kept in warm standby until the host re-pairs (R316). -/
  diverged : Bool := false
  /-- No accepted Prefect (R319). -/
  noAccepted : Bool := false
  /-- Mode change that waits: hot, packet (R315). -/
  modePkt : Option (Bool × Option PktRef) := none
  /-- Gates 0 to 9 (R306). -/
  gates : List (Nat × Gate) := []
  /-- Input sequence number last assigned by the SV command engine (R303). -/
  inputSeq : BitVec 32 := 0
  /-- Commands that their sender keeps until they are acknowledged, newest first, with their gate (R309). -/
  sent : List (Nat × GateCmd) := []
  /-- Commands mirrored to the standby, newest first, with their gate (R318). -/
  mirror : List (Nat × GateCmd) := []
  /-- Messages that await their ACK (R324). -/
  outbox : List P2pMsg := []
  /-- Next PM.MSEQ (R323). -/
  mseq : BitVec 24 := 0
  /-- Messages already taken (R324). -/
  seen : List (BitVec 12 × BitVec 24) := []
  deriving DecidableEq, Repr, Inhabited

/-- A remote signal that waits for a service cell (R40, R151). -/
structure RemoteSig where
  /-- `RS.MODULE` (R151). -/
  module : BitVec 12 := 0
  /-- `RS.OBJECT` (R151). -/
  object : BitVec 16 := 0
  /-- `RS.N` (R151). -/
  n : BitVec 16 := 0
  deriving DecidableEq, Repr, Inhabited

/-- Fabric notice (R223, R224). -/
structure Notice where
  /-- `FN.KIND` (R223). -/
  kind : BitVec 8 := 0
  /-- `FN.SRC` (R223). -/
  src : BitVec 12 := 0
  /-- `FN.DST` (R223). -/
  dst : BitVec 12 := 0
  /-- `FN.TTL` (R223). -/
  ttl : BitVec 8 := 64
  /-- `FN.NSEQ` (R223). -/
  nseq : BitVec 24 := 0
  /-- `FN.JOBTAG` (R223). -/
  jobTag : BitVec 32 := 0
  /-- `FN.BCAST` (R223). -/
  bcast : Bool := false
  /-- Body (R224). -/
  body : List (BitVec 8) := []
  deriving DecidableEq, Repr, Inhabited

/-- XN5 assignment message (R168). -/
structure XaMsg where
  /-- `XA.OP` (R168). -/
  op : BitVec 8 := 0
  /-- `XA.TXN` (R168). -/
  txn : BitVec 16 := 0
  /-- `XA.SRC` (R168). -/
  src : BitVec 12 := 0
  /-- `XA.DST` (R168). -/
  dst : BitVec 12 := 0
  /-- `XA.COUNT` (R168). -/
  count : BitVec 6 := 0
  /-- `XA.LINES` (R168). -/
  lines : BitVec 33 := 0
  /-- `XA.ACT` (R168). -/
  act : BitVec 64 := 0
  deriving DecidableEq, Repr, Inhabited

/-- XN5 transaction of this module as requester (R169). -/
structure XaTxn where
  /-- Its message (R169). -/
  msg : XaMsg := {}
  /-- Repeats made (R169). -/
  repeats : Nat := 0
  /-- Ring fibre (R169). -/
  fibre : Nat := 0
  deriving DecidableEq, Repr, Inhabited

/-- Pluggable cage of a faceplate group (R171, R173). -/
structure Cage where
  /-- Eight 200 Gb/s ports (R171). -/
  eight : Bool := false
  /-- Egress latency (R237). -/
  egress : BitVec 32 := 0
  /-- Ingress latency (R237). -/
  ingress : BitVec 32 := 0
  /-- A pluggable is present (R173). -/
  present : Bool := false
  /-- Flags the module could not clear, by page (R173). -/
  flags : List (Nat × BitVec 8) := []
  /-- Ports whose link is in service (R173). -/
  up : BitVec 8 := 0
  /-- The data path has been started (R173). -/
  dpStarted : Bool := false
  /-- Application selected: eight 200 Gb/s ports (R173). -/
  app : Bool := false
  /-- The pluggable is held in low power (R173). -/
  lowPower : Bool := true
  deriving DecidableEq, Repr, Inhabited

/-- A message that waits for a service cell (R152, R239). -/
structure SvcMsg where
  /-- Physical link, fibre × 64 + link (R152). -/
  link : Nat := 0
  /-- Message type (R152). -/
  ty : BitVec 8 := 0
  /-- Body (R152). -/
  body : List (BitVec 8) := []
  /-- For a Pdelay_Resp, the time at which its request came (R239). -/
  t2 : BitVec 64 := 0
  deriving DecidableEq, Repr, Inhabited

/-- Messages between modules (R223 to R228, R167 to R173). -/
structure Net where
  /-- Next FN.NSEQ of this module (R223). -/
  nseq : BitVec 24 := 0
  /-- Newest FN.NSEQ of each source (R225). -/
  newest : List (Nat × BitVec 24) := []
  /-- Own notices with copies still to send (R227). -/
  repeats : List (Notice × Nat) := []
  /-- Next `RS.SEQ` of each logical link, by its name (R151). -/
  rsSeq : List (Nat × BitVec 20) := []
  /-- `RS.SEQ` values applied on each logical link, newest first, by its name (R151). -/
  rsSeen : List (Nat × List (BitVec 20)) := []
  /-- Remote signals that wait, with their link (fibre × 64 + link) (R151). -/
  rsOut : List (Nat × RemoteSig) := []
  /-- Messages that wait for a service cell (R152). -/
  msgs : List SvcMsg := []
  /-- Transactions awaiting an answer (R169). -/
  xaTxns : List XaTxn := []
  /-- Assigner's free lines of each ring fibre (R168). -/
  xaFree : List (Nat × BitVec 33) := []
  /-- Answers given, by transaction (R169). -/
  xaAnswers : List XaMsg := []
  /-- Grants that await XA.ACT, with their fibre (R169). -/
  xaPend : List (XaMsg × Nat) := []
  /-- Use of each line, by fibre × 33 + line: 1 add, 2 drop, 3 pass (R169). -/
  xaLines : List (Nat × Nat) := []
  /-- Next XA.TXN (R168). -/
  xaTxn : BitVec 16 := 0
  /-- Cages, by group × 2 + cage (R171). -/
  cages : List (Nat × Cage) := []
  /-- EtherType of each group (R172). -/
  etherType : List (Nat × BitVec 16) := []
  /-- Frames discarded, by port (R172). -/
  frameBad : List (Nat × Nat) := []
  /-- The bus switch does not answer (R439). -/
  cmisDown : Bool := false
  deriving DecidableEq, Repr, Inhabited

/-- Measurement log entry (R423). -/
structure MlEntry where
  /-- `ML.REG` (R423). -/
  reg : Nat := 0
  /-- `ML.KIND` (R423). -/
  kind : Nat := 0
  /-- `ML.DBSEQ` (R423). -/
  dbseq : BitVec 64 := 0
  /-- `ML.DIGEST` (R423). -/
  digest : BitVec 384 := 0
  deriving DecidableEq, Repr, Inhabited

/-- Security block (R418 to R432). -/
structure Security where
  /-- Measurement registers MR0 to MR7 (R421). -/
  mr : List (Nat × BitVec 384) := []
  /-- Measurement log, oldest first (R423). -/
  log : List MlEntry := []
  /-- Log overflow (R423). -/
  logOver : Bool := false
  /-- Operator keys: X in bits 383:0, Y in bits 767:384 (R429). -/
  keys : List (Nat × BitVec 768) := []
  /-- An identity key pair exists (R418). -/
  keyPair : Bool := true
  /-- The identity key passed its check at the last start (R420). -/
  keyOk : Bool := true
  /-- Signature-enforcement fuse burned (R431). -/
  fuse : Bool := false
  /-- Fuse as the boot ROM read it at the last start (R431). -/
  fuseRead : Bool := false
  /-- Signatures made (R418). -/
  signs : Nat := 0
  deriving DecidableEq, Repr, Inhabited

/-- Lifetime records and the calendar (R413 to R416). -/
structure Life where
  /-- `LT.POWER_ON_S` (R413). -/
  powerOnS : BitVec 64 := 0
  /-- `LT.RUNNING_S` (R413). -/
  runningS : BitVec 64 := 0
  /-- `LT.COLD_STARTS` (R413). -/
  coldStarts : BitVec 32 := 0
  /-- `LT.WARM_STARTS` (R413). -/
  warmStarts : BitVec 32 := 0
  /-- `LT.SAFE_MODE` (R413). -/
  safeMode : BitVec 32 := 0
  /-- `LT.PFX_SWITCH` (R413). -/
  pfxSwitch : BitVec 32 := 0
  /-- `LT.THERMAL_CYCLES` (R413). -/
  thermal : List (Nat × BitVec 32) := []
  /-- Trough of each die, 0.1 °C (R414). -/
  trough : List (Nat × Int) := []
  /-- Peak after it (R414). -/
  peak : List (Nat × Int) := []
  /-- `LT.HEATER_TOTAL` (R413). -/
  heaterTotal : BitVec 64 := 0
  /-- Laser-on seconds (R415). -/
  combS : List (Nat × BitVec 32) := []
  /-- Integrated drive current, µA·h (R415). -/
  combUah : List (Nat × BitVec 64) := []
  /-- End-of-life estimate, h (R415). -/
  combEol : List (Nat × BitVec 32) := []
  /-- Drive current at the first 100 laser-on hours (R415). -/
  combRef : List (Nat × Nat) := []
  /-- Drive current by laser-on hour, newest first: source, hour, 10 µA (R415). -/
  combHist : List (Nat × Nat × Nat) := []
  /-- Corrected bursts by channel (R413). -/
  eccCor : List (Nat × BitVec 64) := []
  /-- Uncorrectable bursts by channel (R413). -/
  eccUnc : List (Nat × BitVec 32) := []
  /-- Corrected count per pin, by channel × 24 + sub-channel × 12 + pin (R355). -/
  pinCor : List (Nat × Nat) := []
  /-- `LT.MRAM_WR` (R413). -/
  mramWr : List (Nat × BitVec 64) := []
  /-- Calendar, TAI seconds (R416). -/
  cal : BitVec 64 := 0
  /-- Its fraction, 1/32,768 s (R416). -/
  calFrac : BitVec 15 := 0
  /-- Time-not-set (R416). -/
  calNotSet : Bool := true
  /-- Calendar at the last lifetime store (R416). -/
  calStored : BitVec 64 := 0
  /-- Lifetime stores made: newer copy is A when even (R413). -/
  stores : Nat := 0
  /-- 2.5 ns steps that an empty queue took with the always-on domain powered (R382). -/
  ticks : Nat := 0
  /-- Drive current not yet a whole µA·h, in µA·s, by source (R415). -/
  combUas : List (Nat × Nat) := []
  deriving DecidableEq, Repr, Inhabited

/-- MRAM writes and commands that wait under the write inhibit (R377). -/
structure NvWait where
  /-- Host commands that wait, oldest first (R377). -/
  cmds : List (PktRef × NvCmd) := []
  /-- The MRAM copy of the power settings waits (R377). -/
  setCap : Bool := false
  /-- The MRAM copy of the Prefect settings waits (R377). -/
  setPfx : Bool := false
  /-- The MRAM copy of the rate settings waits (R377). -/
  setRate : Bool := false
  /-- The MRAM copy of ID_MODULE waits (R450). -/
  setId : Bool := false
  /-- A lifetime store waits (R377). -/
  lifetime : Bool := false
  /-- A checkpoint write waits (R403). -/
  ckpt : Bool := false
  /-- Channels whose training values wait (R364). -/
  train : List Nat := []
  deriving DecidableEq, Repr, Inhabited

/-- Settings whose last values MRAM holds (R368, R402). -/
structure NvSettings where
  /-- Home Prefect (R368). -/
  home : Bool := false
  /-- Hold-off (R368). -/
  holdOff : BitVec 16 := 10
  /-- PAIR_LIMIT (R368). -/
  pairLimit : BitVec 16 := 64
  /-- Burst and refill by code (R402). -/
  rates : List (Nat × Nat × Nat) := []
  deriving DecidableEq, Repr, Inhabited

/-- What carries a message or event out of the module. -/
inductive Chan where
  | msix | hostWrite | readReply | readAbort | configReply | spdm
  | cell | symbols | service | ack | beacon | lane | notice | xa | p2p | roll | ptp | frame | cmis
  | heartbeat | claim | gateCmd | gateCast | svOrder
  | pin | actuator | xtrack | lineScan
  deriving DecidableEq, Repr, Inhabited

/-- One thing that has left the module: its channel, the port, link, vector or address it left by, and its bytes
or values (the model's own record of outputs). -/
structure Out where
  /-- What carried it. -/
  chan : Chan
  /-- Port, link, vector, address or pin number. -/
  port : Nat := 0
  /-- Bytes, in the order in which they leave. -/
  body : List (BitVec 8) := []
  deriving DecidableEq, Repr, Inhabited

/-- Signature trailer of a packet (R348). -/
structure SigTrailer where
  /-- `SG.KEY` with the reserved bytes 1 to 7 above it. -/
  key : BitVec 64 := 0
  /-- `SG.NONCE`. -/
  nonce : BitVec 256 := 0
  /-- `SG.R`. -/
  r : BitVec 384 := 0
  /-- `SG.S`. -/
  s : BitVec 384 := 0
  deriving DecidableEq, Repr, Inhabited

/-- What an opcode command carries of its packet's header (R337) and its signature trailer (R348). -/
structure Pkt where
  /-- `PK.SEQ`, or the place in a list (R342). -/
  seq : BitVec 32 := 0
  /-- `PK.TAG`. -/
  tag : BitVec 16 := 0
  /-- `PK.TARGET`. -/
  target : BitVec 8 := 0xFF
  /-- `PK.LEVEL`: expert. -/
  expert : Bool := false
  /-- `PK.FLAGS` bit 0, `FENCE`. -/
  fence : Bool := false
  /-- `PK.FLAGS` bit 1, `IRQ`. -/
  irq : Bool := false
  /-- The packet came from a list (R342). -/
  list : Bool := false
  /-- The trailer of a packet with `SIGNED`. -/
  sig : Option SigTrailer := none
  deriving DecidableEq, Repr, Inhabited

/-- A host buffer: address and length (R355). -/
structure Buf where
  /-- Host address. -/
  addr : BitVec 64 := 0
  /-- Bytes. -/
  len : BitVec 32 := 0
  deriving DecidableEq, Repr, Inhabited

/-- How the symbols that a command reads differ from what is stored: what the cells, pins and arrays do to the bits
is outside the model. -/
structure ReadErr where
  /-- LPDDR symbols, by 36 × burst number + symbol: the bits that read inverted. -/
  lp : List (Nat × BitVec 8) := []
  /-- Tile-store words, by word address: what their check bits report. -/
  sr : List (Nat × SramKind) := []
  /-- Stream contexts and (2²⁰ +) sync objects, by identifier: what their check bits report. -/
  ctx : List (Nat × SramKind) := []
  /-- Program words, by station × 65536 + index: what their check bits report. -/
  prog : List (Nat × SramKind) := []
  deriving DecidableEq, Repr, Inhabited

/-- A cell as the lane coding delivers it: its place in its frame, the outer code words of the frame that could not be corrected (R147),
and its bytes. -/
structure CellIn where
  /-- Place in the frame. -/
  place : Nat := 0
  /-- Outer code words that could not be corrected. -/
  words : List Nat := []
  /-- The 1,056 bytes. -/
  bytes : List (BitVec 8) := []
  deriving DecidableEq, Repr, Inhabited

/-- A word of a station as its fetch delivers it: the station and what the fetch's reads meet (R131). -/
structure HouseIssue where
  /-- Station identifier. -/
  stn : BitVec 16 := 0
  /-- What the fetch's reads meet. -/
  err : ReadErr := {}
  deriving DecidableEq, Repr, Inhabited

/-- What stops the supervisor's firmware: a fault with its cause code (R369, R400), or a fetch that meets an uncorrectable code word
(R131). -/
inductive FwFault where
  | fatal (code : BitVec 8)
  | fetch
  deriving DecidableEq, Repr, Inhabited

/-- The sums that one component of a capture gives: of its samples, their squares and their fourth powers, and its marks (R285). -/
structure ArmStats where
  /-- Sum of the samples. -/
  s1 : Int := 0
  /-- Sum of their squares. -/
  s2 : Nat := 0
  /-- Sum of their fourth powers. -/
  s4 : Nat := 0
  /-- Samples that are marks. -/
  marks : Nat := 0
  deriving DecidableEq, Repr, Inhabited

/-- What the capture of a run measures beside the run's results (R285). -/
structure RunStats where
  /-- Terminus: line power, in 0.01 dBm. Origin: tap power less its set-point, in 0.01 dB. -/
  light : Int := 0
  /-- Loss of signal during the capture. -/
  lost : Bool := false
  /-- Every frame shows role 3, at the terminus. -/
  role : Bool := false
  /-- Every frame header shows the expected path tag and its line. -/
  tag : Bool := false
  /-- Symbols per polarisation, or tap integrations per arm. -/
  samples : Nat := 0
  /-- The components XI, XQ, YI, YQ. -/
  arms : List ArmStats := []
  /-- Least and greatest temperature of the photonic die over the attempt so far, in 0.01 °C. -/
  tempLo : Int := 0
  /-- See `tempLo`. -/
  tempHi : Int := 0
  deriving DecidableEq, Repr, Inhabited

/-- The end of a range that DAYBOOK_CLEAR clears, and whether the mirror takes the record of the clear: a write whose read-back fails twice
fails the store (R407, R409, R412). -/
structure ClearEnd where
  /-- Last sequence number. -/
  seq : BitVec 64 := 0
  /-- The mirror takes DAYBOOK_CLEARED. -/
  ok : Bool := true
  deriving DecidableEq, Repr, Inhabited

end Sys2Proof.Machine
end

