-- ==== Sys2Proof/Syntax.lean ====
section
/-!
DEFINITION. The commands: one constructor per row of spec/opcode_table.json, with the operands its rule gives it.
What the module cannot know before it asks the outside (fetched bytes, sensor readings, what an array of cells does to
the bits that are read) is an operand of the command.
-/

namespace Sys2Proof

/-- The commands of the block, in the order of the opcode table. -/
inductive Instr where
  /-- POWER_APPLIED (R374). The input rises past the 34.0 V start threshold with the always-on domain unpowered, and a cold start begins with cause 1. -/
  | powerApplied (vin : BitVec 16)
  /-- SUPPLY_SAG (R374). The input falls below 36.0 V for 2 µs and SUPPLY_SAG is raised. -/
  | supplySag (vin : BitVec 16)
  /-- SUPPLY_RESTORED (R374). The input rises above 36.5 V and SUPPLY_RESTORED is raised. -/
  | supplyRestored (vin : BitVec 16) (ms : Nat)
  /-- NV_WRITE_INHIBIT_ENTER (R377). The input falls below 35.0 V, and no new MRAM write starts from then on. -/
  | nvWriteInhibitEnter (vin : BitVec 16)
  /-- NV_WRITE_INHIBIT_EXIT (R377). The input rises above 35.5 V, and the queued MRAM, journal and command writes start in order. -/
  | nvWriteInhibitExit (vin : BitVec 16)
  /-- POWER_FAIL (R375). The input stays below 33.0 V for 2 µs, and the module runs the hold-up sequence from any state. -/
  | powerFail (vin : BitVec 16)
  /-- INPUT_OVERVOLTAGE (R374). The input rises above 48.0 V and is handled as POWER_FAIL with cause overvoltage. -/
  | inputOvervoltage (vin : BitVec 16)
  /-- POWER_FAIL_RECOVERY (R376). After POWER_FAIL the input stays above 34.0 V for 100 ms within the 200 ms store time, and a cold start with cause 4 begins. -/
  | powerFailRecovery (vin : BitVec 16)
  /-- ALWAYS_ON_STORE_EXPIRED (R376). The always-on domain's store runs out after POWER_FAIL without recovery, and the domain loses power. -/
  | alwaysOnStoreExpired
  /-- FORCE_COLD (R437). FORCE_COLD_N is held low for at least 10 µs, and a cold start begins from its rising edge. -/
  | forceCold (lowNs : Nat)
  /-- PERST_ASSERT (R357). PERST# is asserted; after Lit without warm intent it resets the endpoint and the host interface as FLR does. -/
  | perstAssert
  /-- PERST_RELEASE (R356). PERST# is released: this starts a warm start when PERST_WARM was set, wakes the module from Asleep, or releases step 4 of a cold start. -/
  | perstRelease (lowUs : Nat)
  /-- FLR (R328). A function-level reset resets the aperture, the host-interface registers, the latches, the nonce and the BAR2 window. -/
  | flr
  /-- REFCLK_LOST (R383). REFCLK100 is absent for 10 µs: SV moves to its internal oscillator and the PCIe link goes down. -/
  | refclkLost
  /-- REFCLK_RETURN (R383). The reference returns, the service clock switches back and the link retrains. -/
  | refclkReturn
  /-- PPS_IN_EDGE (R254). A rising edge on PPS_IN is timestamped, and on a grandmaster following PPS_IN it disciplines time. -/
  | ppsInEdge
  /-- PPS_IN_LOST (R254). No PPS_IN pulse arrives for 3 s, and the grandmaster keeps its own rate with clockClass 248. -/
  | ppsInLost
  /-- PPS_OUT_PULSE (R254). At each whole TAI second of valid fabric time, PPS_OUT rises for 100 µs. -/
  | ppsOutPulse
  /-- FIRMWARE_FETCH_DONE (R361). The DMA fetch of the pushed image completes, and the boot ROM measures it and runs it or refuses it. -/
  | firmwareFetchDone (ok : Bool) (image : List (BitVec 8))
  /-- FIRMWARE_RUNNING (R362). The firmware reports that it is running; every opcode is served from then on, and a warm start continues with Prefect, CE5 and state restore. -/
  | firmwareRunning
  /-- LPDDR_TRAINING_DONE (R364). Every channel has been verified, trained in full or held out, and zero-fill begins. -/
  | lpddrTrainingDone (full : List Nat) (failed : List Nat)
  /-- ZERO_FILL_DONE (R138). Every in-service burst has been written with the zero code word. -/
  | zeroFillDone
  /-- COMB_BRING_UP (R365). Comb sources start from their KOP registers or factory points once no host hold remains. -/
  | combBringUp
  /-- FREQUENCY_LOCK_ACQUIRED (R365). The combs lock to a parent beacon of rank 0 to 7, or to the internal reference as designated root. -/
  | frequencyLockAcquired (fibre : Option Nat)
  /-- LANES_UP (R366). Lanes start from stored calibration in the home configuration, and the start ends. -/
  | lanesUp (fails : List Nat)
  /-- START_STEP_TIMEOUT (R369). A start step exceeds its maximum time, or the firmware does not report running within 2 s, and the start fails. -/
  | startStepTimeout (selfTest : Bool)
  /-- START_RETRY (R369). One second after a failure, the module makes a warm or cold retry or enters safe mode, according to the counters. -/
  | startRetry
  /-- FIRMWARE_FATAL (R400). SV firmware meets a fault it cannot continue from, raises FIRMWARE_FATAL and stops. -/
  | firmwareFatal (cause : Machine.FwFault) (addr : BitVec 32)
  /-- POWER_STATE_REACHED (R380). A power-state transition in progress completes, and POWER_STATE_CHANGED is raised. -/
  | powerStateReached (fails : List Nat)
  /-- ISSUE_THROTTLE_START (R393). A junction is at 105 °C for 100 µs, or the input current exceeds its limit + 5 % for 100 µs, and MX, VX and SX stations issue only every second cc. -/
  | issueThrottleStart (current : Bool) (die : BitVec 8)
  /-- ISSUE_THROTTLE_END (R393). The cause of the throttle has been below its limit for 1 ms, and the throttle ends. -/
  | issueThrottleEnd
  /-- THERMAL_TRIP (R394). A junction reaches 115 °C or a package reaches 110 °C: THERMTRIP_N is asserted and the compute cores are powered off. -/
  | thermalTrip (unit : BitVec 8) (temp : Int)
  /-- THERMTRIP_RELEASE (R394). Every die is below 90 °C and every package below 95 °C, and THERMTRIP_N is released. -/
  | thermtripRelease
  /-- COOLANT_LIMIT (R392). The coolant inlet reaches 40 °C or the outlet reaches 62 °C, and COOLANT_LIMIT is raised. -/
  | coolantLimit (inlet : BitVec 16) (outlet : BitVec 16)
  /-- PHOTONIC_TEMP_LIMIT (R392). A photonic or switch die stays above 85 °C for 10 ms. -/
  | photonicTempLimit (die : BitVec 8) (temp : Int)
  /-- PERIOD_BELL (R51). Internal Bell 0 rings at the start of a period and drives the period-boundary actions of the job state machine. -/
  | periodBell (pm : Nat) (px : Nat)
  /-- INTERNAL_BELL_RING (R252). A host internal Bell rings at its time: it signals its sync object, raises its vector and advances its time and count. -/
  | internalBellRing (bell : Nat)
  /-- PIN_BELL_RING (R253). A pin Bell drives a pulse of the programmed width and polarity on its BELLk_OUT. -/
  | pinBellRing (bell : Nat)
  /-- PLAN_ACTIVATION (R190). Bell 1 rings at PP.ACT and the module applies its share of the pending plan, starting with the switch step. -/
  | planActivation
  /-- STATION_NOP (R55). A station issues a NOP word, which has no effect. -/
  | stationNop (stn : BitVec 16) (err : Machine.ReadErr)
  /-- SIGNAL (R38). A station adds n to a local sync object, saturating. -/
  | signal (stn : BitVec 16) (err : Machine.ReadErr)
  /-- SIGNAL_REMOTE (R40). A station queues a remote signal for the next service cell toward another module. -/
  | signalRemote (stn : BitVec 16) (err : Machine.ReadErr)
  /-- WAIT (R38). A station issues WAIT once the sync object's count is at least t. -/
  | wait (stn : BitVec 16) (err : Machine.ReadErr)
  /-- TAKE (R39). A station issues TAKE once the count is at least t, and subtracts t. -/
  | take (stn : BitVec 16) (err : Machine.ReadErr)
  /-- RELEASE (R29). A station releases the oldest unreleased complete tile of a binding. -/
  | release (stn : BitVec 16) (err : Machine.ReadErr)
  /-- MMA (R88). An MX station multiplies A by B into an accumulator, with optional start and end. -/
  | mma (stn : BitVec 16) (err : Machine.ReadErr)
  /-- ACC_FLUSH (R89). An MX station rounds an open accumulator to its output tile and closes the accumulator. -/
  | accFlush (stn : BitVec 16) (err : Machine.ReadErr)
  /-- VEW (R93). A VX station runs an element-wise operation. -/
  | vew (stn : BitVec 16) (err : Machine.ReadErr)
  /-- VRED (R95). A VX station runs an in-tile reduction in a fixed tree order. -/
  | vred (stn : BitVec 16) (err : Machine.ReadErr)
  /-- VCVT (R93). A VX station converts a tile's format. -/
  | vcvt (stn : BitVec 16) (err : Machine.ReadErr)
  /-- VXPOSE (R463). A VX station transposes a tile. -/
  | vxpose (stn : BitVec 16) (err : Machine.ReadErr)
  /-- VGATHER (R463). A VX station gathers elements by index. -/
  | vgather (stn : BitVec 16) (err : Machine.ReadErr)
  /-- VSCATTER (R463). A VX station scatters elements by index. -/
  | vscatter (stn : BitVec 16) (err : Machine.ReadErr)
  /-- VFUNC (R96). A VX station computes a transcendental function per element. -/
  | vfunc (stn : BitVec 16) (err : Machine.ReadErr)
  /-- SUM_OPEN (R102). An SX station opens an accumulation with a grid source. -/
  | sumOpen (stn : BitVec 16) (err : Machine.ReadErr)
  /-- SUM_ADD (R103). An SX station brings a tile to the grid and adds it. -/
  | sumAdd (stn : BitVec 16) (err : Machine.ReadErr)
  /-- SUM_CLOSE (R103). An SX station writes and closes an accumulation. -/
  | sumClose (stn : BitVec 16) (err : Machine.ReadErr)
  /-- EXPMAX (R100). An SX station runs the maximum-exponent pass into its register and output. -/
  | expmax (stn : BitVec 16) (err : Machine.ReadErr)
  /-- ACT (R57). An MM activates a bank row. -/
  | act (stn : BitVec 16) (err : Machine.ReadErr)
  /-- RDRUN (R55). An MM reads n bursts into a tile at an offset. -/
  | rdrun (stn : BitVec 16) (err : Machine.ReadErr)
  /-- WRRUN (R55). An MM writes n bursts from a tile. -/
  | wrrun (stn : BitVec 16) (err : Machine.ReadErr)
  /-- PRE (R57). An MM precharges one bank. -/
  | pre (stn : BitVec 16) (err : Machine.ReadErr)
  /-- PREA (R57). An MM precharges all banks of a sub-channel. -/
  | prea (stn : BitVec 16) (err : Machine.ReadErr)
  /-- REFAB (R66). A housekeeping all-bank refresh runs on a sub-channel. -/
  | refab (word : Machine.HouseIssue)
  /-- REFPB (R66). A housekeeping per-bank refresh runs. -/
  | refpb (word : Machine.HouseIssue)
  /-- SEND (R210). An FX frames the oldest unsent tile of a forward into cells on its link. -/
  | send (stn : BitVec 16) (err : Machine.ReadErr)
  /-- SUMPASS (R232). An FX adds arriving cells into the passing tile and sends the sums. -/
  | sumpass (stn : BitVec 16) (err : Machine.ReadErr)
  /-- H2D (R57). An HX channel starts a DMA from host memory into a tile. -/
  | h2d (stn : BitVec 16) (err : Machine.ReadErr)
  /-- D2H (R57). An HX channel starts a DMA from a tile to host memory. -/
  | d2h (stn : BitVec 16) (err : Machine.ReadErr)
  /-- PPHASE (R274). A control engine applies a power-profile phase as feed-forward. -/
  | pphase (stn : BitVec 16) (err : Machine.ReadErr)
  /-- OUTPUT_COMPLETE (R57). A word's output tile completes, which signals its sync object, starts its forwards and may close the stream or end a work period. -/
  | outputComplete (stn : BitVec 16) (stream : BitVec 20) (tseq : BitVec 32)
  /-- KIND1_FORWARD_DONE (R213). A die-to-die copy of a tile completes in the destination ring. -/
  | kind1ForwardDone (stream : BitVec 20) (fwd : Nat) (err : Machine.ReadErr)
  /-- HX_TRANSFER_END (R57). An HX DMA transfer ends, or halts on an uncorrectable error. -/
  | hxTransferEnd (die : Nat) (chan : Nat) (data : List (BitVec 8)) (ok : Bool) (err : Machine.ReadErr)
  /-- RECESS_WINDOW_START (R67). A Recess window begins, and the module takes its named resource for scrub or calibration. -/
  | recessWindowStart (window : Nat) (eo : Int) (test : Machine.RunStats) (stat : Int) (err : Machine.ReadErr)
  /-- IDLE_REFRESH (R128). With no image loaded in Lit, each MM issues an all-bank refresh every tREFI. -/
  | idleRefresh (die : Nat) (mm : Nat)
  /-- IDLE_SCRUB (R130). With no image loaded in Lit, each MM scrubs for 0.5 µs of every 20 µs. -/
  | idleScrub (die : Nat) (mm : Nat) (err : Machine.ReadErr)
  /-- SRAM_BACKGROUND_PASS (R126). The background pass rewrites corrected program, context and sync-object words, completing every 100 ms. -/
  | sramBackgroundPass (err : Machine.ReadErr)
  /-- MEM_TEMP_READING (R129). Every 8 µs the MM reads its package temperature and makes emergency refreshes due above the limit. -/
  | memTempReading (pkg : Nat) (temp : Int)
  /-- MERGE_ENTRY_AGED (R127). A merge-buffer entry reaches 256 cycles of age and is queued for read-modify-write. -/
  | mergeEntryAged (sram : Bool) (key : Nat) (err : Machine.ReadErr)
  /-- HOST_PORT_ACCESS (R119). The host port issues an access sequence in a gap that fits before the next scheduled command. -/
  | hostPortAccess (err : Machine.ReadErr)
  /-- CHANNEL_HOTSPOT (R118). A 1 ms window ends with more than 75 % of at least 4,096 bursts on one channel. -/
  | channelHotspot (stn : BitVec 16) (chan : Nat)
  /-- REMOTE_SIGNAL_ENTRY (R151). A remote-signal entry arrives in a service cell; it is applied once or relayed, and repeats are discarded. -/
  | remoteSignalEntry (fibre : Nat) (link : Nat) (entry : List (BitVec 8))
  /-- SUPERFRAME_BOUNDARY (R154). A superframe boundary passes on a lane: announced role and link changes and calibration values apply. -/
  | superframeBoundary (fibre : Nat) (hdrs : List (BitVec 256)) (skew : Nat) (err : Machine.ReadErr)
  /-- STREAM_HOLD_LIMIT (R230). SC.HOLD_ELAPSED reaches the hold limit; the context breaks, completes a poisoned placeholder and sends STREAM_BREAK. -/
  | streamHoldLimit (stream : BitVec 20) (err : Machine.ReadErr)
  /-- DATA_CELL_ARRIVAL (R217). A data cell arrives at the receiving FX and is placed, discarded as a duplicate or discarded unacknowledged. -/
  | dataCellArrival (fibre : Nat) (link : Nat) (cell : Machine.CellIn) (err : Machine.ReadErr)
  /-- LINK_ACK_NOTICE (R218). A LINK_ACK notice arrives: acknowledgements release slots and credits are granted or reset. -/
  | linkAckNotice (port : Nat) (notice : List (BitVec 8))
  /-- RESEND_TIMER_EXPIRY (R219). A forward's resend timer expires; every cell from A onward is resent and the timer doubles. -/
  | resendTimerExpiry (stream : BitVec 20) (fwd : Nat) (err : Machine.ReadErr)
  /-- STREAM_BREAK_NOTICE (R230). A STREAM_BREAK arrives: the transmitter counts the broken tile acknowledged and continues from the next base. -/
  | streamBreakNotice (port : Nat) (notice : List (BitVec 8))
  /-- STREAM_TX_STALLED (R231). A forward has had cells unacknowledged for longer than its hold limit. -/
  | streamTxStalled (stream : BitVec 20) (fwd : Nat)
  /-- STRETCH_NOTICE (R64). A STRETCH fabric notice arrives and opens the sender's stretch request from its named Bell count. -/
  | stretchNotice (port : Nat) (notice : List (BitVec 8))
  /-- UNSTRETCH_NOTICE (R64). An UNSTRETCH notice closes its sender's request. -/
  | unstretchNotice (port : Nat) (notice : List (BitVec 8))
  /-- LINE_CHECK_NOTICE (R200). A line-check notice arrives, and rings on that path tag and line or its neighbours re-run their ring step. -/
  | lineCheckNotice (port : Nat) (notice : List (BitVec 8))
  /-- NOTICE_REPEAT (R227). 100 µs pass and the originator sends another copy of a STRETCH, UNSTRETCH or LINE_CHECK notice. -/
  | noticeRepeat
  /-- LANE_FAILURE (R161). A receiver loses FEC lock or sees a lane-tag mismatch for one superframe, or a transmitter reports a fault. -/
  | laneFailure (fibre : Nat) (lane : Nat) (cause : Nat) (found : Nat)
  /-- LANE_FAILURE_REPORT (R161). A lane-control failure report reaches the transmitter, which relieves the lane with the spare or reduces the width. -/
  | laneFailureReport (port : Nat) (msg : List (BitVec 8)) (fibre : Nat) (lane : Nat)
  /-- SPARE_RETARGET_DONE (R160). The spare's line has been retargeted onto the link's path, and the bridge is announced. -/
  | spareRetargetDone (fibre : Nat)
  /-- LANE_READY_MESSAGE (R160). A lane-ready message arrives, and the roll to the spare is announced. -/
  | laneReadyMessage (port : Nat) (msg : List (BitVec 8)) (fibre : Nat) (lane : Nat)
  /-- LANE_READY_TIMEOUT (R160). No lane-ready arrives within 100 superframes; the bridge ends and SPARE_BLOCKED is raised. -/
  | laneReadyTimeout (fibre : Nat)
  /-- BER_MEASUREMENT (R147). A 1 s pre-FEC BER window ends, and FEC_MARGIN_LOW is raised when it exceeds half the threshold. -/
  | berMeasurement (fibre : Nat) (lane : Nat) (errors : Nat) (bits : Nat)
  /-- FIBRE_LOS (R164). The received total stays below −25 dBm for 20 µs, and the Prefect matches the fault against the fallback plans. -/
  | fibreLos (fibre : Nat) (power : Int)
  /-- APR_ENTRY (R165). The transmitter of the pair turns off its data lanes within 100 ms of loss of signal. -/
  | aprEntry (fibre : Nat)
  /-- FIBRE_RESTORED (R164). Valid beacon frames have been received for 100 ms, and the transmitter leaves automatic power reduction. -/
  | fibreRestored (fibre : Nat)
  /-- COMB_SOURCE_FAULT (R141). A comb source loses lock or its output falls 3 dB for 20 µs, and K4 is switched in. -/
  | combSourceFault (src : Nat) (cause : Nat) (offset : Int)
  /-- COMB_SWAP_COMPLETE (R141). The K4 switch completes, and the group's lanes reacquire. -/
  | combSwapComplete (ok : Bool)
  /-- BEACON_FRAME (R166). A pilot beacon frame with good CRC arrives and updates the frequency parent choice and roll-call neighbour data. -/
  | beaconFrame (fibre : Nat) (frame : List (BitVec 8)) (power : Int)
  /-- XN5_QUEUE_HIGH (R169). An FX queue toward one destination has stayed above 256 cells for 1 ms, and lines are requested. -/
  | xn5QueueHigh (fibre : Nat) (dst : BitVec 12) (count : Nat)
  /-- XA_REQUEST (R169). The assigner receives a REQUEST and grants or denies lines. -/
  | xaRequest (fibre : Nat) (msg : List (BitVec 8))
  /-- XA_GRANT (R169). A module on the arc receives a GRANT and acknowledges it. -/
  | xaGrant (fibre : Nat) (msg : List (BitVec 8))
  /-- XA_DENY (R169). The requester receives a DENY. -/
  | xaDeny (fibre : Nat) (msg : List (BitVec 8))
  /-- XA_RELEASE (R169). A RELEASE returns lines to the free list. -/
  | xaRelease (fibre : Nat) (msg : List (BitVec 8))
  /-- XA_ACK (R169). An assignment ACK arrives. -/
  | xaAck (fibre : Nat) (msg : List (BitVec 8))
  /-- XN5_ACTIVATION (R169). At XA.ACT, each module on the arc sets add, drop or pass-through. -/
  | xn5Activation (txn : BitVec 16)
  /-- XN5_LINE_IDLE (R169). A line has carried no data cell for 100 ms and is released. -/
  | xn5LineIdle (fibre : Nat) (lane : Nat)
  /-- XN5_TXN_TIMEOUT (R169). An assignment transaction gets no answer in 10 ms and is repeated. -/
  | xn5TxnTimeout (txn : BitVec 16)
  /-- CAGE_PRESENCE_POLL (R173). Every 100 ms the module polls pluggable presence and flags. -/
  | cagePresencePoll (group : Nat) (cage : Nat) (present : Bool) (flags : List (BitVec 8)) (answered : Bool)
  /-- FACEPLATE_FRAME (R172). An Ethernet frame carrying a cell or 1588 message arrives on a faceplate port. -/
  | faceplateFrame (port : Nat) (frame : List (BitVec 8))
  /-- FACEPLATE_PORT_DOWN (R173). A faceplate port's link drops. -/
  | faceplatePortDown (port : Nat)
  /-- RING_STEP_COMPLETE (R193). A slow-plane ring locks and opens its gate, and CE4 admits waiting ring steps. -/
  | ringStepComplete (line : Nat) (inp : Nat) (out : Nat) (count : Nat) (spaced : Bool)
  /-- LINK_DESKEW_COMPLETE (R190). Terminus receivers lock FEC and deskew the link, and verification starts. -/
  | linkDeskewComplete (fibre : Nat) (link : Nat) (lane : Nat) (skew : Nat)
  /-- LINK_VERIFICATION_DONE (R190). After 11 superframes the lane tags pass or fail verification. -/
  | linkVerificationDone (fibre : Nat) (link : Nat) (tx : Bool) (tags : List Nat)
  /-- PATH_PLAN_COMPLETE (R191). Every link of the share has passed or failed, or 6 ms have passed, and the final reply is sent. -/
  | pathPlanComplete
  /-- FAULT_NOTICE (R196). A Prefect-to-Prefect fault notice arrives; the helper acknowledges it and matches its kind 4 signatures. -/
  | faultNotice (port : Nat) (msg : List (BitVec 8))
  /-- P2P_ACK (R324). An ACK for a Prefect-to-Prefect message arrives and stops its repeats. -/
  | p2pAck (port : Nat) (msg : List (BitVec 8))
  /-- P2P_MESSAGE_REPEAT (R324). 200 µs without an ACK, and the message is sent again. -/
  | p2pMessageRepeat (mseq : BitVec 24)
  /-- P2P_UNDELIVERED (R324). No ACK arrives 1 ms after the third copy. -/
  | p2pUndelivered (mseq : BitVec 24)
  /-- ROLL_CALL_ANSWER_TIMER (R182). Every 1 ms, an answer is sent on each direct link during roll call. -/
  | rollCallAnswerTimer
  /-- ROLL_CALL_ANSWER (R183). A roll-call answer arrives and is used to measure span latency. -/
  | rollCallAnswer (fibre : Nat) (link : Nat) (msg : List (BitVec 8)) (trx : BitVec 64)
  /-- ROLL_CALL_DONE (R182). 100 ms after opening, the module sets the answered state and replies. -/
  | rollCallDone
  /-- FASTPLANE_SLOT_BOUNDARY (R202). A fast-plane slot starts and the crossbars take that slot's configuration. -/
  | fastplaneSlotBoundary (fibres : List Nat) (offs : List Int)
  /-- PTP_SYNC_SEND (R238). At the sync interval, a MASTER port sends a one-step Sync. -/
  | ptpSyncSend (port : Nat)
  /-- PDELAY_REQ_SEND (R244). At its interval, a port sends a Pdelay_Req. -/
  | pdelayReqSend (port : Nat)
  /-- ANNOUNCE_SEND (R238). At its interval, a port sends an Announce. -/
  | announceSend (port : Nat)
  /-- PTP_SYNC (R244). A Sync arrives on a SLAVE port, and the offset is computed and slewed out. -/
  | ptpSync (port : Nat) (msg : List (BitVec 8)) (t2 : BitVec 64)
  /-- PDELAY_REQ (R244). A Pdelay_Req arrives and is answered one-step. -/
  | pdelayReq (port : Nat) (msg : List (BitVec 8)) (t2 : BitVec 64)
  /-- PDELAY_RESP (R244). A Pdelay_Resp arrives and updates the mean path delay. -/
  | pdelayResp (port : Nat) (msg : List (BitVec 8)) (t4 : BitVec 64)
  /-- ANNOUNCE (R241). An Announce arrives and feeds the grandmaster comparison and the time-parent validity. -/
  | announce (port : Nat) (msg : List (BitVec 8))
  /-- ANNOUNCE_RECEIPT_TIMEOUT (R243). No Announce arrives for three intervals, and the grandmaster or parent is chosen again. -/
  | announceReceiptTimeout (port : Nat)
  /-- HOLDOVER_EXPIRED (R246). Holdover reaches 375 ms without a valid time parent. -/
  | holdoverExpired
  /-- LOOP_SAMPLE (R265). A control loop samples its sensor, computes its output, writes its actuator and updates its Rote bin. -/
  | loopSample (eng : Nat) (loop : Nat) (vs : List Int) (scheds : List Int) (bads : List Nat) (missed : Bool)
  /-- CAL_ROTATION_DUE (R282). The rotation interval elapses on a fibre, and a rotation of lane steps begins. -/
  | calRotationDue (fibre : Nat)
  /-- CAL_RUN_COMPLETE (R287). A calibration run's capture and compute end, and it is qualified and judged for agreement. -/
  | calRunComplete (fibre : Nat) (rx : Bool) (means : List Int) (test : Machine.RunStats) (stat : Int)
  /-- JOURNAL_WRITE (R298). A calibration record is written to the MRAM journal once writes are allowed. -/
  | journalWrite
  /-- TEMPERATURE_SET_EVAL (R291). Every 1 ms, calibration sets are interpolated at the die temperature. -/
  | temperatureSetEval (temps : List Int)
  /-- KOP_REFRESH (R294). Every 1 s, each comb operating-point register is refreshed. -/
  | kopRefresh (kop : List (BitVec 128))
  /-- HEARTBEAT_SEND (R310). Every 4,000 sc, a Prefect sends a heartbeat on both cross-links. -/
  | heartbeatSend (unit : Bool)
  /-- HEARTBEAT (R311). A heartbeat arrives from the partner and updates the miss count and health judgement. -/
  | heartbeat (unit : Bool) (link : Bool) (frame : List (BitVec 8))
  /-- HEARTBEAT_MISS (R311). An interval of 4,100 sc passes without a good heartbeat, and the third miss declares the partner failed. -/
  | heartbeatMiss (unit : Bool)
  /-- GATE_CLAIM (R307). A gate receives a claim and accepts or discards it. -/
  | gateClaim (gate : Nat) (unit : Bool) (claim : BitVec 32) (pair : Bool)
  /-- GATE_CONFIG_COMMAND (R309). A gate receives a configuration command and executes it in sequence under its claim rules. -/
  | gateConfigCommand (gate : Nat) (unit : Bool) (cmd : Machine.GateCmd)
  /-- GATE_READBACK_REQUEST (R309). A gate returns its configuration within 2 µs. -/
  | gateReadbackRequest (gate : Nat)
  /-- GATE_BROADCAST (R308). A gate broadcast reaches a Prefect, which learns whether its claim won. -/
  | gateBroadcast (gate : Nat) (unit : Bool) (claim : BitVec 32) (pair : Bool)
  /-- GATE_RESEND_TIMEOUT (R309). The acknowledgement has not advanced for 5 µs, and the sender resends. -/
  | gateResendTimeout (gate : Nat) (unit : Bool)
  /-- PAIR_COPY_WINDOW_EXPIRY (R316). The 400 sc window for the second copy ends, and a single copy is counted. -/
  | pairCopyWindowExpiry (gate : Nat)
  /-- CLAIM_SETTLE_EXPIRY (R313). 800 sc have passed since acceptance, and the new controller sends its first command. -/
  | claimSettleExpiry (unit : Bool)
  /-- CLAIM_RETRY_TIMEOUT (R319). No claim has been accepted in 4,000 sc, and the standby claims again. -/
  | claimRetryTimeout (unit : Bool)
  /-- PATH_PACE_TIMEOUT (R317). A unit trails a gate's acknowledgement by more than 8 for 10 µs and stands down. -/
  | pathPaceTimeout (gate : Nat) (unit : Bool)
  /-- SV_HEARTBEAT_WATCH (R313). The SV engine sees no controller heartbeat for 100 µs and tells the standby to claim. -/
  | svHeartbeatWatch
  /-- REVERT_HOLDOFF_EXPIRY (R320). The hold-off ends, and the home Prefect reverts when allowed. -/
  | revertHoldoffExpiry
  /-- PAIR_MODE_CHANGE_TIMEOUT (R315). A mode change cannot be made within 1 s and is refused. -/
  | pairModeChangeTimeout
  /-- APERTURE_WRITE (R334). The host writes whole lines into the command aperture. -/
  | apertureWrite (off : Nat) (data : List (BitVec 8))
  /-- PACKET_TAKEN (R338). A fully written packet is taken, its lines are freed and its header is checked. -/
  | packetTaken
  /-- APERTURE_RESET (R336). Writing HI_APERTURE_CTL.RESET discards untaken lines and realigns at line 0. -/
  | apertureReset (v : BitVec 32)
  /-- REPLY_WRITE (R345). A reply record is written to the ring once there is room, and vector 0 may be raised. -/
  | replyWrite
  /-- REPLY_RING_FULL (R345). The ring has been full for 10 ms. -/
  | replyRingFull
  /-- EVENT_PUSH (R347). A Daybook record at or above the push threshold is pushed into the reply ring. -/
  | eventPush
  /-- VECTOR0_TIME_LIMIT (R351). The moderation time since the oldest unsignalled record expires, and vector 0 is raised. -/
  | vector0TimeLimit
  /-- REPLY_RING_ENABLE (R345). Setting HI_RING_CFG.EN enables the ring and sets the producer index to 0. -/
  | replyRingEnable (v : BitVec 32)
  /-- REPLY_RING_DISABLE (R345). Clearing EN discards later replies and pushes. -/
  | replyRingDisable (v : BitVec 32)
  /-- REPLY_RING_CONSUME (R345). A write to HI_RING_CONS frees room for waiting replies. -/
  | replyRingConsume (v : BitVec 32)
  /-- REGISTER_WRITE (R330). A write to any BAR0 register that has no row of its own. -/
  | registerWrite (off : Nat) (data : List (BitVec 8))
  /-- FT_NOW_LOW_READ (R451). A 32-bit read of a register pair's low half latches its high half. -/
  | ftNowLowRead (off : Nat) (len : Nat)
  /-- BAR2_READ (R333). The host reads LPDDR or tile store through the BAR2 window. -/
  | bar2Read (off : Nat) (len : Nat) (err : Machine.ReadErr)
  /-- BAR2_WRITE (R333). The host writes through the BAR2 window, with merging of narrow writes. -/
  | bar2Write (off : Nat) (data : List (BitVec 8))
  /-- BAR2_TIMEOUT (R333). No host-port opportunity for 900 µs, and the read completes with Completer Abort. -/
  | bar2Timeout
  /-- EXPERT_LATCH_EXPIRY (R349). HI_LATCH.REMAIN reaches 0 and every latch clears. -/
  | expertLatchExpiry
  /-- FW_GO (R359). Writing BOOT_CTL.FW_GO in stage 4 starts the firmware fetch. -/
  | fwGo (v : BitVec 32)
  /-- COMB_HOLD_RELEASE (R359). Writing 0 to BOOT_CTL.COMB_HOLD lets a cold start proceed to comb bring-up. -/
  | combHoldRelease (v : BitVec 32)
  /-- ID_MODULE_WRITE (R450). A write in Awake sets the module identifier, clears STORED and sets ASSIGNED. -/
  | idModuleWrite (v : BitVec 32)
  /-- BM_WAKE (R438). Writing 0xA5 to BM_WAKE in Asleep returns the module to Awake. -/
  | bmWake (v : BitVec 8)
  /-- BM_ALERT_READ (R438). Reading BM_ALERT returns and clears its bits and may release ALERT_N. -/
  | bmAlertRead
  /-- MIRROR_WRITE (R404). A WARN or higher record is written to the MRAM mirror. -/
  | mirrorWrite (ok : Bool)
  /-- CHECKPOINT_WRITE (R403). A new sequence ceiling or closed count is written to MRAM. -/
  | checkpointWrite
  /-- CLEARED_RECORD_ERASE (R407). Mirror records of a clear are erased in the background within 1 s. -/
  | clearedRecordErase
  /-- TOKEN_REFILL (R402). A code's token bucket gains a token at its refill rate. -/
  | tokenRefill (code : BitVec 16)
  /-- LIFETIME_STORE (R413). Hourly, the lifetime counts and the calendar are stored in MRAM. -/
  | lifetimeStore
  /-- NOP (R355). Command that does nothing. -/
  | nop (p : Machine.Pkt)
  /-- IDENTIFY (R355). Returns the identity, power state, job state and ownership. -/
  | identify (p : Machine.Pkt)
  /-- EXECUTE_LIST (R342). Fetches and takes a list of packets from host memory. -/
  | executeList (p : Machine.Pkt) (addr : BitVec 64) (len : BitVec 32) (stop : BitVec 8) (ok : Bool) (data : List (BitVec 8))
  /-- EXPERT_LATCH (R349). Sets or clears the expert latches of groups. -/
  | expertLatch (p : Machine.Pkt) (mask : BitVec 16) (secs : BitVec 16)
  /-- SET_POWER_STATE_ASLEEP (R380). Moves the module toward Asleep. -/
  | setPowerStateAsleep (p : Machine.Pkt)
  /-- SET_POWER_STATE_AWAKE (R380). Moves the module to Awake. -/
  | setPowerStateAwake (p : Machine.Pkt)
  /-- SET_POWER_STATE_LIT (R380). Brings the module to Lit. -/
  | setPowerStateLit (p : Machine.Pkt)
  /-- WARM_START (R367). Quiesces and restarts SV, keeping the optics and any job. -/
  | warmStart (p : Machine.Pkt)
  /-- COLD_START (R356). Starts a cold start after the reply. -/
  | coldStart (p : Machine.Pkt)
  /-- SET_POWER_CAP (R387). Sets the power cap and the input-current limit. -/
  | setPowerCap (p : Machine.Pkt) (watts : BitVec 16) (amps : BitVec 8)
  /-- MODULE_PROFILE_READ (R44). Returns the module profile. -/
  | moduleProfileRead (p : Machine.Pkt) (buf : Machine.Buf)
  /-- FABRIC_PROFILE_INSTALL (R46). Installs a fabric profile, extends MR5 and disarms the fallback plans. -/
  | fabricProfileInstall (p : Machine.Pkt) (addr : BitVec 64) (len : BitVec 32) (image : List (BitVec 8)) (prof : Machine.FabProf)
  /-- FABRIC_PROFILE_READ (R355). Returns the fabric profile. -/
  | fabricProfileRead (p : Machine.Pkt) (buf : Machine.Buf)
  /-- JOB_LOAD (R69). Validates and loads a Timetable image, reaching Running. -/
  | jobLoad (p : Machine.Pkt) (addr : BitVec 64) (len : BitVec 32) (number : BitVec 64) (seed : BitVec 64) (key : BitVec 64) (image : List (BitVec 8))
  /-- JOB_START_STRICT (R51). Starts the job in strict mode at T0. -/
  | jobStartStrict (p : Machine.Pkt) (t0 : BitVec 64)
  /-- JOB_START_LOOSE (R51). Starts the job in loose mode at T0. -/
  | jobStartLoose (p : Machine.Pkt) (t0 : BitVec 64)
  /-- JOB_HOLD_BELL (R70). Requests a hold at a Bell count. -/
  | jobHoldBell (p : Machine.Pkt) (v : BitVec 64)
  /-- JOB_HOLD_PERIOD (R70). Requests a hold at the end of a work period. -/
  | jobHoldPeriod (p : Machine.Pkt) (v : BitVec 64)
  /-- JOB_RESUME_STRICT (R70). Resumes the job through CATCHUP to strict mode at T_r. -/
  | jobResumeStrict (p : Machine.Pkt) (tr : BitVec 64) (w : BitVec 64)
  /-- JOB_RESUME_LOOSE (R70). Resumes the job in loose mode at once. -/
  | jobResumeLoose (p : Machine.Pkt) (tr : BitVec 64) (w : BitVec 64)
  /-- JOB_UNLOAD (R70). Unloads the image and returns the module to Lit. -/
  | jobUnload (p : Machine.Pkt)
  /-- JOB_STATUS (R355). Returns the job state. -/
  | jobStatus (p : Machine.Pkt)
  /-- TRAP_READ (R61). Returns a station's trap record. -/
  | trapRead (p : Machine.Pkt) (stn : BitVec 16) (buf : Machine.Buf)
  /-- SYNC_SIGNAL (R38). The host signals a sync object. -/
  | syncSignal (p : Machine.Pkt) (obj : BitVec 16) (n : BitVec 16)
  /-- SYNC_ARM (R41). Re-arms notification of a sync object. -/
  | syncArm (p : Machine.Pkt) (obj : BitVec 16) (thresh : BitVec 16) (vec : BitVec 8)
  /-- SYNC_READ (R355). Returns a sync object. -/
  | syncRead (p : Machine.Pkt) (obj : BitVec 16)
  /-- SYNC_RESET (R38). Resets a sync object while Held or unloaded. -/
  | syncReset (p : Machine.Pkt) (obj : BitVec 16)
  /-- CONTEXT_READ (R32). Returns stream contexts. -/
  | contextRead (p : Machine.Pkt) (first : BitVec 32) (count : BitVec 32) (buf : Machine.Buf)
  /-- MEM_READ (R355). Copies memory to host memory. -/
  | memRead (p : Machine.Pkt) (mpa : BitVec 64) (len : BitVec 32) (host : BitVec 64) (err : Machine.ReadErr)
  /-- MEM_WRITE (R355). Copies host memory into memory. -/
  | memWrite (p : Machine.Pkt) (mpa : BitVec 64) (len : BitVec 32) (host : BitVec 64) (data : List (BitVec 8))
  /-- MEM_FILL (R355). Fills memory with a pattern. -/
  | memFill (p : Machine.Pkt) (mpa : BitVec 64) (len : BitVec 64) (pattern : BitVec 64)
  /-- HX_RESTART (R131). Restarts a halted HX channel. -/
  | hxRestart (p : Machine.Pkt) (die : BitVec 8) (chan : BitVec 8)
  /-- CHANNEL_RETIRE (R137). Retires an LPDDR channel. -/
  | channelRetire (p : Machine.Pkt) (chan : BitVec 8)
  /-- ROW_REMAP_ADD (R135). Adds a row remap entry and copies the row. -/
  | rowRemapAdd (p : Machine.Pkt) (chan : BitVec 8) (sub : BitVec 8) (bank : BitVec 8) (row : BitVec 32) (err : Machine.ReadErr)
  /-- ROW_REMAP_REMOVE (R135). Removes a row remap entry. -/
  | rowRemapRemove (p : Machine.Pkt) (chan : BitVec 8) (sub : BitVec 8) (bank : BitVec 8) (row : BitVec 32) (err : Machine.ReadErr)
  /-- MEM_COUNTS_READ (R355). Returns the per-pin error counts. -/
  | memCountsRead (p : Machine.Pkt) (first : BitVec 8) (count : BitVec 16) (buf : Machine.Buf)
  /-- PIN_MARK_CLEAR (R125). Clears a degraded sub-channel mark. -/
  | pinMarkClear (p : Machine.Pkt) (chan : BitVec 8) (sub : BitVec 8)
  /-- PPR_REQUEST (R136). Requests post-package repair of a remapped row. -/
  | pprRequest (p : Machine.Pkt) (chan : BitVec 8) (sub : BitVec 8) (bank : BitVec 8) (row : BitVec 32)
  /-- SOFT_REPAIR_WRITE (R134). Writes a soft repair entry. -/
  | softRepairWrite (p : Machine.Pkt) (die : BitVec 8) (index : BitVec 8) (entry : BitVec 32)
  /-- FIELD_FUSE_BURN (R134). Burns a field fuse word. -/
  | fieldFuseBurn (p : Machine.Pkt) (die : BitVec 8) (word : BitVec 8) (entry : BitVec 32)
  /-- CHANNEL_RESTORE (R137). Returns a retired channel to service, zero-filled. -/
  | channelRestore (p : Machine.Pkt) (chan : BitVec 8)
  /-- SET_LIGHT_PATHS (R184). Submits a host path plan. -/
  | setLightPaths (p : Machine.Pkt) (plan : List (BitVec 8))
  /-- PATH_PLAN_CANCEL (R355). Cancels a pending host plan. -/
  | pathPlanCancel (p : Machine.Pkt) (num : BitVec 32)
  /-- STORE_FALLBACK (R194). Stores a fallback plan with its signature. -/
  | storeFallback (p : Machine.Pkt) (index : BitVec 8) (sig : BitVec 32) (plan : List (BitVec 8))
  /-- FALLBACK_ARM (R194). Arms the fallback plans named in a mask. -/
  | fallbackArm (p : Machine.Pkt) (mask : BitVec 16)
  /-- FALLBACK_DISARM (R194). Disarms the fallback plans named in a mask. -/
  | fallbackDisarm (p : Machine.Pkt) (mask : BitVec 16)
  /-- FALLBACK_READ (R355). Returns a fallback plan. -/
  | fallbackRead (p : Machine.Pkt) (index : BitVec 8) (buf : Machine.Buf)
  /-- ROLL_CALL_OPEN (R182). Opens a roll call with an identifier. -/
  | rollCallOpen (p : Machine.Pkt) (ident : BitVec 32)
  /-- ROLL_CALL_CLOSE (R182). Closes the roll call. -/
  | rollCallClose (p : Machine.Pkt) (ident : BitVec 32)
  /-- ROLL_CALL_READ (R182). Returns the roll-call results of a fibre. -/
  | rollCallRead (p : Machine.Pkt) (fibre : BitVec 8)
  /-- GROUP_SET_MODE (R170). Sets a group's mode. -/
  | groupSetMode (p : Machine.Pkt) (group : BitVec 8) (mode : BitVec 8) (ether : BitVec 16)
  /-- CAGE_CONFIG (R355). Configures a faceplate cage. -/
  | cageConfig (p : Machine.Pkt) (group : BitVec 8) (cage : BitVec 8) (ports : BitVec 8) (egress : BitVec 32) (ingress : BitVec 32)
  /-- CMIS_CDB (R173). Passes a CDB message to a pluggable. -/
  | cmisCdb (p : Machine.Pkt) (group : BitVec 8) (cage : BitVec 8) (buf : Machine.Buf) (msg : List (BitVec 8)) (answer : List (BitVec 8)) (ok : Bool)
  /-- COMB_SWAP_IN (R141). Puts K4 in place of a source. -/
  | combSwapIn (p : Machine.Pkt) (src : BitVec 8)
  /-- COMB_SWAP_RESTORE (R141). Restores the original comb source. -/
  | combSwapRestore (p : Machine.Pkt) (src : BitVec 8)
  /-- SET_CROSSPOINT (R355). Sets one crosspoint directly. -/
  | setCrosspoint (p : Machine.Pkt) (line : BitVec 8) (inp : BitVec 8) (out : BitVec 8)
  /-- CLEAR_CROSSPOINT (R355). Clears one crosspoint directly. -/
  | clearCrosspoint (p : Machine.Pkt) (line : BitVec 8) (inp : BitVec 8) (out : BitVec 8)
  /-- LANE_FORCE_SPARE (R160). Forces the spare onto a lane. -/
  | laneForceSpare (p : Machine.Pkt) (fibre : BitVec 8) (lane : BitVec 8)
  /-- LANE_FAILED_CLEAR (R161). Clears a lane's failed mark. -/
  | laneFailedClear (p : Machine.Pkt) (fibre : BitVec 8) (lane : BitVec 8)
  /-- TIME_SET_NOW (R245). Sets the grandmaster's time now. -/
  | timeSetNow (p : Machine.Pkt) (t : BitVec 64)
  /-- TIME_SET_AT_PPS (R245). Sets the grandmaster's time at the next PPS_IN. -/
  | timeSetAtPps (p : Machine.Pkt) (t : BitVec 64)
  /-- TIME_ADJUST (R245). Slews the grandmaster's time by an offset. -/
  | timeAdjust (p : Machine.Pkt) (off : BitVec 64)
  /-- TIME_SOURCE (R355). Selects the time source and priority1. -/
  | timeSource (p : Machine.Pkt) (source : BitVec 8) (port : BitVec 8) (prio : BitVec 8)
  /-- PTP_PORT_SET (R238). Sets a port's delayAsymmetry. -/
  | ptpPortSet (p : Machine.Pkt) (port : BitVec 8) (asym : BitVec 64)
  /-- TIME_STATUS (R355). Returns the time state. -/
  | timeStatus (p : Machine.Pkt)
  /-- BELL_SET (R251). Writes a Bell descriptor. -/
  | bellSet (p : Machine.Pkt) (index : BitVec 8) (desc : BitVec 256)
  /-- BELL_CANCEL (R251). Cancels a Bell. -/
  | bellCancel (p : Machine.Pkt) (index : BitVec 8)
  /-- LOOP_READ (R355). Returns a loop's descriptor, state and coefficient sets. -/
  | loopRead (p : Machine.Pkt) (loop : BitVec 16) (buf : Machine.Buf)
  /-- LOOP_SET_POINT (R267). Writes a loop's set-point. -/
  | loopSetPoint (p : Machine.Pkt) (loop : BitVec 16) (sp : BitVec 32)
  /-- LOOP_FLAGS_READ (R264). Reads and clears loop flags. -/
  | loopFlagsRead (p : Machine.Pkt) (first : BitVec 16) (count : BitVec 8)
  /-- ROTE_SAVE (R273). Saves the Rote tables with the image digest. -/
  | roteSave (p : Machine.Pkt) (mask : BitVec 8) (buf : Machine.Buf)
  /-- ROTE_LOAD (R273). Loads saved Rote tables while LOADED. -/
  | roteLoad (p : Machine.Pkt) (addr : BitVec 64) (len : BitVec 32) (data : List (BitVec 8))
  /-- LOOP_WRITE_DESC (R262). Writes a disabled loop's descriptor. -/
  | loopWriteDesc (p : Machine.Pkt) (loop : BitVec 16) (desc : BitVec 256)
  /-- LOOP_WRITE_COEFFS (R269). Writes a coefficient set of a loop. -/
  | loopWriteCoeffs (p : Machine.Pkt) (loop : BitVec 16) (region : BitVec 8) (coefs : List (BitVec 8))
  /-- LOOP_ENABLE (R262). Enables a loop. -/
  | loopEnable (p : Machine.Pkt) (loop : BitVec 16)
  /-- LOOP_DISABLE (R262). Disables a loop. -/
  | loopDisable (p : Machine.Pkt) (loop : BitVec 16)
  /-- CAL_CONFIG (R282). Sets the rotation interval and fibre enables. -/
  | calConfig (p : Machine.Pkt) (interval : BitVec 32) (mask : BitVec 16)
  /-- CAL_LANE_STEP (R284). Requests a lane step. -/
  | calLaneStep (p : Machine.Pkt) (fibre : BitVec 8) (lane : BitVec 8)
  /-- CAL_READ (R297). Returns a journal record. -/
  | calRead (p : Machine.Pkt) (kind : BitVec 8) (fibre : BitVec 8) (lane : BitVec 8) (buf : Machine.Buf)
  /-- PRIV_READ (R296). Returns the comb and EO bias registers. -/
  | privRead (p : Machine.Pkt) (buf : Machine.Buf)
  /-- PRIV_WRITE_COMB (R296). Writes a dark comb source's operating point. -/
  | privWriteComb (p : Machine.Pkt) (index : BitVec 16) (value : BitVec 128)
  /-- PRIV_WRITE_EO_BIAS (R296). Writes an EO bias register. -/
  | privWriteEoBias (p : Machine.Pkt) (index : BitVec 16) (value : BitVec 128)
  /-- CAL_SUSPECT_CLEAR (R288). Clears a lane's calibration-suspect mark. -/
  | calSuspectClear (p : Machine.Pkt) (fibre : BitVec 8) (lane : BitVec 8) (side : BitVec 8)
  /-- PREFECT_STATUS (R325). Returns PFX_STATUS and the gate discard counts. -/
  | prefectStatus (p : Machine.Pkt)
  /-- PREFECT_SET_MODE (R315). Sets PAIR_LIMIT and changes the pair mode. -/
  | prefectSetMode (p : Machine.Pkt) (limit : BitVec 16)
  /-- PREFECT_SET_HOME (R320). Names the home Prefect and its hold-off. -/
  | prefectSetHome (p : Machine.Pkt) (unit : BitVec 8) (hold : BitVec 16)
  /-- PREFECT_REVERT_ENABLE (R321). Re-enables reverting. -/
  | prefectRevertEnable (p : Machine.Pkt)
  /-- PREFECT_SWITCHOVER (R321). Commands a change of controller. -/
  | prefectSwitchover (p : Machine.Pkt)
  /-- DAYBOOK_READ (R406). Returns Daybook records from a store snapshot. -/
  | daybookRead (p : Machine.Pkt) (store : BitVec 8) (first : BitVec 64) (count : BitVec 16) (buf : Machine.Buf)
  /-- DAYBOOK_CLEAR (R407). Clears a range of records under signature. -/
  | daybookClear (p : Machine.Pkt) (first : BitVec 64) (last : Machine.ClearEnd)
  /-- DAYBOOK_RATE_SET (R402). Sets a code's burst and refill. -/
  | daybookRateSet (p : Machine.Pkt) (code : BitVec 16) (burst : BitVec 8) (refill : BitVec 8)
  /-- NONCE_GET (R348). Returns a new nonce and invalidates the previous one. -/
  | nonceGet (p : Machine.Pkt)
  /-- ATTEST (R427). Writes a signed attestation report. -/
  | attest (p : Machine.Pkt) (nonce : BitVec 256) (mask : BitVec 8) (buf : Machine.Buf)
  /-- CERT_READ (R419). Returns the certificate chain. -/
  | certRead (p : Machine.Pkt) (buf : Machine.Buf)
  /-- OPERATOR_KEY_INSTALL (R429). Installs an operator key. -/
  | operatorKeyInstall (p : Machine.Pkt) (index : BitVec 8) (key : BitVec 768)
  /-- OPERATOR_KEY_REMOVE (R429). Removes an operator key. -/
  | operatorKeyRemove (p : Machine.Pkt) (index : BitVec 8) (key : BitVec 768)
  /-- MR7_EXTEND (R421). Extends MR7 with a host digest. -/
  | mr7Extend (p : Machine.Pkt) (d : BitVec 384)
  /-- LIFETIME_READ (R413). Returns the lifetime records. -/
  | lifetimeRead (p : Machine.Pkt) (buf : Machine.Buf)
  /-- CALENDAR_SET (R416). Sets the calendar. -/
  | calendarSet (p : Machine.Pkt) (t : BitVec 64)
  /-- CALENDAR_READ (R355). Returns the calendar. -/
  | calendarRead (p : Machine.Pkt)
  /-- GET_VERSION (R424). SPDM request answered with version 1.2. -/
  | getVersion (req : List (BitVec 8))
  /-- GET_CAPABILITIES (R424). SPDM request answered with the capability flags. -/
  | getCapabilities (req : List (BitVec 8))
  /-- NEGOTIATE_ALGORITHMS (R424). SPDM request answered with P-384 and SHA-384. -/
  | negotiateAlgorithms (req : List (BitVec 8))
  /-- GET_DIGESTS (R424). SPDM request answered with the digest of slot 0. -/
  | getDigests (req : List (BitVec 8))
  /-- GET_CERTIFICATE (R419). SPDM request answered with the certificate chain. -/
  | getCertificate (req : List (BitVec 8))
  /-- CHALLENGE (R425). SPDM challenge answered with a signature and summary hash. -/
  | challenge (req : List (BitVec 8))
  /-- GET_MEASUREMENTS (R425). SPDM request answered with measurement blocks. -/
  | getMeasurements (req : List (BitVec 8))
  /-- SPDM_UNSUPPORTED_REQUEST (R424). Any other SPDM request is answered with ERROR UnsupportedRequest. -/
  | spdmUnsupportedRequest (req : List (BitVec 8))
  /-- EMERGENCY_REFRESH_DUE (R129). While package readings stay above the limit, a further emergency all-bank refresh falls due every tREFI (or tREFI/2) after the first, and with no image loaded it is issued at once. -/
  | emergencyRefreshDue (pkg : Nat)
  /-- NV_COMMAND_WAIT_TIMEOUT (R377). A host command whose effect is an MRAM write has waited 1 s under the write inhibit and is refused with 0x0201. -/
  | nvCommandWaitTimeout
  /-- MIRROR_QUEUE_TIMEOUT (R409). The waiting Daybook mirror queue has not been written within 1 s after writes stopped being inhibited, so the store is failed and the Daybook enters narrow mode. -/
  | mirrorQueueTimeout
  /-- POST_PACKAGE_REPAIR_DONE (R136). A requested post-package repair finishes in the package, the remap entry and spare row are freed, and the pending packet gets its final reply with the outcome. -/
  | postPackageRepairDone (ok : Bool)
  /-- THERMTRIP_ALERT_REPEAT (R438). While THERMTRIP_N stays low, BM_ALERT bit 0 is set again every 1 s, keeping ALERT_N low. -/
  | thermtripAlertRepeat
  /-- SERVICE_CELL_SLOT (R156). A link's slot with s mod 64 = 0 comes round, and position 0 sends a service cell carrying queued remote signals with their RS.SEQ, LINK_ACK entries and messages, emptying those queues. -/
  | serviceCellSlot (fibre : Nat) (link : Nat)
  /-- FACEPLATE_PORT_UP (R173). The data path of a pluggable started by the module comes up, and the faceplate port's Ethernet link enters service. -/
  | faceplatePortUp (port : Nat)
  deriving DecidableEq, Repr

end Sys2Proof
end

