-- ==== Sys2Proof/Decode.lean ====
section
/-!
DEFINITION. The commands that a word spells. No row of the opcode table gives a command any bits: a command is an event at one
of the module's interfaces, not a word that a processor fetches. So no word spells one.
-/

namespace Sys2Proof

/-- The command that a word spells by the bits of the opcode table: none, for the table gives no row bits. -/
def decodeTableWord (_nbits _w : Nat) : Option Instr := none

end Sys2Proof
end

