-- ==== Sys2Proof/Machine/Bits.lean ====
section
/-!
DEFINITION. Bytes and bit fields: little-endian numbers (R5), fields of a number, two's complement and saturation.
-/

namespace Sys2Proof.Machine

/-- The n bytes of v, least significant first (R5). -/
def le : Nat → Nat → Bytes
  | 0, _ => []
  | n + 1, v => BitVec.ofNat 8 v :: le n (v / 256)

/-- The number that bytes spell, least significant first (R5). -/
def ofLe : Bytes → Nat
  | [] => 0
  | b :: t => b.toNat + 256 * ofLe t

/-- The n bytes of i in two's complement. -/
def leInt (n : Nat) (i : Int) : Bytes := le n (i % (2 : Int) ^ (8 * n)).toNat

/-- n zero bytes. -/
def zeros (n : Nat) : Bytes := List.replicate n 0

/-- The first n bytes of b, with zeros where b ends sooner. -/
def padTo (n : Nat) (b : Bytes) : Bytes := (b ++ zeros (n - b.length)).take n

/-- n bytes of b from byte off. -/
def part (b : Bytes) (off n : Nat) : Bytes := (b.drop off).take n

/-- The number in n bytes of b from byte off. -/
def rd (b : Bytes) (off n : Nat) : Nat := ofLe (part b off n)

/-- Bits lo + w - 1 to lo of v. -/
def fld (v lo w : Nat) : Nat := v / 2 ^ lo % 2 ^ w

/-- Bit i of v. -/
def bit (v i : Nat) : Bool := v.testBit i

/-- The number 1 or 0. -/
def b2n : Bool → Nat
  | true => 1
  | false => 0

/-- The two's complement reading of the low w bits of v. -/
def sx (w v : Nat) : Int := if 2 ^ (w - 1) ≤ v % 2 ^ w then (v % 2 ^ w : Nat) - (2 : Int) ^ w else (v % 2 ^ w : Nat)

/-- The greatest number of w bits. -/
def ones (w : Nat) : Nat := 2 ^ w - 1

/-- v, held at the greatest number of w bits. -/
def satN (w v : Nat) : Nat := min v (ones w)

/-- v saturated to w bits, as n bytes. -/
def leSat (n v : Nat) : Bytes := le n (satN (8 * n) v)

/-- i held between lo and hi. -/
def clampI (lo hi i : Int) : Int := max lo (min hi i)

/-- i saturated to w bits of two's complement. -/
def satI (w : Nat) (i : Int) : Int := clampI (-(2 : Int) ^ (w - 1)) ((2 : Int) ^ (w - 1) - 1) i

/-- Addition that stays at the greatest value of its width. -/
def addSat {w : Nat} (a : BitVec w) (n : Nat) : BitVec w := BitVec.ofNat w (min (a.toNat + n) (2 ^ w - 1))

/-- The least multiple of k that is not below n. -/
def roundUp (n k : Nat) : Nat := (n + k - 1) / k * k

/-- Division rounded up. -/
def ceilDiv (n k : Nat) : Nat := (n + k - 1) / k

/-- The bits that are set in the low w bits of v, lowest first. -/
def setBits (v w : Nat) : List Nat := (List.range w).filter fun i => v.testBit i

/-- The number with the bits of the list set. -/
def ofBits (l : List Nat) : Nat := l.foldl (fun a i => a ||| 2 ^ i) 0

/-- The n chunks of k bytes of b. -/
def chunks (k : Nat) : Nat → Bytes → List Bytes
  | 0, _ => []
  | n + 1, b => b.take k :: chunks k n (b.drop k)

/-- The first element of a list that passes the test, with its place. -/
def findIdx? {α : Type} (f : α → Bool) : List α → Nat → Option (Nat × α)
  | [], _ => none
  | a :: t, i => if f a then some (i, a) else findIdx? f t (i + 1)

/-- The list without its first element that passes the test. -/
def dropFirst {α : Type} (f : α → Bool) : List α → List α
  | [] => []
  | a :: t => if f a then t else a :: dropFirst f t

/-- The list with f applied at the first element that passes the test. -/
def mapFirst {α : Type} (p : α → Bool) (f : α → α) : List α → List α
  | [] => []
  | a :: t => if p a then f a :: t else a :: mapFirst p f t

end Sys2Proof.Machine
end

