-- ==== Sys2Proof/Machine/Sha.lean ====
section
/-!
DEFINITION. The SHA-384 digest and CRC-32C. Every digest of the spec is SHA-384 (R418); DB.CRC and the cell CRC are
CRC-32C (R149, R398). Both are the published standards.
-/

namespace Sys2Proof.Machine

/-- The low 64 bits. -/
def w64 (x : Nat) : Nat := x % 18446744073709551616

/-- Rotate a 64-bit word right. -/
def ror64 (x n : Nat) : Nat := x / 2 ^ n ||| w64 (x * 2 ^ (64 - n))

/-- The primes up to 409, of which SHA-384 takes its constants: 80 of them, none with a divisor up to 19 but itself. -/
def shaPrimes : List Nat := (List.range 410).filter fun p => decide (2 ≤ p) && [2, 3, 5, 7, 11, 13, 17, 19].all fun d => decide (p = d) || decide (p % d ≠ 0)

/-- The greatest number of so many bits whose power e is at most n, from the bits found so far. -/
def rootBits (e n : Nat) : Nat → Nat → Nat
  | 0, r => r
  | k + 1, r => rootBits e n k (if (r + 2 ^ k) ^ e ≤ n then r + 2 ^ k else r)

/-- The first 64 bits of the fraction of the e-th root of a prime below 2⁹. -/
def rootFraction (e p : Nat) : Nat := w64 (rootBits e (p * 2 ^ (64 * e)) 69 0)

/-- The round constants: the fractions of the cube roots of the first 80 primes. -/
def shaK : List Nat := shaPrimes.map (rootFraction 3)

/-- The initial hash value of SHA-384: the fractions of the square roots of the ninth to the sixteenth prime. -/
def shaH0 : List Nat := ((shaPrimes.drop 8).take 8).map (rootFraction 2)

/-- The sixteen big-endian words of a 128-byte block. -/
def shaWords : Nat → Bytes → List Nat
  | 0, _ => []
  | n + 1, b => ofLe ((b.take 8).reverse) :: shaWords n (b.drop 8)

/-- One round: the eight working words, a round constant and a schedule word. -/
def shaRound (h : List Nat) (k w : Nat) : List Nat :=
  match h with
  | [a, b, c, d, e, f, g, hh] =>
    let s1 := (ror64 e 14).xor ((ror64 e 18).xor (ror64 e 41))
    let ch := (e &&& f).xor ((18446744073709551615 - e) &&& g)
    let t1 := hh + s1 + ch + k + w
    let s0 := (ror64 a 28).xor ((ror64 a 34).xor (ror64 a 39))
    let mj := (a &&& b).xor ((a &&& c).xor (b &&& c))
    [w64 (t1 + s0 + mj), a, b, c, w64 (d + t1), e, f, g]
  | _ => h

/-- The next schedule word from the last sixteen. -/
def shaNext (ws : List Nat) : Nat :=
  let x := ws.getD 1 0
  let y := ws.getD 14 0
  let s0 := (ror64 x 1).xor ((ror64 x 8).xor (x / 128))
  let s1 := (ror64 y 19).xor ((ror64 y 61).xor (y / 64))
  w64 (ws.getD 0 0 + s0 + ws.getD 9 0 + s1)

/-- The rounds: constants to come, the sliding window of sixteen schedule words, the working words. -/
def shaRounds : List Nat → List Nat → List Nat → List Nat
  | [], _, h => h
  | k :: ks, ws, h => shaRounds ks (ws.drop 1 ++ [shaNext ws]) (shaRound h k (ws.getD 0 0))

/-- One block. -/
def shaBlock (h : List Nat) (b : Bytes) : List Nat :=
  (h.zip (shaRounds shaK (shaWords 16 b) h)).map fun p => w64 (p.1 + p.2)

/-- The blocks of a padded message. -/
def shaBlocks : Nat → Bytes → List Nat → List Nat
  | 0, _, h => h
  | n + 1, b, h => shaBlocks n (b.drop 128) (shaBlock h (b.take 128))

/-- The message with its padding: 0x80, zeros, and the bit length as a big-endian 128-bit number. -/
def shaPad (m : Bytes) : Bytes :=
  m ++ [0x80#8] ++ zeros ((239 - m.length % 128) % 128) ++ (le 16 (8 * m.length)).reverse

/-- The 48 digest bytes of SHA-384. -/
def sha384 (m : Bytes) : Bytes :=
  let p := shaPad m
  (((shaBlocks (p.length / 128) p shaH0).take 6).map fun w => (le 8 w).reverse).flatten

/-- The digest as a 384-bit value whose byte i is digest byte i (R5). -/
def digest (m : Bytes) : BitVec 384 := BitVec.ofNat 384 (ofLe (sha384 m))

/-- The 48 bytes of a digest value. -/
def digestBytes (d : BitVec 384) : Bytes := le 48 d.toNat

/-- One bit of the reflected CRC-32C. -/
def crcBit (c : Nat) : Nat := if c % 2 = 1 then (c / 2).xor 0x82F63B78 else c / 2

/-- One byte of CRC-32C. -/
def crcByte (c : Nat) (b : Byte) : Nat :=
  let x := c.xor b.toNat
  crcBit (crcBit (crcBit (crcBit (crcBit (crcBit (crcBit (crcBit x)))))))

/-- One bit of the CRC-16 with polynomial 0x1021, not reflected (R166). -/
def crc16Bit (c : Nat) : Nat := (if 0x8000 ≤ c then (2 * c).xor 0x1021 else 2 * c) % 65536

/-- One byte of that CRC-16. -/
def crc16Byte (c : Nat) (b : Byte) : Nat :=
  let x := c.xor (b.toNat * 256)
  crc16Bit (crc16Bit (crc16Bit (crc16Bit (crc16Bit (crc16Bit (crc16Bit (crc16Bit x)))))))

/-- CRC-16 of bytes in the order in which they are sent, from 0xFFFF (R166). -/
def crc16 (b : Bytes) : Nat := b.foldl crc16Byte 0xFFFF

/-- CRC-32C of bytes, with initial value and final exclusive-or of ones. -/
def crc32c (b : Bytes) : Nat := (b.foldl crcByte 0xFFFFFFFF).xor 0xFFFFFFFF

/-- One bit of the reflected CRC-32 of IEEE 802.3. -/
def fcsBit (c : Nat) : Nat := if c % 2 = 1 then (c / 2).xor 0xEDB88320 else c / 2

/-- One byte of that CRC-32. -/
def fcsByte (c : Nat) (b : Byte) : Nat :=
  let x := c.xor b.toNat
  fcsBit (fcsBit (fcsBit (fcsBit (fcsBit (fcsBit (fcsBit (fcsBit x)))))))

/-- The frame check sequence of an Ethernet frame (R172). -/
def fcs (b : Bytes) : Nat := (b.foldl fcsByte 0xFFFFFFFF).xor 0xFFFFFFFF

end Sys2Proof.Machine
end

