-- ==== Sys2Proof/Machine/Ecdsa.lean ====
section
/-!
DEFINITION. ECDSA on P-384 over SHA-384 digests: signature verification and the test that a point lies on the curve
(R348, R360, R429). The curve and the algorithm are the published standards.
-/

namespace Sys2Proof.Machine

/-- The prime of P-384. -/
def p384 : Nat := 2 ^ 384 - 2 ^ 128 - 2 ^ 96 + 2 ^ 32 - 1

/-- The order of the base point. -/
def n384 : Nat :=
  0xffffffffffffffffffffffffffffffffffffffffffffffffc7634d81f4372ddf581a0db248b0a77aecec196accc52973

/-- The curve constant b. -/
def b384 : Nat :=
  0xb3312fa7e23ee7e4988e056be3f82d19181d9c6efe8141120314088f5013875ac656398d8a2ed19d2a85c8edd3ec2aef

/-- The base point. -/
def gx384 : Nat :=
  0xaa87ca22be8b05378eb1c71ef320ad746e1d3b628ba79b9859f741e082542a385502f25dbf55296c3a545e3872760ab7

/-- The base point's second coordinate. -/
def gy384 : Nat :=
  0x3617de4a96262c6f5d9e98bf9292dc29f8f41dbd289a147ce9da3113b5f0b8c00a60b1ce1d7e819d7a431d7c90ea0e5f

/-- A power modulo m, by squaring; the first argument bounds the exponent's bits. -/
def powMod (m : Nat) : Nat → Nat → Nat → Nat
  | 0, _, _ => 1 % m
  | k + 1, b, e =>
    let r := powMod m k (b * b % m) (e / 2)
    if e % 2 = 1 then r * b % m else r

/-- The inverse modulo a prime. -/
def invMod (m a : Nat) : Nat := powMod m 384 (a % m) (m - 2)

/-- Subtraction modulo p384. -/
def subP (a b : Nat) : Nat := (a + p384 - b % p384) % p384

/-- A point in Jacobian coordinates; z is 0 at infinity. -/
abbrev JPoint := Nat × Nat × Nat

/-- The double of a point. -/
def jdbl (P : JPoint) : JPoint :=
  let (x, y, z) := P
  if z = 0 ∨ y = 0 then (1, 1, 0) else
    let zz := z * z % p384
    let m := 3 * (subP x zz * ((x + zz) % p384)) % p384
    let yy := y * y % p384
    let s := 4 * x * yy % p384
    let x3 := subP (m * m % p384) (2 * s % p384)
    let y3 := subP (m * subP s x3 % p384) (8 * (yy * yy % p384) % p384)
    (x3, y3, 2 * y * z % p384)

/-- The sum of two points. -/
def jadd (P Q : JPoint) : JPoint :=
  let (x1, y1, z1) := P
  let (x2, y2, z2) := Q
  if z1 = 0 then Q else if z2 = 0 then P else
    let z1s := z1 * z1 % p384
    let z2s := z2 * z2 % p384
    let u1 := x1 * z2s % p384
    let u2 := x2 * z1s % p384
    let s1 := y1 * z2s % p384 * z2 % p384
    let s2 := y2 * z1s % p384 * z1 % p384
    if u1 = u2 then (if s1 = s2 then jdbl P else (1, 1, 0)) else
      let h := subP u2 u1
      let r := subP s2 s1
      let hh := h * h % p384
      let hhh := h * hh % p384
      let v := u1 * hh % p384
      let x3 := subP (subP (r * r % p384) hhh) (2 * v % p384)
      let y3 := subP (r * subP v x3 % p384) (s1 * hhh % p384)
      (x3, y3, h * z1 % p384 * z2 % p384)

/-- A multiple of a point, from the low bit of the factor; the first argument bounds its bits. -/
def jmul : Nat → Nat → JPoint → JPoint
  | 0, _, _ => (1, 1, 0)
  | k + 1, e, P =>
    let R := jmul k (e / 2) (jdbl P)
    if e % 2 = 1 then jadd R P else R

/-- The point lies on the curve y² = x³ − 3x + b, with both coordinates below p. -/
def onCurve (x y : Nat) : Bool :=
  decide (x < p384) && decide (y < p384) &&
    decide (y * y % p384 = (x * x % p384 * x + 3 * (p384 - x) + b384) % p384)

/-- ECDSA verification of (r, s) for the digest bytes by the public key (x, y). -/
def ecdsaVerify (dig : Bytes) (r s x y : Nat) : Bool :=
  if r = 0 ∨ n384 ≤ r ∨ s = 0 ∨ n384 ≤ s ∨ onCurve x y = false then false else
    let e := ofLe dig.reverse
    let w := invMod n384 s
    let P := jadd (jmul 384 (e * w % n384) (gx384, gy384, 1)) (jmul 384 (r * w % n384) (x, y, 1))
    if P.2.2 = 0 then false else
      let zi := invMod p384 P.2.2
      decide (P.1 * (zi * zi % p384) % p384 % n384 = r)

end Sys2Proof.Machine
end

