-- ==== Sys2Proof/Config.lean ====
section
/-!
DEFINITION. What an implementation or one manufactured module fixes and the spec leaves open. Every constant here is
opaque: nothing can be proved about its value, so a claim that mentions it holds for every value.
-/

namespace Sys2Proof.Config

/-- The free values of the spec's undefined results, by their running number (log entry 3, DESIGN CHOICE). -/
opaque freeBits : (w : Nat) → Nat → BitVec w

/-- What no rule gives of an output tile: the grid of a whole tile (0), `TH.TCOL` (1), `TH.TROW` (2), and the grid words of blocks
(3 on), by `SC.SR_STREAM` and `TH.TSEQ` (R25, R107; log entry 37, DESIGN CHOICE): the same in every run. -/
opaque tileOpen : Nat → BitVec 32 → BitVec 32 → BitVec 16

/-- The code of a NaN element in an MX block whose scale is 0xFF, by format and storage index (R83, R107; log entry 13, DESIGN CHOICE). -/
opaque nanElem : Nat → Nat → BitVec 8

/-- The greatest, or least, of FP32 codes with a NaN among them (R94, R107; log entry 13, DESIGN CHOICE). -/
opaque extremeNan : Bool → List Nat → BitVec 32

/-- The sign of a zero that is the greatest, or least, of FP32 codes with zeros of both signs (log entry 13, DESIGN CHOICE). -/
opaque extremeZero : Bool → List Nat → Bool

/-- Vendor identifier of the PCIe function (R327, R449; log entry 4, DESIGN CHOICE). -/
opaque vendorId : BitVec 16

/-- Serial number of the module (R449; log entry 4, DESIGN CHOICE). -/
opaque serial : BitVec 128

/-- Digest of the boot ROM (R421; log entry 4, DESIGN CHOICE). -/
opaque bootRomDigest : BitVec 384

/-- What the vendor has stored as the certificate chain (R419; log entry 4, DESIGN CHOICE). -/
opaque certStored : Bytes

/-- The certificate chain in the SPDM 1.2 form of R419, at most 4 KiB. -/
def certChain : Bytes := certStored.take 4096

/-- The vendor's firmware key, X (R360; log entry 4, DESIGN CHOICE). -/
opaque firmwareKeyX : Nat

/-- The vendor's firmware key, Y (R360; log entry 4, DESIGN CHOICE). -/
opaque firmwareKeyY : Nat

/-- Low 8 bytes of the digest of the identity public key (R432; log entry 4, DESIGN CHOICE). -/
opaque identityKeyTag : BitVec 64

/-- The factory fuse map of each die as the boot ROM reads it (R133, R421; log entry 4, DESIGN CHOICE). -/
opaque factoryFuses : Nat → Bytes

/-- DataTransferSize and MaxSPDMmsgSize of the DOE mailbox, which the spec does not give (R424; log entry 4, DESIGN CHOICE). -/
opaque spdmTransferSize : BitVec 32

/-- The canonical byte image of a module profile as a function of what it holds (R43, R44; log entry 5, DESIGN CHOICE): the bytes'
layout is not given. The lists hold, in order: module identifier and stepping; withdrawn operating points; dies out;
unavailable stations; retired channels; row remaps; post-package repairs; SRAM repairs. -/
opaque moduleProfile : List (List Nat) → Bytes

/-- The MRAM sector in which an item stands, by its kind and index (R413; log entry 6, DESIGN CHOICE): the layout of MRAM is not
given. -/
opaque mramSector : Nat → Nat → Nat

/-- The LPDDR timing parameters of a package after training, in ps (R44; log entry 7, DESIGN CHOICE): package, then parameter 0 tRCD,
1 tRP, 2 tRAS, 3 tRC, 4 tRRD, 5 tFAW, 6 tCCD, 7 tRL, 8 tWL, 9 tBURST, 10 tRTP, 11 tWR, 12 tWTR, 13 tRFCab, 14
tRFCpb. -/
opaque lpTiming : Nat → Nat → Nat

/-- A package supports post-package repair (R44, R136; log entry 7, DESIGN CHOICE). -/
opaque pprSupported : Nat → Bool

/-- The host address that the payload of a descriptor tile of H2D and D2H names (R55; log entry 40, DESIGN CHOICE): the descriptor's
layout is not given. -/
opaque hxHost : Bytes → BitVec 64

/-- The length that it names (log entry 40, DESIGN CHOICE). -/
opaque hxLen : Bytes → BitVec 32

/-- The module address that it names, where the module's side of the transfer is memory by address and not the tile (R21, R112; log entry 40, DESIGN CHOICE,
DESIGN CHOICE). -/
opaque hxMpa : Bytes → Option (BitVec 44)

/-- The slow plane's base heater power in 10 mW, of which the spec gives only the bound 7.52 W (R192; log entry 43, DESIGN CHOICE). -/
opaque heaterBase : Nat

/-- `PM.KIND` of a lane-control message: lane-ready or failure report (R160, R161; log entry 44, DESIGN CHOICE): its layout is not given. -/
opaque laneKind : Bool → Nat

/-- The body of a lane-control message: lane-ready or failure report, fibre, lane (log entry 44, DESIGN CHOICE). -/
opaque laneBody : Bool → Nat → Nat → Bytes

/-- The internal delay between a fibre's serialiser (`true`) or deserialiser and J3, in 1/64 ns, as a timestamp has it subtracted (R237; log
entry 94, DESIGN CHOICE): its value is not given. -/
opaque innerDelay : Bool → Nat → BitVec 64

/-- `clockAccuracy` of the module's dataset (R238; log entry 45, PRESUMED): the profile does not give it. -/
opaque ptpAccuracy : BitVec 8

/-- `offsetScaledLogVariance` of the module's dataset (log entry 45, PRESUMED). -/
opaque ptpVariance : BitVec 16

/-- `flagField` of a 1588 message: its type, and whether the sender's time is valid (log entry 45, PRESUMED). -/
opaque ptpFlags : Nat → Bool → BitVec 16

/-- Octets 44 to 46 of an Announce: `currentUtcOffset` and the reserved octet (log entry 45, PRESUMED). -/
opaque ptpUtc : Bytes

/-- `timeSource` of an Announce, by the module's time source (log entry 45, PRESUMED). -/
opaque ptpTimeSource : Nat → BitVec 8

/-- An Announce shows that its sender's time is valid (R246; log entry 45, PRESUMED): the spec does not say how. -/
opaque announceValid : Bytes → Bool

/-- The factory temperature set of a key, five points of eight items (R299; log entry 18, DESIGN CHOICE): written at manufacture. -/
opaque factoryCal : Nat → List Int

/-- What a ring heater offset in MHz adds to its loop's set-point (R280; log entry 17, DESIGN CHOICE): the loop's unit is not given. -/
opaque ringShift : Int → Int

/-- The agree limit of an EO bias, 0.8 % of Vπ in units of 50 µV (R280; log entry 18, DESIGN CHOICE): Vπ is not given. -/
opaque eoAgree : Nat

/-- The slope of a comb source's drive current, in 10 µA for so many laser-on hours, from its current by laser-on hour over the last 1,000
(R415; log entry 20, DESIGN CHOICE): the spec does not say how the trend is fitted. -/
opaque combTrend : List (Nat × Nat) → Int × Nat

/-- The identity of an LPDDR package (R364; log entry 4, DESIGN CHOICE). -/
opaque packageId : Nat → BitVec 64

/-- The 16 check bits of a BCH(126,110) inner code word, of its 110 information bits (R145; log entry 83, DESIGN CHOICE): the generator is not
given. -/
opaque bchCheck : List Bool → BitVec 16

/-- The 300 check bits of an RS(544,514) outer code word, of its 5,140 information bits (R145; log entry 83, DESIGN CHOICE): the generator
is not given. -/
opaque rsCheck : List Bool → BitVec 300

/-- The destination (false) and source (true) MAC address of the cells that a faceplate port sends (R172; log entry 84, DESIGN CHOICE). -/
opaque portMac : Nat → Bool → BitVec 48

/-- The 802.1Q tag that a faceplate port's frames carry, if any: its two bytes after 0x8100 (R172; log entry 84, DESIGN CHOICE). -/
opaque portTag : Nat → Option (BitVec 16)

/-- `GC.OPC` of a command that a Prefect issues, by what it changes: 1 a crosspoint set, 2 one cleared, 3 a comb source, 4 a lane's
announced role, 5 the home configuration of a fibre, 6 a set-point, 7 a descriptor, 8 a coefficient set, 9 a loop's enable, 10 a comb source's
register, 11 EO biases (R257, R306; log entry 88, DESIGN CHOICE): gate opcodes are internal to the Prefect firmware. -/
opaque gateOpc : Nat → BitVec 16

/-- Its payload, by what changes and the numbers that say how (log entry 88, DESIGN CHOICE). -/
opaque gatePayload : Nat → List Nat → Bytes

end Sys2Proof.Config
end

