-- ==== Sys2Proof/Machine/Codes.lean ====
section
/-!
DEFINITION. The event codes with their severities (R457), the status codes (R458) and the record sources (R399).
-/

namespace Sys2Proof.Machine

/-- START_COLD, NOTE (R362). -/
def evStartCold : Nat := 0x1001
/-- START_WARM, NOTE (R367). -/
def evStartWarm : Nat := 0x1002
/-- START_FAILED, ERROR (R369). -/
def evStartFailed : Nat := 0x1003
/-- SAFE_MODE_ENTERED, CRITICAL (R370). -/
def evSafeModeEntered : Nat := 0x1004
/-- LIT_REACHED, NOTE (R362, R367). -/
def evLitReached : Nat := 0x1005
/-- FIRMWARE_REFUSED, WARN (R361). -/
def evFirmwareRefused : Nat := 0x1006
/-- LPDDR_TRAINING, NOTE (R364). -/
def evLpddrTraining : Nat := 0x1007
/-- FIRMWARE_MEASURED, NOTE (R361). -/
def evFirmwareMeasured : Nat := 0x1008
/-- SUPPLY_SAG, WARN (R374). -/
def evSupplySag : Nat := 0x1101
/-- SUPPLY_RESTORED, NOTE (R374). -/
def evSupplyRestored : Nat := 0x1102
/-- NV_WRITE_INHIBIT, WARN (R377). -/
def evNvWriteInhibit : Nat := 0x1103
/-- POWER_FAIL, CRITICAL (R375). -/
def evPowerFail : Nat := 0x1104
/-- INPUT_OVERVOLTAGE, CRITICAL (R374). -/
def evInputOvervoltage : Nat := 0x1105
/-- POWER_STATE_CHANGED, NOTE (R380, R381). -/
def evPowerStateChanged : Nat := 0x1106
/-- STRETCH_REQUESTED, NOTE (R388). -/
def evStretchRequested : Nat := 0x1107
/-- STRETCH_RELEASED, NOTE (R389). -/
def evStretchReleased : Nat := 0x1108
/-- POWER_CAP_UNMET, ERROR (R389). -/
def evPowerCapUnmet : Nat := 0x1109
/-- ISSUE_THROTTLE, ERROR (R393). -/
def evIssueThrottle : Nat := 0x110A
/-- JUNCTION_LIMIT, WARN (R392). -/
def evJunctionLimit : Nat := 0x110B
/-- THERMAL_TRIP, CRITICAL (R394). -/
def evThermalTrip : Nat := 0x110C
/-- COOLANT_LIMIT, WARN (R392). -/
def evCoolantLimit : Nat := 0x110D
/-- OPPOINT_WITHDRAWN, WARN (R385). -/
def evOppointWithdrawn : Nat := 0x110E
/-- OPPOINT_RESTORED, NOTE (R385). -/
def evOppointRestored : Nat := 0x110F
/-- REFCLK_LOST, ERROR (R383). -/
def evRefclkLost : Nat := 0x1110
/-- PHOTONIC_TEMP_LIMIT, WARN (R392). -/
def evPhotonicTempLimit : Nat := 0x1111
/-- MEM_CORRECTED, NOTE (R123, R126). -/
def evMemCorrected : Nat := 0x2001
/-- MEM_UNCORRECTABLE, ERROR (R123, R131). -/
def evMemUncorrectable : Nat := 0x2002
/-- FETCH_UNCORRECTABLE, ERROR (R131). -/
def evFetchUncorrectable : Nat := 0x2003
/-- POISON_READ, WARN (R123). -/
def evPoisonRead : Nat := 0x2004
/-- PIN_SUSPECT, WARN (R125). -/
def evPinSuspect : Nat := 0x2005
/-- CHANNEL_RETIRE_ADVISED, WARN (R137). -/
def evChannelRetireAdvised : Nat := 0x2006
/-- CHANNEL_RETIRED, WARN (R137). -/
def evChannelRetired : Nat := 0x2007
/-- CHANNEL_HOTSPOT, WARN (R118). -/
def evChannelHotspot : Nat := 0x2008
/-- EMERGENCY_REFRESH, WARN (R129). -/
def evEmergencyRefresh : Nat := 0x2009
/-- MEM_TEMP_LIMIT, ERROR (R129). -/
def evMemTempLimit : Nat := 0x200A
/-- SCRUB_PASS_DONE, NOTE (R130). -/
def evScrubPassDone : Nat := 0x200B
/-- ROW_REMAPPED, NOTE (R135). -/
def evRowRemapped : Nat := 0x200C
/-- ROW_REMAP_FULL, WARN (R135). -/
def evRowRemapFull : Nat := 0x200D
/-- SRAM_REPAIR_CONFLICT, WARN (R133). -/
def evSramRepairConflict : Nat := 0x200E
/-- SRAM_MACRO_EXCLUDED, WARN (R133). -/
def evSramMacroExcluded : Nat := 0x200F
/-- FIELD_FUSE_BURNED, NOTE (R134, R431). -/
def evFieldFuseBurned : Nat := 0x2010
/-- HOST_ACCESS_HOLE, WARN (R121). -/
def evHostAccessHole : Nat := 0x2011
/-- ZERO_FILL_DONE, NOTE (R138). -/
def evZeroFillDone : Nat := 0x2012
/-- FIBRE_LOS, ERROR (R164). -/
def evFibreLos : Nat := 0x3001
/-- FIBRE_RESTORED, NOTE (R164). -/
def evFibreRestored : Nat := 0x3002
/-- APR_ENTERED, WARN (R165). -/
def evAprEntered : Nat := 0x3003
/-- APR_EXITED, NOTE (R165). -/
def evAprExited : Nat := 0x3004
/-- COMB_UNLOCK, ERROR (R141). -/
def evCombUnlock : Nat := 0x3005
/-- COMB_SWAPPED, WARN (R141). -/
def evCombSwapped : Nat := 0x3006
/-- LANE_FAILED, WARN (R161). -/
def evLaneFailed : Nat := 0x3007
/-- LINK_WIDTH_REDUCED, ERROR (R162). -/
def evLinkWidthReduced : Nat := 0x3008
/-- SPARE_BLOCKED, NOTE (R159, R160). -/
def evSpareBlocked : Nat := 0x3009
/-- DESKEW_FAIL, ERROR (R157). -/
def evDeskewFail : Nat := 0x300A
/-- FEC_MARGIN_LOW, WARN (R147). -/
def evFecMarginLow : Nat := 0x300B
/-- CELL_CRC_ERROR, NOTE (R149, R172). -/
def evCellCrcError : Nat := 0x300C
/-- LANE_TAG_MISMATCH, ERROR (R161). -/
def evLaneTagMismatch : Nat := 0x300D
/-- FACEPLATE_PORT_DOWN, WARN (R173). -/
def evFaceplatePortDown : Nat := 0x300E
/-- CMIS_FAULT, WARN (R173, R439). -/
def evCmisFault : Nat := 0x300F
/-- XN5_ASSIGN_DENIED, NOTE (R169). -/
def evXn5AssignDenied : Nat := 0x3010
/-- GROUP_MODE_CHANGED, NOTE (R170). -/
def evGroupModeChanged : Nat := 0x3011
/-- LINK_REBOUND, NOTE (R215). -/
def evLinkRebound : Nat := 0x3101
/-- LINK_UNBOUND, ERROR (R215). -/
def evLinkUnbound : Nat := 0x3102
/-- CELLS_RESENT, NOTE (R219). -/
def evCellsResent : Nat := 0x3103
/-- CELLS_DUPLICATE, NOTE (R217). -/
def evCellsDuplicate : Nat := 0x3104
/-- CELL_NO_SLOT, NOTE (R217). -/
def evCellNoSlot : Nat := 0x3105
/-- ACK_TIMEOUT, WARN (R219). -/
def evAckTimeout : Nat := 0x3106
/-- NOTICE_JOB_MISMATCH, WARN (R226). -/
def evNoticeJobMismatch : Nat := 0x3107
/-- NOTICE_TTL_EXPIRED, WARN (R225). -/
def evNoticeTtlExpired : Nat := 0x3108
/-- PATH_PLAN_ACTIVATED, NOTE (R190). -/
def evPathPlanActivated : Nat := 0x4001
/-- PATH_PLAN_COMPLETE, NOTE (R191). -/
def evPathPlanComplete : Nat := 0x4002
/-- PATH_VERIFY_FAIL, ERROR (R191). -/
def evPathVerifyFail : Nat := 0x4003
/-- HEATER_STAGGER, NOTE (R193). -/
def evHeaterStagger : Nat := 0x4004
/-- HOST_PLAN_CANCELLED, WARN (R14). -/
def evHostPlanCancelled : Nat := 0x4005
/-- FALLBACK_ACTIVATED, WARN (R196). -/
def evFallbackActivated : Nat := 0x4006
/-- FALLBACK_NO_MATCH, WARN (R196). -/
def evFallbackNoMatch : Nat := 0x4007
/-- FALLBACK_DISARMED, NOTE (R194, R196). -/
def evFallbackDisarmed : Nat := 0x4008
/-- WRONG_LINE_LOCK, WARN (R199, R277). -/
def evWrongLineLock : Nat := 0x4009
/-- CROSSPOINT_FAILED, ERROR (R199). -/
def evCrosspointFailed : Nat := 0x400A
/-- LINE_CHECK_SENT, NOTE (R200). -/
def evLineCheckSent : Nat := 0x400B
/-- ROLL_CALL_DONE, NOTE (R182). -/
def evRollCallDone : Nat := 0x400C
/-- FASTPLANE_SLOT_ERROR, ERROR (R202, R247). -/
def evFastplaneSlotError : Nat := 0x400D
/-- TIME_VALID, NOTE (R245, R246). -/
def evTimeValid : Nat := 0x5001
/-- TIME_INVALID, ERROR (R246). -/
def evTimeInvalid : Nat := 0x5002
/-- TIME_OFFSET_FAULT, ERROR (R246). -/
def evTimeOffsetFault : Nat := 0x5003
/-- FREQ_PARENT_CHANGED, NOTE (R242). -/
def evFreqParentChanged : Nat := 0x5004
/-- TREE_DEPTH_EXCEEDED, ERROR (R241). -/
def evTreeDepthExceeded : Nat := 0x5005
/-- GRANDMASTER_CHANGED, WARN (R243). -/
def evGrandmasterChanged : Nat := 0x5006
/-- TIME_NO_PATH, ERROR (R241). -/
def evTimeNoPath : Nat := 0x5007
/-- PPS_IN_LOST, WARN (R254). -/
def evPpsInLost : Nat := 0x5008
/-- BELL_LATE, WARN (R252). -/
def evBellLate : Nat := 0x5009
/-- PTP_MSG_DISCARDED, NOTE (R238). -/
def evPtpMsgDiscarded : Nat := 0x500A
/-- LOOP_SATURATED, WARN (R279). -/
def evLoopSaturated : Nat := 0x6001
/-- LOOP_REGION_CHANGED, NOTE (R268). -/
def evLoopRegionChanged : Nat := 0x6002
/-- LOOP_SWAP_SATURATED, NOTE (R269). -/
def evLoopSwapSaturated : Nat := 0x6003
/-- MINSEL_WINNER_CHANGED, NOTE (R266). -/
def evMinselWinnerChanged : Nat := 0x6004
/-- ROTE_INVALIDATED, NOTE (R273). -/
def evRoteInvalidated : Nat := 0x6005
/-- ROTE_ACTIVE, NOTE (R273). -/
def evRoteActive : Nat := 0x6006
/-- ROTE_LOAD_REFUSED, WARN (R273). -/
def evRoteLoadRefused : Nat := 0x6007
/-- SENSOR_FAULT, ERROR (R275). -/
def evSensorFault : Nat := 0x6008
/-- CE_SAMPLE_MISSED, ERROR (R259). -/
def evCeSampleMissed : Nat := 0x6009
/-- CAL_STEP_DONE, NOTE (R287). -/
def evCalStepDone : Nat := 0x7001
/-- CAL_INPUT_UNQUALIFIED, WARN (R286). -/
def evCalInputUnqualified : Nat := 0x7002
/-- CAL_DISAGREE, WARN (R287). -/
def evCalDisagree : Nat := 0x7003
/-- CAL_SUSPECT, WARN (R288). -/
def evCalSuspect : Nat := 0x7004
/-- CAL_DEFERRED, NOTE (R282). -/
def evCalDeferred : Nat := 0x7005
/-- CAL_ROTATION_DONE, NOTE (R282). -/
def evCalRotationDone : Nat := 0x7006
/-- CAL_FACTORY_SET, WARN (R299). -/
def evCalFactorySet : Nat := 0x7007
/-- CAL_JOURNAL_RECORD_BAD, WARN (R299). -/
def evCalJournalRecordBad : Nat := 0x7008
/-- CAL_JOURNAL_INHIBITED, WARN (R300). -/
def evCalJournalInhibited : Nat := 0x7009
/-- CAL_PRIV_DEFAULTED, WARN (R296). -/
def evCalPrivDefaulted : Nat := 0x700A
/-- CAL_STEP_ABANDONED, NOTE (R301). -/
def evCalStepAbandoned : Nat := 0x700B
/-- PREFECT_FAILED, ERROR (R311). -/
def evPrefectFailed : Nat := 0x8001
/-- PREFECT_TAKEOVER, WARN (R313). -/
def evPrefectTakeover : Nat := 0x8002
/-- PAIR_DIVERGED, ERROR (R316). -/
def evPairDiverged : Nat := 0x8003
/-- CROSSLINK_DOWN, WARN (R311). -/
def evCrosslinkDown : Nat := 0x8004
/-- CROSSLINK_UP, NOTE (R311). -/
def evCrosslinkUp : Nat := 0x8005
/-- PREFECT_PATH_FAULT, ERROR (R317, R319). -/
def evPrefectPathFault : Nat := 0x8006
/-- NO_ACCEPTED_PREFECT, CRITICAL (R319, R322). -/
def evNoAcceptedPrefect : Nat := 0x8007
/-- PREFECT_REVERT, NOTE (R320). -/
def evPrefectRevert : Nat := 0x8008
/-- REVERT_DISABLED, WARN (R321). -/
def evRevertDisabled : Nat := 0x8009
/-- CLAIM_DISCARDED, NOTE (R307). -/
def evClaimDiscarded : Nat := 0x800A
/-- PAIR_MODE_CHANGED, NOTE (R315, R316). -/
def evPairModeChanged : Nat := 0x800B
/-- PREFECT_STOOD_DOWN, WARN (R314). -/
def evPrefectStoodDown : Nat := 0x800C
/-- P2P_UNDELIVERED, WARN (R324). -/
def evP2pUndelivered : Nat := 0x800D
/-- DAYBOOK_CLEARED, WARN (R407). -/
def evDaybookCleared : Nat := 0x9001
/-- DAYBOOK_STORE_FAIL, CRITICAL (R409). -/
def evDaybookStoreFail : Nat := 0x9002
/-- DAYBOOK_NEW_ERA, WARN (R403). -/
def evDaybookNewEra : Nat := 0x9003
/-- DAYBOOK_NARROW_EXIT, NOTE (R410). -/
def evDaybookNarrowExit : Nat := 0x9004
/-- FIRMWARE_FATAL, FATAL (R400). -/
def evFirmwareFatal : Nat := 0x9005
/-- CALENDAR_CHANGED, NOTE (R416). -/
def evCalendarChanged : Nat := 0x9006
/-- EXPERT_LATCH_SET, NOTE (R349). -/
def evExpertLatchSet : Nat := 0x9010
/-- APERTURE_OVERRUN, ERROR (R336). -/
def evApertureOverrun : Nat := 0x9011
/-- REPLY_RING_FULL, WARN (R345). -/
def evReplyRingFull : Nat := 0x9012
/-- SIGNATURE_REFUSED, WARN (R350). -/
def evSignatureRefused : Nat := 0x9013
/-- BAR2_TIMEOUT, WARN (R333). -/
def evBar2Timeout : Nat := 0x9014
/-- COMB_EOL_NEAR, WARN (R415). -/
def evCombEolNear : Nat := 0x9020
/-- HEATER_WEAR, WARN (R415). -/
def evHeaterWear : Nat := 0x9021
/-- MRAM_WEAR, WARN (R415). -/
def evMramWear : Nat := 0x9022
/-- IDENTITY_KEY_GENERATED, NOTE (R418). -/
def evIdentityKeyGenerated : Nat := 0x9030
/-- IDENTITY_KEY_LOST, CRITICAL (R420). -/
def evIdentityKeyLost : Nat := 0x9031
/-- OPERATOR_KEY_CHANGED, NOTE (R430). -/
def evOperatorKeyChanged : Nat := 0x9032
/-- MEASURE_LOG_FULL, WARN (R423). -/
def evMeasureLogFull : Nat := 0x9033
/-- JOB_LOADED, NOTE (R69). -/
def evJobLoaded : Nat := 0xA001
/-- JOB_STARTED, NOTE (R70). -/
def evJobStarted : Nat := 0xA002
/-- JOB_HELD, WARN (R70). -/
def evJobHeld : Nat := 0xA003
/-- JOB_RESUMED, NOTE (R70). -/
def evJobResumed : Nat := 0xA004
/-- JOB_COMPLETE, NOTE (R70). -/
def evJobComplete : Nat := 0xA005
/-- JOB_UNLOADED, NOTE (R70). -/
def evJobUnloaded : Nat := 0xA006
/-- PERIOD_OVERRUN, ERROR (R60, R70). -/
def evPeriodOverrun : Nat := 0xA101
/-- SLACK_LOW, WARN (R62). -/
def evSlackLow : Nat := 0xA102
/-- STRETCH_BEGIN, NOTE (R64). -/
def evStretchBegin : Nat := 0xA103
/-- STRETCH_END, NOTE (R64). -/
def evStretchEnd : Nat := 0xA104
/-- STRETCH_LATE, ERROR (R65). -/
def evStretchLate : Nat := 0xA105
/-- STATION_TRAP, ERROR (R61). -/
def evStationTrap : Nat := 0xA106
/-- POWER_PROFILE_OVER_CAP, WARN (R69). -/
def evPowerProfileOverCap : Nat := 0xA107
/-- LOAD_REFUSED, WARN (R69). -/
def evLoadRefused : Nat := 0xA108
/-- TILE_HEADER_MISMATCH, ERROR (R27). -/
def evTileHeaderMismatch : Nat := 0xA301
/-- STREAM_CONTEXT_INVALID, ERROR (R36). -/
def evStreamContextInvalid : Nat := 0xA302
/-- STREAM_BROKEN, ERROR (R36). -/
def evStreamBroken : Nat := 0xA303
/-- SYNC_SATURATED, WARN (R38). -/
def evSyncSaturated : Nat := 0xA304
/-- FORMAT_PAIR_INVALID, ERROR (R85). -/
def evFormatPairInvalid : Nat := 0xA305
/-- GRID_ABSENT, ERROR (R90, R102). -/
def evGridAbsent : Nat := 0xA306
/-- GRID_MISMATCH, ERROR (R102, R105). -/
def evGridMismatch : Nat := 0xA307
/-- ACC_STATE, ERROR (R92, R104). -/
def evAccState : Nat := 0xA308
/-- SXOVF_RAISED, WARN (R106). -/
def evSxovfRaised : Nat := 0xA309
/-- STREAM_TX_STALLED, WARN (R231). -/
def evStreamTxStalled : Nat := 0xA30A
/-- STREAM_RESYNC, NOTE (R230). -/
def evStreamResync : Nat := 0xA30B

/-- The event codes of severity NOTE (R457). -/
def codesNote : List Nat := [
  0x1001, 0x1002, 0x1005, 0x1007, 0x1008, 0x1102, 0x1106, 0x1107,
  0x1108, 0x110F, 0x2001, 0x200B, 0x200C, 0x2010, 0x2012, 0x3002,
  0x3004, 0x3009, 0x300C, 0x3010, 0x3011, 0x3101, 0x3103, 0x3104,
  0x3105, 0x4001, 0x4002, 0x4004, 0x4008, 0x400B, 0x400C, 0x5001,
  0x5004, 0x500A, 0x6002, 0x6003, 0x6004, 0x6005, 0x6006, 0x7001,
  0x7005, 0x7006, 0x700B, 0x8005, 0x8008, 0x800A, 0x800B, 0x9004,
  0x9006, 0x9010, 0x9030, 0x9032, 0xA001, 0xA002, 0xA004, 0xA005,
  0xA006, 0xA103, 0xA104, 0xA30B]

/-- The event codes of severity WARN (R457). -/
def codesWarn : List Nat := [
  0x1006, 0x1101, 0x1103, 0x110B, 0x110D, 0x110E, 0x1111, 0x2004,
  0x2005, 0x2006, 0x2007, 0x2008, 0x2009, 0x200D, 0x200E, 0x200F,
  0x2011, 0x3003, 0x3006, 0x3007, 0x300B, 0x300E, 0x300F, 0x3106,
  0x3107, 0x3108, 0x4005, 0x4006, 0x4007, 0x4009, 0x5006, 0x5008,
  0x5009, 0x6001, 0x6007, 0x7002, 0x7003, 0x7004, 0x7007, 0x7008,
  0x7009, 0x700A, 0x8002, 0x8004, 0x8009, 0x800C, 0x800D, 0x9001,
  0x9003, 0x9012, 0x9013, 0x9014, 0x9020, 0x9021, 0x9022, 0x9033,
  0xA003, 0xA102, 0xA107, 0xA108, 0xA304, 0xA309, 0xA30A]

/-- The event codes of severity ERROR (R457). -/
def codesError : List Nat := [
  0x1003, 0x1109, 0x110A, 0x1110, 0x2002, 0x2003, 0x200A, 0x3001,
  0x3005, 0x3008, 0x300A, 0x300D, 0x3102, 0x4003, 0x400A, 0x400D,
  0x5002, 0x5003, 0x5005, 0x5007, 0x6008, 0x6009, 0x8001, 0x8003,
  0x8006, 0x9011, 0xA101, 0xA105, 0xA106, 0xA301, 0xA302, 0xA303,
  0xA305, 0xA306, 0xA307, 0xA308]

/-- The event codes of severity CRITICAL (R457). -/
def codesCritical : List Nat := [
  0x1004, 0x1104, 0x1105, 0x110C, 0x8007, 0x9002, 0x9031]

/-- The event codes of severity FATAL (R457). -/
def codesFatal : List Nat := [
  0x9005]

/-- Severity of an event code: NOTE 1, WARN 2, ERROR 3, CRITICAL 4, FATAL 5 (R400, R457). -/
def sevOf (c : Nat) : Nat :=
  if c ∈ codesWarn then 2 else if c ∈ codesError then 3 else if c ∈ codesCritical then 4
  else if c ∈ codesFatal then 5 else 1

/-- The code is one that the module raises; every other is reserved (R457). -/
def codeListed (c : Nat) : Bool :=
  decide (c ∈ codesNote) || decide (c ∈ codesWarn) || decide (c ∈ codesError) || decide (c ∈ codesCritical) ||
    decide (c ∈ codesFatal)

/-- Status SUCCESS (R458). -/
def stSuccess : Nat := 0x0000
/-- Status PENDING (R458). -/
def stPending : Nat := 0x0001
/-- Status DEFERRED (R458). -/
def stDeferred : Nat := 0x0002
/-- Status HEADER_INVALID (R458). -/
def stHeaderInvalid : Nat := 0x0101
/-- Status OPCODE_UNKNOWN (R458). -/
def stOpcodeUnknown : Nat := 0x0102
/-- Status SEQ_MISMATCH (R458). -/
def stSeqMismatch : Nat := 0x0103
/-- Status LEVEL_MISMATCH (R458). -/
def stLevelMismatch : Nat := 0x0104
/-- Status PARAM_INVALID (R458). -/
def stParamInvalid : Nat := 0x0105
/-- Status LENGTH_MISMATCH (R458). -/
def stLengthMismatch : Nat := 0x0106
/-- Status TARGET_INVALID (R458). -/
def stTargetInvalid : Nat := 0x0107
/-- Status LIST_FETCH_ERROR (R458). -/
def stListFetchError : Nat := 0x0108
/-- Status STATE_INVALID (R458). -/
def stStateInvalid : Nat := 0x0201
/-- Status TIME_NOT_VALID (R458). -/
def stTimeNotValid : Nat := 0x0202
/-- Status CANCELLED (R458). -/
def stCancelled : Nat := 0x0203
/-- Status ABANDONED (R458). -/
def stAbandoned : Nat := 0x0204
/-- Status ADDRESS_UNMAPPED (R458). -/
def stAddressUnmapped : Nat := 0x0301
/-- Status TABLE_FULL (R458). -/
def stTableFull : Nat := 0x0302
/-- Status BUFFER_SHORT (R458). -/
def stBufferShort : Nat := 0x0303
/-- Status DATA_UNCORRECTABLE (R458). -/
def stDataUncorrectable : Nat := 0x0304
/-- Status CE_LOOP_BUDGET (R458). -/
def stCeLoopBudget : Nat := 0x0360
/-- Status CE_LOOP_CONFIG (R458). -/
def stCeLoopConfig : Nat := 0x0361
/-- Status EXPERT_LATCH_CLEAR (R458). -/
def stExpertLatchClear : Nat := 0x0401
/-- Status SIGNATURE_REQUIRED (R458). -/
def stSignatureRequired : Nat := 0x0402
/-- Status SIGNATURE_INVALID (R458). -/
def stSignatureInvalid : Nat := 0x0403
/-- Status NONCE_INVALID (R458). -/
def stNonceInvalid : Nat := 0x0404
/-- Status KEY_EMPTY (R458). -/
def stKeyEmpty : Nat := 0x0405
/-- Status IMAGE_FORMAT (R458). -/
def stImageFormat : Nat := 0x0501
/-- Status IMAGE_MODULE (R458). -/
def stImageModule : Nat := 0x0502
/-- Status MODULE_PROFILE_MISMATCH (R458). -/
def stModuleProfileMismatch : Nat := 0x0503
/-- Status FABRIC_PROFILE_MISMATCH (R458). -/
def stFabricProfileMismatch : Nat := 0x0504
/-- Status PERIOD_INVALID (R458). -/
def stPeriodInvalid : Nat := 0x0505
/-- Status STATION_UNAVAILABLE (R458). -/
def stStationUnavailable : Nat := 0x0506
/-- Status OPCODE_INVALID (R458). -/
def stOpcodeInvalid : Nat := 0x0507
/-- Status OFFSET_ORDER (R458). -/
def stOffsetOrder : Nat := 0x0508
/-- Status CONTEXT_TABLE (R458). -/
def stContextTable : Nat := 0x0509
/-- Status SYNC_TABLE (R458). -/
def stSyncTable : Nat := 0x050A
/-- Status LPDDR_TIMING (R458). -/
def stLpddrTiming : Nat := 0x050B
/-- Status DIE_LINK_RATE (R458). -/
def stDieLinkRate : Nat := 0x050C
/-- Status RESOURCE_CONFLICT (R458). -/
def stResourceConflict : Nat := 0x050D
/-- Status SLACK_SHORT (R458). -/
def stSlackShort : Nat := 0x050E
/-- Status REFRESH_COVERAGE (R458). -/
def stRefreshCoverage : Nat := 0x050F
/-- Status RECESS_ALLOTMENT (R458). -/
def stRecessAllotment : Nat := 0x0510
/-- Status FASTPLANE_TABLE (R458). -/
def stFastplaneTable : Nat := 0x0511
/-- Status STRETCH_INVALID (R458). -/
def stStretchInvalid : Nat := 0x0512
/-- Status POWER_PROFILE (R458). -/
def stPowerProfile : Nat := 0x0513
/-- Status PLAN_FORMAT (R458). -/
def stPlanFormat : Nat := 0x0520
/-- Status PLAN_ENTRY_INVALID (R458). -/
def stPlanEntryInvalid : Nat := 0x0521
/-- Status PLAN_LINK_WIDTH (R458). -/
def stPlanLinkWidth : Nat := 0x0522
/-- Status PLAN_CONFLICT (R458). -/
def stPlanConflict : Nat := 0x0523
/-- Status PLAN_HOPS (R458). -/
def stPlanHops : Nat := 0x0524
/-- Status PLAN_GROUP_MODE (R458). -/
def stPlanGroupMode : Nat := 0x0525
/-- Status PLAN_FASTPLANE_BUSY (R458). -/
def stPlanFastplaneBusy : Nat := 0x0526
/-- Status PLAN_ACT_TIME (R458). -/
def stPlanActTime : Nat := 0x0527
/-- Status FALLBACK_TOO_LARGE (R458). -/
def stFallbackTooLarge : Nat := 0x0528
/-- Status PROFILE_LINK_KEY (R458). -/
def stProfileLinkKey : Nat := 0x0530
/-- Status PROFILE_NOTICE_BOUND (R458). -/
def stProfileNoticeBound : Nat := 0x0531
/-- Status BELL_TIME_PAST (R458). -/
def stBellTimePast : Nat := 0x0540
/-- Status BELL_RESERVED (R458). -/
def stBellReserved : Nat := 0x0541
/-- Status BELL_PERIOD_INVALID (R458). -/
def stBellPeriodInvalid : Nat := 0x0542
/-- Status ROTE_IMAGE_MISMATCH (R458). -/
def stRoteImageMismatch : Nat := 0x0562
/-- Status CAL_INPUT_UNQUALIFIED (R458). -/
def stCalInputUnqualified : Nat := 0x0570
/-- Status CAL_LANE_UNAVAILABLE (R458). -/
def stCalLaneUnavailable : Nat := 0x0571

/-- Source codes of R399: Prefects, gates, SV command engine, always-on domain, security block, SV firmware. -/
def srcPa : Nat := 0xF000
/-- Prefect PB (R399). -/
def srcPb : Nat := 0xF001
/-- Gate g (R399). -/
def srcGate (g : Nat) : Nat := 0xF010 + g
/-- SV command engine and host interface (R399). -/
def srcSv : Nat := 0xF020
/-- Always-on domain (R399). -/
def srcAon : Nat := 0xF021
/-- Security block (R399). -/
def srcSec : Nat := 0xF022
/-- SV firmware (R399). -/
def srcFw : Nat := 0xF023
/-- Internal Bell i (R399). -/
def srcBell (i : Nat) : Nat := 0xF030 + i
/-- Fibre f (R399). -/
def srcFibre (f : Nat) : Nat := 0xF100 + f
/-- No source (R399). -/
def srcNone : Nat := 0xFFFF

end Sys2Proof.Machine
end

