-- ==== Sys2Proof/Machine/Tbl.lean ====
section
/-!
DEFINITION. Sparse tables: lists of (key, value) pairs with strictly rising keys, without an entry that holds the
default value. Equal tables are equal lists.
-/

namespace Sys2Proof.Machine

variable {α : Type}

/-- The value at a key; d where the table has no entry. -/
def tget (d : α) : List (Nat × α) → Nat → α
  | [], _ => d
  | (k, v) :: t, i => if k = i then v else tget d t i

/-- Write a value at a key; writing d removes the entry. -/
def tset [DecidableEq α] (d : α) : List (Nat × α) → Nat → α → List (Nat × α)
  | [], i, v => if v = d then [] else [(i, v)]
  | (k, w) :: t, i, v =>
    if i < k then (if v = d then (k, w) :: t else (i, v) :: (k, w) :: t)
    else if i = k then (if v = d then t else (i, v) :: t)
    else (k, w) :: tset d t i v

/-- Change the value at a key. -/
def tmod [DecidableEq α] (d : α) (t : List (Nat × α)) (i : Nat) (f : α → α) : List (Nat × α) :=
  tset d t i (f (tget d t i))

/-- Write values at consecutive keys. -/
def tsets [DecidableEq α] (d : α) (t : List (Nat × α)) (i : Nat) : List α → List (Nat × α)
  | [] => t
  | v :: vs => tsets d (tset d t i v) (i + 1) vs

/-- The values at n consecutive keys. -/
def tgets (d : α) (t : List (Nat × α)) (i : Nat) : Nat → List α
  | 0 => []
  | n + 1 => tget d t i :: tgets d t (i + 1) n

/-- Canonical form above a key: keys rise strictly from lo, and no entry holds the default. -/
def twfFrom [DecidableEq α] (d : α) (lo : Nat) : List (Nat × α) → Bool
  | [] => true
  | (k, v) :: t => decide (lo ≤ k) && decide (v ≠ d) && twfFrom d (k + 1) t

/-- Canonical form of a table. -/
def twf [DecidableEq α] (d : α) (t : List (Nat × α)) : Bool := twfFrom d 0 t

end Sys2Proof.Machine
end

