-- ==== Sys2Proof/Machine/State.lean ====
section
/-!
DEFINITION. The state of the machine, plain data, and its value at reset. Reset is the module as shipped, before input
power is first applied.
-/

namespace Sys2Proof.Machine

/-- Reasons for which a step stops with a fault. The spec gives every condition it names an effect (a trap, a
refusal by a reply, a failed start, a trip), so there is none. -/
inductive Fault where
  deriving DecidableEq, Repr

/-- Reasons for which a command has no meaning. -/
inductive Refusal where
  /-- The command of that mnemonic has not been modelled: raised by its arm of exec, and safe, because the machine
  stops. -/
  | notModelled (mnemonic : String)
  deriving DecidableEq, Repr

/-- The whole machine. -/
structure State where
  /-- Commands that wait, first in first out (the model's queue) (R1). -/
  pending : List Instr
  /-- Service cycles since manufacture, counted while SV runs (R381). -/
  sc : Nat
  /-- Counter that picks the next free value of Config (R10). -/
  free : Nat
  /-- What has left the module, newest first: messages, DMA writes, completions, pulses (R1). -/
  out : List Out
  /-- Sideband signals and board-management values (R436). -/
  pins : Pins
  /-- Supply, power state and limits (R374). -/
  pwr : Power
  /-- Boot registers and the start in progress (R356). -/
  boot : Boot
  /-- Identity (R449). -/
  ident : Ident
  /-- Fabric profile and logical links (R43). -/
  prof : Profiles
  /-- Host interface (R327). -/
  hi : HostIf
  /-- The Daybook (R398). -/
  db : Daybook
  /-- Lifetime records and calendar (R413). -/
  life : Life
  /-- Security block (R418). -/
  sec : Security
  /-- The loaded job (R70). -/
  job : Job
  /-- Stations (R18). -/
  stn : Stations
  /-- Streams (R29). -/
  strm : Streams
  /-- Sync objects by identifier (R37). -/
  sync : List (Nat × SyncObj)
  /-- LPDDR6 memory (R109). -/
  mem : MemSys
  /-- Tile store (R111). -/
  ts : TileStore
  /-- Combs, fibres, lanes, links (R140). -/
  opt : Optics
  /-- Switch plane, plans, fallbacks, roll call (R174). -/
  sw : Paths
  /-- Fabric time (R235). -/
  tm : Timing
  /-- Bells (R249). -/
  bells : Bells
  /-- Control engines (R256). -/
  ce : Engines
  /-- Recess calibration (R280). -/
  cal : Calib
  /-- Prefect pair and gates (R303). -/
  pfx : Prefects
  /-- Messages between modules (R223). -/
  net : Net
  /-- MRAM writes and commands that wait (R377). -/
  nvw : NvWait
  /-- Settings held in MRAM (R368). -/
  nvs : NvSettings
  deriving DecidableEq, Repr, Inhabited

/-- The module as shipped, without input power. Every field holds the value the spec gives for reset or the one that
log entry 1, DESIGN CHOICE names. -/
def State.reset : State :=
  {
    pending := []
    sc := 0
    free := 0
    out := []
    pins := {}
    pwr := {}
    boot := {}
    ident := {}
    prof := {}
    hi := {}
    db := {}
    life := {}
    sec := {}
    job := {}
    stn := {}
    strm := {}
    sync := []
    mem := {}
    ts := {}
    opt := {}
    sw := {}
    tm := {}
    bells := {}
    ce := {}
    cal := {}
    pfx := {}
    net := {}
    nvw := {}
    nvs := {}
  }

end Sys2Proof.Machine
end

