-- ==== Sys2Proof/Machine/Upd.lean ====
section
/-!
DEFINITION. Changing one field of the state: every operation of the machine changes it through these.
-/

namespace Sys2Proof.Machine

/-- Change `pending`. -/
def State.modPending (s : State) (g : (List Instr) → (List Instr)) : State :=
  { s with pending := g s.pending }

/-- Change `sc`. -/
def State.modSc (s : State) (g : Nat → Nat) : State :=
  { s with sc := g s.sc }

/-- Change `free`. -/
def State.modFree (s : State) (g : Nat → Nat) : State :=
  { s with free := g s.free }

/-- Change `out`. -/
def State.modOut (s : State) (g : (List Out) → (List Out)) : State :=
  { s with out := g s.out }

/-- Change `pins`. -/
def State.modPins (s : State) (g : Pins → Pins) : State :=
  { s with pins := g s.pins }

/-- Change `pwr`. -/
def State.modPwr (s : State) (g : Power → Power) : State :=
  { s with pwr := g s.pwr }

/-- Change `boot`. -/
def State.modBoot (s : State) (g : Boot → Boot) : State :=
  { s with boot := g s.boot }

/-- Change `ident`. -/
def State.modIdent (s : State) (g : Ident → Ident) : State :=
  { s with ident := g s.ident }

/-- Change `prof`. -/
def State.modProf (s : State) (g : Profiles → Profiles) : State :=
  { s with prof := g s.prof }

/-- Change `hi`. -/
def State.modHi (s : State) (g : HostIf → HostIf) : State :=
  { s with hi := g s.hi }

/-- Change `db`. -/
def State.modDb (s : State) (g : Daybook → Daybook) : State :=
  { s with db := g s.db }

/-- Change `life`. -/
def State.modLife (s : State) (g : Life → Life) : State :=
  { s with life := g s.life }

/-- Change `sec`. -/
def State.modSec (s : State) (g : Security → Security) : State :=
  { s with sec := g s.sec }

/-- Change `job`. -/
def State.modJob (s : State) (g : Job → Job) : State :=
  { s with job := g s.job }

/-- Change `stn`. -/
def State.modStn (s : State) (g : Stations → Stations) : State :=
  { s with stn := g s.stn }

/-- Change `strm`. -/
def State.modStrm (s : State) (g : Streams → Streams) : State :=
  { s with strm := g s.strm }

/-- Change `sync`. -/
def State.modSync (s : State) (g : (List (Nat × SyncObj)) → (List (Nat × SyncObj))) : State :=
  { s with sync := g s.sync }

/-- Change `mem`. -/
def State.modMem (s : State) (g : MemSys → MemSys) : State :=
  { s with mem := g s.mem }

/-- Change `ts`. -/
def State.modTs (s : State) (g : TileStore → TileStore) : State :=
  { s with ts := g s.ts }

/-- Change `opt`. -/
def State.modOpt (s : State) (g : Optics → Optics) : State :=
  { s with opt := g s.opt }

/-- Change `sw`. -/
def State.modSw (s : State) (g : Paths → Paths) : State :=
  { s with sw := g s.sw }

/-- Change `tm`. -/
def State.modTm (s : State) (g : Timing → Timing) : State :=
  { s with tm := g s.tm }

/-- Change `bells`. -/
def State.modBells (s : State) (g : Bells → Bells) : State :=
  { s with bells := g s.bells }

/-- Change `ce`. -/
def State.modCe (s : State) (g : Engines → Engines) : State :=
  { s with ce := g s.ce }

/-- Change `cal`. -/
def State.modCal (s : State) (g : Calib → Calib) : State :=
  { s with cal := g s.cal }

/-- Change `pfx`. -/
def State.modPfx (s : State) (g : Prefects → Prefects) : State :=
  { s with pfx := g s.pfx }

/-- Change `net`. -/
def State.modNet (s : State) (g : Net → Net) : State :=
  { s with net := g s.net }

/-- Change `nvw`. -/
def State.modNvw (s : State) (g : NvWait → NvWait) : State :=
  { s with nvw := g s.nvw }

/-- Change `nvs`. -/
def State.modNvs (s : State) (g : NvSettings → NvSettings) : State :=
  { s with nvs := g s.nvs }

end Sys2Proof.Machine
end

