-- ==== Sys2Proof/Machine/Ops.lean ====
section
/-!
DEFINITION. The operations that every family shares: outputs, free values, MSI-X vectors, MRAM writes, raising a
Daybook record, the reply queue, and measurement registers.
-/

namespace Sys2Proof.Machine

/-! ### Where the module stands -/

/-- The SV domain runs: Awake or above, and not in hold-up (R378). -/
def svOn (s : State) : Bool :=
  s.pwr.aon && !s.pwr.holdUp && (decide (s.pwr.ps = .awake) || decide (s.pwr.ps = .lit) || decide (s.pwr.ps = .running))

/-- The optics and the compute uncore are on: Lit or Running (R378). -/
def litUp (s : State) : Bool :=
  s.pwr.aon && !s.pwr.holdUp && (decide (s.pwr.ps = .lit) || decide (s.pwr.ps = .running))

/-- The firmware serves every opcode (R363). -/
def fwUp (s : State) : Bool := svOn s && s.boot.fwRunning && !s.boot.fwFatal

/-- An image is loaded (R70). -/
def imageLoaded (s : State) : Bool := decide (s.job.st ≠ .noJob)

/-- The number of a power state, without the starts (R438). -/
def psCode : PState → Nat
  | .off => 0 | .asleep => 0 | .awake => 1 | .lit => 2 | .running => 3

/-- `BM_STATE` (R438): 4 safe mode, 5 starting, 6 hold-up. -/
def bmState (s : State) : Nat :=
  if s.pwr.holdUp then 6 else if s.boot.stage = 12 then 4 else if s.boot.starting then 5 else psCode s.pwr.ps

/-- The number of a job state (R459). -/
def jobCode : JobSt → Nat
  | .noJob => 0 | .loaded => 1 | .strict => 2 | .loose => 3 | .held => 4 | .catchup => 5 | .complete => 6

/-- The identifier by which the module goes: the one in effect since the last transition to Lit (R450). -/
def moduleId (s : State) : BitVec 12 := s.ident.active

/-- The length of the period at hand in 1/64 ns (R51, R63). -/
def periodLen (s : State) : Nat :=
  match s.job.image with
  | some i => 64 * (if s.job.stretched then i.stretchNs.toNat else i.periodNs.toNat)
  | none => 0

/-- The Bell instant of the next period (R51). -/
def bellDue (s : State) : BitVec 64 := if s.job.gridOn then s.job.tb + BitVec.ofNat 64 (periodLen s) else s.job.t0

/-- The state that a meaning goes to. -/
def stateOf (s : State) : Host.Outcome State Fault Refusal → State
  | .next t => t
  | _ => s

/-- Milliseconds of the service clock (R382: 400,000 sc each). -/
def msSince (s : State) (t : Nat) : Nat := (s.sc - t) / 400000

/-! ### Outputs and free values -/

/-- Something leaves the module. -/
def emit (c : Chan) (port : Nat) (body : Bytes) (s : State) : State :=
  s.modOut fun o => { chan := c, port := port, body := body } :: o

/-- The next free value of w bits. -/
def freeVal (w : Nat) (s : State) : BitVec w := Config.freeBits w s.free

/-- The free value has been used. -/
def useFree (s : State) : State := s.modFree (· + 1)

/-- MSI-X: a masked vector sets its pending bit, another sends its message (R329, R352). -/
def msix (v : Nat) (s : State) : State :=
  let e := tget {} s.hi.msix v
  if e.ctl.getLsbD 0 then s.modHi fun h => { h with pba := h.pba ||| BitVec.ofNat 64 (2 ^ v) }
  else emit .msix v (le 8 e.addr.toNat ++ le 4 e.data.toNat) s

/-! ### MRAM -/

/-- Count one write to the sector that holds an item (R413). -/
def mramCount (kind idx : Nat) (s : State) : State :=
  s.modLife fun l => { l with mramWr := tmod 0 l.mramWr (Config.mramSector kind idx) fun n => n + 1 }

/-- Write a checkpoint into the older copy (R403): the ceiling, or the exact next count when closed. -/
def ckptWrite (closed : Bool) (count : BitVec 48) (s : State) : State :=
  let c : Ckpt := { valid := true, era := s.db.era, count := count, closed := closed }
  mramCount 1 (b2n (!s.db.ckptNewerB)) <| s.modDb fun d =>
    if d.ckptNewerB then { d with ckptA := c, ckptNewerB := false } else { d with ckptB := c, ckptNewerB := true }

/-- The newer checkpoint copy. -/
def ckptNow (d : Daybook) : Ckpt := if d.ckptNewerB then d.ckptB else d.ckptA

/-- The checkpoint must be written before this count is assigned: it is closed, or its ceiling is reached (R403). -/
def ckptDue (d : Daybook) : Bool := (ckptNow d).closed || decide ((ckptNow d).count ≤ d.count)

/-- Write the next ceiling, 65,536 higher, with CLOSED clear (R403). -/
def ckptRaise (s : State) : State := (ckptWrite false (s.db.count + 65536) s).modNvw fun n => { n with ckpt := false }

/-! ### The Daybook -/

/-- A 64-bit sequence number: era and count (R398). -/
def seqNo (era : BitVec 16) (count : BitVec 48) : Nat := era.toNat * 2 ^ 48 + count.toNat

/-- The sequence number of a record. -/
def DbRec.seq (r : DbRec) : Nat := seqNo r.era r.count

/-- `DR.NEXT`: the number the next record takes (R406). -/
def dbNext (s : State) : Nat := seqNo s.db.era s.db.count

/-- The lowest severity among records. -/
def lowSev : List DbRec → Nat → Nat
  | [], m => m
  | r :: t, m => lowSev t (min m r.sev.toNat)

/-- Put a record into a store (R405): append while there is room, else overwrite the oldest record of the lowest
severity present that is not above its own; none when it is dropped. -/
def storePut (cap : Nat) (l : List DbRec) (r : DbRec) : Option (List DbRec) :=
  if l.length < cap then some (l ++ [r])
  else
    let m := lowSev l 7
    if m ≤ r.sev.toNat then some (dropFirst (fun x => decide (x.sev.toNat = m)) l ++ [r]) else none

/-- Put a record into the SRAM ring (R404, R405). -/
def ringPut (r : DbRec) (d : Daybook) : Daybook :=
  match storePut 16384 d.ring r with
  | some l => { d with ring := l }
  | none => { d with ringDrop := addSat d.ringDrop 1 }

/-- Put a record into the last-gasp bank (R410, R411). -/
def bankPut (r : DbRec) (d : Daybook) : Daybook :=
  match storePut 8 d.bank r with
  | some l => { d with bank := l }
  | none => { d with bankDrop := addSat d.bankDrop 1 }

/-- Queue a record for the mirror: up to 64 wait, under the rule of a full store (R377, R404). -/
def mirrorQueue (r : DbRec) (d : Daybook) : Daybook :=
  match storePut 64 d.mirrorQ r with
  | some l => { d with mirrorQ := l }
  | none => { d with mirrorDrop := addSat d.mirrorDrop 1 }

/-- `BM_ALERT` after a record (R438): thermal trip, safe mode, CRITICAL or FATAL, coolant, cap unmet. -/
def alertBits (code : Nat) : BitVec 8 :=
  (if code = evThermalTrip then 1 else 0) ||| (if code = evSafeModeEntered then 2 else 0) |||
  (if 4 ≤ sevOf code then 4 else 0) ||| (if code = evCoolantLimit then 8 else 0) |||
  (if code = evPowerCapUnmet then 16 else 0)

/-- A code that is never suppressed: CRITICAL, FATAL, DAYBOOK_CLEARED and DAYBOOK_STORE_FAIL (R402). -/
def neverSuppressed (code : Nat) : Bool :=
  decide (4 ≤ sevOf code) || decide (code = evDaybookCleared) || decide (code = evDaybookStoreFail)

/-- The record finds no token in its bucket (R402). -/
def suppressed (code : Nat) (d : Daybook) : Bool :=
  let b := tget {} d.buckets code
  !neverSuppressed code && decide (b.burst ≠ 0) && decide (b.tokens = 0)

/-- The bucket after an accepted record: one token less where a token was needed, no pending count (R402). -/
def bucketTake (code : Nat) (b : Bucket) : Bucket :=
  { b with tokens := if neverSuppressed code || decide (b.burst = 0) then b.tokens else b.tokens - 1, supp := 0 }

/-- The bucket after a suppressed record (R402). -/
def bucketMiss (b : Bucket) : Bucket := { b with supp := min (b.supp + 1) 65535 }

/-- The always-on domain records in the last-gasp bank while the module is Asleep (R411). -/
def inAsleep (s : State) : Bool := decide (s.pwr.ps = .asleep) && !s.pwr.holdUp

/-- Build the record that takes the next number (R398); one of narrow mode is in the last-gasp bank too (log entry 106, DEDUCED). -/
def mkRec (code src : Nat) (pl : Bytes) (s : State) : DbRec :=
  { payload := pl.take 40, supp := BitVec.ofNat 16 (tget {} s.db.buckets code).supp, src := BitVec.ofNat 16 src,
    sev := BitVec.ofNat 3 (sevOf code), code := BitVec.ofNat 16 code, era := s.db.era, count := s.db.count,
    narrow := s.db.narrow, lastGasp := inAsleep s || s.db.narrow }

/-- Place a numbered record in the stores: the ring and, for WARN and above, the mirror's queue; in Asleep the
last-gasp bank; in narrow mode the bank and the mirror while it is sound (R404, R410, R411). -/
def placeRec (r : DbRec) (asleep : Bool) (d : Daybook) : Daybook :=
  if asleep then bankPut r d
  else
    let d1 := if d.narrow then bankPut r d else ringPut r d
    if 2 ≤ r.sev.toNat ∧ d.mirrorOut = false then mirrorQueue r d1 else d1

/-- The record is pushed into the reply ring: at or above the threshold, or WARN and above in narrow mode; none while
the ring is disabled or the boot ROM serves (R345, R347, R363, R410). -/
def pushDue (r : DbRec) (s : State) : Bool :=
  fwUp s && s.hi.ringEn &&
    ((decide (s.hi.push ≠ 0) && decide (s.hi.push.toNat ≤ r.sev.toNat)) || (s.db.narrow && decide (2 ≤ r.sev.toNat)))

/-- A record that reaches the Daybook and is accepted: it takes its number and goes to its stores. -/
def record (code src : Nat) (pl : Bytes) (s : State) : State :=
  let s1 := if ckptDue s.db then
      (if s.pwr.nvInhibit then s.modNvw fun n => { n with ckpt := true } else ckptRaise s) else s
  let r := mkRec code src pl s1
  let s2 := s1.modDb fun d =>
    placeRec r (inAsleep s1) { d with count := d.count + 1, buckets := tmod {} d.buckets code (bucketTake code) }
  let s3 := if pushDue r s2 then s2.modHi fun h => { h with pushes := h.pushes ++ [{ record := r }] } else s2
  let wake := inAsleep s3 && decide (3 ≤ r.sev.toNat)
  s3.modPins fun p =>
    { p with alert := p.alert ||| alertBits code ||| (if wake then 64 else 0), wake := p.wake || wake }

/-- Which holder keeps a record during the SV restart of a warm start: a die, or the always-on domain (R412). -/
def holderOf (src : Nat) : Nat := if src = srcAon then 16 else if src < 0xF000 then src / 4096 else 4

/-- One event reaches the Daybook (R401, R402, R412). -/
def raise1 (code src : Nat) (pl : Bytes) (s : State) : State :=
  if s.db.svDown then
    if (s.db.srcHeld.filter fun r => decide (holderOf r.src.toNat = holderOf src)).length < 16 then
      s.modDb fun d => { d with srcHeld := d.srcHeld ++ [{ payload := pl.take 40, src := BitVec.ofNat 16 src, code := BitVec.ofNat 16 code, sev := BitVec.ofNat 3 (sevOf code) }] }
    else s.modDb fun d => { d with buckets := tmod {} d.buckets code bucketMiss }
  else if suppressed code s.db then s.modDb fun d => { d with buckets := tmod {} d.buckets code bucketMiss }
  else record code src pl s

/-- NV_WRITE_INHIBIT, at the first inhibited write (R377): writes and commands waiting. -/
def inhibitNote (s : State) : State :=
  let waiting := s.db.mirrorQ.length + s.cal.queue.length + b2n s.nvw.setCap + b2n s.nvw.setPfx + b2n s.nvw.setRate +
    b2n s.nvw.setId + b2n s.nvw.lifetime + b2n s.nvw.ckpt + s.nvw.train.length
  if s.pwr.nvInhibit && !s.pwr.nvRaised && decide (0 < waiting + s.nvw.cmds.length) then
    raise1 evNvWriteInhibit srcAon (leSat 4 waiting ++ leSat 4 s.nvw.cmds.length)
      (s.modPwr fun p => { p with nvRaised := true })
  else s

/-- Raise an event: its code, source and payload (R398 to R412, R457, R459). -/
def raise (code src : Nat) (pl : Bytes) (s : State) : State := inhibitNote (raise1 code src pl s)

/-- Raise an event that carries its count since the last record: the count so far, and what to do with it. While the code's
bucket is empty the count goes on (R217, R402). -/
def countEvent (code src : Nat) (pl : Nat → Bytes) (n : Nat) (keep : Nat → State → State) (s : State) : State :=
  if suppressed code s.db then raise code src (pl (n + 1)) (keep (n + 1) s) else raise code src (pl (n + 1)) (keep 0 s)

/-- One write to MRAM, counted on its sector; MRAM_WEAR as the sector passes 80 % of 10¹² writes (R413, R415). -/
def mramWrite (kind idx : Nat) (s : State) : State :=
  let sec := Config.mramSector kind idx
  let s1 := mramCount kind idx s
  if tget 0 s1.life.mramWr sec = 800000000001 then
    raise evMramWear srcSv (leSat 4 sec ++ leSat 4 800000000001) s1
  else s1

/-! ### Measurement registers -/

/-- Extend a measurement register and log it (R422, R423). -/
def mrExtend (r kind : Nat) (d : BitVec 384) (s : State) : State :=
  let v := digest (digestBytes (tget 0 s.sec.mr r) ++ digestBytes d)
  let s1 := s.modSec fun c => { c with mr := tset 0 c.mr r v }
  if s.sec.log.length < 1024 then
    s1.modSec fun c => { c with log := c.log ++ [{ reg := r, kind := kind, dbseq := BitVec.ofNat 64 (dbNext s), digest := d }] }
  else if s.sec.logOver then s1
  else raise evMeasureLogFull srcSec (le 1 r ++ le 1 kind) (s1.modSec fun c => { c with logOver := true })

/-! ### Replies -/

/-- The packet has its final reply: it is held no longer (R335). -/
def unhold (ref : PktRef) (s : State) : State :=
  s.modHi fun h => { h with held := dropFirst (fun x => decide (x.ref = ref)) h.held }

/-- The packet has sent its first reply (R340). -/
def markReplied (ref : PktRef) (s : State) : State :=
  s.modHi fun h => { h with held := mapFirst (fun x => decide (x.ref = ref)) (fun x => { x with replied := true }) h.held }

/-- A packet whose final reply is discarded is held no longer; with the last packet of a list so goes its EXECUTE_LIST (R343, R345). -/
def dropFinal (ref : PktRef) (s : State) : State :=
  let t := unhold ref s
  match t.hi.lists with
  | none => t
  | some l => if l.ended.isSome && !(t.hi.held.any fun x => x.ref.list) then (unhold l.ref t).modHi fun h => { h with lists := none } else t

/-- The packet had begun at an FLR, which discards its replies (R328; log entry 104, DEDUCED). -/
def muted (ref : PktRef) (s : State) : Bool := s.hi.held.any fun x => x.mute && decide (x.ref = ref)

/-- Queue a reply record; while the ring is disabled it is discarded, and so are the replies that an FLR discards (R328, R344, R345). -/
def queueReply (r : Reply) (s : State) : State :=
  if s.hi.ringEn && !muted r.ref s then s.modHi fun h => { h with replies := h.replies ++ [r] }
  else if r.interim then markReplied r.ref s else dropFinal r.ref s

/-- Final reply with data. -/
def reply (ref : PktRef) (status : Nat) (data : Bytes) (s : State) : State :=
  queueReply { ref := ref, status := BitVec.ofNat 16 status, data := data } s

/-- Interim reply 0x0001 PENDING (R346). -/
def replyPending (ref : PktRef) (s : State) : State :=
  queueReply { ref := ref, status := BitVec.ofNat 16 stPending, interim := true } s

/-- Final reply whose data goes to a host buffer (R344, R346): 0x0303 with the needed length when it is short. -/
def replyBuf (ref : PktRef) (buf : Buf) (bytes fields : Bytes) (s : State) : State :=
  if buf.len.toNat < bytes.length then reply ref stBufferShort (le 4 bytes.length) s
  else queueReply { ref := ref, status := 0, ptr := true, data := le 4 bytes.length ++ fields }
    (emit .hostWrite buf.addr.toNat bytes s)

/-- Final reply to a packet that may be absent. -/
def replyOpt (ref : Option PktRef) (status : Nat) (data : Bytes) (s : State) : State :=
  match ref with
  | some r => reply r status data s
  | none => s

end Sys2Proof.Machine
end

