-- ==== Sys2Proof/Machine/Operands.lean ====
section
/-!
DEFINITION. The operands of opcode packets: what each opcode accepts (R355), a packet's bytes (R337, R339, R348), the
checks of its header (R338), when it may begin (R340), and the checks made as it begins (R350, R363).
-/

namespace Sys2Proof.Machine

/-- One opcode of R355: expert level, and the bytes of its parameters (for a variable part, of the fixed ones). -/
structure OpRow where
  /-- Opcode. -/
  op : Nat
  /-- Bytes of the fixed parameters. -/
  len : Nat
  /-- Its level is expert. -/
  expert : Bool := false
  deriving DecidableEq, Repr

/-- System and job opcodes (R355). -/
def opRowsA : List OpRow := [
  ⟨0x0100, 0, false⟩, ⟨0x0101, 0, false⟩, ⟨0x0102, 13, false⟩, ⟨0x0103, 4, false⟩, ⟨0x0104, 1, false⟩,
  ⟨0x0105, 0, false⟩, ⟨0x0106, 0, false⟩, ⟨0x0107, 3, false⟩,
  ⟨0x0201, 12, false⟩, ⟨0x0202, 12, false⟩, ⟨0x0203, 12, false⟩, ⟨0x0204, 36, false⟩, ⟨0x0205, 9, false⟩,
  ⟨0x0206, 9, false⟩, ⟨0x0207, 17, false⟩, ⟨0x0208, 0, false⟩, ⟨0x0209, 0, false⟩, ⟨0x020A, 14, false⟩,
  ⟨0x020B, 4, false⟩, ⟨0x020C, 5, false⟩, ⟨0x020D, 2, false⟩, ⟨0x020E, 2, false⟩, ⟨0x020F, 20, true⟩]

/-- Memory and light-path opcodes (R355). -/
def opRowsB : List OpRow := [
  ⟨0x0301, 20, false⟩, ⟨0x0302, 20, false⟩, ⟨0x0303, 24, false⟩, ⟨0x0304, 2, false⟩, ⟨0x0305, 1, false⟩,
  ⟨0x0306, 8, false⟩, ⟨0x0307, 15, false⟩, ⟨0x0308, 2, true⟩, ⟨0x0309, 7, true⟩, ⟨0x030A, 6, true⟩,
  ⟨0x030B, 6, true⟩, ⟨0x030C, 1, true⟩,
  ⟨0x0401, 32, false⟩, ⟨0x0402, 4, false⟩, ⟨0x0403, 37, false⟩, ⟨0x0404, 3, false⟩, ⟨0x0405, 13, false⟩,
  ⟨0x0406, 5, false⟩, ⟨0x0407, 1, false⟩, ⟨0x0408, 4, false⟩, ⟨0x0409, 11, false⟩, ⟨0x040A, 16, true⟩,
  ⟨0x040B, 2, true⟩, ⟨0x040C, 4, true⟩, ⟨0x040D, 2, true⟩, ⟨0x040E, 2, true⟩]

/-- Time, control-engine, calibration and Prefect opcodes (R355). -/
def opRowsC : List OpRow := [
  ⟨0x0501, 9, false⟩, ⟨0x0502, 8, false⟩, ⟨0x0503, 3, false⟩, ⟨0x0504, 9, false⟩, ⟨0x0505, 0, false⟩,
  ⟨0x0506, 33, false⟩, ⟨0x0507, 1, false⟩,
  ⟨0x0601, 14, false⟩, ⟨0x0602, 6, false⟩, ⟨0x0603, 3, false⟩, ⟨0x0604, 13, false⟩, ⟨0x0605, 12, false⟩,
  ⟨0x0606, 34, true⟩, ⟨0x0607, 163, true⟩, ⟨0x0608, 3, true⟩,
  ⟨0x0701, 6, false⟩, ⟨0x0702, 2, false⟩, ⟨0x0703, 15, false⟩, ⟨0x0704, 12, false⟩, ⟨0x0705, 19, false⟩,
  ⟨0x0706, 3, true⟩,
  ⟨0x0801, 0, false⟩, ⟨0x0802, 2, false⟩, ⟨0x0803, 3, false⟩, ⟨0x0804, 0, false⟩, ⟨0x0805, 0, true⟩]

/-- Daybook, security and lifetime opcodes (R355). -/
def opRowsD : List OpRow := [
  ⟨0x0901, 23, false⟩, ⟨0x0902, 16, false⟩, ⟨0x0903, 4, true⟩,
  ⟨0x0A01, 0, false⟩, ⟨0x0A02, 45, false⟩, ⟨0x0A03, 12, false⟩, ⟨0x0A04, 98, false⟩, ⟨0x0A05, 48, false⟩,
  ⟨0x0B01, 12, false⟩, ⟨0x0B02, 8, false⟩, ⟨0x0B03, 0, false⟩]

/-- The row of an opcode. -/
def opRow (op : Nat) : Option OpRow := (opRowsA ++ opRowsB ++ opRowsC ++ opRowsD).find? fun r => decide (r.op = op)

/-- The opcodes that R348 names: FIELD_FUSE_BURN, CHANNEL_RESTORE, DAYBOOK_CLEAR, OPERATOR_KEY_SET. -/
def opSigned (op : Nat) : Bool :=
  decide (op = 0x030B) || decide (op = 0x030C) || decide (op = 0x0902) || decide (op = 0x0A04)

/-- `PK.TARGET` is valid: an engine 0 to 5 for the control engines but ROTE_SAVE and ROTE_LOAD, else 0xFF (R355). -/
def targetOk (op : Nat) (t : BitVec 8) : Bool :=
  if op / 256 = 6 ∧ op ≠ 0x0604 ∧ op ≠ 0x0605 then decide (t.toNat ≤ 5) else decide (t = 0xFF)

/-- The parameter bytes an opcode needs, its variable part included: a plan's entries, a CDB message (R339, R355). -/
def paramLen (op : Nat) (r : OpRow) (params : Bytes) : Nat :=
  if op = 0x0401 then 32 + 16 * fld (rd params 16 4) 4 12
  else if op = 0x0403 then 37 + 16 * fld (rd params 21 4) 4 12
  else if op = 0x040A then 16 + rd params 2 2
  else r.len

/-- The opcodes that the boot ROM serves before the firmware runs and in safe mode (R363). -/
def bootServed (op : Nat) : Bool :=
  op ∈ [0x0100, 0x0101, 0x0106, 0x0901, 0x0A01, 0x0A02, 0x0A03, 0x0B01, 0x0B03]

/-- What a reply needs of the packet. -/
def Pkt.ref (p : Pkt) (op : Nat) : PktRef :=
  { seq := p.seq, tag := p.tag, opcode := BitVec.ofNat 16 op, irq := p.irq, list := p.list }

/-- The packet's length in 8-byte units: header, padded parameters, trailer (R337, R339, R348). -/
def pktLen (signed : Bool) (params : Bytes) : Nat := (16 + roundUp params.length 8 + (if signed then 136 else 0)) / 8

/-- The 16 header bytes (R337). -/
def pktHeader (p : Pkt) (op : Nat) (params : Bytes) : Bytes :=
  zeros 4 ++ le 1 (b2n p.fence + 2 * b2n p.irq + 4 * b2n p.sig.isSome + 128 * b2n p.expert) ++ le 1 p.target.toNat ++
    le 2 p.tag.toNat ++ le 4 p.seq.toNat ++ le 2 (pktLen p.sig.isSome params) ++ le 2 op

/-- The bytes that a signature covers: byte 0 to the end of `SG.NONCE` (R348). -/
def signedBytes (p : Pkt) (op : Nat) (params : Bytes) (t : SigTrailer) : Bytes :=
  pktHeader p op params ++ padTo (roundUp params.length 8) params ++ le 8 t.key.toNat ++ le 32 t.nonce.toNat

/-- Checks 4 to 6 of R338 on a packet of a listed opcode; 0 when they pass. -/
def headerCheck (op : Nat) (expert signed : Bool) (target : BitVec 8) : Nat :=
  match opRow op with
  | none => stOpcodeUnknown
  | some r =>
    if r.expert ≠ expert then stLevelMismatch
    else if !targetOk op target then stTargetInvalid
    else if signed && !opSigned op then stHeaderInvalid
    else 0

/-- The module is owned: an operator key is installed (R429). -/
def owned (s : State) : Bool := !s.sec.keys.isEmpty

/-- The expert latch of an opcode's group is set (R349). -/
def latched (op : Nat) (s : State) : Bool := s.hi.latchGroups.getLsbD (op / 256)

/-- The nonce is the current one and less than 60 s old (R348, R350). -/
def nonceOk (n : BitVec 256) (s : State) : Bool :=
  decide (s.hi.nonce = some n) && decide (s.sc - s.hi.nonceAt < 24000000000)

/-- The signature verifies under an installed key (R348, R350). -/
def sigOk (p : Pkt) (op : Nat) (params : Bytes) (t : SigTrailer) (s : State) : Bool :=
  let k := tget 0 s.sec.keys (t.key.toNat % 256)
  ecdsaVerify (sha384 (signedBytes p op params t)) t.r.toNat t.s.toNat (k.toNat % 2 ^ 384) (k.toNat / 2 ^ 384)

/-- The checks of R350 in their order; 0 when they pass. -/
def authCheck (op : Nat) (params : Bytes) (p : Pkt) (s : State) : Nat :=
  if p.expert && !latched op s then stExpertLatchClear
  else if !opSigned op then 0
  else match p.sig with
    | none => if decide (op = 0x0A04) && !owned s then 0 else stSignatureRequired
    | some t =>
      if decide (op = 0x0A04) && !owned s then stHeaderInvalid
      else if !nonceOk t.nonce s then stNonceInvalid
      else if (s.sec.keys.find? fun e => decide (e.1 = t.key.toNat % 256)).isNone then stKeyEmpty
      else if !sigOk p op params t s then stSignatureInvalid
      else 0

/-- The packet's key index; 255 when it has no trailer. -/
def Pkt.keyIndex (p : Pkt) : Nat :=
  match p.sig with
  | none => 255
  | some t => t.key.toNat % 256

/-- A signed packet uses up its nonce (R348, R350). -/
def spendNonce (p : Pkt) (s : State) : State :=
  match p.sig with
  | none => s
  | some t => if s.hi.nonce = some t.nonce then s.modHi fun h => { h with nonce := none } else s

/-- A packet that failed R350: refused, and SIGNATURE_REFUSED for a signed one. -/
def refuseAuth (op st : Nat) (p : Pkt) (s : State) : State :=
  if opSigned op then
    reply (p.ref op) st [] (raise evSignatureRefused srcSv (le 2 op ++ le 1 p.keyIndex ++ le 2 st) (spendNonce p s))
  else reply (p.ref op) st [] s

/-- The entry of the held list for a packet that is taken and begins at once. -/
def Pkt.heldEntry (p : Pkt) (op : Nat) (params : Bytes) : Held :=
  { ref := p.ref op, fence := p.fence, level := p.expert, target := p.target, params := params }

/-- A packet may begin after the packets held before it (R340): no fence among them, none at all before a fence, and
every packet of its group has sent its first reply. -/
def mayBegin (pre : List Held) (h : Held) : Bool :=
  pre.all fun x => !x.fence && !h.fence && (x.replied || decide (x.ref.opcode.toNat / 256 ≠ h.ref.opcode.toNat / 256))

/-- Let a packet begin: one that is held when its turn has come, one that is not held as one taken now; none when it
may not begin. The packets of a list stand in place of their EXECUTE_LIST and do not wait for it (R340, R342). -/
def startPkt (p : Pkt) (op : Nat) (params : Bytes) (s : State) : Option State :=
  let e := p.heldEntry op params
  let pre := (s.hi.held.takeWhile fun x => decide (x.ref ≠ e.ref)).filter fun x => !(p.list && decide (s.hi.lists.map (·.ref) = some x.ref))
  match s.hi.held.find? fun x => decide (x.ref = e.ref) with
  | some x =>
    if x.begun || decide (x.params ≠ params) || !mayBegin pre x then none
    else some (s.modHi fun h => { h with held := mapFirst (fun y => decide (y.ref = e.ref)) (fun y => { y with begun := true }) h.held })
  | none =>
    if decide (s.hi.held.length < 256) && mayBegin pre e then
      some (s.modHi fun h => { h with held := h.held ++ [{ e with begun := true }] })
    else none

/-- Both Prefects process an input that can lead to a gate command, under the next input sequence number (R303). -/
def prefectInput (s : State) : State :=
  s.modPfx fun p => { p with inputSeq := p.inputSeq + 1, pa := { p.pa with inputSeq := p.inputSeq + 1 }, pb := { p.pb with inputSeq := p.inputSeq + 1 } }

/-- A packet of the Prefects, Fabric and light paths and Calibration groups, or one of the Control engines group for CE0 to CE4, is such an
input (R303). -/
def pfxInput (op target : Nat) (s : State) : State :=
  let g := op / 256
  if g = 4 ∨ g = 7 ∨ g = 8 ∨ (g = 6 ∧ target < 5) then prefectInput s else s

/-- Run an opcode's packet: it begins when its turn has come (R340), the boot ROM serves only its own opcodes (R363),
the packet is authorised (R350), its parameters are in range (R339), and then it has its effect. -/
def runPkt (p : Pkt) (op : Nat) (params : Bytes) (valid : Bool) (body : PktRef → State → State) (s : State) : State :=
  if !svOn s then s else
    match startPkt p op params s with
    | none => s
    | some s1 =>
      let r := p.ref op
      let hc := headerCheck op p.expert p.sig.isSome p.target
      if hc ≠ 0 then reply r hc [] s1
      else if !fwUp s1 && !bootServed op then reply r stStateInvalid [] s1
      else
        let ac := authCheck op params p s1
        if ac ≠ 0 then refuseAuth op ac p s1
        else
          let s2 := pfxInput op p.target.toNat (if opSigned op then spendNonce p s1 else s1)
          if !valid then reply r stParamInvalid [] s2 else body r s2

/-- The bytes of a host buffer parameter (R355). -/
def Buf.bytes (b : Buf) : Bytes := le 8 b.addr.toNat ++ le 4 b.len.toNat

end Sys2Proof.Machine
end

