-- ==== Sys2Proof/Machine/HostSecurity.lean ====
section
/-!
DEFINITION. Identity, measurement and attestation: nonces, ATTEST, operator keys, MR7 and the SPDM requests
(R348, R418 to R431).
-/

namespace Sys2Proof.Machine

/-- The stepping B1 (R1). -/
def stepping : Nat := 0xB1

/-- The 97 bytes of one key slot: 1 and the key, or zeros (R430). -/
def keySlot (s : State) (i : Nat) : Bytes :=
  match s.sec.keys.find? fun e => decide (e.1 = i) with
  | some e => 1#8 :: le 96 e.2.toNat
  | none => zeros 97

/-- The key set digest (R430). -/
def keySetDigest (s : State) : BitVec 384 := digest (keySlot s 0 ++ keySlot s 1 ++ keySlot s 2 ++ keySlot s 3)

/-- A change of the key set: MR6 extended, OPERATOR_KEY_CHANGED, digest bytes 0 to 23 in the reply (R430). -/
def keySetChanged (index op signer : Nat) (ref : PktRef) (s : State) : State :=
  let d := keySetDigest s
  let s1 := mrExtend 6 7 d (mramWrite 8 index s)
  reply ref stSuccess (le 24 d.toNat)
    (raise evOperatorKeyChanged srcSec (le 1 index ++ le 1 op ++ le 1 signer ++ le 8 d.toNat) s1)

/-- OPERATOR_KEY_SET applied: an occupied index, or a removal where no key stands, is a state error (R429). -/
def keyApply (index : Nat) (remove : Bool) (key : BitVec 768) (signer : Nat) (ref : PktRef) (s : State) : State :=
  let present := (s.sec.keys.find? fun e => decide (e.1 = index)).isSome
  if remove then
    if !present then reply ref stStateInvalid [] s
    else keySetChanged index 1 signer ref (s.modSec fun c => { c with keys := c.keys.filter fun e => decide (e.1 ≠ index) })
  else if present then reply ref stStateInvalid [] s
  else keySetChanged index 0 signer ref (s.modSec fun c => { c with keys := tset 0 c.keys index key })

/-- OPERATOR_KEY_SET as it begins: the point must lie on the curve; the change waits under the write inhibit (R377,
R429). -/
def keySetBody (index : Nat) (remove : Bool) (key : BitVec 768) (signer : Nat) (ref : PktRef) (s : State) : State :=
  if !onCurve (key.toNat % 2 ^ 384) (key.toNat / 2 ^ 384) then reply ref stParamInvalid [] s
  else if s.pwr.nvInhibit then
    inhibitNote (s.modNvw fun n => { n with cmds := n.cmds ++ [(ref, .key index remove key signer)] })
  else keyApply index remove key signer ref s

/-- OPERATOR_KEY_SET, install (R429). -/
def execOperatorKeyInstall (p : Pkt) (index : BitVec 8) (key : BitVec 768) (s : State) : Host.Outcome State Fault Refusal :=
  .next (runPkt p 0x0A04 (le 1 index.toNat ++ le 1 0 ++ le 96 key.toNat) (decide (index.toNat ≤ 3))
    (keySetBody index.toNat false key p.keyIndex) s)

/-- OPERATOR_KEY_SET, remove (R429). -/
def execOperatorKeyRemove (p : Pkt) (index : BitVec 8) (key : BitVec 768) (s : State) : Host.Outcome State Fault Refusal :=
  .next (runPkt p 0x0A04 (le 1 index.toNat ++ le 1 1 ++ le 96 key.toNat) (decide (index.toNat ≤ 3))
    (keySetBody index.toNat true key p.keyIndex) s)

/-- NONCE_GET: a new nonce, and the one before it is invalid (R348). -/
def nonceBody (ref : PktRef) (s : State) : State :=
  let n := freeVal 256 s
  reply ref stSuccess (le 32 n.toNat)
    ((useFree s).modHi fun h => { h with nonce := some n, nonceAt := s.sc, nonceCtr := h.nonceCtr + 1 })

/-- NONCE_GET (R348). -/
def execNonceGet (p : Pkt) (s : State) : Host.Outcome State Fault Refusal :=
  .next (runPkt p 0x0A01 [] true nonceBody s)

/-- The bytes of a log entry (R423). -/
def mlBytes (e : MlEntry) : Bytes := le 1 e.reg ++ le 1 e.kind ++ zeros 6 ++ le 8 e.dbseq.toNat ++ digestBytes e.digest

/-- The 96 bytes of a signature by the identity key: free values, because the private key is not readable (R418). -/
def freeSig (s : State) : Bytes := le 96 (freeVal 768 s).toNat

/-- A signature has been made. -/
def signed (s : State) : State := (useFree s).modSec fun c => { c with signs := c.signs + 1 }

/-- The report of R427 but for its signature. -/
def attestReport (nonce : BitVec 256) (mask : BitVec 8) (s : State) : Bytes :=
  let regs := setBits mask.toNat 8
  let log := s.sec.log.filter fun e => mask.getLsbD e.reg
  let len := 144 + 48 * regs.length + 64 * log.length + 96
  le 4 0x54535441 ++ le 2 1 ++ le 2 (moduleId s).toNat ++ le 1 mask.toNat ++
    le 1 (b2n s.sec.logOver + 2 * b2n (owned s) + 4 * b2n s.sec.fuseRead + 8 * b2n (decide (s.boot.stage = 12)) +
      16 * b2n (!s.tm.valid)) ++
    le 2 log.length ++ le 4 len ++ le 32 nonce.toNat ++ le 8 (dbNext s) ++
    le 8 (if s.tm.valid then s.tm.ft.toNat else 0) ++ le 16 Config.serial.toNat ++ le 1 stepping ++
    le 1 (s.boot.sig.toNat + 4 * s.boot.kind.toNat) ++ zeros 14 ++ sha384 Config.certChain ++
    (regs.map fun r => digestBytes (tget 0 s.sec.mr r)).flatten ++ (log.map mlBytes).flatten

/-- ATTEST: a signed report in the host buffer; refused when the identity key is lost (R420, R427). -/
def attestBody (nonce : BitVec 256) (mask : BitVec 8) (buf : Buf) (ref : PktRef) (s : State) : State :=
  if !s.sec.keyOk then reply ref stStateInvalid [] s
  else
    let b := attestReport nonce mask s
    let n := (s.sec.log.filter fun e => mask.getLsbD e.reg).length
    replyBuf ref buf (b ++ freeSig s) (le 4 (b.length + 96) ++ le 2 n) (signed s)

/-- ATTEST (R427). -/
def execAttest (p : Pkt) (nonce : BitVec 256) (mask : BitVec 8) (buf : Buf) (s : State) : Host.Outcome State Fault Refusal :=
  .next (runPkt p 0x0A02 (le 32 nonce.toNat ++ le 1 mask.toNat ++ buf.bytes) true (attestBody nonce mask buf) s)

/-- CERT_READ: the chain of R419. -/
def execCertRead (p : Pkt) (buf : Buf) (s : State) : Host.Outcome State Fault Refusal :=
  .next (runPkt p 0x0A03 buf.bytes true (fun ref => replyBuf ref buf Config.certChain []) s)

/-- MR7_EXTEND: refused with 0x0302 while the log is full (R421, R423). -/
def mr7Body (d : BitVec 384) (ref : PktRef) (s : State) : State :=
  if 1024 ≤ s.sec.log.length then reply ref stTableFull [] s
  else reply ref stSuccess [] (mrExtend 7 8 d s)

/-- MR7_EXTEND (R421). -/
def execMr7Extend (p : Pkt) (d : BitVec 384) (s : State) : Host.Outcome State Fault Refusal :=
  .next (runPkt p 0x0A05 (digestBytes d) true (mr7Body d) s)

/-! ### SPDM over DOE (R424 to R426). Message layouts are those of DMTF SPDM 1.2. -/

/-- SPDM is served from step 4 of every start, in safe mode, and while the firmware runs (R426). -/
def spdmServed (s : State) : Bool := svOn s && s.hi.pcieUp && decide (3 ≤ s.boot.stage.toNat)

/-- Answer a request. -/
def spdmSend (b : Bytes) (s : State) : State := emit .spdm 0 b s

/-- An ERROR response with its code. -/
def spdmError (code : Nat) (s : State) : State := spdmSend (le 1 0x12 ++ le 1 0x7F ++ le 1 code ++ le 1 0) s

/-- A byte of a request; 0 past its end. -/
def rb (req : Bytes) (i : Nat) : Nat := rd req i 1

/-- Run a request whose code must be the one of its row. -/
def spdmRun (code : Nat) (req : Bytes) (f : State → State) (s : State) : Host.Outcome State Fault Refusal :=
  if spdmServed s && decide (rb req 1 = code) then .next (f s) else .next s

/-- GET_VERSION: version 1.2 only (R424). -/
def execGetVersion (req : Bytes) (s : State) : Host.Outcome State Fault Refusal :=
  spdmRun 0x84 req (spdmSend (le 1 0x10 ++ le 1 0x04 ++ zeros 2 ++ le 1 0 ++ le 1 1 ++ le 2 0x1200)) s

/-- GET_CAPABILITIES: CERT_CAP, CHAL_CAP, MEAS_CAP = 2 and MEAS_FRESH_CAP, with CTExponent 15 (R424). -/
def execGetCapabilities (req : Bytes) (s : State) : Host.Outcome State Fault Refusal :=
  spdmRun 0xE1 req (spdmSend (le 1 0x12 ++ le 1 0x61 ++ zeros 2 ++ zeros 1 ++ le 1 15 ++ zeros 2 ++
    le 4 (2 + 4 + 2 * 8 + 32) ++ le 4 Config.spdmTransferSize.toNat ++ le 4 Config.spdmTransferSize.toNat)) s

/-- NEGOTIATE_ALGORITHMS: DMTF measurements, ECDSA P-384 and SHA-384 (R424). -/
def execNegotiateAlgorithms (req : Bytes) (s : State) : Host.Outcome State Fault Refusal :=
  spdmRun 0xE3 req (spdmSend (le 1 0x12 ++ le 1 0x63 ++ zeros 2 ++ le 2 36 ++ le 1 1 ++ zeros 1 ++
    le 4 4 ++ le 4 0x80 ++ le 4 2 ++ zeros 12 ++ zeros 4)) s

/-- GET_DIGESTS: the digest of slot 0 (R424). -/
def execGetDigests (req : Bytes) (s : State) : Host.Outcome State Fault Refusal :=
  spdmRun 0x81 req (spdmSend (le 1 0x12 ++ le 1 0x01 ++ zeros 1 ++ le 1 1 ++ sha384 Config.certChain)) s

/-- GET_CERTIFICATE: a portion of the chain of slot 0 (R419, R424). -/
def execGetCertificate (req : Bytes) (s : State) : Host.Outcome State Fault Refusal :=
  spdmRun 0x82 req (fun t =>
    if rb req 2 % 16 ≠ 0 ∨ Config.certChain.length < rd req 4 2 then spdmError 0x01 t
    else
      let p := part Config.certChain (rd req 4 2) (rd req 6 2)
      spdmSend (le 1 0x12 ++ le 1 0x02 ++ zeros 2 ++ le 2 p.length ++
        le 2 (Config.certChain.length - rd req 4 2 - p.length) ++ p) t) s

/-- The DMTF value type of each measurement register (R425). -/
def mrType (n : Nat) : Nat := if n = 0 then 0 else if n = 1 then 1 else if n = 2 then 3 else if n = 3 then 2 else 4

/-- Measurement block n + 1 for MRn (R425). -/
def mrBlock (s : State) (n : Nat) : Bytes :=
  le 1 (n + 1) ++ le 1 1 ++ le 2 51 ++ le 1 (mrType n) ++ le 2 48 ++ digestBytes (tget 0 s.sec.mr n)

/-- The measurement blocks up to MR(n - 1). -/
def mrBlocks (s : State) (n : Nat) : Bytes := ((List.range n).map (mrBlock s)).flatten

/-- The summary hash that a CHALLENGE asks for: TCB over blocks 1 to 4, All over blocks 1 to 8 (R425). -/
def summaryHash (kind : Nat) (s : State) : Bytes :=
  if kind = 1 then sha384 (mrBlocks s 4) else if kind = 0xFF then sha384 (mrBlocks s 8) else []

/-- CHALLENGE: the chain's digest, a nonce, the summary hash and a signature; Unspecified when the key is lost
(R420, R425). -/
def execChallenge (req : Bytes) (s : State) : Host.Outcome State Fault Refusal :=
  spdmRun 0x83 req (fun t =>
    if !t.sec.keyOk then spdmError 0x05 t
    else if rb req 2 % 16 ≠ 0 ∨ (rb req 3 ≠ 0 ∧ rb req 3 ≠ 1 ∧ rb req 3 ≠ 0xFF) then spdmError 0x01 t
    else
      let u := useFree t
      signed (spdmSend (le 1 0x12 ++ le 1 0x03 ++ zeros 1 ++ le 1 1 ++ sha384 Config.certChain ++
        le 32 (freeVal 256 t).toNat ++ summaryHash (rb req 3) t ++ le 2 0 ++ freeSig u) u)) s

/-- GET_MEASUREMENTS: a block, all blocks or their number; signed where the request asks (R420, R425). -/
def execGetMeasurements (req : Bytes) (s : State) : Host.Outcome State Fault Refusal :=
  spdmRun 0xE0 req (fun t =>
    let sg := decide (rb req 2 % 2 = 1)
    let op := rb req 3
    if sg && !t.sec.keyOk then spdmError 0x05 t
    else if 8 < op ∧ op ≠ 0xFF then spdmError 0x01 t
    else
      let blocks := if op = 0 then [] else if op = 0xFF then mrBlocks t 8 else mrBlock t (op - 1)
      let n := if op = 0 then 0 else if op = 0xFF then 8 else 1
      let u := useFree t
      let b := le 1 0x12 ++ le 1 0x60 ++ le 1 (if op = 0 then 8 else 0) ++ zeros 1 ++ le 1 n ++ le 3 blocks.length ++
        blocks ++ le 32 (freeVal 256 t).toNat ++ le 2 0
      if sg then signed (spdmSend (b ++ freeSig u) u) else spdmSend b u) s

/-- The request codes that are answered (R424). -/
def spdmCodes : List Nat := [0x84, 0xE1, 0xE3, 0x81, 0x82, 0x83, 0xE0]

/-- Any other request: ERROR UnsupportedRequest (R424). -/
def execSpdmUnsupportedRequest (req : Bytes) (s : State) : Host.Outcome State Fault Refusal :=
  if spdmServed s && !decide (rb req 1 ∈ spdmCodes) then
    .next (spdmSend (le 1 0x12 ++ le 1 0x7F ++ le 1 0x07 ++ le 1 (rb req 1)) s)
  else .next s

end Sys2Proof.Machine
end

