-- ==== Sys2Proof/Machine/Flags.lean ====
section
/-!
DEFINITION. The status registers and flag fields that are computed from the state: the registers of BAR0
(R325, R329, R331, R332, R358, R359, R449, R451), lane states (R158), Bell descriptors (R250), and the module profile
identifier (R43).
-/

namespace Sys2Proof.Machine

/-- What the module profile holds, in numbers (R44). -/
def profileContent (s : State) : List (List Nat) :=
  [[s.ident.active.toNat, stepping], s.pwr.oppOff.map (·.1), s.pwr.dieOut, s.ident.unavail.map (·.toNat), s.mem.retired,
   (s.mem.remaps.map fun r => [r.bank, r.row, r.spare]).flatten, s.ident.pprDone,
   (s.mem.applied.map fun a => [a.1.toNat, a.2]).flatten ++ s.mem.excluded]

/-- The module profile's byte image. -/
def profileBytes (s : State) : Bytes := Config.moduleProfile (profileContent s)

/-- The module profile identifier (R43). -/
def profileId (s : State) : BitVec 384 := digest (profileBytes s)

/-- `ID_MODULE` (R449). -/
def idModuleReg (s : State) : Nat :=
  s.ident.idField.toNat + 2 ^ 30 * b2n s.ident.assigned + 2 ^ 31 * b2n s.ident.stored

/-- The registers of board management that are read over I3C, from offset 0 (R438). -/
def bmBytes (s : State) : Bytes :=
  le 4 ((moduleId s).toNat + 2 ^ 16 * stepping) ++ le 1 (bmState s) ++ le 1 s.pins.alert.toNat ++ le 2 s.pins.vin.toNat ++ le 2 s.pins.iin.toNat ++
    le 2 s.pins.coolIn.toNat ++ le 2 s.pins.coolOut.toNat ++ le 2 s.pins.tjMax.toNat

/-- ALERT_N is low while `BM_ALERT` is not zero (R436, R438). -/
def alertN (s : State) : Bool := decide (s.pins.alert = 0)

/-- `BOOT_STATUS.ELAPSED_MS`, saturating; it stops at the end of the start (R358). -/
def elapsedMs (s : State) : Nat := min 65535 (s.boot.endMs.getD (msSince s s.boot.startSc))

/-- `BOOT_STATUS` (R358). -/
def bootStatusReg (s : State) : Nat :=
  let b := s.boot
  elapsedMs s + 2 ^ 16 * b.trainFailed.toNat + 2 ^ 34 * b.sig.toNat + 2 ^ 36 * b.fwRefuse.toNat + 2 ^ 40 * b.lastFail.toNat +
    2 ^ 48 * b.cause.toNat + 2 ^ 54 * b.warmFails.toNat + 2 ^ 56 * b.coldFails.toNat + 2 ^ 58 * b.kind.toNat +
    2 ^ 60 * b.stage.toNat

/-- `BOOT_CTL` as it reads: `FW_GO` reads 0 (R359). -/
def bootCtlReg (s : State) : Nat := 2 ^ 31 * b2n s.boot.perstWarm + 2 ^ 29 * b2n s.boot.combHold

/-- `HI_APERTURE` (R332); `IDLE` while no taken packet waits for its final reply. -/
def hiApertureReg (s : State) : Nat :=
  let h := s.hi
  h.free.toNat + 2 ^ 16 * h.consume.toNat + 2 ^ 30 * b2n h.held.isEmpty + 2 ^ 31 * b2n h.halt + 2 ^ 32 * h.expectSeq.toNat

/-- `HI_RING_CFG` (R332). -/
def hiRingCfgReg (s : State) : Nat := s.hi.ringSize.toNat + 2 ^ 31 * b2n s.hi.ringEn

/-- `HI_IRQ_MOD`: a `COUNT` of 0 reads as 1 (R332). -/
def hiIrqModReg (s : State) : Nat := max 1 s.hi.irqCount.toNat + 2 ^ 16 * s.hi.irqTime.toNat

/-- `HI_EVENT_PUSH` (R332). -/
def hiEventPushReg (s : State) : Nat := s.hi.push.toNat + 2 ^ 8 * s.hi.urgent.toNat + 2 ^ 16 * s.hi.dropped.toNat

/-- `HI_LATCH` (R332). -/
def hiLatchReg (s : State) : Nat := (s.hi.latchGroups.toNat % 4096) / 2 * 2 + 2 ^ 32 * s.hi.latchRemain.toNat

/-- `FT_STATUS` (R451). -/
def ftStatusReg (s : State) : Nat :=
  let t := s.tm
  (t.timeParent.getD 0).toNat + 2 ^ 24 * t.rank.toNat + 2 ^ 28 * b2n t.timeParent.isSome + 2 ^ 30 * b2n t.gm + 2 ^ 31 * b2n t.valid

/-- The role codes of R325. -/
def roleCode : PfxRole → Nat
  | .off => 0 | .controlling => 1 | .pairedSender => 2 | .standby => 3 | .stoodDown => 4 | .failed => 5

/-- A Prefect can send commands or stand by. -/
def roleAlive (r : PfxRole) : Bool := decide (r = .controlling) || decide (r = .pairedSender) || decide (r = .standby)

/-- The gates' accepted claims and pairings. -/
def gateClaims (s : State) : List (BitVec 32 × Bool) :=
  (List.range 10).map fun g => ((tget {} s.pfx.gates g).claim, (tget {} s.pfx.gates g).paired)

/-- All ten gates hold the same claim and pairing (R325). -/
def gateAgree (s : State) : Bool := (gateClaims s).all fun c => decide (c = (gateClaims s).headD (0, false))

/-- `PFX_STATUS.MODE` (R325): 0 hot pair, 1 warm standby, 2 single, 3 no accepted Prefect. -/
def pfxMode (s : State) : Nat :=
  let p := s.pfx
  if p.noAccepted then 3
  else if !(roleAlive p.pa.role && roleAlive p.pb.role) then 2
  else if decide (p.pa.role = .pairedSender) && decide (p.pb.role = .pairedSender) then 0 else 1

/-- Reverts in the last hour (R321, R325). -/
def hourReverts (s : State) : Nat := (s.pfx.reverts.filter fun t => decide (s.sc < t + 1440000000000)).length

/-- `PFX_STATUS` (R325). -/
def pfxStatusReg (s : State) : Nat :=
  let p := s.pfx
  let c := (gateClaims s).headD (0, false)
  p.holdLeft.toNat + 2 ^ 16 * b2n (gateAgree s) + (if gateAgree s then 2 ^ 17 * b2n c.2 + 2 ^ 18 * c.1.toNat else 0) +
    2 ^ 50 * min 3 (hourReverts s) + 2 ^ 52 * b2n p.revertEn + 2 ^ 53 * b2n p.x1 + 2 ^ 54 * b2n p.x0 +
    2 ^ 55 * roleCode p.pb.role + 2 ^ 58 * roleCode p.pa.role + 2 ^ 61 * b2n p.home + 2 ^ 62 * pfxMode s

/-- A received lane is in calibration: it shows role 3 (R281, R289). -/
def rxCal (s : State) (f k : Nat) : Bool := ((tget {} s.cal.rot f).rx.map fun r => decide (r.lane = k)).getD false

/-- `LANE_STATE` of fibre f and lane k (R158). -/
def laneStateReg (s : State) (f k : Nat) : Nat :=
  if f < 16 ∧ k < 33 then
    let l := tget {} s.opt.lanes (f * 33 + k)
    (if l.fecLock then l.berLog.toNat else 0) + 2 ^ 10 * l.pos.toNat + 2 ^ 15 * l.link.toNat +
      (if l.subst then 2 ^ 18 * l.substFor.toNat else 0) + 2 ^ 24 * b2n l.fecLock +
      2 ^ 25 * b2n (tget {} s.opt.fibres f).apr + 2 ^ 26 * b2n (l.suspect || l.suspectRx) + 2 ^ 27 * b2n l.inService + 2 ^ 28 * b2n l.failed +
      2 ^ 29 * b2n (l.cal || rxCal s f k) + 2 ^ 30 * b2n l.subst + 2 ^ 31 * b2n l.spare
  else 0

/-- The state codes of a Bell (R250). -/
def bellCode : BellSt → Nat
  | .idle => 0 | .armed => 1 | .done => 2

/-- A Bell descriptor as 256 bits (R250). -/
def bellBits (b : Bell) : Nat :=
  2 ^ 49 * b.syncN.toNat + 2 ^ 65 * b.syncObj.toNat + 2 ^ 81 * b2n b.syncEn + 2 ^ 82 * b.vector.toNat + 2 ^ 88 * b2n b.irq +
    2 ^ 89 * bellCode b.st + 2 ^ 91 * b2n b.pol + 2 ^ 92 * b.width.toNat + 2 ^ 112 * b.count.toNat + 2 ^ 144 * b.period.toNat +
    2 ^ 192 * b.time.toNat

/-- The descriptor of a Bell as the host reads it: Bells 0 and 1 are the module's own, at the next period Bell and at the
pending plan's `PP.ACT` (R51, R184, R249; log entry 46, DEDUCED). -/
def shownBell (s : State) (i : Nat) : Bell :=
  if i = 0 then
    if s.job.gridOn || s.job.startReq.isSome then { time := bellDue s, period := BitVec.ofNat 48 (periodLen s), st := .armed } else {}
  else if i = 1 then
    match s.sw.plan with
    | some r => if r.phase = PlanPhase.waiting then { time := r.plan.act, st := .armed } else {}
    | none => {}
  else tget {} s.bells.bells i

/-- The aligned 64-bit word of BAR0 at byte address a (R329, R331, R449, R451); reserved space reads as zero. -/
def bar0Word (s : State) (a : Nat) : Nat :=
  if a = 0x0000 then Config.vendorId.toNat + 2 ^ 16 * 0x8604 + 2 ^ 32 * stepping
  else if a = 0x0008 then idModuleReg s
  else if a = 0x0010 then fld Config.serial.toNat 0 64
  else if a = 0x0018 then fld Config.serial.toNat 64 64
  else if 0x20 ≤ a ∧ a < 0x50 then fld (profileId s).toNat (8 * (a - 0x20)) 64
  else if a = 0x0100 then bootStatusReg s
  else if a = 0x0108 then bootCtlReg s
  else if a = 0x0110 then s.boot.fwAddr.toNat
  else if a = 0x0118 then s.boot.fwLen.toNat
  else if a = 0x1000 then hiApertureReg s
  else if a = 0x1010 then s.hi.ringBase.toNat
  else if a = 0x1018 then hiRingCfgReg s
  else if a = 0x1020 then s.hi.prod.toNat
  else if a = 0x1028 then s.hi.cons.toNat
  else if a = 0x1030 then hiIrqModReg s
  else if a = 0x1038 then hiEventPushReg s
  else if a = 0x1040 then hiLatchReg s
  else if a = 0x1048 then s.hi.bar2Win.toNat
  else if a = 0x2000 then s.tm.ft.toNat
  else if a = 0x2008 then ftStatusReg s
  else if a = 0x2010 then s.tm.ppsTs.toNat
  else if a = 0x2018 then s.tm.ppsCnt.toNat
  else if a = 0x3000 then pfxStatusReg s
  else if 0x4000 ≤ a ∧ a < 0x4900 then
    fld (bellBits (shownBell s ((a - 0x4000) / 32))) (8 * ((a - 0x4000) % 32)) 64
  else if 0x8000 ≤ a ∧ a < 0x8400 then
    let e := tget {} s.hi.msix ((a - 0x8000) / 16)
    if a % 16 = 0 then e.addr.toNat else e.data.toNat + 2 ^ 32 * e.ctl.toNat
  else if a = 0x9000 then s.hi.pba.toNat
  else if 0x10000 ≤ a ∧ a < 0x11000 then
    laneStateReg s ((a - 0x10000) / 256) ((a - 0x10000) % 256 / 4) +
      2 ^ 32 * laneStateReg s ((a - 0x10000) / 256) ((a - 0x10000) % 256 / 4 + 1)
  else 0

/-- One byte of BAR0. -/
def bar0Byte (s : State) (a : Nat) : Byte := BitVec.ofNat 8 (bar0Word s (a / 8 * 8) / 256 ^ (a % 8))

/-- Bytes of BAR0 from an offset (R330: a read may have any size). -/
def bar0Bytes (s : State) (off len : Nat) : Bytes := (List.range len).map fun i => bar0Byte s (off + i)

end Sys2Proof.Machine
end

