-- ==== Sys2Proof/Machine/CalSets.lean ====
section
/-!
DEFINITION. Calibrated values: temperature sets, interpolation and rounding (R290 to R292), and when values come into force
(R290). A set is named by its key, (kind × 16 + fibre) × 33 + lane, kind 0 for transmit items and 1 for receive items.
-/

namespace Sys2Proof.Machine

/-- The key of a set. -/
def calKey (kind f k : Nat) : Nat := (kind * 16 + f) * 33 + k

/-- The kind of a key. -/
def keyKind (key : Nat) : Nat := key / 528

/-- The fibre of a key. -/
def keyFibre (key : Nat) : Nat := key / 33 % 16

/-- The lane of a key. -/
def keyLane (key : Nat) : Nat := key % 33

/-- A set. -/
def calSet (s : State) (key : Nat) : CalSet := tget {} s.cal.sets key

/-- Change a set. -/
def modSet (key : Nat) (g : CalSet → CalSet) (s : State) : State := s.modCal fun c => { c with sets := tmod {} c.sets key g }

/-- The points of a set: those it holds, or the factory's (R299). -/
def calPoints (key : Nat) (c : CalSet) : List Int := if c.pts.isEmpty then Config.factoryCal key else c.pts

/-- The value of an item at a point, 0 for 35 °C to 4 for 75 °C. -/
def pointOf (pts : List Int) (p item : Nat) : Int := pts.getD (8 * p + item) 0

/-- n / d rounded to the nearest integer, ties to even; d > 0. -/
def evenDiv (n : Int) (d : Nat) : Int :=
  let q := n.fdiv d
  let r := n.fmod d
  if 2 * r < d then q else if (d : Int) < 2 * r then q + 1 else if q % 2 = 0 then q else q + 1

/-- The unrounded value of an item at a die temperature in 0.01 °C, times 1,000 (R291). -/
def calAt (pts : List Int) (item : Nat) (t : Int) : Int :=
  if t ≤ 3500 then 1000 * pointOf pts 0 item
  else if 7500 ≤ t then 1000 * pointOf pts 4 item
  else
    let i := ((t - 3500) / 1000).toNat
    1000 * pointOf pts i item + (pointOf pts (i + 1) item - pointOf pts i item) * (t - 3500 - 1000 * i)

/-- The value of an item at a temperature, rounded to its unit (R291). -/
def calRound (pts : List Int) (item : Nat) (t : Int) : Int := evenDiv (calAt pts item t) 1000

/-- The points that a result at a temperature moves: both neighbours, or the end (R292). -/
def calNeighbours (t : Int) : List Nat :=
  if t ≤ 3500 then [0] else if 7500 ≤ t then [4] else [((t - 3500) / 1000).toNat, ((t - 3500) / 1000).toNat + 1]

/-- Add a step to an item at some points; a set value has 16 bits (R292, R297). -/
def calAdd (pts : List Int) (item : Nat) (ps : List Nat) (d : Int) : List Int :=
  (List.range 40).map fun j => if j % 8 = item ∧ j / 8 ∈ ps then satI 16 (pts.getD j 0 + d) else pts.getD j 0

/-- The die temperature that a fibre's items see: its group's photonic die (R291). -/
def fibreTemp (s : State) (f : Nat) : Int := tget 0 s.cal.dieTemp (f / 4)

/-- Values are due at the boundary of their item (R290). -/
def calDue (key : Nat) (vs : List Int) (s : State) : State := modSet key (fun c => { c with due := vs }) s

/-- The values of a set as they will be: due, or in force. -/
def CalSet.next (c : CalSet) : List Int := if c.due.isEmpty then c.inForce else c.due

/-- Some items that are due come into force; nothing is due once all have (R290). -/
def CalSet.take (items : List Nat) (c : CalSet) : CalSet :=
  if c.due.isEmpty then c
  else
    let v := (List.range 8).map fun i => if i ∈ items then c.due.getD i 0 else c.inForce.getD i 0
    { c with inForce := v, due := if v = c.due then [] else c.due }

/-- Items of a set that are due come into force (R290). -/
def calApply (key : Nat) (items : List Nat) (s : State) : State := if (calSet s key).due.isEmpty then s else modSet key (CalSet.take items) s

/-- The items of a kind that wait for a superframe or period boundary: all but the ring heater offset (R290). -/
def calItems (kind : Nat) : List Nat := if kind = 0 then [0, 1, 2, 3, 4, 5, 6] else [0, 1, 2, 3, 5, 6, 7]

/-- The lane items of a fibre that are due come into force (R290). -/
def calFibre (f : Nat) (s : State) : State :=
  [0, 1].foldl (fun t kind => (List.range 33).foldl (fun u k => calApply (calKey kind f k) (calItems kind) u) t) s

/-! ### EO biases (R290, R295) -/

/-- The EO bias register of an element. -/
def eobOf (s : State) (e : Nat) : BitVec 32 := tget 0 s.cal.eob e

/-- EO biases that are due come into force where the test says so (R290). -/
def eoApply (p : Nat → Bool) (s : State) : State :=
  s.modCal fun c =>
    { c with eoDue := c.eoDue.filter (fun e => !p e), eoForce := (c.eoDue.filter p).foldl (fun t e => tset 0 t e (BitVec.ofNat 16 ((tget 0 c.eob e).toNat / 65536))) c.eoForce }

/-- A slot table is in force (R202). -/
def slotTable (s : State) : Bool := ((s.job.image.map fun i => i.slots.isSome)).getD false

/-- The period Bell: with a slot table in force, the lane items of F12 to F15 and the EO biases that are due (R290). -/
def calPeriod (s : State) : State := if slotTable s then eoApply (fun _ => true) ([12, 13, 14, 15].foldl (fun t f => calFibre f t) s) else s

end Sys2Proof.Machine
end

