-- ==== Sys2Proof/Machine/Tile.lean ====
section
/-!
DEFINITION. Tiles, stream contexts and sync objects: their layouts, and the operations on them that the stations, the
transport and the host share (R18, R22 to R41).
-/

namespace Sys2Proof.Machine

/-! ### Stations (R18) -/

/-- The die of a station identifier. -/
def stnDie (s : BitVec 16) : Nat := fld s.toNat 12 4

/-- The kind code of a station identifier: 1 MX, 2 VX, 3 SX, 4 MM, 5 FX, 6 HX, 7 CE. -/
def stnKind (s : BitVec 16) : Nat := fld s.toNat 8 4

/-- The index of a station identifier. -/
def stnIndex (s : BitVec 16) : Nat := fld s.toNat 0 8

/-- A station identifier from its parts. -/
def mkStn (die kind idx : Nat) : BitVec 16 := BitVec.ofNat 16 (die * 4096 + kind * 256 + idx)

/-- Stations of a kind on a compute die. -/
def kindCount : Nat → Nat
  | 1 => 32 | 2 => 16 | 3 => 4 | 4 => 16 | 5 => 4 | _ => 0

/-- The engine's own die: CE0 to CE3 on P0 to P3, CE4 on SW, CE5 on SV. -/
def ceDie (i : Nat) : Nat := if i < 4 then 5 + i else if i = 4 then 9 else 4

/-- The identifier names a station (R18). -/
def stnValid (s : BitVec 16) : Bool :=
  let d := stnDie s
  let k := stnKind s
  let i := stnIndex s
  if k = 7 then decide (i ≤ 5) && decide (d = ceDie i)
  else if k = 6 then decide (d ≤ 1) && decide (i = 0)
  else decide (d ≤ 3) && decide (i < kindCount k)

/-- The bit of `SC.CONS_MASK` that names a station on its own die (R34). -/
def consBit (s : BitVec 16) : Option Nat :=
  match stnKind s with
  | 1 => some (stnIndex s)
  | 2 => some (32 + stnIndex s)
  | 3 => some (48 + stnIndex s)
  | 4 => some (52 + stnIndex s)
  | 5 => some (68 + stnIndex s)
  | 6 => some 72
  | _ => none

/-! ### Formats and tile shapes (R22 to R24) -/

/-- Bits of one element; 0 for a reserved code. -/
def fmtBits (f : Nat) : Nat :=
  if f = 0x01 then 32 else if f = 0x02 ∨ f = 0x03 then 16
  else if f = 0x04 ∨ f = 0x05 ∨ f = 0x06 ∨ f = 0x15 ∨ f = 0x16 then 8
  else if f = 0x07 ∨ f = 0x08 ∨ f = 0x17 ∨ f = 0x18 then 6
  else if f = 0x09 ∨ f = 0x19 then 4
  else if f = 0x20 then 64 else if f = 0x21 then 128 else 0

/-- A block-scaled format. -/
def fmtMx (f : Nat) : Bool := decide (0x15 ≤ f) && decide (f ≤ 0x19)

/-- What fixes the size of a tile: format, shape, layout, scale placement and grid mode. -/
structure Shape where
  /-- Format code. -/
  format : Nat
  /-- Rows. -/
  rows : Nat
  /-- Columns. -/
  cols : Nat
  /-- 0 row-major, 1 column-major. -/
  layout : Nat
  /-- Scale placement. -/
  place : Nat
  /-- Grid mode. -/
  gridMode : Nat
  deriving DecidableEq, Repr

/-- The shape of a binding entry (R464). -/
def Binding.shape (b : Binding) : Shape :=
  ⟨b.format.toNat, b.rowsM1.toNat + 1, b.colsM1.toNat + 1, b.layout.toNat, b.scalePlace.toNat, b.gridMode.toNat⟩

/-- The shape of a header. -/
def TileHdr.shape (h : TileHdr) : Shape :=
  ⟨h.format.toNat, h.rowsM1.toNat + 1, h.colsM1.toNat + 1, h.layout.toNat, h.scalePlace.toNat, h.gridMode.toNat⟩

/-- Bytes of the padded element area (R23). -/
def Shape.elemLen (t : Shape) : Nat := roundUp (ceilDiv (t.rows * t.cols * fmtBits t.format) 8) 32

/-- The tile has a scale area (R24). -/
def Shape.hasScale (t : Shape) : Bool := fmtMx t.format || decide (t.gridMode = 2)

/-- Blocks of 32 elements. -/
def Shape.blocks (t : Shape) : Nat := t.rows * t.cols / 32

/-- Where the grid words begin inside the scale area (R24). -/
def Shape.gridOff (t : Shape) : Nat := if fmtMx t.format then roundUp t.blocks 2 else 0

/-- Bytes of the scale area (R24). -/
def Shape.scaleLen (t : Shape) : Nat :=
  if t.gridMode = 2 then t.gridOff + 2 * t.blocks else if fmtMx t.format then t.blocks else 0

/-- `TH.PLEN` (R24). -/
def Shape.plen (t : Shape) : Nat := t.elemLen + t.scaleLen

/-- `TH.SCALE_OFF` (R24, R25). -/
def Shape.scaleOff (t : Shape) : Nat := if t.hasScale then t.elemLen / 32 else 0

/-- No reserved value, and the rules of R24 for a valid tile; one without a scale area has no scale placement (R25; log entry
64, DEDUCED). -/
def Shape.valid (t : Shape) : Bool :=
  decide (fmtBits t.format ≠ 0) && decide (t.gridMode ≤ 2) && decide (t.layout ≤ 1) && decide (t.rows ≤ 256) && decide (t.cols ≤ 256) &&
    (if t.hasScale then (decide (t.place = 1) && decide (t.cols % 32 = 0)) || (decide (t.place = 2) && decide (t.rows % 32 = 0))
     else decide (t.place = 0)) &&
    decide (t.plen ≤ 65536)

/-! ### Tile headers (R25) -/

/-- A header as a number of 256 bits. -/
def TileHdr.bits (h : TileHdr) : Nat :=
  h.stream.toNat + 2 ^ 24 * h.format.toNat + 2 ^ 32 * h.trow.toNat + 2 ^ 48 * h.tcol.toNat + 2 ^ 64 * h.tseq.toNat +
    2 ^ 102 * h.rowsM1.toNat + 2 ^ 111 * h.colsM1.toNat + 2 ^ 120 * h.layout.toNat + 2 ^ 122 * h.scalePlace.toNat +
    2 ^ 124 * h.plen.toNat + 2 ^ 141 * h.scaleOff.toNat + 2 ^ 152 * h.flags.toNat + 2 ^ 174 * h.gridMode.toNat +
    2 ^ 176 * h.grid.toNat + 2 ^ 192 * h.jobTag.toNat + 2 ^ 228 * h.prodMod.toNat + 2 ^ 240 * h.prodStn.toNat

/-- The 32 bytes of a header. -/
def TileHdr.bytes (h : TileHdr) : Bytes := le 32 h.bits

/-- Read a header from its bits. -/
def readTileHdr (v : Nat) : TileHdr :=
  { stream := BitVec.ofNat 20 v, format := BitVec.ofNat 8 (v >>> 24), trow := BitVec.ofNat 16 (v >>> 32),
    tcol := BitVec.ofNat 16 (v >>> 48), tseq := BitVec.ofNat 32 (v >>> 64), rowsM1 := BitVec.ofNat 9 (v >>> 102),
    colsM1 := BitVec.ofNat 9 (v >>> 111), layout := BitVec.ofNat 2 (v >>> 120), scalePlace := BitVec.ofNat 2 (v >>> 122),
    plen := BitVec.ofNat 17 (v >>> 124), scaleOff := BitVec.ofNat 11 (v >>> 141), flags := BitVec.ofNat 8 (v >>> 152),
    gridMode := BitVec.ofNat 2 (v >>> 174), grid := BitVec.ofNat 16 (v >>> 176), jobTag := BitVec.ofNat 32 (v >>> 192),
    prodMod := BitVec.ofNat 12 (v >>> 228), prodStn := BitVec.ofNat 16 (v >>> 240) }

/-- The first check of R27 that a header fails; 0 when it passes all four. -/
def hdrCheck (b : Shape) (h : TileHdr) (expect : BitVec 32) : Nat :=
  let t := h.shape
  if t ≠ b then 1
  else if fmtBits t.format = 0 ∨ t.gridMode = 3 ∨ t.place = 3 ∨ 1 < t.layout then 2
  else if h.plen.toNat ≠ t.plen ∨ h.scaleOff.toNat ≠ t.scaleOff then 3
  else if h.tseq ≠ expect then 4
  else 0

/-- `TH.FLAGS` bits (R25). -/
def flSxovf : BitVec 8 := 1
/-- POISON. -/
def flPoison : BitVec 8 := 2
/-- CONVSAT. -/
def flConvsat : BitVec 8 := 4
/-- EOS. -/
def flEos : BitVec 8 := 8
/-- SR. -/
def flSr : BitVec 8 := 16
/-- RESYNC. -/
def flResync : BitVec 8 := 32

/-- The flags that an output takes over from its inputs: SXOVF and POISON (R26). -/
def inherit (f : BitVec 8) : BitVec 8 := f &&& 3

/-! ### Stream contexts (R32, R33) -/

/-- A forward entry as 48 bits. -/
def Fwd.bits (f : Fwd) : Nat :=
  f.dstStream.toNat + 2 ^ 25 * f.die.toNat + 2 ^ 27 * f.link.toNat + 2 ^ 30 * f.fx.toNat + 2 ^ 34 * f.module.toNat + 2 ^ 46 * f.kind.toNat

/-- Read a forward entry. -/
def readFwd (v : Nat) : Fwd :=
  { dstStream := BitVec.ofNat 20 v, die := BitVec.ofNat 2 (v >>> 25), link := BitVec.ofNat 3 (v >>> 27), fx := BitVec.ofNat 4 (v >>> 30),
    module := BitVec.ofNat 12 (v >>> 34), kind := BitVec.ofNat 2 (v >>> 46) }

/-- The codes of `SC.STATE`. -/
def scCode : ScState → Nat
  | .invalid => 0 | .open => 1 | .stalled => 2 | .broken => 3 | .closed => 4

/-- A context as 512 bits. -/
def StreamCtx.bits (c : StreamCtx) : Nat :=
  2 ^ 68 * c.holdElapsed.toNat + 2 ^ 84 * c.partCells.toNat + 2 ^ 91 * c.credits.toNat + 2 ^ 107 * c.sticky.toNat +
    2 ^ 115 * c.syncId.toNat + 2 ^ 131 * b2n c.syncEn + 2 ^ 132 * c.cseq.toNat + 2 ^ 164 * c.srStream.toNat +
    2 ^ 196 * c.holdMs.toNat + 2 ^ 212 * c.tseqTail.toNat + 2 ^ 244 * c.tseqHead.toNat + 2 ^ 276 * c.slotCntM1.toNat +
    2 ^ 282 * c.slotSize.toNat + 2 ^ 291 * c.bufBase.toNat + 2 ^ 312 * c.fwd1.bits + 2 ^ 360 * c.fwd0.bits +
    2 ^ 408 * c.consMask.toNat + 2 ^ 488 * c.prodStn.toNat + 2 ^ 508 * b2n c.srcRemote + 2 ^ 509 * scCode c.state

/-- Read the fields of a context that the image sets (those marked Load); the others are 0 and the state OPEN. -/
def readCtxLoad (v : Nat) : StreamCtx :=
  { state := .open, srcRemote := bit v 508, prodStn := BitVec.ofNat 16 (v >>> 488), consMask := BitVec.ofNat 80 (v >>> 408),
    fwd0 := readFwd (v >>> 360), fwd1 := readFwd (v >>> 312), bufBase := BitVec.ofNat 21 (v >>> 291),
    slotSize := BitVec.ofNat 9 (v >>> 282), slotCntM1 := BitVec.ofNat 6 (v >>> 276), holdMs := BitVec.ofNat 16 (v >>> 196),
    srStream := BitVec.ofNat 32 (v >>> 164), syncEn := bit v 131, syncId := BitVec.ofNat 16 (v >>> 115) }

/-- The context of a stream. -/
def ctxOf (s : State) (st : BitVec 20) : StreamCtx := tget {} s.strm.ctx st.toNat

/-- Change the context of a stream. -/
def modCtx (st : BitVec 20) (f : StreamCtx → StreamCtx) (s : State) : State :=
  s.modStrm fun x => { x with ctx := tmod {} x.ctx st.toNat f }

/-- The die that holds a stream's context (R31). -/
def strmDie (st : BitVec 20) : Nat := st.toNat / 2 ^ 18

/-- Ring depth. -/
def StreamCtx.depth (c : StreamCtx) : Nat := c.slotCntM1.toNat + 1

/-- The tile-store place of tile n's slot: die × 2²⁹ + offset (R32). -/
def slotAddr (st : BitVec 20) (c : StreamCtx) (n : BitVec 32) : Nat :=
  strmDie st * 2 ^ 29 + 256 * (c.bufBase.toNat + c.slotSize.toNat * (n.toNat % c.depth))

/-- Forward entry i of a context. -/
def StreamCtx.fwd (c : StreamCtx) (i : Nat) : Fwd := if i = 0 then c.fwd0 else c.fwd1

/-- The state of forward i of a stream. -/
def fwdOf (s : State) (st : BitVec 20) (i : Nat) : FwdState := tget {} s.strm.fwd (st.toNat * 2 + i)

/-- Change the state of forward i of a stream. -/
def modFwd (st : BitVec 20) (i : Nat) (f : FwdState → FwdState) (s : State) : State :=
  s.modStrm fun x => { x with fwd := tmod {} x.fwd (st.toNat * 2 + i) f }

/-- The receive side of a stream. -/
def rxOf (s : State) (st : BitVec 20) : RxState := tget {} s.strm.rx st.toNat

/-- Change the receive side of a stream. -/
def modRx (st : BitVec 20) (f : RxState → RxState) (s : State) : State :=
  s.modStrm fun x => { x with rx := tmod {} x.rx st.toNat f }

/-- The next tile that the consumer of a mask bit releases. -/
def relOf (s : State) (st : BitVec 20) (bit : Nat) : BitVec 32 := tget 0 s.strm.rel (st.toNat * 128 + bit)

/-- How far tile number a is past b, modulo 2³² (R28). -/
def ahead (a b : BitVec 32) : Nat := (a - b).toNat

/-- Number a is later than b (R28). -/
def later (a b : BitVec 32) : Bool := decide (1 ≤ ahead a b) && decide (ahead a b ≤ 2 ^ 31 - 1)

/-- The consumers of a context, as mask bits. -/
def StreamCtx.consumers (c : StreamCtx) : List Nat := setBits c.consMask.toNat 80

/-- The forwards of a context that are not empty. -/
def StreamCtx.forwards (c : StreamCtx) : List Nat := [0, 1].filter fun i => decide ((c.fwd i).kind ≠ 0)

/-- The oldest tile that some consumer has not released or some forward has not finished with (R29, R32). -/
def newTail (s : State) (st : BitVec 20) : BitVec 32 :=
  let c := ctxOf s st
  let xs := c.consumers.map (relOf s st) ++ c.forwards.map fun i => (fwdOf s st i).doneTile
  xs.foldl (fun m x => if ahead x c.tseqTail < ahead m c.tseqTail then x else m) c.tseqHead

/-- A receiving context owes its transmitter a LINK_ACK entry; it stands in the order of its oldest change (R218). -/
def oweAck (st : Nat) (s : State) : State :=
  s.modStrm fun x => if st ∈ x.ackQ then x else { x with ackQ := x.ackQ ++ [st] }

/-- C_max of a ring: the largest cell count of its slots (R221). -/
def StreamCtx.cmax (c : StreamCtx) : Nat := min 64 (ceilDiv (256 * c.slotSize.toNat - 32) 1024)

/-- The job issues in loose mode: LOOSE or CATCHUP (R70, R221). -/
def looseMode (s : State) : Bool := decide (s.job.st = .loose) || decide (s.job.st = .catchup)

/-- n slots of a receiving ring have been freed: in loose mode they are granted (R221). -/
def grantSlots (st : BitVec 20) (n : Nat) (s : State) : State :=
  let c := ctxOf s st
  if n ≠ 0 ∧ c.srcRemote = true ∧ looseMode s = true then oweAck st.toNat (modRx st (fun r => { r with grant := r.grant + n * c.cmax }) s) else s

/-- After a release or the end of a forward: the tail moves up, the freed slots are granted, and the stream closes when
the tile with `EOS` is done with (R29, R36, R221). -/
def retail (st : BitVec 20) (s : State) : State :=
  let t := newTail s st
  grantSlots st (ahead t (ctxOf s st).tseqTail) <|
  modCtx st (fun c =>
    { c with tseqTail := t,
             state := if c.state = .open ∧ t = c.tseqHead ∧ c.sticky &&& flEos ≠ 0 then .closed else c.state }) s

/-- The slot of tile n is free for the producer: every consumer and forward is done with tile n − depth (R29). -/
def slotFree (s : State) (st : BitVec 20) (n : BitVec 32) : Bool := decide (ahead n (ctxOf s st).tseqTail < (ctxOf s st).depth)

/-- Tile n is complete in its slot (R29). -/
def tileReady (s : State) (st : BitVec 20) (n : BitVec 32) : Bool :=
  let c := ctxOf s st
  decide (ahead n c.tseqTail < ahead c.tseqHead c.tseqTail)

/-- The consumer of a mask bit releases tile n: tiles are released in sequence order, so that every earlier one is released with
it, and one that is released stays so (R29; log entry 63, DESIGN CHOICE). -/
def releaseTile (st : BitVec 20) (bit : Nat) (n : BitVec 32) (s : State) : State :=
  if later (n + 1) (relOf s st bit) then retail st (s.modStrm fun x => { x with rel := tset 0 x.rel (st.toNat * 128 + bit) (n + 1) }) else s

/-! ### Sync objects (R37 to R41) -/

/-- A sync object as 64 bits (R37). -/
def SyncObj.bits (o : SyncObj) : Nat :=
  o.count.toNat + 2 ^ 32 * o.thresh.toNat + 2 ^ 48 * o.vector.toNat + 2 ^ 54 * b2n o.notify + 2 ^ 55 * b2n o.sat

/-- Read a sync object's Load fields. -/
def readSync (v : Nat) : SyncObj :=
  { count := BitVec.ofNat 32 v, thresh := BitVec.ofNat 16 (v >>> 32), vector := BitVec.ofNat 6 (v >>> 48), notify := bit v 54 }

/-- The sync object of an identifier. -/
def syncOf (s : State) (o : BitVec 16) : SyncObj := tget {} s.sync o.toNat

/-- Change a sync object. -/
def modSyncObj (o : BitVec 16) (f : SyncObj → SyncObj) (s : State) : State := s.modSync fun t => tmod {} t o.toNat f

/-- The notification condition: raise the vector once and clear `SO.NOTIFY` (R41). -/
def syncNotify (o : BitVec 16) (s : State) : State :=
  let x := syncOf s o
  if x.notify && decide (x.thresh.toNat ≤ x.count.toNat) then
    msix x.vector.toNat (modSyncObj o (fun y => { y with notify := false }) s)
  else s

/-- SIGNAL: add n, saturating; SYNC_SATURATED only when the sum exceeds 0xFFFF_FFFF (R38). -/
def syncAdd (o : BitVec 16) (n src : Nat) (s : State) : State :=
  let sum := (syncOf s o).count.toNat + n
  let s1 := modSyncObj o (fun x => { x with count := addSat x.count n, sat := x.sat || decide (0xFFFFFFFF < sum) }) s
  let s2 := if 0xFFFFFFFF < sum then raise evSyncSaturated src (le 2 o.toNat ++ le 2 src ++ leSat 4 n) s1 else s1
  syncNotify o s2

/-- WAIT and TAKE are satisfied (R38). -/
def syncMet (s : State) (o : BitVec 16) (t : Nat) : Bool := decide (t ≤ (syncOf s o).count.toNat)

/-- TAKE: subtract t (R38). -/
def syncTake (o : BitVec 16) (t : Nat) (s : State) : State :=
  modSyncObj o (fun x => { x with count := BitVec.ofNat 32 (x.count.toNat - t) }) s

end Sys2Proof.Machine
end

