-- ==== Sys2Proof/Machine/Num.lean ====
section
/-!
DEFINITION. Numbers: element formats (R75 to R77), rounding and overflow (R78 to R80), stochastic rounding (R81, R82),
grids and exact carriage (R97, R98), block-scaled outputs (R83, R84), and a tile's elements in storage order (R23, R24).
-/

namespace Sys2Proof.Machine

/-- A value: NaN, an infinity (or ±SAT of an exact sum), or a finite number (−1)^neg × m × 2^e. -/
inductive Val where
  | nan
  | inf (neg : Bool)
  | fin (neg : Bool) (m : Nat) (e : Int)
  deriving DecidableEq, Repr

/-- +0. -/
def Val.zero : Val := .fin false 0 0

/-- The sign of a value; NaN has none. -/
def Val.neg : Val → Bool
  | .nan => false
  | .inf n => n
  | .fin n _ _ => n

/-- The value with its sign changed. -/
def Val.negate : Val → Val
  | .nan => .nan
  | .inf n => .inf !n
  | .fin n m e => .fin (!n) m e

/-- The value is zero of either sign. -/
def Val.isZero : Val → Bool
  | .fin _ m _ => decide (m = 0)
  | _ => false

/-- The value times 2^k. -/
def Val.scale (k : Int) : Val → Val
  | .fin n m e => .fin n m (e + k)
  | v => v

/-- A finite value from an integer and a grid (R98). -/
def Val.ofInt (i g : Int) : Val := .fin (decide (i < 0)) i.natAbs g

/-! ### Formats (R75) -/

/-- The layout of a floating-point element. -/
structure Flt where
  /-- Exponent bits. -/
  eb : Nat
  /-- Mantissa bits. -/
  mb : Nat
  /-- Bias. -/
  bias : Nat
  /-- The format has infinities. -/
  hasInf : Bool
  /-- The format has NaNs. -/
  hasNan : Bool
  /-- The greatest finite encoding. -/
  maxCode : Nat
  /-- The canonical NaN (R77). -/
  nan : Nat
  deriving DecidableEq, Repr

/-- FP32. -/
def fp32 : Flt := ⟨8, 23, 127, true, true, 0x7F7FFFFF, 0x7FC00000⟩

/-- The element type of a format code; none for INT8, the XS formats and reserved codes. -/
def fltOf (f : Nat) : Option Flt :=
  if f = 0x01 then some fp32
  else if f = 0x02 then some ⟨8, 7, 127, true, true, 0x7F7F, 0x7FC0⟩
  else if f = 0x03 then some ⟨5, 10, 15, true, true, 0x7BFF, 0x7E00⟩
  else if f = 0x05 ∨ f = 0x15 then some ⟨4, 3, 7, false, true, 0x7E, 0x7F⟩
  else if f = 0x06 ∨ f = 0x16 then some ⟨5, 2, 15, true, true, 0x7B, 0x7E⟩
  else if f = 0x07 ∨ f = 0x17 then some ⟨3, 2, 3, false, false, 0x1F, 0⟩
  else if f = 0x08 ∨ f = 0x18 then some ⟨2, 3, 1, false, false, 0x1F, 0⟩
  else if f = 0x09 ∨ f = 0x19 then some ⟨2, 1, 1, false, false, 0x7, 0⟩
  else none

/-- The magnitude that an encoding without its sign stands for. -/
def Flt.mag (t : Flt) (c : Nat) : Nat × Int :=
  let ef := c / 2 ^ t.mb
  let m := c % 2 ^ t.mb
  if ef = 0 then (m, 1 - (t.bias : Int) - t.mb) else (m + 2 ^ t.mb, (ef : Int) - t.bias - t.mb)

/-- Read an element (R75, R77). -/
def Flt.read (t : Flt) (c : Nat) : Val :=
  let neg := bit c (t.eb + t.mb)
  let k := c % 2 ^ (t.eb + t.mb)
  if k ≤ t.maxCode then .fin neg (t.mag k).1 (t.mag k).2
  else if t.hasInf && decide (k % 2 ^ t.mb = 0) then .inf neg
  else .nan

/-- The elements of a format are XS (R98). -/
def isXs (f : Nat) : Bool := decide (f = 0x20) || decide (f = 0x21)

/-- Bits of a magnitude of an XS element: 63 or 127. -/
def xsN (f : Nat) : Nat := if f = 0x21 then 127 else 63

/-- Read an XS element on a grid (R98). -/
def xsRead (f c : Nat) (g : Int) : Val :=
  let v := sx (xsN f + 1) c
  if v = -(2 : Int) ^ xsN f then .nan
  else if v = (2 : Int) ^ xsN f - 1 then .inf false
  else if v = -((2 : Int) ^ xsN f - 1) then .inf true
  else .ofInt v g

/-- Read an element of any format; an XS element on its grid. -/
def readElem (f c : Nat) (g : Int) : Val :=
  match fltOf f with
  | some t => t.read c
  | none => if isXs f then xsRead f c g else .ofInt (sx 8 c) 0

/-! ### Rounding (R78 to R82) -/

/-- srcg of R81. -/
def srcg (seed : BitVec 64) (s t : BitVec 32) (i : BitVec 16) : BitVec 32 :=
  let step := fun (p : BitVec 64 × BitVec 64) (_ : Nat) =>
    let x := (p.1 ^^^ p.2) * 0xD1B54A32D192ED03
    (x ^^^ (x >>> 29), p.2 + 0x9E3779B97F4A7C15)
  let k0 := seed ^^^ ((s.setWidth 64) <<< 32) ^^^ s.setWidth 64
  let x0 := ((t.setWidth 64) <<< 16) ||| i.setWidth 64
  ((List.range 4).foldl step (x0, k0)).1.extractLsb' 32 32

/-- m × 2^e as a multiple of 2^q: the whole part and the remainder over 2^d (d = 0 where it is exact). -/
def splitAt (m : Nat) (e q : Int) : Nat × Nat × Nat :=
  if q ≤ e then (m * 2 ^ (e - q).toNat, 0, 0)
  else
    let d := (q - e).toNat
    (m / 2 ^ d, m % 2 ^ d, d)

/-- Round a whole part with its remainder in a mode of R78; r is the random number of SR. -/
def roundPart (mode : Nat) (neg : Bool) (r : Nat) (a rem d : Nat) : Nat :=
  if rem = 0 then a
  else
    let up :=
      if mode = 0 ∨ mode = 1 then decide (2 ^ d < 2 * rem) || (decide (2 * rem = 2 ^ d) && decide (a % 2 = 1))
      else if mode = 3 then !neg
      else if mode = 4 then neg
      else if mode = 5 then decide (r < rem * 2 ^ 32 / 2 ^ d)
      else false
    if up then a + 1 else a

/-- x brought to a multiple of 2^g, to nearest with ties to even (R97). -/
def toGrid (neg : Bool) (m : Nat) (e g : Int) : Int :=
  let p := splitAt m e g
  let a := roundPart 0 neg 0 p.1 p.2.1 p.2.2
  if neg then -(a : Int) else a

/-- ⌊log₂ of m × 2^e⌋ for m ≠ 0. -/
def ilog (m : Nat) (e : Int) : Int := (m.log2 : Int) + e

/-- The magnitude m × 2^e rounded to the precision of a format with unbounded exponent, as a code that continues past
the greatest finite one. -/
def Flt.round (t : Flt) (mode : Nat) (neg : Bool) (r m : Nat) (e : Int) : Nat :=
  if m = 0 then 0
  else
    let qmin := 1 - (t.bias : Int) - t.mb
    let q := max (ilog m e - t.mb) qmin
    let p := splitAt m e q
    (q - qmin).toNat * 2 ^ t.mb + roundPart mode neg r p.1 p.2.1 p.2.2

/-- The code with its sign. -/
def Flt.signed (t : Flt) (neg : Bool) (c : Nat) : Nat := c + 2 ^ (t.eb + t.mb) * b2n neg

/-- A mode in which a format with infinities overflows to infinity for a sign (R79). -/
def overInf (mode : Nat) (neg : Bool) : Bool :=
  decide (mode = 0) || (decide (mode = 3) && !neg) || (decide (mode = 4) && neg)

/-- Write a value in a floating-point format: its code, and whether CONVSAT is set (R77, R79, R80). The result that lies beyond the
largest finite value is the rounded one, as in R79 (log entry 73, DEDUCED). -/
def Flt.write (t : Flt) (mode r : Nat) : Val → Nat × Bool
  | .nan => if t.hasNan then (t.nan, false) else (0, true)
  | .inf n =>
    if t.hasInf && !decide (mode = 1 ∨ mode = 5) then (t.signed n (t.maxCode + 1), false) else (t.signed n t.maxCode, true)
  | .fin n m e =>
    let c := t.round mode n r m e
    if c ≤ t.maxCode then (t.signed n c, false)
    else if t.hasInf && overInf mode n then (t.signed n (t.maxCode + 1), false)
    else (t.signed n t.maxCode, true)

/-- Write a value as INT8 (R79, R80). -/
def int8Write (mode r : Nat) : Val → Nat × Bool
  | .nan => (0, true)
  | .inf n => (if n then 0x80 else 0x7F, true)
  | .fin n m e =>
    let p := splitAt m e 0
    let a : Int := roundPart mode n r p.1 p.2.1 p.2.2
    let i := if n then -a else a
    (((clampI (-128) 127 i) % 256).toNat, decide (i < -128) || decide (127 < i))

/-- FP32 by RNE, as the value it stands for (R93). -/
def toFp32 (v : Val) : Val := fp32.read (fp32.write 0 0 v).1

/-- An exact integer on a grid in XS carriage: the code and whether it saturates (R98). -/
def xsWriteInt (f : Nat) (i : Int) : Nat × Bool :=
  let n := xsN f
  let lim := (2 : Int) ^ n - 2
  if lim < i then (2 ^ n - 1, true)
  else if i < -lim then (2 ^ n + 1, true)
  else ((i % (2 : Int) ^ (n + 1)).toNat, false)

/-- XS code of a tagged integer: SAT and NaN as R98 encodes them. -/
def xsWrite (f : Nat) (tag : AccTag) (i : Int) : Nat × Bool :=
  match tag with
  | .finite => xsWriteInt f i
  | .satPos => (2 ^ xsN f - 1, false)
  | .satNeg => (2 ^ xsN f + 1, false)
  | .nan => (2 ^ xsN f, false)

/-! ### Tags (R89) -/

/-- The join of tags. -/
def AccTag.join : AccTag → AccTag → AccTag
  | .finite, t => t
  | t, .finite => t
  | .satPos, .satPos => .satPos
  | .satNeg, .satNeg => .satNeg
  | _, _ => .nan

/-- What a value contributes: a tag, and an integer on grid g for a finite one (R88, R97). -/
def contrib (v : Val) (g : Int) : AccTag × Int :=
  match v with
  | .nan => (.nan, 0)
  | .inf n => (if n then .satNeg else .satPos, 0)
  | .fin n m e => (.finite, toGrid n m e g)

/-- The exact value of a tagged integer on a grid: ±SAT as ±infinity, zero as +0 (R77, R89, R103). -/
def tagged (t : AccTag) (i g : Int) : Val :=
  match t with
  | .finite => .ofInt i g
  | .satPos => .inf false
  | .satNeg => .inf true
  | .nan => .nan

/-- An integer held in n bits of two's complement: what a register of that width keeps of a sum (log entry 75, DEDUCED). -/
def wrapI (n : Nat) (i : Int) : Int := sx n (i % (2 : Int) ^ n).toNat

/-- A tagged integer whose content leaves n bits of two's complement is ±SAT of its sign; true where that happens
(R89). -/
def satTag (n : Nat) (t : AccTag) (i : Int) : AccTag × Bool :=
  match t with
  | .finite =>
    if (2 : Int) ^ (n - 1) ≤ i then (.satPos, true) else if i < -(2 : Int) ^ (n - 1) then (.satNeg, true) else (.finite, false)
  | t => (t, false)

/-! ### Elements of a tile (R23, R24) -/

/-- Row and column of a storage index. -/
def Shape.rc (t : Shape) (i : Nat) : Nat × Nat := if t.layout = 0 then (i / t.cols, i % t.cols) else (i % t.rows, i / t.rows)

/-- Storage index of a row and column. -/
def Shape.idx (t : Shape) (r c : Nat) : Nat := if t.layout = 0 then r * t.cols + c else c * t.rows + r

/-- The block of a storage index, in block order; place 2 runs along columns (R24). -/
def Shape.blockAt (t : Shape) (place i : Nat) : Nat :=
  let p := t.rc i
  if place = 2 then p.2 * ceilDiv t.rows 32 + p.1 / 32 else p.1 * ceilDiv t.cols 32 + p.2 / 32

/-- The block of a storage index in the tile's own direction. -/
def Shape.block (t : Shape) (i : Nat) : Nat := t.blockAt t.place i

/-- Row and column of the first element of block k in the tile's own direction (R24). -/
def Shape.blockHead (t : Shape) (k : Nat) : Nat × Nat :=
  if t.place = 2 then (k % ceilDiv t.rows 32 * 32, k / ceilDiv t.rows 32) else (k / ceilDiv t.cols 32, k % ceilDiv t.cols 32 * 32)

/-- The number of elements. -/
def Shape.count (t : Shape) : Nat := t.rows * t.cols

/-- The code of element i, packed from bit 0 (R23). -/
def elemCode (w : Nat) (b : Bytes) (i : Nat) : Nat :=
  let o := i * w
  fld (rd b (o / 8) (w / 8 + 1 + (if w % 8 = 0 then 0 else 1))) (o % 8) w

/-- The scale byte of block k (R24). -/
def scaleByte (t : Shape) (b : Bytes) (k : Nat) : Nat := rd b (t.elemLen + k) 1

/-- The grid word of block k (R24). -/
def gridWord (t : Shape) (b : Bytes) (k : Nat) : Nat := rd b (t.elemLen + t.gridOff + 2 * k) 2

/-- The grid of each block or of the whole tile, as an integer (R24, R25). -/
def gridAt (t : Shape) (grid : BitVec 16) (b : Bytes) (i : Nat) : Int :=
  if t.gridMode = 2 then sx 16 (gridWord t b (t.block i)) else if t.gridMode = 1 then sx 16 grid.toNat else 0

/-- Element i as a value: an MX element with its block scale, an XS element on its grid (R77, R98). -/
def elemVal (t : Shape) (grid : BitVec 16) (b : Bytes) (i : Nat) : Val :=
  let v := readElem t.format (elemCode (fmtBits t.format) b i) (gridAt t grid b i)
  if fmtMx t.format then
    let k := scaleByte t b (t.block i)
    if k = 255 then .nan else v.scale ((k : Int) - 127)
  else v

/-- The elements of a tile in storage order. -/
def tileVals (t : Shape) (grid : BitVec 16) (b : Bytes) : List Val := (List.range t.count).map (elemVal t grid b)

/-- Pack codes of w bits from bit 0, and pad to 32 bytes (R23). -/
def packCodes (w : Nat) (cs : List Nat) : Bytes :=
  let n := roundUp (ceilDiv (cs.length * w) 8) 32
  if w % 8 = 0 then padTo n (cs.map (le (w / 8))).flatten
  else le n ((cs.foldl (fun (p : Nat × Nat) c => (p.1 + c * 2 ^ (w * p.2), p.2 + 1)) (0, 0)).1)

/-! ### Block-scaled outputs (R83, R84) -/

/-- emax of an MX format (R83). -/
def emaxOf (f : Nat) : Int := if f = 0x15 then 8 else if f = 0x16 then 15 else if f = 0x17 then 4 else 2

/-- A nonzero finite magnitude's ⌊log₂⌋. -/
def Val.log? : Val → Option Int
  | .fin _ m e => if m = 0 then none else some (ilog m e)
  | _ => none

/-- The scale byte of a block of FP32 values, and whether its exponent was clamped at 0xFE (R83, R84). -/
def blockScale (f : Nat) (vs : List Val) : Nat × Bool :=
  if vs.any fun v => decide (v = .nan) then (255, false)
  else match vs.filterMap Val.log? with
    | [] => (0, false)
    | l :: ls =>
      let x := ls.foldl max l - emaxOf f + 127
      ((clampI 0 254 x).toNat, decide (254 < x))

/-- One element of an MX output (R83, R84): rounded with the word's mode and clamped to the largest finite element. The
code of a NaN, whose block has scale 0xFF, is not given: it is a free value. -/
def mxElem (t : Flt) (mode r scale open_ : Nat) (v : Val) : Nat × Bool :=
  match v with
  | .nan => (open_ % 2 ^ (1 + t.eb + t.mb), false)
  | .inf n => if t.hasInf then (t.signed n (t.maxCode + 1), false) else (t.signed n t.maxCode, true)
  | .fin n m e => (t.signed n (min (t.round mode n r m (e - (scale : Int) + 127)) t.maxCode), false)

/-! ### Output conversion -/

/-- What a word's output conversion needs. -/
structure OutCtx where
  /-- Rounding mode (R78). -/
  mode : Nat
  /-- SR seed of the job. -/
  seed : BitVec 64
  /-- `SC.SR_STREAM` of the output stream. -/
  sr : BitVec 32
  /-- `TH.TSEQ` of the output tile. -/
  tseq : BitVec 32
  deriving DecidableEq, Repr

/-- The random number of element i (R81). -/
def OutCtx.rnd (o : OutCtx) (i : Nat) : Nat := if o.mode = 5 then (srcg o.seed o.sr o.tseq (BitVec.ofNat 16 i)).toNat else 0

/-- Number the elements of a list. -/
def number {α : Type} (l : List α) : List (Nat × α) := (List.range l.length).zip l

/-- Step one of R83: to FP32 with RNE, or with the word's mode where that is 1 to 4. So RNE_SAT makes an infinity finite here (R79),
while under SR it is still infinite in step two, where R84 has it ±infinity in E5M2 (log entry 74, DESIGN CHOICE). -/
def mxFirst (mode : Nat) (v : Val) : Val × Bool :=
  let w := fp32.write (if mode = 5 then 0 else mode) 0 v
  (fp32.read w.1, w.2)

/-- Write an MX tile: its payload and whether CONVSAT is set (R83, R84). -/
def mxWrite (t : Shape) (f : Flt) (o : OutCtx) (vs : List Val) : Bytes × Bool :=
  let first := vs.map (mxFirst o.mode)
  let xs := number (first.map (·.1))
  let scales := (List.range t.blocks).map fun k => blockScale t.format ((xs.filter fun e => decide (t.block e.1 = k)).map (·.2))
  let codes := xs.map fun e => mxElem f o.mode (o.rnd e.1) (scales.getD (t.block e.1) (0, false)).1 (Config.nanElem t.format e.1).toNat e.2
  (packCodes (fmtBits t.format) (codes.map (·.1)) ++ scales.map fun x => BitVec.ofNat 8 x.1,
   first.any (·.2) || scales.any (·.2) || codes.any (·.2))

/-- Write values in a floating-point, MX or INT8 format: the payload without grid words, and CONVSAT (R79, R80, R83). -/
def convert (t : Shape) (o : OutCtx) (vs : List Val) : Bytes × Bool :=
  match fltOf t.format with
  | some f =>
    if fmtMx t.format then mxWrite t f o vs
    else
      let cs := (number vs).map fun e => f.write o.mode (o.rnd e.1) e.2
      (packCodes (fmtBits t.format) (cs.map (·.1)), cs.any (·.2))
  | none =>
    let cs := (number vs).map fun e => int8Write o.mode (o.rnd e.1) e.2
    (packCodes 8 (cs.map (·.1)), cs.any (·.2))

/-- Write tagged integers in an XS format: the element area, and how many elements saturate (R98). -/
def xsPack (f : Nat) (ts : List (AccTag × Int)) : Bytes × Nat :=
  let cs := ts.map fun t => xsWrite f t.1 t.2
  (packCodes (xsN f + 1) (cs.map (·.1)), (cs.filter (·.2)).length)

end Sys2Proof.Machine
end

