-- ==== Sys2Proof/Machine/Engine.lean ====
section
/-!
DEFINITION. The control engines (R256 to R279): descriptors, coefficient sets, the number format, one sample of a loop
or group, gain regions and coefficient swaps, and the Rote tables.
-/

namespace Sys2Proof.Machine

/-! ### Descriptors (R262) -/

/-- A field of a descriptor. -/
def ldf (d : BitVec 256) (lo w : Nat) : Nat := fld d.toNat lo w

/-- `LD.EN`. -/
def ldEn (d : BitVec 256) : Bool := d.getLsbD 255
/-- `LD.RATE`. -/
def ldRate (d : BitVec 256) : Nat := ldf d 253 2
/-- `LD.NSTAGE`. -/
def ldNstage (d : BitVec 256) : Nat := ldf d 250 3
/-- `LD.CTRL`. -/
def ldCtrl (d : BitVec 256) : Nat := ldf d 248 2
/-- `LD.SIGN`. -/
def ldSign (d : BitVec 256) : Bool := d.getLsbD 247
/-- `LD.FF_SRC`. -/
def ldFf (d : BitVec 256) : Nat := ldf d 244 3
/-- `LD.INPUT`. -/
def ldInput (d : BitVec 256) : Nat := ldf d 228 16
/-- `LD.ACT`. -/
def ldAct (d : BitVec 256) : Nat := ldf d 208 16
/-- `LD.GROUP`. -/
def ldGroup (d : BitVec 256) : Nat := ldf d 201 7
/-- `LD.SCHED_SRC`. -/
def ldSched (d : BitVec 256) : Nat := ldf d 185 16
/-- Gain regions. -/
def ldNreg (d : BitVec 256) : Nat := ldf d 182 3 + 1
/-- `LD.SCHED_EXP`. -/
def ldSchedX (d : BitVec 256) : Int := sx 6 (ldf d 176 6)
/-- `LD.HYST`, a mantissa. -/
def ldHyst (d : BitVec 256) : Int := sx 18 (ldf d 158 18)
/-- `LD.ROTE_EN`. -/
def ldRote (d : BitVec 256) : Bool := d.getLsbD 157
/-- `LD.ROTE_SLOT`. -/
def ldSlot (d : BitVec 256) : Nat := ldf d 151 6
/-- `LD.ADVANCE`. -/
def ldAdvance (d : BitVec 256) : Nat := ldf d 141 10
/-- Rote bins N. -/
def ldBins (d : BitVec 256) : Nat := ldf d 131 10 + 1
/-- Boundary B_j, j from 1 to 7. -/
def ldBound (d : BitVec 256) (j : Nat) : Int := sx 18 (ldf d (131 - 18 * j) 18)

/-- Crossings of an index range. -/
def below (i n : Nat) : Bool := decide (i < n)

/-- A sensor or actuator identifier that R454 lists for an engine. -/
def idListed (eng id : Nat) : Bool :=
  let c := id / 4096
  let i := id % 4096
  if eng < 4 then
    match c with
    | 0 => below i 396 | 1 => below i 272 | 2 => below i 3 | 3 => below i 1 | 4 => below i 1 | 5 => below i 512
    | 8 => below i 264 | 9 => below i 132 | 10 => below i 1 | 11 => below i 4 | _ => false
  else if eng = 4 then
    match c with
    | 0 => below i 396 | 1 => below i 1 | 2 => below i 3 | 3 => below i 1 | 4 => below i 1 | 5 => below i 512
    | 10 => below i 1 | 11 => below i 1 | 12 => below i 396 | _ => false
  else
    match c with
    | 2 => below i 6 || (decide (16 ≤ i) && below i 80) | 4 => below i 7 | 5 => below i 512 | 13 => below i 3 | _ => false

/-- A loop of an engine. -/
def loopOf (s : State) (eng l : Nat) : Loop := tget {} s.ce.loops (eng * 512 + l)

/-- Change a loop. -/
def modLoop (eng l : Nat) (f : Loop → Loop) (s : State) : State :=
  s.modCe fun c => { c with loops := tmod {} c.loops (eng * 512 + l) f }

/-- The enabled loops of an engine, with their numbers. -/
def enabledLoops (s : State) (eng : Nat) : List (Nat × Loop) :=
  (s.ce.loops.filter fun e => decide (e.1 / 512 = eng) && ldEn e.2.desc).map fun e => (e.1 % 512, e.2)

/-- The cost of a loop (R259). -/
def loopCost (d : BitVec 256) : Nat := 3 + ldNstage d + b2n (decide (ldCtrl d = 1)) + b2n (ldRote d)

/-- Samples per s of a rate code (R262). -/
def rateHz (r : Nat) : Nat := 1000 * 10 ^ r

/-- The load of a list of descriptors is within both budgets (R259). -/
def budgetOk (ds : List (BitVec 256)) : Bool :=
  decide ((ds.map fun d => rateHz (ldRate d) * loopCost d).sum ≤ 1200000000) &&
    decide (((ds.filter fun d => decide (2 ≤ ldRate d)).map loopCost).sum ≤ 3600)

/-- A descriptor's values are in range, and none is reserved (R262, R339): an integration time no longer than the sample interval, a
hysteresis that is not negative, boundaries that rise. -/
def descRange (d : BitVec 256) : Bool :=
  decide (ldNstage d ≤ 4) && decide (ldCtrl d ≠ 3) && decide (ldf d 224 4 ≤ 4) && decide (ldf d 224 4 + ldRate d ≤ 4) && decide (0 ≤ ldHyst d) &&
    (List.range (ldNreg d - 2)).all fun j => decide (ldBound d (j + 1) ≤ ldBound d (j + 2))

/-- The identifiers that a descriptor names are of its kinds and listed (R262, R454); a loop of one region has no scheduling variable. -/
def descIds (eng : Nat) (d : BitVec 256) : Bool :=
  idListed eng (ldInput d) && decide (ldInput d / 4096 < 6) && idListed eng (ldAct d) && decide (8 ≤ ldAct d / 4096) &&
    (decide (ldNreg d = 1) || (idListed eng (ldSched d) && decide (ldSched d / 4096 < 6)))

/-- A descriptor beside those of the engine's other loops (R262): groups of one rate and actuator and at most four members, no Rote slot that
two enabled loops name, at most 64 loops with a Rote table. -/
def descFits (others : List (BitVec 256)) (d : BitVec 256) : Bool :=
  let mates := others.filter fun o => decide (ldGroup d ≠ 0) && decide (ldGroup o = ldGroup d)
  (mates.all fun o => decide (ldRate o = ldRate d) && decide (ldAct o = ldAct d)) && decide (mates.length ≤ 3) &&
    (!ldRote d || ((others.filter fun o => ldEn o && ldEn d && ldRote o).all fun o => decide (ldSlot o ≠ ldSlot d)) && decide ((others.filter ldRote).length ≤ 63))

/-! ### Numbers (R260) -/

/-- A term (integer, exponent of two) in a 48-bit accumulator whose least significant bit weighs 2^w: rounded to it, and whether it
saturates. -/
def accTerm (w : Int) (t : Int × Int) : Int × Bool :=
  let v := toGrid (decide (t.1 < 0)) t.1.natAbs t.2 w
  (satI 48 v, decide (satI 48 v ≠ v))

/-- Terms summed in such an accumulator, which saturates at every addition (R260). -/
def accSum (w : Int) (ts : List (Int × Int)) : Int × Bool :=
  ts.foldl (fun a t =>
    let v := accTerm w t
    (satI 48 (a.1 + v.1), a.2 || v.2 || decide (satI 48 (a.1 + v.1) ≠ a.1 + v.1))) (0, false)

/-- Terms summed in an accumulator of weight 2^w and rounded to a mantissa of n bits at an exponent, with whether anything saturates (R260;
the weights are log entry 96, DEDUCED). -/
def fixSum (n : Nat) (x w : Int) (ts : List (Int × Int)) : Int × Bool :=
  let a := accSum w ts
  let v := toGrid (decide (a.1 < 0)) a.1.natAbs w x
  (satI n v, a.2 || decide (satI n v ≠ v))

/-- A 6-bit exponent field. -/
def expf (v : BitVec 32) (lo : Nat) : Int := sx 6 (fld v.toNat lo 6)

/-- Exponent of filter stage i. -/
def CoefSet.stageX (c : CoefSet) (i : Nat) : Int := expf c.xf (6 * i)
/-- Exponent of the controller. -/
def CoefSet.ctrlX (c : CoefSet) : Int := expf c.xf 24
/-- Exponent of the Rote term. -/
def CoefSet.roteX (c : CoefSet) : Int := expf c.xo 0
/-- Exponent of the feed-forward. -/
def CoefSet.ffX (c : CoefSet) : Int := expf c.xo 6
/-- Exponent of the output. -/
def CoefSet.outX (c : CoefSet) : Int := expf c.xo 12
/-- Exponent of the first stage of a loop with n filter stages. -/
def CoefSet.firstX (c : CoefSet) (n : Nat) : Int := if n = 0 then c.ctrlX else c.stageX 0

/-- A mantissa as an integer. -/
def mant (b : BitVec 18) : Int := b.toInt

/-- The set of the region in force. -/
def Loop.set (l : Loop) : CoefSet := tget {} l.sets l.region

/-- A mantissa of one stage as one of another. -/
def toStage (m x y : Int) : Int × Bool := fixSum 18 (y - 17) (x - 17) [(m, x - 17)]

/-- Set a flag bit. -/
def flagIf (c : Bool) (b : BitVec 8) (f : BitVec 8) : BitVec 8 := if c then f ||| b else f

/-- One filter stage (R261): the output and whether an accumulation or rounding saturated. -/
def filterStage (c : CoefSet) (i : Nat) (x x1 x2 y1 y2 : Int) : Int × Bool :=
  let k := fun j => mant (c.f.getD (5 * i + j) 0)
  let e := c.stageX i
  fixSum 18 (e - 17) (2 * e - 34) [(k 0 * x, 2 * e - 34), (k 1 * x1, 2 * e - 34), (k 2 * x2, 2 * e - 34), (-(k 3 * y1), 2 * e - 34), (-(k 4 * y2), 2 * e - 34)]

/-- The filter stages from stage i on, for a value at exponent x: the value in the controller's exponent, the loop with
its states moved on, and saturation. -/
def filterRun (c : CoefSet) : Nat → Nat → Int → Int → Loop → Bool → Int × Loop × Bool
  | 0, _, v, x, l, sat =>
    let t := toStage v x c.ctrlX
    (t.1, l, sat || t.2)
  | n + 1, i, v, x, l, sat =>
    let t := toStage v x (c.stageX i)
    let y := filterStage c i t.1 (l.fx1.getD i 0) (l.fx2.getD i 0) (l.fy1.getD i 0) (l.fy2.getD i 0)
    let put := fun (a : List Int) (w : Int) => (padInts a).set i w
    filterRun c n (i + 1) y.1 (c.stageX i)
      { l with fx2 := put l.fx2 (l.fx1.getD i 0), fx1 := put l.fx1 t.1, fy2 := put l.fy2 (l.fy1.getD i 0), fy1 := put l.fy1 y.1 }
      (sat || t.2 || y.2)
where
  /-- Four stage states. -/
  padInts (a : List Int) : List Int := (List.range 4).map fun j => a.getD j 0

/-! ### One sample (R265) -/

/-- The integrator as an integer of 2^(x_c − 34). -/
def Loop.intg (l : Loop) : Int := l.int.toInt

/-- An integrator limit in units of 2^(x_c − 34). -/
def intLim (m : BitVec 18) : Int := mant m * (2 : Int) ^ 17

/-- What a member of a group computes before the minimum is taken. -/
structure Member where
  /-- Loop number. -/
  n : Nat
  /-- The loop after its filters. -/
  l : Loop
  /-- Its set. -/
  c : CoefSet
  /-- Filtered error. -/
  ef : Int
  /-- Ic and whether it was clipped. -/
  ic : Int
  /-- Rote term. -/
  r : Int
  /-- Candidate u. -/
  u : Int
  /-- The unclipped demand lies above or below the limits: 1, −1 or 0. -/
  past : Int
  /-- Flags set so far. -/
  flags : BitVec 8
  deriving DecidableEq, Repr

/-- The terms kp × ef, D, r and ff of a loop, with their exponents: each passes to the output stage, rounded to its exponent (R260). -/
def loopTerms (c : CoefSet) (ef d r ff : Int) : List (Int × Int) :=
  [(mant c.kp * ef, 2 * c.ctrlX - 34), (d, c.ctrlX - 17), (r, c.roteX - 17), (ff, c.ffX - 17)]

/-- The feed-forward state (R265): aff × ff + (1 − aff) × kff × P + cff; a lag coefficient is a fraction in exponent 0
(log entry 11, DEDUCED). -/
def ffNext (c : CoefSet) (ff : Int) (p : Nat) : Int × Bool :=
  let a := mant c.aff
  let x := c.ffX
  fixSum 18 (x - 17) (x - 34) [(a * ff, x - 34), ((131072 - a) * mant c.kff * p, x - 34), (mant c.cff, x - 17)]

/-- The derivative state (R265). -/
def dNext (c : CoefSet) (pid : Bool) (d ef prev : Int) : Int × Bool :=
  let x := c.ctrlX
  if pid then fixSum 18 (x - 17) (x - 34) [(mant c.ad * d, x - 34), (mant c.kd * (ef - prev), 2 * x - 34)] else (0, false)

/-- One member's computation down to u (R265): measurement v and power p; r is its Rote term, off what calibration adds to
its set-point (R280). -/
def member (n : Nat) (l : Loop) (v : Int) (p : Nat) (r off : Int) : Member :=
  let c := l.set
  let m := satI 18 v
  if ldCtrl l.desc = 2 then
    let q := toStage m (c.firstX (ldNstage l.desc)) c.outX
    let u := clampI (mant c.omin) (mant c.omax) q.1
    { n := n, l := { l with meas := BitVec.ofInt 18 m }, c := c, ef := 0, ic := l.intg, r := 0, u := u,
      past := if mant c.omax < q.1 then 1 else if q.1 < mant c.omin then -1 else 0,
      flags := flagIf (decide (u ≠ q.1)) 8 (flagIf q.2 2 (flagIf (decide (m ≠ v)) 1 0)) }
  else
    let e0 := if ldSign l.desc then m - (mant l.sp + off) else mant l.sp + off - m
    let e := satI 18 e0
    let f := filterRun c (ldNstage l.desc) 0 e (c.firstX (ldNstage l.desc)) { l with meas := BitVec.ofInt 18 m } false
    let ef := f.1
    let d := dNext c (decide (ldCtrl l.desc = 1)) l.dSt ef l.efPrev
    let step := fixSum 48 (c.ctrlX - 34) (c.ctrlX - 34) [(l.intg, c.ctrlX - 34), (mant c.ki * ef, 2 * c.ctrlX - 34)]
    let ic := clampI (intLim c.imin) (intLim c.imax) step.1
    let ff := ffNext c l.ffSt p
    let q := fixSum 18 (c.outX - 17) (c.outX - 17) ((ic, c.ctrlX - 34) :: loopTerms c ef d.1 r ff.1)
    let u := clampI (mant c.omin) (mant c.omax) q.1
    { n := n, l := { f.2.1 with dSt := d.1, ffSt := ff.1, satInt := decide (ic ≠ step.1) }, c := c, ef := ef, ic := ic, r := r, u := u,
      past := if mant c.omax < q.1 then 1 else if q.1 < mant c.omin then -1 else 0,
      flags := flagIf (decide (u ≠ q.1)) 8 (flagIf (decide (ic ≠ step.1)) 4
        (flagIf (f.2.2 || d.2 || step.2 || ff.2 || q.2) 2 (flagIf (decide (m ≠ v) || decide (e ≠ e0)) 1 0))) }

/-- A member's candidate is no more than another's: their values, whatever the exponents of their outputs. -/
def Member.noMore (m x : Member) : Bool :=
  let lo := min m.c.outX x.c.outX
  decide (m.u * (2 : Int) ^ (m.c.outX - lo).toNat ≤ x.u * (2 : Int) ^ (x.c.outX - lo).toNat)

/-- The winner: the least candidate, and the lowest loop number when members are equal. -/
def winner : List Member → Option Member
  | [] => none
  | m :: t =>
    match winner t with
    | none => some m
    | some x => if m.noMore x then some m else some x

/-- The bits of an integrator whose value and own exponent are given. -/
def Loop.setInt (l : Loop) (i : Int) : Loop := { l with int := BitVec.ofInt 48 i }

/-- The integrator with which a loop's demand meets an output, given by mantissas that sum in the output exponent: clipped to the limits, whether
the clip takes effect, and whether a sum saturates (R265, R269). -/
def meetOutput (c : CoefSet) (outs : List Int) (ef d r ff : Int) : Int × Bool × Bool :=
  let o := c.outX - 17
  let rest := accSum o (outs.map (fun m => (m, o)) ++ (loopTerms c ef d r ff).map fun t => (-t.1, t.2))
  let t := fixSum 48 (c.ctrlX - 34) (c.ctrlX - 34) [(rest.1, o)]
  let i := clampI (intLim c.imin) (intLim c.imax) t.1
  (i, decide (i ≠ t.1), rest.2 || t.2)

/-- A member after the output is known (R265): its integrator, flags and state. The output and the winner's margin are taken in its own output
exponent. -/
def settle (w : Member) (out slewed : Int) (m : Member) : Loop :=
  let c := m.c
  let own := toStage out w.c.outX c.outX
  let margin := toStage (mant w.c.margin) w.c.outX c.outX
  let win := decide (m.n = w.n)
  let grows := decide (0 < m.past * (mant c.ki * m.ef))
  let lost := meetOutput c [own.1, margin.1] m.ef m.l.dSt m.r m.l.ffSt
  let loser := !win && decide (ldCtrl m.l.desc ≠ 2)
  let i := if ldCtrl m.l.desc = 2 then m.l.intg else if win then (if decide (slewed ≠ 0) || grows then m.l.intg else m.ic) else lost.1
  let flags := flagIf (win && decide (slewed ≠ 0)) 16 (flagIf (loser && lost.2.1) 4 (flagIf (own.2 || (loser && (margin.2 || lost.2.2))) 2 m.flags))
  { m.l.setInt i with
    out := BitVec.ofInt 18 own.1
    win := win
    stale := false
    samples := m.l.samples + 1
    efPrev := m.ef
    demand := m.u
    flags := m.l.flags ||| flags
    satRun := if (flags &&& 12) ≠ 0 then m.l.satRun + 1 else 0 }

/-- A member that holds while another drives the actuator: the output that was applied, in its own exponent (R263, R275;
log entry 99, DEDUCED). -/
def heldBeside (w : Member) (out : Int) (l : Loop) : Loop :=
  { l with out := BitVec.ofInt 18 (toStage out w.c.outX l.set.outX).1, win := false }

/-! ### Regions and swaps (R268, R269) -/

/-- The region that contains v, without hysteresis. -/
def regionOf (d : BitVec 256) (v : Int) : Nat := ((List.range (ldNreg d - 1)).filter fun j => decide (ldBound d (j + 1) ≤ v)).length

/-- The region after a sample's check: at most one step, with hysteresis. -/
def regionNext (d : BitVec 256) (j : Nat) (v : Int) : Nat :=
  if j + 1 < ldNreg d ∧ ldBound d (j + 1) + ldHyst d ≤ v then j + 1
  else if 0 < j ∧ v < ldBound d j - ldHyst d then j - 1
  else j

/-- A loop's states in the exponents of another set: the filter states of each stage, the filtered error, D, the feed-forward, the output and
its demand, and the integrator keep their values (R269). Answers whether a filter state saturates. -/
def reexpress (a b : CoefSet) (l : Loop) : Loop × Bool :=
  let cv := fun (t : List Int) => (List.range 4).map fun i => toStage (t.getD i 0) (a.stageX i) (b.stageX i)
  let x1 := cv l.fx1
  let x2 := cv l.fx2
  let y1 := cv l.fy1
  let y2 := cv l.fy2
  ({ l.setInt (fixSum 48 (b.ctrlX - 34) (b.ctrlX - 34) [(l.intg, a.ctrlX - 34)]).1 with
       fx1 := x1.map (·.1), fx2 := x2.map (·.1), fy1 := y1.map (·.1), fy2 := y2.map (·.1),
       efPrev := (toStage l.efPrev a.ctrlX b.ctrlX).1, dSt := (toStage l.dSt a.ctrlX b.ctrlX).1, ffSt := (toStage l.ffSt a.ffX b.ffX).1,
       out := BitVec.ofInt 18 (toStage (mant l.out) a.outX b.outX).1, demand := (toStage l.demand a.outX b.outX).1 },
   (x1 ++ x2 ++ y1 ++ y2).any (·.2))

/-- The bumpless integrator (R269, R275): what makes the output stay. -/
def bumpless (c : CoefSet) (l : Loop) (r : Int) : Int × Bool × Bool := meetOutput c [mant l.out] l.efPrev l.dSt r l.ffSt

/-- A set comes into force (R269): the loop, and the integrator before and after where the loop was saturated. -/
def swapSet (old new : CoefSet) (r : Int) (l : Loop) : Loop × Option (Int × Int) :=
  let e := reexpress old new l
  let l1 := { e.1 with flags := flagIf e.2 2 l.flags }
  if l.satInt then
    let i := clampI (intLim new.imin) (intLim new.imax) l1.intg
    ({ l1.setInt i with flags := l1.flags ||| 4 }, some (l.intg, i))
  else
    let b := bumpless new l1 r
    ({ l1.setInt b.1 with flags := flagIf b.2.2 2 (flagIf b.2.1 4 l1.flags), satInt := b.2.1 }, none)

/-! ### Rote tables (R271 to R273) -/

/-- A Rote table. -/
def roteOf (s : State) (eng slot : Nat) : Rote := tget {} s.ce.rote (eng * 64 + slot)

/-- Change a Rote table. -/
def modRote (eng slot : Nat) (f : Rote → Rote) (s : State) : State :=
  s.modCe fun c => { c with rote := tmod {} c.rote (eng * 64 + slot) f }

/-- The bin of a fabric time, none in the extension of a stretched period (R271). -/
def roteBin (s : State) (n : Nat) : Option Nat :=
  match s.job.image with
  | none => none
  | some i =>
    let d := (s.tm.ft - s.job.tb).toNat
    let p := 64 * i.periodNs.toNat
    if d < p then some (d * n / p) else none

/-- A table's term applies in this sample: the job is STRICT, and the table is seeded, preloaded, or past its first
eight STRICT periods (R272, R273). -/
def roteOn (s : State) (eng : Nat) (d : BitVec 256) : Bool :=
  ldRote d && decide (s.job.st = .strict) && (decide ((roteOf s eng (ldSlot d)).src ≠ .empty) || decide (8 < s.job.strictPeriods))

/-- The Rote term r of a loop (R271). -/
def roteTerm (s : State) (eng : Nat) (d : BitVec 256) : Int :=
  if roteOn s eng d then
    match roteBin s (ldBins d) with
    | some k => tget 0 (roteOf s eng (ldSlot d)).bins k
    | none => 0
  else 0

/-- The Rote update of a sample (R271): the first sample of the period in bin j learns into bin j − a. -/
def roteUpdate (eng : Nat) (m : Member) (s : State) : State :=
  let d := m.l.desc
  if !roteOn s eng d then s
  else match roteBin s (ldBins d) with
    | none => s
    | some j =>
      let t := roteOf s eng (ldSlot d)
      if j ∈ t.done then s
      else
        let n := ldBins d
        let k := (j + (n - ldAdvance d % n)) % n
        let x := m.c.roteX
        let v := fixSum 18 (x - 17) (x - 34) [(mant m.c.roteQ * tget 0 t.bins k, 2 * x - 34), (mant m.c.roteL * m.ef, x + m.c.ctrlX - 34)]
        let s1 := modRote eng (ldSlot d) (fun t => { t with bins := tset 0 t.bins k v.1, done := j :: t.done, src := if t.src = .empty then .learnt else t.src }) s
        if v.2 then modLoop eng m.n (fun l => { l with flags := l.flags ||| 2 }) s1 else s1

/-! ### Sensors -/

/-- The lane whose sensor an identifier names, for classes 0 and 1 of CE0 to CE3, and whether it is the received one
(R454). -/
def laneOfSensor (eng id : Nat) : Option (Nat × Nat × Bool) :=
  let i := id % 4096
  if eng < 4 ∧ ((id / 4096 = 0 ∧ i < 396) ∨ (id / 4096 = 1 ∧ i < 264)) then some (4 * eng + i % 132 / 33, i % 33, decide (132 ≤ i) && decide (i < 264)) else none

/-- A sensor belongs to a lane in calibration (R275, R289). -/
def sensorStale (s : State) (eng id : Nat) : Bool :=
  match laneOfSensor eng id with
  | some (f, k, rx) => if rx then rxCal s f k else (tget {} s.opt.lanes (f * 33 + k)).cal
  | none => false

/-- The output of a loop as a mantissa of an exponent (class 5 of R262). -/
def outputAs (s : State) (eng n : Nat) (x : Int) : Int :=
  let o := loopOf s eng n
  (toStage (mant o.out) o.set.outX x).1

/-- A whole number as a mantissa of an exponent, rounded down. -/
def wholeAt (x v : Int) : Int := if x ≤ 17 then v * (2 : Int) ^ (17 - x).toNat else v / (2 : Int) ^ (x - 17).toNat

/-- The reading of a loop: a sensor's, or the output of another loop of the engine in this loop's first exponent. A booster's output, the
fibre's total launch, is at most +17.0 dBm (R140). -/
def reading (s : State) (eng : Nat) (l : Loop) (v : Int) : Int :=
  let x := l.set.firstX (ldNstage l.desc)
  let id := ldInput l.desc
  if id / 4096 = 5 then outputAs s eng (id % 4096) x
  else if eng < 4 ∧ id / 4096 = 1 ∧ 264 ≤ id % 4096 ∧ id % 4096 < 268 then min v (wholeAt x 17)
  else v

/-- The plausible readings of a sensor, in its unit (R455): dBm, °C, GHz, W, A or V. -/
def plausibleRange (eng id : Nat) : Option (Int × Int) :=
  let i := id % 4096
  match id / 4096 with
  | 1 => some (-45, 20)
  | 2 => some (-20, 130)
  | 3 => some (-5, 5)
  | 4 => some (if eng < 4 then (0, 1000) else if eng = 4 then (0, 100) else if i = 0 then (0, 4200) else if i = 1 then (0, 120) else if i = 2 then (0, 62) else (0, 1000))
  | _ => none

/-- A reading m in exponent x lies outside its sensor's plausible range (R455). -/
def implausible (eng id : Nat) (x m : Int) : Bool :=
  match plausibleRange eng id with
  | some (lo, hi) =>
    let v := m * (2 : Int) ^ (x + 32).toNat
    decide (v < lo * (2 : Int) ^ (49 : Nat)) || decide (hi * (2 : Int) ^ (49 : Nat) < v)
  | none => false

/-- The scheduling value of a loop, in the exponent of its boundaries: a sensor's reading, or another loop's output (R262, R268). -/
def schedOf (s : State) (eng : Nat) (d : BitVec 256) (v : Int) : Int :=
  if ldSched d / 4096 = 5 then outputAs s eng (ldSched d % 4096) (ldSchedX d) else v

/-- P[`LD.FF_SRC`] in units of 0.5 W: of the phase that the engine has selected while the Bell grid runs, else as
measured (R262, R274). -/
def powerOf (s : State) (eng src : Nat) : Nat :=
  if src = 0 then 0
  else match s.job.image with
    | some i =>
      match i.phases[tget 0 s.job.pphase eng - 1]? with
      | some p =>
        if tget 0 s.job.pphase eng = 0 then 0
        else if src ≤ 4 then p.c.getD (src - 1) 0 else if src = 5 then p.lpddr else if src = 6 then p.photonics else p.c.sum + p.lpddr + p.photonics
      | none => 0
    | none => tget 0 s.ce.measP src

/-! ### Ring heater offsets (R280, R290) -/

/-- The set and the item that a ring heater loop's offset belongs to: the loop's actuator names the ring (R454). -/
def ringOfLoop (eng : Nat) (d : BitVec 256) : Option (Nat × Nat) :=
  let i := ldAct d % 4096
  if eng < 4 ∧ ldAct d / 4096 = 8 ∧ i < 264 then
    some (if i < 132 then (calKey 0 (4 * eng + i / 33) (i % 33), 7) else (calKey 1 (4 * eng + (i - 132) / 33) (i % 33), 4))
  else none

/-- What the ring's offset in force adds to the loop's set-point; the loop's unit for 1 MHz is not given (log entry 17, DESIGN CHOICE). -/
def ringShift (s : State) (eng : Nat) (d : BitVec 256) : Int :=
  match ringOfLoop eng d with
  | some (key, item) =>
    let v := ((calSet s key).inForce).getD item 0
    if v = 0 then 0 else Config.ringShift v
  | none => 0

/-- A ring offset that is due comes into force at the loop's sample (R290). -/
def ringApply (eng : Nat) (d : BitVec 256) (s : State) : State :=
  match ringOfLoop eng d with
  | some (key, item) => calApply key [item] s
  | none => s

/-! ### The sample of a group -/

/-- The engine as a source of records: its own station (R18, R399). -/
def ceSrc (eng : Nat) : Nat := ceDie eng * 4096 + 7 * 256 + eng

/-- What was accepted since the last sample takes effect (R257, R267, R270). -/
def Loop.accepted (l : Loop) : Loop :=
  { l with sp := l.spNew.getD l.sp, spNew := none, sets := l.setsNew.foldr (fun e t => tset {} t e.1 e.2) l.sets, setsNew := [] }

/-- Apply what was accepted since the last sample, then the region change and the swap (R267 to R270): one set at most comes into force. -/
def preSample (eng n : Nat) (sched : Int) (s : State) : State :=
  let l0 := loopOf s eng n
  let l1 := l0.accepted
  let v := schedOf s eng l1.desc sched
  let old := l0.set
  if l1.fresh then modLoop eng n (fun _ => { l1 with region := regionOf l1.desc v, fresh := false }) s
  else
    let j := regionNext l1.desc l1.region v
    let swap := decide (j ≠ l1.region) || l0.setsNew.any fun e => decide (e.1 = j)
    let w := if swap then swapSet old (tget {} l1.sets j) (roteTerm s eng l1.desc) l1 else (l1, none)
    let s1 := modLoop eng n (fun _ => { w.1 with region := j }) s
    let s2 := if j ≠ l1.region then raise evLoopRegionChanged (ceSrc eng) (le 1 eng ++ le 2 n ++ le 1 l1.region ++ le 1 j ++ leInt 4 v) s1 else s1
    match w.2 with
    | some (a, b) => raise evLoopSwapSaturated (ceSrc eng) (le 1 eng ++ le 2 n ++ leInt 8 a ++ leInt 8 b) s2
    | none => s2

/-- A loop comes back to work with its integrator set bumpless (R275). -/
def resumeLoop (s : State) (eng : Nat) (l : Loop) : Loop :=
  let b := bumpless l.set l (roteTerm s eng l.desc)
  { l.setInt b.1 with flags := flagIf b.2.2 2 (flagIf b.2.1 4 l.flags) }

/-- A loop holds at this sample: its sensor is stale, or a fault stands (R275). Answers the state with the counts of bad and good samples moved
on; a fault is raised at the sixteenth bad sample, and ends bumpless after sixteen good. `rail`: the sensor reads at its rail. -/
def sensorCheck (eng n : Nat) (v : Int) (rail : Bool) (s : State) : Bool × State :=
  let l := loopOf s eng n
  let id := ldInput l.desc
  if sensorStale s eng id then (true, modLoop eng n (fun l => { l with stale := true, samples := l.samples + 1 }) s)
  else
    let l1 : Loop := if l.stale then { resumeLoop s eng l with stale := false } else l
    let atRail := (rail || decide (v ≤ -131072) || decide (131071 ≤ v)) && decide (id / 4096 ≠ 5)
    let bad := atRail || implausible eng id (l.set.firstX (ldNstage l.desc)) v
    let l2 : Loop := { l1 with flags := flagIf atRail 1 l1.flags }
    let held := fun (x : Loop) => { x with meas := BitVec.ofInt 18 (satI 18 v), samples := x.samples + 1 }
    if bad then
      let k : Nat := l2.badRun + 1
      let stop := l2.faulted || decide (16 ≤ k)
      let l3 : Loop := { l2 with badRun := k, goodRun := 0, faulted := stop }
      let s1 := modLoop eng n (fun _ => if stop then held l3 else l3) s
      let s2 := if decide (k = 16) && !l2.faulted then
          raise evSensorFault (ceSrc eng) (le 1 eng ++ le 2 n ++ le 4 id ++ leInt 4 v) s1
        else s1
      (stop, s2)
    else if l2.faulted then
      let k := l2.goodRun + 1
      if 16 ≤ k then (false, modLoop eng n (fun _ => { resumeLoop s eng l2 with badRun := 0, goodRun := 0, faulted := false }) s)
      else (true, modLoop eng n (fun _ => held { l2 with badRun := 0, goodRun := k }) s)
    else (false, modLoop eng n (fun _ => { l2 with badRun := 0, goodRun := 0 }) s)

/-- The loops that sample together: a group, or the loop alone. -/
def groupOf (s : State) (eng n : Nat) : List Nat :=
  let g := ldGroup (loopOf s eng n).desc
  if g = 0 then [n] else ((enabledLoops s eng).filter fun e => decide (ldGroup e.2.desc = g)).map (·.1)

/-- LOOP_SATURATED after 1,000 consecutive samples in saturation (R279). -/
def noteSat (eng n : Nat) (s : State) : State :=
  let l := loopOf s eng n
  if l.satRun ≠ 0 ∧ l.satRun % 1000 = 0 then
    raise evLoopSaturated (ceSrc eng) (le 1 eng ++ le 2 n ++ le 1 l.flags.toNat ++ leSat 4 l.satRun) s
  else s

/-- The output applied by a winner (R265): its candidate within the slew limit of the previous output, and the part
that the limit takes off. -/
def slewOut (w : Member) : Int × Int :=
  let p := mant w.l.out
  let k := mant w.c.slew
  let o := clampI (p - k) (p + k) w.u
  (o, w.u - o)

/-- The change of a group's winner (R279). -/
def noteWinner (eng g n : Nat) (out : Int) (s : State) : State :=
  let old := tget 0 s.ce.winners (eng * 128 + g)
  if g = 0 ∨ old = n + 1 then s
  else
    let s1 := s.modCe fun c => { c with winners := tset 0 c.winners (eng * 128 + g) (n + 1) }
    if old = 0 then s1 else raise evMinselWinnerChanged (ceSrc eng) (le 1 eng ++ le 1 g ++ le 2 (old - 1) ++ le 2 n ++ leInt 8 out) s1

/-- A CE4 loop that drives a crosspoint slot, which holds two crosspoints in alternate samples (R256). -/
def isSlot (eng : Nat) (d : BitVec 256) : Bool := decide (eng = 4) && decide (ldAct d / 4096 = 12)

/-- A slot turns to its other crosspoint: descriptor, flags, count of samples and instant are the loop's, every other state is the
crosspoint's (R256; log entry 100, DEDUCED). -/
def otherCrosspoint (n : Nat) (s : State) : State :=
  let a := loopOf s 4 n
  let b := tget {} s.ce.alt n
  (modLoop 4 n (fun _ => { b with desc := a.desc, flags := a.flags, samples := a.samples, inst := a.inst, bank := !a.bank }) s).modCe fun c =>
    { c with alt := tset {} c.alt n a }

/-- The interval between the samples of a rate, in 1/64 ns. -/
def sampleInterval (d : BitVec 256) : Nat := 64000000000 / rateHz (ldRate d)

/-- The sample instant that has come last: fabric times that are multiples of 1/r (R258). -/
def instant (s : State) (d : BitVec 256) : Nat := s.tm.ft.toNat / sampleInterval d

/-- A loop is serviced before another at one tick: 1 MHz loops in index order, then 100 kHz loops in index order, then the rest (R258). -/
def servedBefore (e x : Nat × Loop) : Bool :=
  let a := ldRate e.2.desc
  let b := ldRate x.2.desc
  decide (2 ≤ a) && (decide (b < a) || (decide (a = b) && decide (e.1 < x.1)))

/-- A loop's sample is due and its turn has come: its instant has not been serviced, and every loop before it has been at its own (R258). -/
def sampleTurn (s : State) (eng n : Nat) : Bool :=
  let l := loopOf s eng n
  decide (l.inst ≠ some (instant s l.desc)) &&
    (enabledLoops s eng).all fun e => !servedBefore e (n, l) || decide (e.2.inst = some (instant s e.2.desc))

/-- One sample of a loop or of its group (R258 to R275): readings, scheduling values and readings at the sensor's rail of the members in the
order of their numbers. A sample that was not serviced holds the output (R259). -/
def loopSample (eng n : Nat) (vs scheds : List Int) (rails : List Nat) (missed : Bool) (s : State) : State :=
  let ns := groupOf s eng n
  let s0 := ns.foldl (fun t m =>
    let u := modLoop eng m (fun l => { l with inst := some (instant s l.desc) }) t
    if isSlot eng (loopOf s eng m).desc then otherCrosspoint m u else u) s
  if missed then
    raise evCeSampleMissed (ceSrc eng) (le 1 eng ++ le 2 n ++ le 8 s.tm.ft.toNat) s0
  else
    let nums := number ns
    let s1 := nums.foldl (fun t e => preSample eng e.2 (scheds.getD e.1 0) (ringApply eng (loopOf t eng e.2).desc t)) s0
    let chk := nums.foldl (fun (p : List Nat × State) e =>
      let r := sensorCheck eng e.2 (reading p.2 eng (loopOf p.2 eng e.2) (vs.getD e.1 0)) (decide (e.1 ∈ rails)) p.2
      (if r.1 then p.1 else p.1 ++ [e.1], r.2)) ([], s1)
    let s2 := chk.2
    let ms := (nums.filter fun e => decide (e.1 ∈ chk.1)).map fun e =>
      let l := loopOf s2 eng e.2
      member e.2 l (reading s2 eng l (vs.getD e.1 0)) (powerOf s2 eng (ldFf l.desc)) (roteTerm s2 eng l.desc) (ringShift s2 eng l.desc)
    match winner ms with
    | none => s2
    | some w =>
      let o := slewOut w
      let s3 := ms.foldl (fun t m => noteSat eng m.n (roteUpdate eng m (modLoop eng m.n (fun _ => settle w o.1 o.2 m) t))) s2
      let s4 := (nums.filter fun e => !decide (e.1 ∈ chk.1)).foldl (fun t e => modLoop eng e.2 (heldBeside w o.1) t) s3
      emit .actuator (eng * 65536 + ldAct w.l.desc) (leInt 4 o.1 ++ (if isSlot eng w.l.desc then le 1 (b2n w.l.bank) else []))
        (noteWinner eng (ldGroup w.l.desc) w.n o.1 s4)

/-! ### The allowance (R256, R386) -/

/-- The loop of CE5 that won the group driving an allowance stage: 0 J, 1 K, 2 P (R454). -/
def stageWinner (s : State) (stage : Nat) : Option (Nat × Loop) :=
  (enabledLoops s 5).find? fun e => decide (ldAct e.2.desc = 0xD000 + stage) && e.2.win

/-- The allowance in W: the output of group P; none while no loop drives it. -/
def allowance (s : State) : Option Nat :=
  (stageWinner s 2).map fun e => (fixSum 64 0 (e.2.set.outX - 17) [(mant e.2.out, e.2.set.outX - 17)]).1.toNat

/-- A loop of group J is the winner of group P: the pass-throughs of P and of K have won (R388). -/
def junctionWon (s : State) : Bool :=
  match stageWinner s 2 with
  | none => false
  | some p =>
    if ldInput p.2.desc / 4096 ≠ 5 then false
    else
      let k := loopOf s 5 (ldInput p.2.desc % 4096)
      let kw := (stageWinner s 1).map (·.2)
      if ldAct k.desc = 0xD000 then true
      else match kw with
        | some w => decide (ldInput w.desc / 4096 = 5) && decide (ldAct (loopOf s 5 (ldInput w.desc % 4096)).desc = 0xD000)
        | none => false

/-- The power cap and the input-current limit become the set-points of group P's loops at their next sample (R387). -/
def capPoints (w a : Nat) (s : State) : State :=
  (enabledLoops s 5).foldl (fun t e =>
    let put := fun (v : Nat) => modLoop 5 e.1 (fun l => { l with spNew := some (BitVec.ofInt 18 (fixSum 18 (l.set.firstX (ldNstage l.desc) - 17) 0 [(v, 0)]).1) }) t
    if ldAct e.2.desc = 0xD002 then (if ldInput e.2.desc = 0x4000 then put w else if ldInput e.2.desc = 0x4001 then put a else t) else t) s

/-- CE5 restarts with SV in a warm start (R278): its loops begin again from descriptors and sets, integrators at
`CS.IMAX`. -/
def ce5Restart (s : State) : State :=
  s.modCe fun c =>
    { c with loops := c.loops.map fun e =>
        if e.1 / 512 = 5 then
          let l := e.2
          (e.1, { desc := l.desc, sets := l.accepted.sets, sp := l.accepted.sp, flags := l.flags, int := BitVec.ofInt 48 (intLim (tget {} l.accepted.sets 0).imax), fresh := true })
        else e }

/-! ### Rote tables through a job (R273) -/

/-- The enabled loop that uses a Rote slot with N bins. -/
def roteUser (s : State) (eng slot n : Nat) : Bool :=
  (enabledLoops s eng).any fun e => ldRote e.2.desc && decide (ldSlot e.2.desc = slot) && decide (ldBins e.2.desc = n)

/-- A table filled from a seed or a saved table. -/
def roteFill (src : RoteSrc) (dig : BitVec 384) (r : RoteSeed) : Rote :=
  { bins := tsets 0 [] 0 (r.bins.map mant), src := src, digest := dig }

/-- Job load invalidates the tables and fills those that have a seed (R273, R460). -/
def roteLoadJob (i : Image) (s : State) : State :=
  let used := (s.ce.rote.filter fun e => decide (e.2.src ≠ .empty)).length
  let seeds := i.rote.filter fun r => roteUser s r.engine r.slot r.bins.length
  let s1 := seeds.foldl (fun t r => modRote r.engine r.slot (fun _ => roteFill .seed i.digest r) t) (s.modCe fun c => { c with rote := [] })
  let s2 := s1.modCe fun c => { c with loops := c.loops.map fun e => (e.1, { e.2 with roteAge := 0 }) }
  raise evRoteInvalidated srcSv (leSat 4 used ++ leSat 4 seeds.length) s2

/-- The codes of ROTE_ACTIVE's source (R459). -/
def roteSrcCode : RoteSrc → Nat
  | .empty => 0 | .seed => 1 | .preload => 2 | .learnt => 3

/-- The start of a STRICT period: the bins may learn again; a table that becomes active is recorded; ages count from
there (R273). -/
def rotePeriod (s : State) : State :=
  let s0 := (s.modJob fun j => { j with strictPeriods := j.strictPeriods + 1 }).modCe fun c =>
    { c with rote := c.rote.map fun e => (e.1, { e.2 with done := [] }) }
  (List.range 6).foldl (fun t eng => (enabledLoops t eng).foldl (fun t e =>
    if !roteOn t eng e.2.desc then t
    else
      let r := roteOf t eng (ldSlot e.2.desc)
      let t1 := if r.active then t else
        raise evRoteActive (ceSrc eng) (le 1 eng ++ le 2 (ldSlot e.2.desc) ++ le 1 (if r.src = .empty then 3 else roteSrcCode r.src))
          (modRote eng (ldSlot e.2.desc) (fun r => { r with active := true, src := if r.src = .empty then .learnt else r.src }) t)
      modLoop eng e.1 (fun l => { l with roteAge := if r.active then addSat l.roteAge 1 else 0 }) t1) t) s0

/-! ### Reach of the engines (R257) -/

/-- A command to CE0 to CE4 travels through a Prefect (R257); none while no Prefect is accepted. -/
def ceReach (s : State) (eng : Nat) : Bool := decide (eng = 5) || !s.pfx.noAccepted

end Sys2Proof.Machine
end

