-- ==== Sys2Proof/Machine/Image.lean ====
section
/-!
DEFINITION. The Timetable image: its header and sections (R47, R48, R460, R464), issue words (R52 to R55), and the
expansion of REPEAT (R54).
-/

namespace Sys2Proof.Machine

/-! ### Header and section table -/

/-- One entry of the section table (R48). -/
structure Sect where
  /-- Section type. -/
  ty : Nat
  /-- Station identifier, or 0xFFFF. -/
  stn : Nat
  /-- Byte offset. -/
  off : Nat
  /-- Length in bytes. -/
  len : Nat
  deriving DecidableEq, Repr

/-- Entry i of the section table (R48). -/
def sectAt (b : Bytes) (i : Nat) : Sect :=
  let o := 256 + 16 * i
  ⟨rd b o 2, rd b (o + 2) 2, rd b (o + 4) 8, rd b (o + 12) 4⟩

/-- `GTT.NSECT`. -/
def nsect (b : Bytes) : Nat := rd b 128 2

/-- The section table. -/
def sects (b : Bytes) : List Sect := (List.range (nsect b)).map (sectAt b)

/-- The bytes of a section. -/
def Sect.bytes (b : Bytes) (x : Sect) : Bytes := part b x.off x.len

/-- Sections of a type. -/
def sectsOf (b : Bytes) (ty : Nat) : List Sect := (sects b).filter fun x => decide (x.ty = ty)

/-- No number occurs twice. -/
def noDup (l : List Nat) : Bool := decide (l.eraseDups.length = l.length)

/-- Two ranges do not overlap. -/
def apart (a n b m : Nat) : Bool := decide (a + n ≤ b) || decide (b + m ≤ a)

/-- Every pair of a list passes. -/
def pairwise {α : Type} (f : α → α → Bool) : List α → Bool
  | [] => true
  | a :: t => t.all (f a) && pairwise f t

/-- The lengths of the entries of a Rote seed section follow its headers (R460). -/
def roteLens : Nat → Bytes → Bool
  | 0, b => b.isEmpty
  | f + 1, b =>
    if b.isEmpty then true
    else
      let n := rd b 2 2
      if decide (b.length < 8) || decide (n = 0) || decide (1024 < n) || decide (b.length < 8 + 4 * n) then false else roteLens f (b.drop (8 + 4 * n))

/-- The entries of a Rote seed section (R460). -/
def roteSeeds : Nat → Bytes → List RoteSeed
  | 0, _ => []
  | f + 1, b =>
    if b.length < 8 then []
    else
      let n := rd b 2 2
      { engine := rd b 0 1, slot := rd b 1 1, bins := (List.range n).map fun i => BitVec.ofNat 18 (rd b (8 + 4 * i) 4) } ::
        roteSeeds f (b.drop (8 + 4 * n))

/-- The length of a section obeys its type's entry size and limit (R48, R460). -/
def sectLenOk (b : Bytes) (x : Sect) : Bool :=
  let n := x.len
  match x.ty with
  | 1 => decide (n % 16 = 0) && decide (n ≤ 16 * 16384)
  | 2 => decide (n % 16 = 0) && decide (n ≤ 16 * 63)
  | 3 => decide (n % 72 = 0)
  | 4 => decide (n % 16 = 0)
  | 5 => decide (n % 16 = 0) && decide (n ≤ 16 * 4096) && decide (stnKind (BitVec.ofNat 16 x.stn) = 4)
  | 6 => decide (n % 16 = 0) && decide (n ≤ 16 * 1024)
  | 7 => true
  | 8 => decide (16 ≤ n) && decide (1 ≤ rd (x.bytes b) 0 1) && decide (rd (x.bytes b) 0 1 ≤ 64) && decide (n = 16 + 16 * rd (x.bytes b) 0 1)
  | 9 => roteLens n (x.bytes b) &&
      noDup ((roteSeeds n (x.bytes b)).map fun r => r.engine * 64 + r.slot)
  | _ => false

/-- Identifiers that a table's sections name, with the die of each: at most the limit on every die (R48). -/
def dieLimit (lim sh : Nat) (ids : List Nat) : Bool :=
  (List.range 4).all fun d => decide ((ids.filter fun i => decide (i / 2 ^ sh = d)).length ≤ lim)

/-- The identifiers that the context sections name. -/
def ctxIds (b : Bytes) : List Nat :=
  ((sectsOf b 3).map fun x => (List.range (x.len / 72)).map fun i => rd b (x.off + 72 * i) 4).flatten

/-- The identifiers that the sync sections name. -/
def syncIds (b : Bytes) : List Nat :=
  ((sectsOf b 4).map fun x => (List.range (x.len / 16)).map fun i => rd b (x.off + 16 * i) 2).flatten

/-- Check 1 of R69. -/
def formatOk (b : Bytes) : Bool :=
  decide (256 ≤ b.length) && decide (rd b 0 4 = 0x31545447) && decide (rd b 4 2 = 1) &&
  decide (1 ≤ nsect b) && decide (nsect b ≤ 4096) && decide (256 + 16 * nsect b ≤ b.length) &&
  (sects b).all (fun x => decide (x.off % 64 = 0) && decide (256 + 16 * nsect b ≤ x.off) && decide (x.off + x.len ≤ b.length) && sectLenOk b x) &&
  pairwise (fun x y => apart x.off x.len y.off y.len) (sects b) &&
  [1, 2, 5].all (fun t => noDup ((sectsOf b t).map (·.stn))) &&
  [7, 8, 9].all (fun t => decide ((sectsOf b t).length ≤ 1)) &&
  decide (((sectsOf b 6).map fun x => x.len / 16).sum ≤ 1024) &&
  dieLimit 262144 18 (ctxIds b) && dieLimit 16384 14 (syncIds b)

/-! ### Reading the sections -/

/-- The words of a program section. -/
def words (b : Bytes) : List (BitVec 128) := (List.range (b.length / 16)).map fun i => BitVec.ofNat 128 (rd b (16 * i) 16)

/-- Read a binding entry (R464). -/
def readBinding (b : Bytes) : Binding :=
  { stream := BitVec.ofNat 20 (rd b 0 4), format := BitVec.ofNat 8 (rd b 4 1), layout := BitVec.ofNat 2 (rd b 5 1),
    scalePlace := BitVec.ofNat 2 (rd b 5 1 / 4), gridMode := BitVec.ofNat 2 (rd b 5 1 / 16), rowsM1 := BitVec.ofNat 9 (rd b 6 2),
    colsM1 := BitVec.ofNat 9 (rd b 8 2) }

/-- Read a Recess window (R67). -/
def readWin (b : Bytes) : RecessWin :=
  { stn := BitVec.ofNat 16 (rd b 0 2), kind := BitVec.ofNat 16 (rd b 2 2), start := rd b 4 4, len := rd b 8 4 }

/-- Read a power phase (R460). -/
def readPhase (b : Bytes) : PowerPhase :=
  { start := rd b 0 4, c := (List.range 4).map fun i => rd b (4 + 2 * i) 2, lpddr := rd b 12 2, photonics := rd b 14 2 }

/-- Read the slot table (R206): a header of 16 bytes, the configuration entries of 64 bytes and one byte per slot. -/
def readSlots (b : Bytes) : SlotTable :=
  let n := rd b 0 2
  let m := rd b 2 1
  { nslot := n, confs := (List.range m).map fun i => BitVec.ofNat 512 (rd b (16 + 64 * i) 64),
    slots := (List.range n).map fun i => rd b (16 + 64 * m + i) 1 }

/-- The image as the module reads it once its format is sound. -/
def readImage (b : Bytes) : Image :=
  { version := BitVec.ofNat 16 (rd b 4 2), module := BitVec.ofNat 16 (rd b 6 2), mprof := BitVec.ofNat 384 (rd b 8 48),
    fprof := BitVec.ofNat 384 (rd b 56 48), oppoint := BitVec.ofNat 8 (rd b 104 1), memTceil := BitVec.ofNat 8 (rd b 105 1),
    stretchLead := BitVec.ofNat 16 (rd b 106 2), periodNs := BitVec.ofNat 32 (rd b 108 4), stretchNs := BitVec.ofNat 32 (rd b 112 4),
    endCc := BitVec.ofNat 32 (rd b 116 4), periodCount := BitVec.ofNat 64 (rd b 120 8),
    programs := (sectsOf b 1).map fun x => (BitVec.ofNat 16 x.stn, words (x.bytes b)),
    binds := (sectsOf b 2).map fun x => (BitVec.ofNat 16 x.stn, (chunks 16 (x.len / 16) (x.bytes b)).map readBinding),
    ctxs := ((sectsOf b 3).map fun x => (chunks 72 (x.len / 72) (x.bytes b)).map fun e => (BitVec.ofNat 20 (rd e 0 4), readCtxLoad (rd e 8 64))).flatten,
    syncs := ((sectsOf b 4).map fun x => (chunks 16 (x.len / 16) (x.bytes b)).map fun e => (BitVec.ofNat 16 (rd e 0 2), readSync (rd e 8 8))).flatten,
    house := (sectsOf b 5).map fun x => (BitVec.ofNat 16 x.stn, words (x.bytes b)),
    recess := ((sectsOf b 6).map fun x => (chunks 16 (x.len / 16) (x.bytes b)).map readWin).flatten,
    slots := (sectsOf b 7).head?.map fun x => readSlots (x.bytes b),
    phases := ((sectsOf b 8).map fun x => (chunks 16 (x.len / 16 - 1) ((x.bytes b).drop 16)).map readPhase).flatten,
    hasPower := !(sectsOf b 8).isEmpty,
    rote := ((sectsOf b 9).map fun x => roteSeeds x.len (x.bytes b)).flatten,
    digest := digest b }

/-! ### Clock and periods (R49, R50) -/

/-- The clock of an operating point, in 10 MHz. -/
def oppF (i : Image) : Nat := if i.oppoint = 0 then 212 else if i.oppoint = 1 then 186 else 160

/-- cc in a whole number of ns. -/
def nsCc (f ns : Nat) : Nat := ns * f / 100

/-- P_cc. -/
def Image.pcc (i : Image) : Nat := nsCc (oppF i) i.periodNs.toNat

/-- The stretched length in cc. -/
def Image.scc (i : Image) : Nat := nsCc (oppF i) i.stretchNs.toNat

/-! ### Issue words (R52, R55) -/

/-- `IW.OFFSET`. -/
def iwOff (w : BitVec 128) : Nat := fld w.toNat 102 26
/-- `IW.OPC`. -/
def iwOpc (w : BitVec 128) : Nat := fld w.toNat 94 8
/-- `IW.REL`. -/
def iwRel (w : BitVec 128) : Bool := bit w.toNat 93
/-- `IW.MOD`. -/
def iwMod (w : BitVec 128) : Nat := fld w.toNat 90 3

/-- Operand fields packed from bit 89 downward. -/
def unpack (v : Nat) : Nat → List Nat → List Nat
  | _, [] => []
  | top, n :: t => fld v (top - n) n :: unpack v (top - n) t

/-- One opcode of R55: the station kinds that may use it, the widths of its operands, and its modifier bits. -/
structure IwRow where
  /-- Opcode. -/
  opc : Nat
  /-- Station kinds. -/
  kinds : List Nat
  /-- Operand widths. -/
  widths : List Nat
  /-- Modifier bits that the opcode defines. -/
  mods : Nat := 0
  deriving DecidableEq, Repr

/-- The classes that sync words serve. -/
def syncKinds : List Nat := [1, 2, 3, 4, 5, 6]

/-- The opcodes of R55. -/
def iwRows : List IwRow := [
  ⟨0x00, [1, 2, 3, 4, 5, 6, 7], [], 0⟩, ⟨0x01, [1, 2, 3, 4, 5, 6, 7], [16, 26, 8, 16, 4], 0⟩,
  ⟨0x02, syncKinds, [16, 16], 0⟩, ⟨0x03, syncKinds, [12, 16, 16], 0⟩, ⟨0x04, syncKinds, [16, 32], 0⟩,
  ⟨0x05, syncKinds, [16, 16], 0⟩, ⟨0x06, syncKinds, [6], 0⟩,
  ⟨0x10, [1], [6, 6, 6, 6, 2, 8, 3], 3⟩, ⟨0x11, [1], [2, 6, 8, 3], 0⟩,
  ⟨0x20, [2], [8, 6, 6, 6, 6, 8, 3], 0⟩, ⟨0x21, [2], [8, 6, 6, 1, 8, 3], 0⟩, ⟨0x22, [2], [6, 6, 8, 3], 0⟩,
  ⟨0x23, [2], [6, 6], 0⟩, ⟨0x24, [2], [6, 6, 6], 0⟩, ⟨0x25, [2], [6, 6, 6], 0⟩, ⟨0x26, [2], [8, 6, 6, 8, 3], 0⟩,
  ⟨0x30, [3], [2, 2], 3⟩, ⟨0x31, [3], [2, 6], 0⟩, ⟨0x32, [3], [2, 6, 8, 3], 0⟩, ⟨0x33, [3], [6, 6], 7⟩,
  ⟨0x40, [4], [2, 1, 4, 20], 0⟩, ⟨0x41, [4], [2, 1, 4, 6, 7, 6, 11], 0⟩, ⟨0x42, [4], [2, 1, 4, 6, 7, 6, 11], 0⟩,
  ⟨0x43, [4], [2, 1, 4], 0⟩, ⟨0x44, [4], [2, 1], 0⟩, ⟨0x45, [4], [2, 1], 0⟩, ⟨0x46, [4], [2, 1, 4], 0⟩,
  ⟨0x50, [5], [6, 3], 0⟩, ⟨0x51, [5], [6, 6, 3], 0⟩, ⟨0x60, [6], [4, 6, 6], 0⟩, ⟨0x61, [6], [4, 6, 6], 0⟩,
  ⟨0x70, [7], [6], 0⟩]

/-- The row of an opcode. -/
def iwRow (opc : Nat) : Option IwRow := iwRows.find? fun r => decide (r.opc = opc)

/-- The operands of a word. -/
def iwArgs (w : BitVec 128) : List Nat :=
  match iwRow (iwOpc w) with
  | some r => unpack w.toNat 90 r.widths
  | none => []

/-- Operand k of a word. -/
def iwArg (w : BitVec 128) (k : Nat) : Nat := (iwArgs w).getD k 0

/-- The low bits that no operand of the word uses are zero, and so are modifier bits that the opcode does not define
(R52). -/
def iwClean (w : BitVec 128) (r : IwRow) : Bool :=
  decide (w.toNat % 2 ^ (90 - r.widths.sum) = 0) && decide (iwMod w &&& r.mods = iwMod w)

/-! ### Expansion of REPEAT (R54) -/

/-- A word of the expanded program. -/
structure Ew where
  /-- Scheduled offset in cc. -/
  off : Nat
  /-- The issue word. -/
  w : BitVec 128
  /-- Its index in the program. -/
  idx : Nat
  /-- Iteration of the innermost REPEAT. -/
  iter : Nat
  /-- What the enclosing blocks add to the row of an ACT. -/
  row : Int
  /-- What they add to its bank. -/
  bank : Nat
  deriving DecidableEq, Repr

/-- Expand words, given with their indices: REPEAT issues the words it covers once per iteration, its iterations
`stride` apart. -/
def expand : Nat → List (Nat × BitVec 128) → Nat → Int → Nat → Nat → List Ew
  | 0, _, _, _, _, _ => []
  | _, [], _, _, _, _ => []
  | f + 1, (i, w) :: t, base, row, bank, iter =>
    if iwOpc w = 1 then
      let n := iwArg w 2
      ((List.range (iwArg w 0)).map fun k =>
        expand f (t.take n) (base + k * iwArg w 1) (row + k * sx 16 (iwArg w 3)) (bank + k * iwArg w 4) k).flatten ++
        expand f (t.drop n) base row bank iter
    else ⟨base + iwOff w, w, i, iter, row, bank⟩ :: expand f t base row bank iter

/-- The expanded program. -/
def expanded (ws : List (BitVec 128)) : List Ew := expand (ws.length + 1) (number ws) 0 0 0 0

/-- REPEAT blocks nest to depth d, each within the block or program around it (R54). -/
def nestOk : Nat → Nat → List (BitVec 128) → Bool
  | 0, _, _ => true
  | _, _, [] => true
  | f + 1, d, w :: t =>
    if iwOpc w = 1 then
      decide (1 ≤ d) && decide (iwArg w 2 ≤ t.length) && nestOk f (d - 1) (t.take (iwArg w 2)) && nestOk f d (t.drop (iwArg w 2))
    else nestOk f d t

/-- The row of an expanded ACT. -/
def Ew.actRow (e : Ew) : Nat := ((iwArg e.w 3 : Int) + e.row).toNat

/-- The bank of an expanded ACT. -/
def Ew.actBank (e : Ew) : Nat := (iwArg e.w 2 + e.bank) % 16

/-- The program of a station; empty when it has none. -/
def progOf (i : Image) (stn : BitVec 16) : List (BitVec 128) := ((i.programs.find? fun p => decide (p.1 = stn)).map (·.2)).getD []

/-- The housekeeping track of an MM. -/
def houseOf (i : Image) (stn : BitVec 16) : List (BitVec 128) := ((i.house.find? fun p => decide (p.1 = stn)).map (·.2)).getD []

/-- The binding table of a station. -/
def bindsOf (i : Image) (stn : BitVec 16) : List Binding := ((i.binds.find? fun p => decide (p.1 = stn)).map (·.2)).getD []

/-! ### Operands of a word -/

/-- The input operands of a word as binding indices, in port order (R55); 63 names none. -/
def iwInputs (w : BitVec 128) : List Nat :=
  let a := iwArg w
  (match iwOpc w with
  | 0x10 => [a 0, a 1, a 2]
  | 0x20 => [a 1, a 2, a 3]
  | 0x21 => [a 1]
  | 0x22 => [a 0]
  | 0x23 => [a 0]
  | 0x24 => [a 0, a 1]
  | 0x25 => [a 0, a 1]
  | 0x26 => [a 1]
  | 0x31 => [a 1]
  | 0x33 => [a 0]
  | 0x42 => [a 5]
  | 0x50 => [a 0]
  | 0x51 => [a 0]
  | 0x60 => [a 1]
  | 0x61 => [a 1, a 2]
  | _ => []).filter fun b => decide (b ≠ 63)

/-- The output operand of a word; an MMA writes its O only with END (R55). -/
def iwOutput (w : BitVec 128) : Option Nat :=
  let a := iwArg w
  let o := match iwOpc w with
    | 0x10 => if bit (iwMod w) 1 then a 3 else 63
    | 0x11 => a 1
    | 0x20 => a 4
    | 0x21 => a 2
    | 0x22 => a 1
    | 0x23 => a 1
    | 0x24 => a 2
    | 0x25 => a 2
    | 0x26 => a 2
    | 0x32 => a 1
    | 0x33 => a 1
    | 0x41 => a 5
    | 0x51 => a 1
    | 0x60 => a 2
    | _ => 63
  if o = 63 then none else some o

/-- The `format` and `round` operands of a word that has them. -/
def iwFmtRound (w : BitVec 128) : Option (Nat × Nat) :=
  let a := iwArg w
  match iwOpc w with
  | 0x10 => some (a 5, a 6)
  | 0x11 => some (a 2, a 3)
  | 0x20 => some (a 5, a 6)
  | 0x21 => some (a 4, a 5)
  | 0x22 => some (a 2, a 3)
  | 0x26 => some (a 3, a 4)
  | 0x32 => some (a 2, a 3)
  | _ => none

/-! ### Occupancy and completion (R57) -/

/-- Elements per group of k: 64 for 8- and 6-bit inputs, 128 for 4-bit ones, 32 for 16-bit ones. -/
def mmaKg (f : Nat) : Nat := if fmtBits f = 16 then 32 else if fmtBits f = 4 then 128 else 64

/-- ⌈E × c / (512 × v)⌉ + 12 with v taken for the widest format (R57). -/
def vxOcc (e c bits : Nat) : Nat :=
  (if bits = 128 then ceilDiv (4 * e * c) 512 else if bits = 64 then ceilDiv (2 * e * c) 512 else if bits = 32 then ceilDiv (e * c) 512
   else if bits = 16 then ceilDiv (e * c) 1024 else ceilDiv (e * c) 2048) + 12

/-- Occupancy of a tile computation, and completion of its output after issue (R57). The shapes are those of the
word's binding entries: inputs in port order, then the output. -/
def tileOcc (w : BitVec 128) (ins : List Shape) (out : Option Shape) : Nat × Nat :=
  let e := (ins.map Shape.count).foldl max ((out.map Shape.count).getD 0)
  let bits := (ins.map fun t => fmtBits t.format).foldl max ((out.map fun t => fmtBits t.format).getD 0)
  match iwOpc w with
  | 0x10 =>
    match ins with
    | a :: b :: _ =>
      let o := ceilDiv (ceilDiv a.cols (mmaKg a.format) * ceilDiv b.cols 64) 9 * a.rows + 16
      (o, if bit (iwMod w) 1 then o + 40 else o)
    | _ => (1, 1)
  | 0x11 => (let o := ceilDiv ((out.map Shape.count).getD 0) 1024 + 4; (o, o + 40))
  | 0x20 => (vxOcc e 1 bits, vxOcc e 1 bits + 24)
  | 0x21 => (vxOcc e 1 bits, vxOcc e 1 bits + 24)
  | 0x22 => (vxOcc e 1 bits, vxOcc e 1 bits + 24)
  | 0x26 => (vxOcc e 8 bits, vxOcc e 8 bits + 24)
  | 0x23 => (vxOcc e 2 bits, vxOcc e 2 bits + 24)
  | 0x24 => (vxOcc e 2 bits, vxOcc e 2 bits + 24)
  | 0x25 => (vxOcc e 2 bits, vxOcc e 2 bits + 24)
  | 0x31 => (ceilDiv e 64 + 8, ceilDiv e 64 + 8)
  | 0x32 => (ceilDiv e 64 + 8, ceilDiv e 64 + 8 + 30)
  | 0x33 => (ceilDiv e 256 + 8, ceilDiv e 256 + 8 + 16)
  | _ => (1, 1)

/-- Cells of a tile (R57). -/
def cellsOf (plen : Nat) : Nat := ceilDiv plen 1024

/-- Occupancy of a SEND in cc on a link of width w: 60 cc + ⌈C / w⌉ × T_cell, T_cell in 1/64 ns (R57). -/
def sendOcc (f tCell c w : Nat) : Nat := 60 + ceilDiv (ceilDiv c (max 1 w) * tCell * f) 6400

/-! ### Fast-plane slots (R67, R204, R206, R208) -/

/-- The source code of line k at outgoing fibre F(12 + o) (R206). -/
def fcSrc (c : BitVec 512) (k o : Nat) : Nat := fld c.toNat (12 * k + 3 * o) 3

/-- `FC.LINKS` names link j of outgoing fibre F(12 + o) (R206). -/
def fcLink (c : BitVec 512) (o j : Nat) : Bool := bit c.toNat (396 + 8 * o + j)

/-- The fast-plane slot that begins at a cc: a slot of 1,024 ns is no whole number of cc, so the cc may lie less than one cc from the
slot's edge (R67; log entry 71, DESIGN CHOICE). -/
def slotEdge (f c : Nat) : Option Nat :=
  let k := (c * 6400 + 32768 * f) / (65536 * f)
  if c * 6400 < k * 65536 * f + 6400 ∧ k * 65536 * f < c * 6400 + 6400 then some k else none

/-- The fast-plane slots of a kind 2 window: it begins and ends on slot edges (R67). -/
def winSlots (f : Nat) (w : RecessWin) : Option (Nat × Nat) :=
  match slotEdge f w.start, slotEdge f (w.start + w.len) with
  | some a, some b => if a < b then some (a, b) else none
  | _, _ => none

/-- Slot numbers of the fast plane that the calibration windows of a list cover (R67). -/
def calSlots (f : Nat) (ws : List RecessWin) : List Nat :=
  ((ws.filter fun w => decide (w.kind = 2)).map fun w =>
    ((winSlots f w).map fun e => (List.range (e.2 - e.1)).map fun k => e.1 + k).getD []).flatten

/-- The slots of a period of a length in 1/64 ns that carry cells of a fast-plane link: those that name it in `FC.LINKS`, without the
period's last slot and the slots of calibration windows (R205, R206, R208). -/
def fastSlots (i : Image) (t : SlotTable) (fibre link len : Nat) : List Nat :=
  let cal := calSlots (oppF i) i.recess
  (List.range (ceilDiv len 65536 - 1)).filter fun k => fcLink (t.confs.getD (t.slots.getD k 0) 0) (fibre - 12) link && !decide (k ∈ cal)

/-- The first cell slot, counted over the slots of a list, 24 to each, that has not begun at a time of the period (R204, R208). -/
def cellSlotAt (ks : List Nat) (t : Nat) : Nat :=
  24 * (ks.filter fun x => decide (x < t / 65536)).length + (if t / 65536 ∈ ks then ceilDiv (t % 65536 * 24) 65536 else 0)

/-- The time of the period at which a cell slot ends; none past the last slot of the list. -/
def cellSlotEnd (ks : List Nat) (c : Nat) : Option Nat := (ks[c / 24]?).map fun k => k * 65536 + ceilDiv ((c % 24 + 1) * 65536) 24

/-- Occupancy of a SEND that issues at a cc of the period on a fast-plane link: the T_cell term lasts to the end of the last of its
⌈C / w⌉ cell slots, of which only the link's own count; beyond the stretched period where they do not suffice (R57, R208; log entry
72, DEDUCED). -/
def fastOcc (f : Nat) (scc : Nat) (ks : List Nat) (cc c w : Nat) : Nat :=
  let t := cc * 6400 / max 1 f
  match cellSlotEnd ks (cellSlotAt ks t + ceilDiv c (max 1 w) - 1) with
  | some e => 60 + ceilDiv ((e - t) * f) 6400
  | none => scc + 1

end Sys2Proof.Machine
end

