-- ==== Sys2Proof/Machine/MemOps.lean ====
section
/-!
DEFINITION. Memory operations: the interleave hash and the module address space (R109 to R117), LPDDR bursts and their
RS(36,32) code (R122 to R125), tile-store words (R126), merge buffers (R127), and the records of errors (R131, R132,
R137).
-/

namespace Sys2Proof.Machine

/-! ### The form in which memory is held -/

/-- A memory is in canonical form: addresses rise strictly, and no entry holds the zero that an unlisted address reads as (R138;
log entry 2, DESIGN CHOICE). -/
def Memory.wf (c : List (Nat × BitVec 8)) : Bool := twf 0 c

/-- LPDDR and the tile store are in canonical form. -/
def State.memWf (s : State) : Bool := Memory.wf s.mem.cells && Memory.wf s.ts.cells


/-! ### The RS(36,32) code (R122) -/

/-- Multiplication by α in GF(2⁸) with the field polynomial x⁸ + x⁴ + x³ + x² + 1. -/
def gfX (a : BitVec 8) : BitVec 8 := if a.msb then (a <<< 1) ^^^ 0x1D else a <<< 1

/-- Product of a field element with the low n bits of another. -/
def gfMulN : Nat → BitVec 8 → Nat → BitVec 8
  | 0, _, _ => 0
  | n + 1, a, b => (if b % 2 = 1 then a else 0) ^^^ gfMulN n (gfX a) (b / 2)

/-- Product in GF(2⁸). -/
def gfMul (a b : BitVec 8) : BitVec 8 := gfMulN 8 a b.toNat

/-- α to the power n. -/
def gfPow : Nat → BitVec 8
  | 0 => 1
  | n + 1 => gfX (gfPow n)

/-- a to the power n. -/
def gfExp (a : BitVec 8) : Nat → BitVec 8
  | 0 => 1
  | n + 1 => gfMul a (gfExp a n)

/-- The inverse of a field element. -/
def gfInv (a : BitVec 8) : BitVec 8 := gfExp a 254

/-- The syndrome at a root: the received polynomial, symbol 0 its highest power, at that root (log entry 8, DEDUCED). -/
def rsEval (root : BitVec 8) (r : Bytes) : BitVec 8 := r.foldl (fun a x => gfMul a root ^^^ x) 0

/-- The four syndromes, at α⁰ to α³ (R122). -/
def rsSyn (r : Bytes) : List (BitVec 8) := [0, 1, 2, 3].map fun i => rsEval (gfPow i) r

/-- Coefficients of the generator with roots α⁰ to α³, from x³ down (R122). -/
def rsGen : List (BitVec 8) := [15, 54, 120, 64]

/-- One step of the division by the generator. -/
def rsStep (reg : List (BitVec 8)) (x : BitVec 8) : List (BitVec 8) :=
  let f := reg.headD 0 ^^^ x
  List.zipWith (fun a g => a ^^^ gfMul f g) (reg.drop 1 ++ [0]) rsGen

/-- The four check symbols of 32 data bytes (R122). -/
def rsCheck (d : Bytes) : Bytes := d.foldl rsStep [0, 0, 0, 0]

/-- The code word of 32 data bytes. -/
def rsWord (d : Bytes) : Bytes := d ++ rsCheck d

/-- The pattern that poison puts on the check symbols (R124). -/
def poisonPat : Bytes := [0xA5, 0x5A, 0xA5, 0x5A]

/-- The poisoned burst of 32 data bytes (R124). -/
def rsPoison (d : Bytes) : Bytes := d ++ List.zipWith (· ^^^ ·) (rsCheck d) poisonPat

/-- The poison syndrome (R124). -/
def poisonSyn : List (BitVec 8) := rsSyn (zeros 32 ++ poisonPat)

/-- The syndromes of errors: a list of (position, value). -/
def rsErrSyn (e : List (Nat × BitVec 8)) : List (BitVec 8) :=
  [0, 1, 2, 3].map fun i => e.foldl (fun a x => a ^^^ gfMul x.2 (gfPow (i * (35 - x.1)))) 0

/-- The single error that a syndrome shows, if it is one. -/
def rsOne (syn : List (BitVec 8)) : Option (List (Nat × BitVec 8)) :=
  ((List.range 36).map fun p => [(p, syn.headD 0)]).find? fun e => decide (rsErrSyn e = syn)

/-- The two values that errors at p and q must have to give the first two syndromes. -/
def rsPair (syn : List (BitVec 8)) (p q : Nat) : List (Nat × BitVec 8) :=
  let x := gfPow (35 - p)
  let y := gfPow (35 - q)
  let a := gfMul (syn.getD 1 0 ^^^ gfMul (syn.headD 0) y) (gfInv (x ^^^ y))
  [(p, a), (q, syn.headD 0 ^^^ a)]

/-- The pair of errors that a syndrome shows, if it is one. -/
def rsTwo (syn : List (BitVec 8)) : Option (List (Nat × BitVec 8)) :=
  (((List.range 36).map fun p => (List.range p).map fun q => rsPair syn q p).flatten).find? fun e => decide (rsErrSyn e = syn)

/-- What the decoder makes of a burst (R123). -/
inductive BurstOut where
  | clean (d : List (BitVec 8))
  | fixed (d : List (BitVec 8)) (syms : List Nat)
  | poisoned (d : List (BitVec 8)) (syn : List (BitVec 8))
  | bad (syn : List (BitVec 8))
  deriving DecidableEq, Repr

/-- Correct the symbols of a burst. -/
def rsFix (r : Bytes) (e : List (Nat × BitVec 8)) : Bytes :=
  (e.foldl (fun a x => a.set x.1 (a.getD x.1 0 ^^^ x.2)) r).take 32

/-- The decoder (R123): the poison syndrome is tested first; a degraded sub-channel corrects one symbol only (R125). -/
def rsDecode (degraded : Bool) (r : Bytes) : BurstOut :=
  let syn := rsSyn r
  if syn = [0, 0, 0, 0] then .clean (r.take 32)
  else if syn = poisonSyn then .poisoned (r.take 32) syn
  else match rsOne syn with
    | some e => .fixed (rsFix r e) (e.map (·.1))
    | none =>
      match rsTwo syn with
      | some e => if degraded then .bad syn else .fixed (rsFix r e) (e.map (·.1))
      | none => .bad syn

/-! ### Addresses (R109, R112, R113) -/

/-- Coordinates of a burst. -/
structure Coord where
  /-- Channel 0 to 255. -/
  ch : Nat
  /-- Sub-channel. -/
  sub : Nat
  /-- Bank. -/
  bank : Nat
  /-- Row as addressed. -/
  row : Nat
  /-- Burst within the row. -/
  burst : Nat
  deriving DecidableEq, Repr

/-- The number of a bank: (channel × 2 + sub-channel) × 16 + bank. -/
def bankKey (ch sub bank : Nat) : Nat := (ch * 2 + sub) * 16 + bank

/-- The burst number of a place, rows 0 to 98,319 with the spare ones (R109). -/
def burstNo (ch sub bank row burst : Nat) : Nat := (bankKey ch sub bank * 98320 + row) * 256 + burst

/-- The channel of a burst number. -/
def burstCh (b : Nat) : Nat := b / (256 * 98320 * 32)

/-- Rotate the low w bits of v left by r. -/
def rotl (w v r : Nat) : Nat := ((v <<< r) ||| (v >>> (w - r))) % 2 ^ w

/-- The channel hash of granule x under key k (R113). -/
def hashCh (k x : Nat) : Nat :=
  (List.range 5).foldl (fun h i => h ^^^ rotl 6 (fld x (6 * i) 6) (fld k (3 * i) 3)) (fld k 15 6)

/-- The bank hash of row z under key k (R113). -/
def hashBank (k z : Nat) : Nat :=
  (List.range 5).foldl (fun h i => h ^^^ rotl 4 (fld z (4 * i) 4) (fld k (21 + 2 * i) 2)) (fld k 31 4)

/-- From a byte offset in a die's LPDDR region to coordinates (R113). -/
def toCoord (k die o : Nat) : Coord :=
  let g := o / 256
  let x := g / 64
  let z := x / 1024
  { ch := 64 * die + ((g % 64) ^^^ hashCh k x), sub := o / 128 % 2, bank := (x / 64 % 16) ^^^ hashBank k z, row := z,
    burst := 4 * (x % 64) + o / 32 % 4 }

/-- From coordinates back to the module address of the burst (R113, R117). -/
def toMpa (k : Nat) (c : Coord) : Nat :=
  let x := c.row * 1024 + (c.bank ^^^ hashBank k c.row) * 64 + c.burst / 4
  let g := x * 64 + ((c.ch % 64) ^^^ hashCh k x)
  c.ch / 64 * 0x18000000000 + g * 256 + c.sub * 128 + c.burst % 4 * 32

/-- A key that R114 accepts. -/
def keyOk (k : Nat) : Bool := decide (k < 2 ^ 35) && (List.range 5).all fun i => decide (fld k (3 * i) 3 ≤ 5)

/-- What a module address names (R112). -/
inductive Place where
  | lpddr (die off : Nat)
  | tile (die off : Nat)
  | unmapped
  deriving DecidableEq, Repr

/-- The map of R112. -/
def place (a : Nat) : Place :=
  if a < 0x60000000000 then .lpddr (a / 0x18000000000) (a % 0x18000000000)
  else if 0x80000000000 ≤ a ∧ a < 0x80080000000 then .tile ((a - 0x80000000000) / 0x20000000) (a % 0x20000000)
  else .unmapped

/-- Every byte of an access is mapped. -/
def mapped (a n : Nat) : Bool := place a ≠ .unmapped && place (a + n - 1) ≠ .unmapped && decide (a / 0x60000000000 = (a + n - 1) / 0x60000000000)

/-- The module address of a place in tile store: die × 2²⁹ + offset. -/
def tileMpa (a : Nat) : Nat := 0x80000000000 + a

/-! ### Sources of accesses and the record of R132 -/

/-- Who makes an access, for records. -/
structure MemSrc where
  /-- `UE.KIND`. -/
  kind : Nat
  /-- Station, or 0xFFFF. -/
  stn : Nat := 0xFFFF
  /-- Destination stream and tile. -/
  stream : Option (Nat × Nat) := none
  /-- HX channel, or 0x1F. -/
  hxch : Nat := 0x1F
  /-- Issue-word index, or 0xFFFF. -/
  index : Nat := 0xFFFF
  deriving DecidableEq, Repr

/-- The 40 bytes of MEM_UNCORRECTABLE and POISON_READ (R132). -/
def uePayload (addr : Nat) (c : Coord) (kind synd : Nat) (q : MemSrc) (s : State) : Bytes :=
  let st := q.stream.getD (0, 0)
  let loaded := imageLoaded s
  le 40 (2 ^ 44 * b2n loaded + 2 ^ 45 * b2n q.stream.isSome + 2 ^ 46 * (if loaded then s.job.bell % 2 ^ 64 else 0) +
    2 ^ 110 * q.index + 2 ^ 126 * q.hxch + 2 ^ 131 * st.2 + 2 ^ 163 * st.1 + 2 ^ 183 * q.stn + 2 ^ 199 * synd +
    2 ^ 231 * kind + 2 ^ 235 * c.burst + 2 ^ 243 * c.row + 2 ^ 263 * c.bank + 2 ^ 267 * c.sub + 2 ^ 268 * c.ch + 2 ^ 276 * addr)

/-- The source of a record about an access: its station, or the SV domain. -/
def MemSrc.src (q : MemSrc) : Nat := if q.stn = 0xFFFF then srcSv else q.stn

/-- The station of the MM that owns a channel (R109). -/
def mmOf (ch : Nat) : BitVec 16 := mkStn (ch / 64) 4 (ch % 64 / 4)

/-- The state of a sub-channel. -/
def subOf (s : State) (ch sub : Nat) : SubCh := tget {} s.mem.sub (ch * 2 + sub)

/-- Change the state of a sub-channel. -/
def modSub (ch sub : Nat) (f : SubCh → SubCh) (s : State) : State :=
  s.modMem fun m => { m with sub := tmod {} m.sub (ch * 2 + sub) f }

/-- A channel is in service: neither retired nor held out (R137, R364). -/
def chanUp (s : State) (ch : Nat) : Bool := !decide (ch ∈ s.mem.retired) && !decide (ch ∈ s.mem.heldOut)

/-! ### Counting and recording errors -/

/-- MEM_CORRECTED with the count since the last record; a suppressed record leaves the count standing (R139, R402). -/
def memCorrected (src : Nat) (place : Bytes) (s : State) : State :=
  let n := s.mem.corSince + 1
  let keep := suppressed evMemCorrected s.db
  raise evMemCorrected src (place ++ leSat 4 n) (s.modMem fun m => { m with corSince := if keep then n else 0 })

/-- The corrected count of a pin in the sliding window of 1 s (R125). -/
def pinCount (p : List (Nat × Nat)) (pin now : Nat) : Nat :=
  min 65535 (p.filter fun e => decide (e.1 = pin) && decide (now < e.2 + 400000000)).length

/-- PIN_SUSPECT: the sub-channel is marked degraded; on one that is degraded already, retirement is advised (R125,
R137). -/
def pinSuspect (ch sub pin count : Nat) (s : State) : State :=
  let was := (subOf s ch sub).degraded
  let s1 := raise evPinSuspect (mmOf ch).toNat (le 1 ch ++ le 1 sub ++ le 1 pin ++ leSat 4 count) (modSub ch sub (fun x => { x with degraded := true }) s)
  if was then
    raise evChannelRetireAdvised (mmOf ch).toNat
      (le 1 ch ++ leSat 4 ((s1.mem.distinct.filter fun e => decide (burstCh e.1 = ch) && decide (s1.sc < e.2 + 34560000000000)).length)) s1
  else s1

/-- Count a corrected symbol on its pin; PIN_SUSPECT as the count reaches 64 (R125). -/
def pinHit (ch sub pin : Nat) (s : State) : State :=
  let s1 := (modSub ch sub (fun x => { x with pins := (pin, s.sc) :: x.pins.filter fun e => decide (s.sc < e.2 + 400000000) }) s).modLife fun l =>
    { l with pinCor := tmod 0 l.pinCor (ch * 24 + sub * 12 + pin) (· + 1) }
  if pinCount (subOf s1 ch sub).pins pin s.sc = 64 then pinSuspect ch sub pin 64 s1 else s1

/-- The distinct pins of corrected symbols: symbol s is pin s mod 12 (R122). -/
def pinsOf (syms : List Nat) : List Nat := ((syms.map (· % 12))).eraseDups

/-- A corrected burst (R123): counted per channel, sub-channel and pin. -/
def burstCorrected (c : Coord) (syms : List Nat) (s : State) : State :=
  let pins := pinsOf syms
  let s1 := s.modLife fun l => { l with eccCor := tmod 0 l.eccCor c.ch (· + 1) }
  let s2 := memCorrected (mmOf c.ch).toNat (le 1 0 ++ le 1 c.ch ++ le 1 c.sub ++ le 1 (pins.headD 0)) s1
  pins.foldl (fun t p => pinHit c.ch c.sub p t) s2

/-- A newly distinct uncorrectable burst: the third within 24 h advises retirement (R137). -/
def distinctBad (ch b : Nat) (s : State) : State :=
  let live := s.mem.distinct.filter fun e => decide (s.sc < e.2 + 34560000000000)
  if live.any fun e => decide (e.1 = b) then s.modMem fun m => { m with distinct := live }
  else
    let all := live ++ [(b, s.sc)]
    let n := (all.filter fun e => decide (burstCh e.1 = ch)).length
    let s1 := s.modMem fun m => { m with distinct := all }
    if 3 ≤ n then raise evChannelRetireAdvised (mmOf ch).toNat (le 1 ch ++ leSat 4 n) s1 else s1

/-- An uncorrectable burst (R123, R125, R131, R137): recorded and counted; the first of a sub-channel marks it degraded.
The pin that PIN_SUSPECT then names is not given: a free value (log entry 3, DESIGN CHOICE). -/
def burstBad (c : Coord) (b : Nat) (syn : List (BitVec 8)) (q : MemSrc) (s : State) : State :=
  let first := !(subOf s c.ch c.sub).uncSeen
  let s1 := (modSub c.ch c.sub (fun x => { x with uncSeen := true }) s).modLife fun l => { l with eccUnc := tmod 0 l.eccUnc c.ch (· + 1) }
  let s2 := raise evMemUncorrectable q.src (uePayload (toMpa s.mem.ikey.toNat c) c q.kind (ofLe syn) q s1) s1
  let s3 := distinctBad c.ch b s2
  if first then
    let pin := freeVal 8 s3
    pinSuspect c.ch c.sub pin.toNat (pinCount (subOf s3 c.ch c.sub).pins pin.toNat s3.sc) (useFree s3)
  else s3

/-- A poisoned burst was read: POISON_READ with kind 7 (R123, R127, R132). -/
def burstPoison (c : Coord) (syn : List (BitVec 8)) (q : MemSrc) (s : State) : State :=
  raise evPoisonRead q.src (uePayload (toMpa s.mem.ikey.toNat c) c 7 (ofLe syn) q s) s

/-! ### LPDDR bursts -/

/-- The row that stands for an addressed row: its spare where the remap table maps it (R135). -/
def physRow (s : State) (ch sub bank row : Nat) : Nat :=
  match s.mem.remaps.find? fun r => decide (r.bank = bankKey ch sub bank) && decide (r.row = row) with
  | some r => 98304 + r.spare
  | none => row

/-- The burst number of coordinates, the remap applied (R135). -/
def Coord.no (s : State) (c : Coord) : Nat := burstNo c.ch c.sub c.bank (physRow s c.ch c.sub c.bank c.row) c.burst

/-- The 36 symbols as they read now: what is stored, with what the read inverts. -/
def rawBurst (err : ReadErr) (b : Nat) (s : State) : Bytes :=
  (List.range 36).map fun i =>
    tget 0 s.mem.cells (36 * b + i) ^^^ ((err.lp.find? fun e => decide (e.1 = 36 * b + i)).map (·.2)).getD 0

/-- Decode the burst at coordinates, by the degraded mark of its sub-channel (R123, R125). -/
def decodeAt (err : ReadErr) (c : Coord) (s : State) : BurstOut := rsDecode (subOf s c.ch c.sub).degraded (rawBurst err (c.no s) s)

/-- What a decoded burst makes the module count and record (R123, R131). -/
def noteBurst (c : Coord) (q : MemSrc) (o : BurstOut) (s : State) : State :=
  match o with
  | .clean _ => s
  | .fixed _ syms => burstCorrected c syms s
  | .poisoned _ syn => burstPoison c syn q s
  | .bad syn => burstBad c (c.no s) syn q s

/-- The data of a decoded burst; none where it is uncorrectable or poisoned. -/
def BurstOut.data : BurstOut → Option (List (BitVec 8))
  | .clean d => some d
  | .fixed d _ => some d
  | .poisoned _ _ => none
  | .bad _ => none

/-- Write 36 symbols of a burst. -/
def putBurst (b : Nat) (w : Bytes) (s : State) : State := s.modMem fun m => { m with cells := tsets 0 m.cells (36 * b) w }

/-- Bytes of an entry over those of memory (R127). -/
def overlay (m : MergeEnt) (d : Bytes) : Bytes :=
  (List.range d.length).map fun i => if m.mask.getLsbD i then m.bytes.getD i 0 else d.getD i 0

/-- The merge entry of a code word. -/
def mergeOf (l : List MergeEnt) (key : Nat) : Option MergeEnt := l.find? fun m => decide (m.key = key)

/-- A list of entries without that of a code word. -/
def mergeDrop (l : List MergeEnt) (key : Nat) : List MergeEnt := dropFirst (fun m => decide (m.key = key)) l

/-- Read one burst: its data with the merge entry's bytes over it (R127); none where it cannot be used, which R131
then handles. A poisoned or uncorrectable burst whose bytes an entry covers is written by R127 when the entry leaves. -/
def readBurst (err : ReadErr) (c : Coord) (q : MemSrc) (s : State) : Option Bytes × State :=
  let o := decodeAt err c s
  let s1 := noteBurst c q o s
  let d := match mergeOf s.mem.merge (c.no s) with
    | some m => o.data.map (overlay m)
    | none => o.data
  (d, s1)

/-- Write one whole burst, poisoned or not; an entry for it is discarded (R124, R127). -/
def writeBurst (poison : Bool) (c : Coord) (d : Bytes) (s : State) : State :=
  let b := c.no s
  (putBurst b (if poison then rsPoison d else rsWord d) s).modMem fun m => { m with merge := mergeDrop m.merge b }

/-- The coordinates of a burst number whose row is as stored. -/
def coordOf (b : Nat) : Coord :=
  let k := b / 256 / 98320
  { ch := k / 32, sub := k / 16 % 2, bank := k % 16, row := b / 256 % 98320, burst := b % 256 }

/-- The address as an access names it: the row a spare stands for, where the stored row is one in use (R132). -/
def addressed (s : State) (b : Nat) : Coord :=
  let c := coordOf b
  match s.mem.remaps.find? fun r => decide (r.bank = bankKey c.ch c.sub c.bank) && decide (98304 + r.spare = c.row) with
  | some r => { c with row := r.row }
  | none => c

/-- Write an entry by read-modify-write (R127): over old data that is uncorrectable or poisoned, a poisoned burst. The
bytes that the entry does not cover are then those the read gave, corrected or not. -/
def mergeRmw (err : ReadErr) (m : MergeEnt) (s : State) : State :=
  let c := addressed s m.key
  let raw := rawBurst err m.key s
  let o := rsDecode (subOf s c.ch c.sub).degraded raw
  let s1 := noteBurst c { kind := 3, stn := (mmOf c.ch).toNat } o s
  match o.data with
  | some d => putBurst m.key (rsWord (overlay m d)) s1
  | none => putBurst m.key (rsPoison (overlay m (raw.take 32))) s1

/-- Entries of one MM (R127: each MM has 64). -/
def mergesOf (mm : Nat) (l : List MergeEnt) : List MergeEnt := l.filter fun m => decide (burstCh m.key / 4 = mm)

/-- Merge bytes into an entry: newer bytes replace older (R127). -/
def MergeEnt.put (m : MergeEnt) (off : Nat) (d : Bytes) : MergeEnt :=
  { m with
    bytes := (List.range 32).map fun i => if off ≤ i ∧ i < off + d.length then d.getD (i - off) 0 else m.bytes.getD i 0
    mask := m.mask ||| BitVec.ofNat 32 ((2 ^ d.length - 1) * 2 ^ off) }

/-- A narrow write of an LPDDR burst (R127). -/
def narrowLp (err : ReadErr) (c : Coord) (off : Nat) (d : Bytes) (s : State) : State :=
  let b := c.no s
  match mergeOf s.mem.merge b with
  | some m =>
    let m1 := m.put off d
    if m1.mask = 0xFFFFFFFF then writeBurst false c m1.bytes s
    else s.modMem fun x => { x with merge := mapFirst (fun y => decide (y.key = b)) (fun _ => m1) x.merge }
  | none =>
    let mine := mergesOf (c.ch / 4) s.mem.merge
    let s1 := if 64 ≤ mine.length then
        match mine with
        | o :: _ => mergeRmw err o (s.modMem fun x => { x with merge := mergeDrop x.merge o.key })
        | [] => s
      else s
    let e : MergeEnt := { key := b, bytes := zeros 32, seq := s.sc }
    s1.modMem fun x => { x with merge := x.merge ++ [e.put off d], mergeSeq := x.mergeSeq + 1 }

/-! ### Tile-store words (R111, R126) -/

/-- What the check bits of a stored word report, the read's own differences first. -/
def wordMark (err : ReadErr) (s : State) (w : Nat) : Option SramKind :=
  match err.sr.find? fun e => decide (e.1 = w) with
  | some e => some e.2
  | none => (s.ts.marks.find? fun e => decide (e.1 = w)).map (·.2)

/-- The die and macro of a word address. -/
def macroOf (w : Nat) : Nat × Nat := (w * 8 / 2 ^ 29, w * 8 % 2 ^ 29 / 524288)

/-- The pattern that poison inverts in the low 15 check bits of an SRAM word (R126). It is also the word's syndrome in `UE.SYND`, the
difference between the stored check bits and those of the data (log entry 77, DEDUCED). -/
def sramPoison : Nat := 0x5A5A

/-- What one word's check bits make the module record: corrected, uncorrectable with kind 4, poisoned with kind 7
(R126, R131, R132). The BCH syndrome of an error is not given: a free value (log entry 3, DESIGN CHOICE). -/
def noteWord (kind : Nat) (q : MemSrc) (w : Nat) (k : SramKind) (s : State) : State :=
  let c : Coord := ⟨0, 0, 0, 0, 0⟩
  match k with
  | .correctable => memCorrected q.src (le 1 1 ++ le 1 (macroOf w).1 ++ le 2 (macroOf w).2) s
  | .uncorrectable =>
    let syn := freeVal 15 s
    raise evMemUncorrectable q.src (uePayload (tileMpa (w * 8)) c kind syn.toNat q s) (useFree s)
  | .poisoned => raise evPoisonRead q.src (uePayload (tileMpa (w * 8)) c 7 sramPoison q s) s

/-- A mark that makes a word unusable. -/
def SramKind.unusable (k : SramKind) : Bool := decide (k ≠ .correctable)

/-- The marked words of an area, lowest first. -/
def markedIn (err : ReadErr) (s : State) (a n : Nat) : List (Nat × SramKind) :=
  let ws := (err.sr.map (·.1) ++ s.ts.marks.map (·.1)).eraseDups.filter fun w => decide (a / 8 ≤ w) && decide (w < (a + n + 7) / 8)
  ws.filterMap fun w => (wordMark err s w).map fun k => (w, k)

/-- One byte of tile store with the merge entry's byte over it (R127). -/
def tsByte (s : State) (a : Nat) : Byte :=
  match mergeOf s.ts.merge (a / 8) with
  | some m => if m.mask.getLsbD (a % 8) then m.bytes.getD (a % 8) 0 else tget 0 s.ts.cells a
  | none => tget 0 s.ts.cells a

/-- Read n bytes of tile store at die × 2²⁹ + offset: words that cannot be used read as zero (R131). Answers the bytes,
whether a word could not be used, and the state with the records. -/
def tsRead (err : ReadErr) (kind : Nat) (q : MemSrc) (a n : Nat) (s : State) : Bytes × Bool × State :=
  let marked := markedIn err s a n
  let bad := (marked.filter fun e => e.2.unusable).map (·.1)
  let d := (List.range n).map fun i => if decide ((a + i) / 8 ∈ bad) then 0 else tsByte s (a + i)
  (d, !bad.isEmpty, marked.foldl (fun t e => noteWord kind q e.1 e.2 t) s)

/-- The bytes of tile store from a on without any check: what a reader of the state sees. -/
def tsPeek (s : State) (a n : Nat) : Bytes := (List.range n).map fun i => tsByte s (a + i)

/-- Write whole words into tile store: marks and merge entries of the words go (R126, R127). -/
def tsWhole (a : Nat) (d : Bytes) (s : State) : State :=
  let inside := fun w => decide (a / 8 ≤ w) && decide (w < (a + d.length + 7) / 8)
  s.modTs fun t =>
    { t with cells := tsets 0 t.cells a d, marks := t.marks.filter fun e => !inside e.1,
             merge := t.merge.filter fun m => !inside m.key }

/-- Write an entry of the SRAM merge buffer by read-modify-write (R127). -/
def tsRmw (err : ReadErr) (m : MergeEnt) (s : State) : State :=
  let old := (List.range 8).map fun i => tget 0 s.ts.cells (8 * m.key + i)
  let put := fun (t : State) => t.modTs fun x => { x with cells := tsets 0 x.cells (8 * m.key) (overlay m old) }
  let mark := fun (k : List (Nat × SramKind)) (t : State) => t.modTs fun x => { x with marks := (x.marks.filter fun e => decide (e.1 ≠ m.key)) ++ k }
  match wordMark err s m.key with
  | none => put s
  | some .correctable => mark [] (put (noteWord 3 { kind := 3 } m.key .correctable s))
  | some k => mark [(m.key, .poisoned)] (put (noteWord 3 { kind := 3 } m.key k s))

/-- A narrow write of a tile-store word (R127): 16 entries for the write port of each die (log entry 8, DEDUCED). -/
def narrowTs (err : ReadErr) (w off : Nat) (d : Bytes) (s : State) : State :=
  match mergeOf s.ts.merge w with
  | some m =>
    let m1 := m.put off d
    if m1.mask.toNat % 256 = 255 then tsWhole (8 * w) (m1.bytes.take 8) s
    else s.modTs fun x => { x with merge := mapFirst (fun y => decide (y.key = w)) (fun _ => m1) x.merge }
  | none =>
    let mine := s.ts.merge.filter fun m => decide (m.key / 2 ^ 26 = w / 2 ^ 26)
    let s1 := if 16 ≤ mine.length then
        match mine with
        | o :: _ => tsRmw err o (s.modTs fun x => { x with merge := mergeDrop x.merge o.key })
        | [] => s
      else s
    let e : MergeEnt := { key := w, bytes := zeros 32, seq := s.sc }
    s1.modTs fun x => { x with merge := x.merge ++ [e.put off d] }

/-- A narrow write, where there is anything to write. -/
def narrowIf (err : ReadErr) (a : Nat) (d : Bytes) (s : State) : State := if d.isEmpty then s else narrowTs err (a / 8) (a % 8) d s

/-- The bytes of a write from a place on that lie before its first whole word, and how many lie in whole words. -/
def wordSplit (a n : Nat) : Nat × Nat :=
  let h := min n ((8 - a % 8) % 8)
  (h, (n - h) / 8 * 8)

/-- Write bytes into tile store: whole words as they are, what is narrower through the merge buffer (R127). -/
def tsWrite (err : ReadErr) (a : Nat) (d : Bytes) (s : State) : State :=
  let p := wordSplit a d.length
  narrowIf err (a + p.1 + p.2) (d.drop (p.1 + p.2)) (tsWhole (a + p.1) (part d p.1 p.2) (narrowIf err a (d.take p.1) s))

/-- Write every entry of the merge buffers (R127: job load, unload, warm start, entry to Awake). -/
def mergeFlush (err : ReadErr) (s : State) : State :=
  let s1 := s.mem.merge.foldl (fun t m => mergeRmw err m t) (s.modMem fun x => { x with merge := [] })
  s1.ts.merge.foldl (fun t m => tsRmw err m t) (s1.modTs fun x => { x with merge := [] })

/-! ### Access by module address -/

/-- One piece of an access: its address and length, within one code word of size k. -/
def pieces (k : Nat) : Nat → Nat → Nat → List (Nat × Nat)
  | 0, _, _ => []
  | _, _, 0 => []
  | f + 1, a, n =>
    let m := min n (k - a % k)
    (a, m) :: pieces k f (a + m) (n - m)

/-- The code words that an access touches: 32 bytes in LPDDR, 8 in tile store. -/
def accessPieces (a n : Nat) : List (Nat × Nat) :=
  let k := if a < 0x60000000000 then 32 else 8
  pieces k (n / k + 2) a n

/-- HOST_ACCESS_HOLE for an access to a hole, once for each granule that it touches (R121). -/
def noteHole (a src hxch : Nat) (s : State) : State :=
  raise evHostAccessHole (if src = 0xFFFF then srcSv else src) (le 8 a ++ le 2 src ++ le 1 hxch) s

/-- Count the bursts of a source by channel (R118). -/
def hotCount (source ch : Nat) (s : State) : State :=
  s.modMem fun m => { m with hot := tmod 0 m.hot (source * 256 + ch) (· + 1), hostSeqs := m.hostSeqs + 1 }

/-- How an access ended. -/
structure AccRes where
  /-- Bytes read so far. -/
  data : List (BitVec 8) := []
  /-- An uncorrectable or poisoned code word was met. -/
  bad : Bool := false
  deriving DecidableEq, Repr

/-- Read one piece. A hole reads as 0xFF (R121); after a bad code word nothing more is read (R131). -/
def readPiece (err : ReadErr) (q : MemSrc) (source : Option Nat) (r : AccRes × State) (p : Nat × Nat) : AccRes × State :=
  if r.1.bad then r
  else match place p.1 with
    | .lpddr die off =>
      let c := toCoord r.2.mem.ikey.toNat die off
      if chanUp r.2 c.ch then
        let s1 := match source with
          | some h => hotCount h c.ch r.2
          | none => r.2
        match readBurst err c q s1 with
        | (some d, t) => ({ r.1 with data := r.1.data ++ part d (off % 32) p.2 }, t)
        | (none, t) => ({ r.1 with bad := true }, t)
      else
        ({ r.1 with data := r.1.data ++ List.replicate p.2 0xFF },
         if off % 256 < 32 ∨ r.1.data = [] then noteHole p.1 q.stn q.hxch r.2 else r.2)
    | .tile die off =>
      match tsRead err 4 q (die * 2 ^ 29 + off) p.2 r.2 with
      | (d, false, t) => ({ r.1 with data := r.1.data ++ d }, t)
      | (_, true, t) => ({ r.1 with bad := true }, t)
    | .unmapped => r

/-- Read n bytes at a mapped module address. -/
def mpaRead (err : ReadErr) (q : MemSrc) (source : Option Nat) (a n : Nat) (s : State) : AccRes × State :=
  (accessPieces a n).foldl (readPiece err q source) ({}, s)

/-- Write one piece. A write to a hole is discarded (R121). -/
def writePiece (err : ReadErr) (q : MemSrc) (source : Option Nat) (start : Nat) (data : Bytes) (s : State) (p : Nat × Nat) : State :=
  let d := part data (p.1 - start) p.2
  match place p.1 with
  | .lpddr die off =>
    let c := toCoord s.mem.ikey.toNat die off
    if chanUp s c.ch then
      let s1 := match source with
        | some h => hotCount h c.ch s
        | none => s
      if p.2 = 32 then writeBurst false c d s1 else narrowLp err c (off % 32) d s1
    else if off % 256 < 32 ∨ p.1 = start then noteHole p.1 q.stn q.hxch s else s
  | .tile die off =>
    tsWrite err (die * 2 ^ 29 + off) d s
  | .unmapped => s

/-- Write bytes at a mapped module address. -/
def mpaWrite (err : ReadErr) (q : MemSrc) (source : Option Nat) (a : Nat) (data : Bytes) (s : State) : State :=
  (accessPieces a data.length).foldl (writePiece err q source a data) s

/-! ### LPDDR timing (R44, R57, R58) -/

/-- LPDDR timing in cc; tBURST in ps with the clock, for whole runs. -/
structure LpCc where
  /-- tRCD. -/
  rcd : Nat
  /-- tRP. -/
  rp : Nat
  /-- tRAS. -/
  ras : Nat
  /-- tRC. -/
  rc : Nat
  /-- tRRD. -/
  rrd : Nat
  /-- tFAW. -/
  faw : Nat
  /-- tCCD. -/
  ccd : Nat
  /-- tRL. -/
  rl : Nat
  /-- tWL. -/
  wl : Nat
  /-- tRTP. -/
  rtp : Nat
  /-- tWR. -/
  wr : Nat
  /-- tWTR. -/
  wtr : Nat
  /-- tRFCab. -/
  rfcab : Nat
  /-- tRFCpb. -/
  rfcpb : Nat
  /-- tBURST in ps. -/
  burst : Nat
  /-- Clock in 10 MHz. -/
  f : Nat
  deriving DecidableEq, Repr

/-- ⌈t × f / 1,000⌉ for a time in ps and a clock of f × 10 MHz (R57). -/
def psCc (f ps : Nat) : Nat := ceilDiv (ps * f) 100000

/-- The timing of a package at a clock (R44, R57). -/
def lpCc (pkg f : Nat) : LpCc :=
  let t := fun i => psCc f (Config.lpTiming pkg i)
  { rcd := t 0, rp := t 1, ras := t 2, rc := t 3, rrd := t 4, faw := t 5, ccd := t 6, rl := t 7, wl := t 8, rtp := t 10,
    wr := t 11, wtr := t 12, rfcab := t 13, rfcpb := t 14, burst := Config.lpTiming pkg 9, f := f }

/-- ⌈n × tBURST⌉ in cc. -/
def LpCc.run (p : LpCc) (n : Nat) : Nat := psCc p.f (n * p.burst)

/-- LPDDR commands of a sub-channel. -/
inductive LpCmd where
  | act (bank row : Nat)
  | rd (bank n : Nat)
  | wr (bank n : Nat)
  | pre (bank : Nat)
  | prea
  | refab
  | refpb (bank : Nat)
  deriving DecidableEq, Repr

/-- The latest of several bank times. -/
def maxBank (t : List (Nat × Nat)) : Nat := t.foldl (fun m e => max m e.2) 0

/-- The earliest cc of a command after the commands before it; none where the bank's row does not allow it at all
(R58; which parameter bounds which command: log entry 7, DESIGN CHOICE). -/
def lpEarliest (p : LpCc) (t : LpT) : LpCmd → Option Nat
  | .act b _ =>
    if tget 0 t.open_ b ≠ 0 then none
    else some (max (max (tget 0 t.bankAt b) t.actAt) (max t.refAt (if t.acts.length = 4 then t.acts.getD 3 0 + p.faw else 0)))
  | .rd b _ => if tget 0 t.open_ b = 0 then none else some (max (max (tget 0 t.colAt b) t.busAt) (max t.rdAt t.refAt))
  | .wr b _ => if tget 0 t.open_ b = 0 then none else some (max (max (tget 0 t.colAt b) t.busAt) t.refAt)
  | .pre b => some (max (tget 0 t.preAt b) t.refAt)
  | .prea => some (max (maxBank t.preAt) t.refAt)
  | .refab => if t.open_ = [] then some (max (maxBank t.bankAt) t.refAt) else none
  | .refpb b => if tget 0 t.open_ b = 0 then some (max (tget 0 t.bankAt b) t.refAt) else none

/-- All banks at a value. -/
def allBanks (v : Nat) : List (Nat × Nat) := (List.range 16).map fun b => (b, v)

/-- The timing after a command at cc x. -/
def lpAfter (p : LpCc) (t : LpT) (x : Nat) : LpCmd → LpT
  | .act b r =>
    { t with open_ := tset 0 t.open_ b (r + 1), want := tset 0 t.want b (r + 1), colAt := tset 0 t.colAt b (x + p.rcd),
             preAt := tset 0 t.preAt b (x + p.ras), bankAt := tset 0 t.bankAt b (x + p.rc), actAt := x + p.rrd,
             acts := (x :: t.acts).take 4 }
  | .rd b n =>
    { t with busAt := x + max (p.run n) p.ccd, preAt := tset 0 t.preAt b (max (tget 0 t.preAt b) (x + p.run n + p.rtp)) }
  | .wr b n =>
    { t with busAt := x + max (p.run n) p.ccd, rdAt := x + p.run n + p.wtr,
             preAt := tset 0 t.preAt b (max (tget 0 t.preAt b) (x + p.run n + p.wr)) }
  | .pre b =>
    { t with open_ := tset 0 t.open_ b 0, want := tset 0 t.want b 0, bankAt := tset 0 t.bankAt b (max (tget 0 t.bankAt b) (x + p.rp)) }
  | .prea => { t with open_ := [], want := [], bankAt := (List.range 16).map fun b => (b, max (tget 0 t.bankAt b) (x + p.rp)) }
  | .refab => { t with refAt := x + p.rfcab, bankAt := allBanks (x + p.rfcab) }
  | .refpb b => { t with bankAt := tset 0 t.bankAt b (x + p.rfcpb) }

/-- The banks of a list are precharged when a refresh finds them open: the earliest cc at which the refresh may go, and
the timing with the precharges made; the rows stay wanted (R66). -/
def lpCloseFor (p : LpCc) (t : LpT) (now : Nat) : LpT :=
  if t.open_ = [] then t
  else
    let x := max now (max (maxBank t.preAt) t.refAt)
    { t with open_ := [], bankAt := (List.range 16).map fun b => (b, max (tget 0 t.bankAt b) (if tget 0 t.open_ b = 0 then 0 else x + p.rp)) }

end Sys2Proof.Machine
end

