-- ==== Sys2Proof/Machine/LoadWords.lean ====
section
/-!
DEFINITION. The checks of R69 that read words and binding entries: stations (check 6), opcodes, operands and bindings
(check 7), and the expansion of REPEAT (check 8), with the schedule of a station's words (R57).
-/

namespace Sys2Proof.Machine

/-- Where a check of R69 fails: station and word index, as far as they apply. -/
structure LoadFail where
  /-- Station identifier, or 0xFFFF. -/
  stn : Nat := 0xFFFF
  /-- Word index, or 0xFFFF. -/
  idx : Nat := 0xFFFF
  deriving DecidableEq, Repr

/-- The first failure that a list of tests finds. -/
def firstFail : List (Option LoadFail) → Option LoadFail
  | [] => none
  | some x :: _ => some x
  | none :: t => firstFail t

/-- A test that must hold. -/
def need (c : Bool) (x : LoadFail := {}) : Option LoadFail := if c then none else some x

/-! ### Stations (check 6) -/

/-- Stations that the consumer mask of a context names (R34). -/
def maskStations (st : BitVec 20) (c : StreamCtx) : List (BitVec 16) :=
  let d := strmDie st
  c.consumers.filterMap fun k =>
    if k < 32 then some (mkStn d 1 k) else if k < 48 then some (mkStn d 2 (k - 32)) else if k < 52 then some (mkStn d 3 (k - 48))
    else if k < 68 then some (mkStn d 4 (k - 52)) else if k < 72 then some (mkStn d 5 (k - 68)) else if k = 72 then some (mkStn d 6 0)
    else none

/-- A station may be named: it exists and is available, its die included (R18, R19, R385). -/
def stnOk (s : State) (x : BitVec 16) : Bool := stnValid x && !decide (x ∈ s.ident.unavail) && !decide (stnDie x ∈ s.pwr.dieOut)

/-- Every station identifier that the image carries: of sections, contexts and windows. -/
def check6 (s : State) (b : Bytes) (i : Image) : Option LoadFail :=
  firstFail (
    ((sects b).map fun x =>
      if x.ty = 1 ∨ x.ty = 2 ∨ x.ty = 5 then need (stnOk s (BitVec.ofNat 16 x.stn) && decide (x.stn < 65536)) { stn := x.stn }
      else need (decide (x.stn = 0xFFFF)) { stn := x.stn }) ++
    (i.ctxs.map fun c => need (stnOk s c.2.prodStn) { stn := c.2.prodStn.toNat }) ++
    (i.ctxs.map fun c => firstFail ((maskStations c.1 c.2).map fun x => need (stnOk s x) { stn := x.toNat })) ++
    (i.recess.map fun w => need (stnOk s w.stn) { stn := w.stn.toNat }))

/-! ### Operands and bindings (check 7) -/

/-- Sub-operations that VEW knows (R94). -/
def vewOk (k : Nat) : Bool := decide (k ≤ 0x0A) || decide (k = 0x10)

/-- Input ports that a VEW sub-operation reads (R94). -/
def vewPorts (k : Nat) : Nat := if k = 0x03 ∨ k = 0x09 then 3 else if k = 0x06 ∨ k = 0x07 ∨ k = 0x08 then 1 else 2

/-- Operand values in their ranges (R38, R54, R55, R78, R94, R102). -/
def valuesOk (phases : Nat) (w : BitVec 128) : Bool :=
  let a := iwArg w
  let fr := match iwFmtRound w with
    | some (f, r) => decide (fmtBits f ≠ 0) && decide (r ≤ 5)
    | none => true
  fr && (match iwOpc w with
    | 0x01 => decide (iwOff w = 0) && decide (1 ≤ a 0) && decide (1 ≤ a 2)
    | 0x02 => decide (1 ≤ a 1)
    | 0x03 => decide (1 ≤ a 2)
    | 0x05 => decide (1 ≤ a 1)
    | 0x20 => vewOk (a 0)
    | 0x21 => decide (a 0 ≤ 4)
    | 0x26 => decide (a 0 ≤ 0x0C)
    | 0x30 => decide (a 1 ≤ 2)
    | 0x41 => decide (1 ≤ a 4) && decide (a 4 ≤ 64)
    | 0x42 => decide (1 ≤ a 4) && decide (a 4 ≤ 64)
    | 0x70 => decide (a 0 < phases)
    | _ => true)

/-- The binding operands that a word must have: none of them may be 63 (R55, R94). -/
def mustBind (w : BitVec 128) : List Nat :=
  let a := iwArg w
  match iwOpc w with
  | 0x06 => [a 0]
  | 0x10 => [a 0, a 1] ++ (if bit (iwMod w) 1 then [a 3] else [])
  | 0x11 => [a 1]
  | 0x20 => [a 1, a 2, a 3].take (vewPorts (a 0)) ++ [a 4]
  | 0x21 => [a 1, a 2]
  | 0x22 => [a 0, a 1]
  | 0x23 => [a 0, a 1]
  | 0x24 => [a 0, a 1, a 2]
  | 0x25 => [a 0, a 1, a 2]
  | 0x26 => [a 1, a 2]
  | 0x31 => [a 1]
  | 0x32 => [a 1]
  | 0x33 => [a 0, a 1]
  | 0x41 => [a 5]
  | 0x42 => [a 5]
  | 0x50 => [a 0]
  | 0x51 => [a 0, a 1]
  | 0x60 => [a 1, a 2]
  | 0x61 => [a 1, a 2]
  | _ => []

/-- Every binding operand that a word uses. -/
def allBind (w : BitVec 128) : List Nat :=
  iwInputs w ++ (iwOutput w).toList ++ (if iwOpc w = 0x06 then [iwArg w 0] else [])

/-- Every binding operand that a word names: an MMA without END names an O that it does not use (R55). -/
def namedBind (w : BitVec 128) : List Nat := allBind w ++ (if iwOpc w = 0x10 then [iwArg w 3] else [])

/-- Same shape of elements: rows and columns. -/
def sameDims (x y : Shape) : Bool := decide (x.rows = y.rows) && decide (x.cols = y.cols)

/-- I1 or I2 against I0: the same shape, or one row or one column (R93). -/
def broadcasts (i0 x : Shape) : Bool :=
  (decide (x.rows = i0.rows) || decide (x.rows = 1)) && (decide (x.cols = i0.cols) || decide (x.cols = 1))

/-- The shape that VRED gives: a column of one element per row, or a row (R94). -/
def vredDims (axis : Nat) (t : Shape) : Nat × Nat := if axis = 0 then (t.rows, 1) else (1, t.cols)

/-- The shape, layout and format of EXPMAX's output (R99). -/
def expmaxOut (m : Nat) (t : Shape) : Shape :=
  if bit m 1 then ⟨0x04, t.rows, t.cols, t.layout, 0, 0⟩
  else if !bit m 0 then ⟨0x04, 1, 1, 0, 0, 0⟩
  else if t.place = 2 then ⟨0x04, ceilDiv t.rows 32, t.cols, 1, 0, 0⟩
  else ⟨0x04, t.rows, ceilDiv t.cols 32, 0, 0, 0⟩

/-- Grid mode 1 or 2. -/
def gridded (t : Shape) : Bool := decide (t.gridMode = 1) || decide (t.gridMode = 2)

/-- An index tile of VGATHER and VSCATTER: a plain floating-point format or INT8 (R463). -/
def indexFmt (f : Nat) : Bool := decide (0x01 ≤ f) && decide (f ≤ 0x09)

/-- The rules that tie a word's entries to one another (R86, R90, R93, R94, R99, R100, R461, R463, R464). -/
def shapesOk (w : BitVec 128) (sh : Nat → Shape) : Bool :=
  let a := iwArg w
  match iwOpc w with
  | 0x10 =>
    let x := sh (a 0)
    let y := sh (a 1)
    decide (x.cols = y.rows) && (!fmtMx x.format || decide (x.place = 1)) && (!fmtMx y.format || decide (y.place = 2)) &&
      (decide (a 2 = 63) || (decide ((sh (a 2)).rows = x.rows) && decide ((sh (a 2)).cols = y.cols))) &&
      (!bit (iwMod w) 1 || (decide ((sh (a 3)).rows = x.rows) && decide ((sh (a 3)).cols = y.cols) && decide ((sh (a 3)).format = a 5))) &&
      (!(bit (iwMod w) 0 && isXs (a 5)) || (decide (a 2 ≠ 63) && decide ((sh (a 2)).format = a 5) && gridded (sh (a 2))))
  | 0x11 => decide ((sh (a 1)).format = a 2)
  | 0x20 =>
    let x := sh (a 1)
    let o := sh (a 4)
    decide (o.format = a 5) && sameDims o x && ((List.range (vewPorts (a 0))).all fun k => broadcasts x (sh (a (k + 1)))) &&
      (if a 0 = 0x10 then
        isXs (sh (a 2)).format && gridded (sh (a 2)) && (fltOf x.format).isSome && decide (o.format = (sh (a 2)).format) &&
          decide (o.gridMode = (sh (a 2)).gridMode) && decide (o.place = (sh (a 2)).place)
       else !isXs o.format)
  | 0x21 => decide ((sh (a 2)).format = a 4) && decide (((sh (a 2)).rows, (sh (a 2)).cols) = vredDims (a 3) (sh (a 1))) && !isXs (a 4)
  | 0x22 => decide ((sh (a 1)).format = a 2) && sameDims (sh (a 0)) (sh (a 1)) && !isXs (a 2)
  | 0x23 =>
    let x := sh (a 0)
    decide (sh (a 1) = { x with rows := x.cols, cols := x.rows, place := if x.place = 1 then 2 else if x.place = 2 then 1 else 0 })
  | 0x24 =>
    let x := sh (a 0)
    let y := sh (a 1)
    let o := sh (a 2)
    indexFmt y.format && sameDims o y && decide (o.layout = y.layout) && decide (o.format = x.format) &&
      (!isXs x.format || (decide (x.gridMode = 1) && decide (o.gridMode = 1)))
  | 0x25 =>
    let x := sh (a 0)
    let y := sh (a 1)
    let o := sh (a 2)
    indexFmt y.format && sameDims x y && decide (x.layout = y.layout) && sameDims o x && decide (o.layout = x.layout) &&
      decide (o.format = x.format) && (!isXs x.format || (decide (x.gridMode = 1) && decide (o.gridMode = 1)))
  | 0x26 => decide ((sh (a 2)).format = a 3) && sameDims (sh (a 1)) (sh (a 2)) && !isXs (a 3)
  | 0x32 => decide ((sh (a 1)).format = a 2)
  | 0x33 =>
    let x := sh (a 0)
    let o := sh (a 1)
    decide ({ o with place := 0, gridMode := 0 } = expmaxOut (iwMod w) x) &&
      (!bit (iwMod w) 1 || (decide (x.format = 0x04) && decide (x.count ≤ 2048)))
  | _ => true

/-- What START has placed in the accumulators of an MX station: the entry of C by accumulator, for a window placed for XS (R90). -/
abbrev AccMap := List (Nat × Shape)

/-- An XS output of a window that is placed for XS carries C's grid mode, placement and shape (R90, R464). -/
def accOutOk (m : AccMap) (acc : Nat) (o : Shape) : Bool :=
  match m.find? fun q => decide (q.1 = acc) with
  | some q => !isXs o.format || (decide (o.gridMode = q.2.gridMode) && decide (o.place = q.2.place) && sameDims o q.2)
  | none => true

/-- Follow the accumulators of an MX program in its order: the first word whose XS output does not carry the grids of its window
(R90; log entry 82, DEDUCED). -/
def badAcc (sh : Nat → Shape) : AccMap → List Ew → Option Nat
  | _, [] => none
  | m, e :: t =>
    let a := iwArg e.w
    if iwOpc e.w = 0x10 then
      let m1 := if bit (iwMod e.w) 0 then (m.filter fun q => decide (q.1 ≠ a 4)) ++ (if isXs (a 5) then [(a 4, sh (a 2))] else []) else m
      if bit (iwMod e.w) 1 then
        if accOutOk m1 (a 4) (sh (a 3)) then badAcc sh (m1.filter fun q => decide (q.1 ≠ a 4)) t else some e.idx
      else badAcc sh m1 t
    else if iwOpc e.w = 0x11 then
      if accOutOk m (a 0) (sh (a 1)) then badAcc sh (m.filter fun q => decide (q.1 ≠ a 0)) t else some e.idx
    else badAcc sh m t

/-- Binding entry bytes: reserved bits zero, no reserved value, a tile that obeys R24 (R464). -/
def bindOk (e : Bytes) : Bool :=
  decide (rd e 0 4 < 2 ^ 20) && decide (rd e 5 1 < 64) && decide (rd e 6 2 < 512) && decide (rd e 8 2 < 512) && decide (rd e 10 6 = 0) &&
    (readBinding e).shape.valid

/-- The shape of entry k of a station's binding table. -/
def entryShape (i : Image) (stn : BitVec 16) (k : Nat) : Shape :=
  match (bindsOf i stn)[k]? with
  | some b => b.shape
  | none => ⟨0, 0, 0, 0, 0, 0⟩

/-- One word of a program (house: of a housekeeping track) passes check 7. -/
def wordOk (i : Image) (house : Bool) (stn : BitVec 16) (w : BitVec 128) : Bool :=
  let bs := bindsOf i stn
  let sh := entryShape i stn
  match iwRow (iwOpc w) with
  | none => false
  | some r =>
    decide (stnKind stn ∈ r.kinds) && iwClean w r && valuesOk i.phases.length w &&
      (if house then decide (iwOpc w ∈ [0x00, 0x01, 0x45, 0x46]) else !decide (iwOpc w ∈ [0x45, 0x46])) &&
      (mustBind w).all (fun k => decide (k < bs.length)) && (namedBind w).all (fun k => decide (k = 63) || decide (k < bs.length)) && shapesOk w sh

/-- The first word of a program that fails. -/
def badWord (i : Image) (house : Bool) (p : BitVec 16 × List (BitVec 128)) : Option LoadFail :=
  ((number p.2).find? fun e => !wordOk i house p.1 e.2).map fun e => { stn := p.1.toNat, idx := e.1 }

/-- An entry of the context table has its reserved fields and the fields marked HW zero (R32, R33, R460). -/
def ctxClean (e : Bytes) : Bool :=
  let v := rd e 8 64
  decide (rd e 0 4 < 2 ^ 20) && decide (rd e 4 4 = 0) && decide (fld v 0 115 = 0) && decide (fld v 132 32 = 0) &&
    decide (fld v 212 64 = 0) && decide (fld v 504 4 = 0) && decide (fld v 509 3 = 0) && decide (fld v 332 5 = 0) && decide (fld v 380 5 = 0)

/-- An entry of the sync object table has its reserved fields zero (R37, R460). -/
def syncClean (e : Bytes) : Bool := decide (rd e 2 6 = 0) && decide (fld (rd e 8 8) 56 8 = 0)

/-- The entries of a Rote seed section have bytes 4 to 7 and bits 31:18 of each bin word zero (R460). -/
def roteClean : Nat → Bytes → Bool
  | 0, _ => true
  | f + 1, b =>
    if b.length < 8 then true
    else
      let n := rd b 2 2
      decide (rd b 4 4 = 0) && ((List.range n).all fun i => decide (rd b (8 + 4 * i) 4 < 2 ^ 18)) && roteClean f (b.drop (8 + 4 * n))

/-- Check 7 of R69. The reserved fields that R460 has zero are its own: it names no other check for them (log entry 69, DEDUCED). -/
def check7 (b : Bytes) (i : Image) : Option LoadFail :=
  firstFail (
    [need (decide (ofLe (part b 130 126) = 0))] ++
    ((sectsOf b 2).map fun x => need ((chunks 16 (x.len / 16) (x.bytes b)).all bindOk) { stn := x.stn }) ++
    ((sectsOf b 3).map fun x => need ((chunks 72 (x.len / 72) (x.bytes b)).all ctxClean)) ++
    ((sectsOf b 4).map fun x => need ((chunks 16 (x.len / 16) (x.bytes b)).all syncClean)) ++
    ((sectsOf b 9).map fun x => need (roteClean x.len (x.bytes b))) ++
    ((sectsOf b 6).map fun x => need ((chunks 16 (x.len / 16) (x.bytes b)).all fun e => decide (rd e 12 4 = 0))) ++
    ((sectsOf b 8).map fun x => need (decide (ofLe (part (x.bytes b) 1 15) = 0))) ++
    ((sectsOf b 9).map fun _ => need (i.rote.all fun r => decide (r.engine ≤ 5) && decide (r.slot < 64))) ++
    i.programs.map (badWord i false) ++ i.house.map (badWord i true) ++
    i.programs.map fun p =>
      if stnKind p.1 = 1 then (badAcc (entryShape i p.1) [] (expanded p.2 ++ expanded p.2)).map fun k => { stn := p.1.toNat, idx := k } else none)

/-! ### The schedule of a station's words (R57) -/

/-- One scheduled word: what it occupies, and when. -/
structure Slot where
  /-- Station. -/
  stn : BitVec 16
  /-- The expanded word. -/
  e : Ew
  /-- It is a housekeeping word. -/
  house : Bool
  /-- End of its occupancy of its unit. -/
  occ : Nat
  /-- Its completion (R59). -/
  fin : Nat
  /-- Its unit: 0 none, 1 the station's own, 2 + a link or HX channel, 100 + a sub-channel. -/
  unit : Nat
  deriving DecidableEq, Repr

/-- The channel and sub-channel of an MM word (R55, R109). -/
def mmCh (stn : BitVec 16) (w : BitVec 128) : Nat × Nat := (64 * stnDie stn + 4 * stnIndex stn + iwArg w 0, iwArg w 1)

/-- The package of an MM (R109). -/
def mmPkg (stn : BitVec 16) : Nat := 16 * stnDie stn + stnIndex stn

/-- The width and cell time for a link of this module in the fabric profile (R45). -/
def linkWidth (s : State) (fibre link : Nat) : Nat × Nat :=
  match s.prof.fab with
  | some p =>
    (((p.links.find? fun l => decide (l.a = moduleId s) && decide (l.aFibre.toNat = fibre) && decide (l.link.toNat = link)).map (·.width)).getD 32, p.tCell)
  | none => (32, 2725)

/-- Occupancy of a SEND or SUMPASS of so many cells that issues at a cc of the period: its link's width and cell time, and for a
fast-plane link the slots that name it (R57, R208). -/
def txOcc (s : State) (i : Image) (stn : BitVec 16) (link cc cells : Nat) : Nat :=
  let f := 4 * stnDie stn + stnIndex stn
  let l := linkWidth s f link
  match (if 12 ≤ f then i.slots else none) with
  | some t => fastOcc (oppF i) i.scc (fastSlots i t f link (64 * (if i.pcc ≤ cc then i.stretchNs else i.periodNs).toNat)) cc cells l.1
  | none => sendOcc (oppF i) l.2 cells l.1

/-- Occupancy, completion and unit of a word that issues at a cc of the period, from its binding entries (R57). -/
def timesOf (s : State) (i : Image) (stn : BitVec 16) (cc : Nat) (w : BitVec 128) : Nat × Nat × Nat :=
  let bs := bindsOf i stn
  let sh := fun k => (bs[k]?).map Binding.shape
  let p := lpCc (mmPkg stn) (oppF i)
  let sub := 100 + iwArg w 0 * 2 + iwArg w 1
  match iwOpc w with
  | 0x40 => (1, p.rcd, 0)
  | 0x41 => (p.run (iwArg w 4), p.rl + p.run (iwArg w 4) + 32, sub)
  | 0x42 => (p.run (iwArg w 4), p.run (iwArg w 4), sub)
  | 0x43 => (1, p.rp, 0)
  | 0x44 => (1, p.rp, 0)
  | 0x45 => (p.rfcab, p.rfcab, sub)
  | 0x46 => (p.rfcpb, p.rfcpb, 0)
  | 0x50 =>
    let o := txOcc s i stn (iwArg w 1) cc (cellsOf (((sh (iwArg w 0)).map Shape.plen).getD 0))
    (o, o, 2 + iwArg w 1)
  | 0x51 =>
    let o := txOcc s i stn (iwArg w 2) cc (cellsOf (((sh (iwArg w 1)).map Shape.plen).getD 0))
    (o, o, 2 + iwArg w 2)
  | 0x60 => (1, 1, 2 + iwArg w 0)
  | 0x61 => (1, 1, 2 + iwArg w 0)
  | o =>
    if o < 0x10 ∨ o = 0x30 ∨ o = 0x70 then (1, 1, 0)
    else
      let t := tileOcc w ((iwInputs w).filterMap sh) ((iwOutput w).bind sh)
      (t.1, t.2, 1)

/-- The schedule of one program. -/
def slotsOf (s : State) (i : Image) (house : Bool) (p : BitVec 16 × List (BitVec 128)) : List Slot :=
  (expanded p.2).map fun e =>
    let t := timesOf s i p.1 e.off e.w
    { stn := p.1, e := e, house := house, occ := e.off + t.1, fin := e.off + t.2.1, unit := t.2.2 }

/-- Offsets rise strictly. -/
def rises : List Ew → Option Ew
  | a :: b :: t => if a.off < b.off then rises (b :: t) else some b
  | _ => none

/-- One program obeys R54: nesting, rising offsets, and ends within the period, or within the stretched length for a
housekeeping track. -/
def orderOf (s : State) (i : Image) (house : Bool) (p : BitVec 16 × List (BitVec 128)) : Option LoadFail :=
  if !nestOk (p.2.length + 1) 4 p.2 then some { stn := p.1.toNat }
  else match rises (expanded p.2) with
    | some e => some { stn := p.1.toNat, idx := e.idx }
    | none =>
      let lim := if house then i.scc else i.pcc
      ((slotsOf s i house p).find? fun x => decide (lim ≤ x.e.off) || decide (lim < x.occ) || decide (lim < x.fin)).map fun x =>
        { stn := p.1.toNat, idx := x.e.idx }

/-- Check 8 of R69. -/
def check8 (s : State) (i : Image) : Option LoadFail :=
  firstFail (i.programs.map (orderOf s i false) ++ i.house.map (orderOf s i true))

/-- Every work word's slot. -/
def workSlots (s : State) (i : Image) : List Slot := (i.programs.map (slotsOf s i false)).flatten

/-- Every housekeeping word's slot. -/
def houseSlots (s : State) (i : Image) : List Slot := (i.house.map (slotsOf s i true)).flatten

end Sys2Proof.Machine
end

