-- ==== Sys2Proof/Machine/LoadCheck.lean ====
section
/-!
DEFINITION. The checks of R69 in their order: identity, periods, contexts, sync objects, LPDDR timing, die links,
resources, slack, refresh coverage, Recess windows, fast-plane slots, stretch and power.
-/

namespace Sys2Proof.Machine

/-! ### Context and sync tables (checks 9 and 10) -/


/-- A forward entry obeys R33: kind 1 to another die, kind 2 on a fibre of the die over a link that the fabric profile
defines to the module named. -/
def fwdOk (s : State) (die : Nat) (f : Fwd) : Bool :=
  if f.kind = 1 then decide (f.die.toNat ≠ die) && decide (strmDie f.dstStream = f.die.toNat)
  else if f.kind = 2 then
    decide (f.fx.toNat / 4 = die) &&
      (match s.prof.fab with
       | some p => p.links.any fun l => decide (l.a = moduleId s) && decide (l.aFibre = f.fx) && decide (l.link = f.link) && decide (l.b = f.module)
       | none => false)
  else decide (f.kind ≠ 3)

/-- Bytes of a context's ring. -/
def ringBytes (c : StreamCtx) : Nat := 256 * c.slotSize.toNat * c.depth

/-- A ring lies in the usable tile store of its die (R32, R133). -/
def ringOk (s : State) (die : Nat) (c : StreamCtx) : Bool :=
  let a := 256 * c.bufBase.toNat
  decide (a + ringBytes c ≤ 2 ^ 29) &&
    s.mem.excluded.all fun m => decide (m / 1024 ≠ die) || apart a (ringBytes c) (m % 1024 * 524288) 524288

/-- The greatest tile that any binding entry names for a stream (R24, R464). -/
def streamPlen (i : Image) (st : BitVec 20) : Nat :=
  ((i.binds.map fun p => (p.2.filter fun b => decide (b.stream = st)).map fun b => b.shape.plen).flatten).foldl max 0

/-- A context obeys R31 to R34. -/
def ctxOk (s : State) (i : Image) (st : BitVec 20) (c : StreamCtx) : Bool :=
  let d := strmDie st
  decide (stnDie c.prodStn = d) && (!c.srcRemote || decide (stnKind c.prodStn = 5)) &&
    decide (c.consMask.toNat < 2 ^ 73) && (decide (d ≤ 1) || !bit c.consMask.toNat 72) &&
    (decide (c.consMask ≠ 0) || decide (c.fwd0.kind ≠ 0) || decide (c.fwd1.kind ≠ 0)) &&
    fwdOk s d c.fwd0 && fwdOk s d c.fwd1 && decide (1 ≤ c.slotSize.toNat) && decide (c.slotSize.toNat ≤ 257) &&
    decide (32 + streamPlen i st ≤ 256 * c.slotSize.toNat) && ringOk s d c &&
    (!c.syncEn || decide (c.syncId.toNat / 2 ^ 14 = d))

/-- The binding entry of the stream that an FX word serves, and the link it names: the I entry of a SEND, the O entry of
a SUMPASS (R210). -/
def servedBy (w : BitVec 128) : Option (Nat × Nat) :=
  if iwOpc w = 0x50 then some (iwArg w 0, iwArg w 1) else if iwOpc w = 0x51 then some (iwArg w 1, iwArg w 2) else none

/-- The fibre of an FX: four on each die, by index (R18). -/
def fxFibre (stn : BitVec 16) : Nat := 4 * stnDie stn + stnIndex stn

/-- Every (fibre, link, stream) that a word of the image serves, with the station and index of the word (R210). -/
def servedList (i : Image) : List ((Nat × Nat × Nat) × BitVec 16 × Nat) :=
  (i.programs.map fun p => (number p.2).filterMap fun w =>
    (servedBy w.2).map fun q =>
      ((fxFibre p.1, q.2, (((bindsOf i p.1)[q.1]?).map fun b => b.stream.toNat).getD (2 ^ 20)), p.1, w.1)).flatten

/-- Every (fibre, link, stream) of a kind 2 forward of the image. -/
def wanted (i : Image) : List (Nat × Nat × Nat) :=
  (i.ctxs.map fun c => ([c.2.fwd0, c.2.fwd1].filter fun f => decide (f.kind = 2)).map fun f =>
    (f.fx.toNat, f.link.toNat, c.1.toNat)).flatten

/-- Words and kind 2 forwards match each other (R210). -/
def servedOk (i : Image) : Option LoadFail :=
  firstFail [
    ((servedList i).find? fun x => !(wanted i).any fun y => decide (y = x.1)).map fun x => { stn := x.2.1.toNat, idx := x.2.2 },
    need ((wanted i).all fun y => (servedList i).any fun x => decide (x.1 = y))]

/-- Check 9 of R69. A station reaches a stream by its context on the station's own die: a binding entry that names one of another
die is refused here (R11, R31; log entry 70, DEDUCED). -/
def check9 (s : State) (i : Image) : Option LoadFail :=
  firstFail [
    need (noDup (i.ctxs.map (·.1.toNat))),
    firstFail (i.ctxs.map fun c => need (ctxOk s i c.1 c.2) { stn := c.2.prodStn.toNat }),
    need (pairwise (fun x y => decide (strmDie x.1 ≠ strmDie y.1) ||
      apart (256 * x.2.bufBase.toNat) (ringBytes x.2) (256 * y.2.bufBase.toNat) (ringBytes y.2)) i.ctxs),
    firstFail (i.binds.map fun p => need (p.2.all fun e => decide (strmDie e.stream = stnDie p.1)) { stn := p.1.toNat }),
    servedOk i]

/-- Check 10 of R69: no object twice, and none with `SO.SAT` set (R37, R460). -/
def check10 (b : Bytes) (i : Image) : Option LoadFail :=
  firstFail [
    need ((sectsOf b 4).all fun x => (chunks 16 (x.len / 16) (x.bytes b)).all fun e =>
      !bit (rd e 8 8) 55),
    need (noDup (i.syncs.map (·.1.toNat)))]

/-! ### LPDDR (check 11) -/

/-- Insert by offset, after equals. -/
def insertSlot (x : Slot) : List Slot → List Slot
  | [] => [x]
  | y :: t => if x.e.off < y.e.off then x :: y :: t else y :: insertSlot x t

/-- Sort by offset. -/
def sortSlots (l : List Slot) : List Slot := l.foldr insertSlot []

/-- The LPDDR command that an expanded word gives (R55). -/
def lpCmdOf (e : Ew) : Option LpCmd :=
  let a := iwArg e.w
  match iwOpc e.w with
  | 0x40 => some (.act e.actBank e.actRow)
  | 0x41 => some (.rd (a 2) (a 4))
  | 0x42 => some (.wr (a 2) (a 4))
  | 0x43 => some (.pre (a 2))
  | 0x44 => some .prea
  | 0x45 => some .refab
  | 0x46 => some (.refpb (a 2))
  | _ => none

/-- Run scheduled commands of one sub-channel, each with the cc at which it is scheduled: the first that comes before
the timing allows it, or that the state of its bank does not allow (R58). -/
def lpRun (p : LpCc) : LpT → List (Nat × Slot) → Option Slot
  | _, [] => none
  | t, (x, q) :: r =>
    match lpCmdOf q.e with
    | none => lpRun p t r
    | some c =>
      match lpEarliest p t c with
      | none => some q
      | some m => if m ≤ x then lpRun p (lpAfter p t x c) r else some q

/-- Two periods of a sub-channel's commands: a first one of the given length, then the next. -/
def twoPeriods (l : List Slot) (len pcc : Nat) : List (Nat × Slot) :=
  ((l.filter fun x => decide (x.e.off < len)).map fun x => (x.e.off, x)) ++
    ((l.filter fun x => decide (x.e.off < pcc)).map fun x => (x.e.off + len, x))

/-- A word lies within the geometry and targets a channel in service (R109, R110, R137). -/
def mmWordOk (s : State) (x : Slot) : Bool :=
  let a := iwArg x.e.w
  let o := iwOpc x.e.w
  if 0x40 ≤ o ∧ o ≤ 0x46 then
    chanUp s (mmCh x.stn x.e.w).1 &&
      (if o = 0x40 then decide (0 ≤ (a 3 : Int) + x.e.row) && decide (x.e.actRow < 98304)
       else if o = 0x41 ∨ o = 0x42 then decide (4 * a 3 + a 4 ≤ 256) else true)
  else true

/-- Check 11 of R69, for the slots of the image. -/
def check11 (s : State) (i : Image) (work house : List Slot) : Option LoadFail :=
  let all := (work ++ house).filter fun x => decide (stnKind x.stn = 4)
  let stns := (all.map (·.stn)).eraseDups
  firstFail (
    [(all.find? fun x => !mmWordOk s x).map fun x => { stn := x.stn.toNat, idx := x.e.idx }] ++
    (stns.map fun t => firstFail ((List.range 8).map fun k =>
      let l := sortSlots (all.filter fun x => decide (x.stn = t) && decide (iwArg x.e.w 0 * 2 + iwArg x.e.w 1 = k) && (lpCmdOf x.e).isSome)
      let p := lpCc (mmPkg t) (oppF i)
      ((lpRun p {} (twoPeriods l i.pcc i.pcc)).or (lpRun p {} (twoPeriods l i.scc i.pcc))).map fun x =>
        { stn := x.stn.toNat, idx := x.e.idx })))

/-! ### Die links and resources (checks 12 and 13) -/

/-- Bytes that one output use sends over the link from its die to another (R12). -/
def linkBytes (i : Image) (dst : Nat) (x : Slot) : Nat :=
  match (iwOutput x.e.w).bind fun k => (bindsOf i x.stn)[k]? with
  | none => 0
  | some b =>
    if iwOpc x.e.w = 0x41 ∧ iwArg x.e.w 6 ≠ 0 then 0
    else match i.ctxs.find? fun c => decide (c.1 = b.stream) with
      | none => 0
      | some c => 256 * c.2.slotSize.toNat * (([c.2.fwd0, c.2.fwd1].filter fun f => decide (f.kind = 1) && decide (f.die.toNat = dst)).length)

/-- Check 12 of R69 (R12): 4.0 TB/s is 4,000 bytes per ns. -/
def check12 (i : Image) (work : List Slot) : Option LoadFail :=
  need ((List.range 4).all fun a => (List.range 4).all fun c =>
    decide (((work.filter fun x => decide (stnDie x.stn = a)).map (linkBytes i c)).sum ≤ 4000 * i.periodNs.toNat))

/-- How long an LPDDR word keeps its sub-channel from any other word: the busy time of a run or an all-bank refresh, a housekeeping
word's from work words, and else the cc of the command (R57, R66). -/
def subBusy (x : Slot) (work : Bool) : Nat :=
  if x.house && work then x.fin - x.e.off else if iwOpc x.e.w = 0x41 ∨ iwOpc x.e.w = 0x42 ∨ iwOpc x.e.w = 0x45 then x.occ - x.e.off else 1

/-- Two words use one unit or sub-channel at once: a word's own unit, and a sub-channel that a run or refresh keeps busy (R57, R66,
R69). -/
def clash (x y : Slot) : Bool :=
  decide (x.stn = y.stn) &&
    (decide (x.e.off = y.e.off) ||
     (decide (x.unit ≠ 0) && decide (x.unit = y.unit) && !apart x.e.off (x.occ - x.e.off) y.e.off (y.occ - y.e.off)) ||
     ((lpCmdOf x.e).isSome && (lpCmdOf y.e).isSome && decide (iwArg x.e.w 0 * 2 + iwArg x.e.w 1 = iwArg y.e.w 0 * 2 + iwArg y.e.w 1) &&
       !apart x.e.off (subBusy x (!y.house)) y.e.off (subBusy y (!x.house))))

/-- The first slot that clashes with a later one. -/
def firstClash : List Slot → Option Slot
  | [] => none
  | x :: t =>
    match t.find? (clash x) with
    | some y => some y
    | none => firstClash t

/-- Check 13 of R69. -/
def check13 (work house : List Slot) : Option LoadFail :=
  (firstClash (work ++ house)).map fun x => { stn := x.stn.toNat, idx := x.e.idx }

/-! ### Slack and refresh coverage (checks 14 and 15) -/

/-- E: the latest completion of work words, and of housekeeping words and windows that start within the period
(R59). -/
def schedEnd (i : Image) (work house : List Slot) : Nat :=
  ((work.map (·.fin)) ++ ((house.filter fun x => decide (x.e.off < i.pcc)).map (·.fin)) ++
    ((i.recess.filter fun w => decide (w.start < i.pcc)).map fun w => w.start + w.len)).foldl max 0

/-- S_min (R59). -/
def slackMin (i : Image) : Nat := max (ceilDiv i.pcc 100) (nsCc (oppF i) 2000)

/-- Check 14 of R69. -/
def check14 (i : Image) (work house : List Slot) : Option LoadFail :=
  let e := schedEnd i work house
  need (decide (e = i.endCc.toNat) && decide (e + slackMin i ≤ i.pcc))

/-- The offsets at which a bank of a sub-channel is refreshed, in order (R68). -/
def refOffs (house : List Slot) (ch sub bank : Nat) : List Nat :=
  (sortSlots (house.filter fun x => decide (mmCh x.stn x.e.w = (ch, sub)) &&
    (decide (iwOpc x.e.w = 0x45) || (decide (iwOpc x.e.w = 0x46) && decide (iwArg x.e.w 2 = bank))))).map (·.e.off)

/-- The longest time over whole periods that hold exactly c refreshes: x normal and y stretched ones. -/
def longest (nN nS p q c : Nat) : Option Nat :=
  ((List.range (c / nS + 1)).filterMap fun y => if (c - y * nS) % nN = 0 then some ((c - y * nS) / nN * p + y * q) else none).foldl
    (fun m t => some (max (m.getD 0) t)) none

/-- The longest time from a refresh to the 8,192nd after it, over every sequence of normal and stretched periods
(R68). -/
def worstSpan (n q : List Nat) (p r : Nat) : Nat :=
  let kinds := [(n, p), (q, r)]
  let inside := (kinds.map fun k => (List.range k.1.length).map fun i => if i + 8192 < k.1.length then k.1.getD (i + 8192) 0 - k.1.getD i 0 else 0).flatten
  let across := (kinds.map fun a => (kinds.map fun b => ((List.range a.1.length).map fun i => (List.range b.1.length).map fun j =>
    let used := (a.1.length - i - 1) + (j + 1)
    if used ≤ 8192 then
      match longest n.length q.length p r (8192 - used) with
      | some t => a.2 - a.1.getD i 0 + t + b.1.getD j 0
      | none => 0
    else 0).flatten).flatten).flatten
  (inside ++ across).foldl max 0

/-- The longest gap between two refreshes, within periods and across wraps (R68). -/
def worstGap (n q : List Nat) (p r : Nat) : Nat :=
  let gaps := fun (l : List Nat) => (List.zipWith (fun a b => b - a) l (l.drop 1)).foldl max 0
  let wrap := fun (l : List Nat) (len : Nat) => len - l.getLastD 0 + max (n.headD 0) (q.headD 0)
  max (max (gaps n) (gaps q)) (max (wrap n p) (wrap q r))

/-- The refresh window of a ceiling code, in 1/64 ns (R68). -/
def refWindow (code : Nat) : Nat := 2048000000 / 2 ^ code

/-- One bank is covered (R68). -/
def bankCovered (i : Image) (offs : List Nat) : Bool :=
  let n := offs.filter fun o => decide (o < i.pcc)
  !n.isEmpty && decide (worstSpan n offs i.pcc i.scc * 6400 ≤ refWindow i.memTceil.toNat * oppF i) &&
    decide (worstGap n offs i.pcc i.scc * 6400 * 8192 ≤ 9 * refWindow i.memTceil.toNat * oppF i)

/-- Check 15 of R69. -/
def check15 (s : State) (i : Image) (house : List Slot) : Option LoadFail :=
  if 2 < i.memTceil.toNat then some {}
  else firstFail ((List.range 256).map fun ch =>
    if chanUp s ch then need ((List.range 2).all fun sub => (List.range 16).all fun bk => bankCovered i (refOffs house ch sub bk)) { stn := (mmOf ch).toNat }
    else none)

/-! ### Recess windows (check 16) -/

/-- The die of a kind 3 window. -/
def RecessWin.die (w : RecessWin) : Nat := stnDie w.stn

/-- A window names a station that its kind allows, and lies as R67 sets. -/
def winOk (i : Image) (w : RecessWin) : Bool :=
  (if w.kind = 1 then decide (stnKind w.stn = 4)
   else if w.kind = 2 then decide (w.stn = 0x9704) && (winSlots (oppF i) w).isSome
   else if w.kind = 3 then decide (stnDie w.stn ≤ 3)
   else false) &&
    (if w.start < i.pcc then decide (w.start + w.len ≤ i.pcc) else decide (w.start + w.len ≤ i.scc))

/-- End of the busy time of an LPDDR word: of its run, or of its bank or sub-channel (R57). -/
def lpBusyEnd (x : Slot) : Nat := if iwOpc x.e.w = 0x41 ∨ iwOpc x.e.w = 0x42 then x.occ else x.fin

/-- A slot uses a window's resource in its time (R67): busy time on the MM for kind 1, the occupancy or completion
interval of a word of the die for kind 3. -/
def overlaps (w : RecessWin) (x : Slot) : Bool :=
  (decide (w.kind = 1) && decide (x.stn = w.stn) && (lpCmdOf x.e).isSome && !apart w.start w.len x.e.off (lpBusyEnd x - x.e.off)) ||
    (decide (w.kind = 3) && !x.house && decide (stnDie x.stn = w.die) && !apart w.start w.len x.e.off (max x.occ x.fin - x.e.off))

/-- The scrub time of an MM in a period, from windows that start within it (R67). -/
def scrubCc (i : Image) (t : BitVec 16) : Nat :=
  ((i.recess.filter fun w => decide (w.kind = 1) && decide (w.stn = t) && decide (w.start < i.pcc)).map (·.len)).sum

/-- Every 256 consecutive slots of a period hold one of the list (R67). -/
def every256 (n : Nat) (l : List Nat) : Bool := (List.range (n + 1 - min n 256)).all fun k => l.any fun c => decide (k ≤ c) && decide (c < k + 256)

/-- Check 16 of R69. -/
def check16 (s : State) (i : Image) (work house : List Slot) : Option LoadFail :=
  firstFail (
    (i.recess.map fun w => need (winOk i w) { stn := w.stn.toNat }) ++
    ((List.range 64).map fun m =>
      let t := mkStn (m / 16) 4 (m % 16)
      if stnOk s t then need (decide (nsCc (oppF i) 500 ≤ scrubCc i t) && decide (i.pcc ≤ 65536 * scrubCc i t)) { stn := t.toNat } else none) ++
    [if i.slots.isSome then need (every256 (ceilDiv i.periodNs.toNat 1024) (calSlots (oppF i) (i.recess.filter fun w => decide (w.start < i.pcc)))) { stn := 0x9704 } else none] ++
    (i.recess.map fun w => ((work ++ house).find? (overlaps w)).map fun x => { stn := x.stn.toNat, idx := x.e.idx }))

/-! ### Fast plane, stretch and power (checks 17 to 19) -/

/-- The lines of a link: those of its physical end at this module (R155). -/
def linkLines (s : State) (fibre j : Nat) : List Nat :=
  ((s.opt.links.find? fun l => decide (l.fibre = fibre) && decide (l.link.toNat = j) && l.tx).map (·.lanes)).getD []

/-- The span into a fast-plane fibre obeys R203: measured, its latency, the one-way mean of R183, within ±0.6 ns of a whole number of
slots, and the two modules' fabric times, which differ by as much as the one-way and two-way measurements do, within ±1 ns (log entry 92, DEDUCED,
DEDUCED). -/
def spanOk (s : State) (fibre : Nat) : Bool :=
  let r := tget {} s.sw.rc fibre
  let d := ((2 * r.sumOne + r.answers) / (2 * r.answers)) % 65536
  decide (r.answers ≠ 0) && s.tm.valid && (decide (d * 10 ≤ 384) || decide ((65536 - d) * 10 ≤ 384)) &&
    decide ((2 * r.sumOne - r.twoWay * r.answers).natAbs ≤ 128 * r.answers)

/-- A configuration uses the span into F(12 + i): it passes one of its lines on, or a link is received there (R203, R206). -/
def spanUsed (s : State) (c : BitVec 512) (i : Nat) : Bool :=
  (List.range 33).any (fun k => (List.range 4).any fun o => decide (fcSrc c k o = i)) ||
    s.prof.logLinks.any fun l => !l.tx && l.bound && decide (l.pFibre.toNat = 12 + i)

/-- A configuration entry obeys R207. -/
def confOk (s : State) (c : BitVec 512) : Bool :=
  (List.range 33).all (fun k => (List.range 4).all (fun o => decide (fcSrc c k o ≤ 5)) &&
      (List.range 4).all (fun f => decide (((List.range 4).filter fun o => decide (fcSrc c k o = f)).length ≤ 1))) &&
    (List.range 4).all (fun o => (List.range 8).all fun j => !fcLink c o j ||
      ((match s.prof.fab with
        | some p => p.links.any fun l => decide (l.a = moduleId s) && decide (l.aFibre.toNat = 12 + o) && decide (l.link.toNat = j)
        | none => false) &&
       !(linkLines s (12 + o) j).isEmpty && (linkLines s (12 + o) j).all fun k => decide (fcSrc c k o = 4))) &&
    (List.range 4).all (fun i => !spanUsed s c i || spanOk s (12 + i))

/-- Check 17 of R69 (R206, R207). -/
def check17 (s : State) (b : Bytes) (i : Image) : Option LoadFail :=
  match i.slots, (sectsOf b 7).head? with
  | some t, some x =>
    need (decide (t.nslot = ceilDiv i.stretchNs.toNat 1024) && !t.confs.isEmpty &&
      decide (x.len = 16 + 64 * t.confs.length + t.nslot) && (t.slots.all fun k => decide (k < t.confs.length)) && t.confs.all (confOk s) &&
      decide ((tget {} s.opt.fibres 12).mode = .native))
  | _, _ => none

/-- Check 18 of R69 (R49, R64). -/
def check18 (s : State) (i : Image) : Option LoadFail :=
  let p := i.periodNs.toNat
  let q := i.stretchNs.toNat
  need (decide (q % 50 = 0) && decide (p + 50 ≤ q) && decide (q ≤ 2 * p) && decide (i.scc < 2 ^ 26) &&
    decide (2 ≤ i.stretchLead.toNat) && decide (i.stretchLead.toNat ≤ 64) &&
    decide (((s.prof.fab.map (·.noticeBoundNs)).getD 0) + p ≤ i.stretchLead.toNat * p))

/-- The total of a power phase in 0.5 W (R460). -/
def PowerPhase.total (p : PowerPhase) : Nat := p.c.sum + p.lpddr + p.photonics

/-- Check 19 of R69. -/
def check19 (i : Image) : Option LoadFail := need (i.phases.all fun p => decide (p.total ≤ 6800))

/-- Check 5 of R69: the dies with programs pass the operating point; the period obeys R49. -/
def check5 (s : State) (i : Image) : Option LoadFail :=
  let dies := (i.programs.map fun p => stnDie p.1).eraseDups.filter fun d => decide (d < 4)
  need (decide (i.oppoint.toNat ≤ 2) && (dies.all fun d => !(s.pwr.oppOff.any fun e => decide (e.1 = d * 4 + i.oppoint.toNat))) &&
    decide (i.periodNs.toNat % 50 = 0) && decide (20000 ≤ i.periodNs.toNat) && decide (i.pcc < 2 ^ 26))

/-- The checks of R69 in their order: the status and place of the first that fails. -/
def loadCheck (s : State) (b : Bytes) : Option (Nat × LoadFail) :=
  if !formatOk b then some (stImageFormat, {})
  else
    let i := readImage b
    let work := workSlots s i
    let house := houseSlots s i
    let run : List (Nat × (Unit → Option LoadFail)) := [
      (stImageModule, fun _ => need (decide (i.module.toNat = (moduleId s).toNat))),
      (stModuleProfileMismatch, fun _ => need (decide (i.mprof = profileId s))),
      (stFabricProfileMismatch, fun _ => need (decide (i.fprof = s.prof.fabId))),
      (stPeriodInvalid, fun _ => check5 s i), (stStationUnavailable, fun _ => check6 s b i),
      (stOpcodeInvalid, fun _ => check7 b i), (stOffsetOrder, fun _ => check8 s i), (stContextTable, fun _ => check9 s i),
      (stSyncTable, fun _ => check10 b i), (stLpddrTiming, fun _ => check11 s i work house), (stDieLinkRate, fun _ => check12 i work),
      (stResourceConflict, fun _ => check13 work house), (stSlackShort, fun _ => check14 i work house),
      (stRefreshCoverage, fun _ => check15 s i house), (stRecessAllotment, fun _ => check16 s i work house),
      (stFastplaneTable, fun _ => check17 s b i), (stStretchInvalid, fun _ => check18 s i), (stPowerProfile, fun _ => check19 i)]
    run.foldl (fun r c => match r with
      | some x => some x
      | none => (c.2 ()).map fun f => (c.1, f)) none

end Sys2Proof.Machine
end

