-- ==== Sys2Proof/Machine/Net.lean ====
section
/-!
DEFINITION. Links and what travels on them besides tiles: logical links and their bindings (R214), service cells and
messages (R150 to R152), fabric notices and their routes (R223 to R227), and remote signals (R228).
-/

namespace Sys2Proof.Machine

/-! ### Links -/

/-- The number of a link: fibre × 64 + link. A fibre's links are 0 to 7, and in XN5 compatibility mode one for each line and direction
(R153, R167; log entry 85, DEDUCED). -/
def linkKey (fibre link : Nat) : Nat := fibre * 64 + link

/-- A fibre. -/
def fibreOf (s : State) (f : Nat) : Fibre := tget {} s.opt.fibres f

/-- Change a fibre. -/
def modFibre (f : Nat) (g : Fibre → Fibre) (s : State) : State := s.modOpt fun o => { o with fibres := tmod {} o.fibres f g }

/-- The mode of a fibre's group. -/
def modeOf (s : State) (f : Nat) : GroupMode := (fibreOf s (f / 4 * 4)).mode

/-- The physical link end on a fibre (R155). -/
def physLink (s : State) (fibre link : Nat) (tx : Bool) : Option PhysLink :=
  s.opt.links.find? fun l => decide (l.fibre = fibre) && decide (l.link.toNat = link) && decide (l.tx = tx)

/-- A physical link end is in service (R190). -/
def physUp (s : State) (fibre link : Nat) (tx : Bool) : Bool := ((physLink s fibre link tx).map (·.inService)).getD false

/-- Change physical link ends that pass a test. -/
def modLinks (p : PhysLink → Bool) (f : PhysLink → PhysLink) (s : State) : State :=
  s.modOpt fun o => { o with links := o.links.map fun l => if p l then f l else l }

/-- The test for one physical link end. -/
def isLink (fibre link : Nat) (tx : Bool) (l : PhysLink) : Bool :=
  decide (l.fibre = fibre) && decide (l.link.toNat = link) && decide (l.tx = tx)

/-- The logical link of a name and direction (R214). -/
def logLink (s : State) (fibre link : Nat) (tx : Bool) : Option LogLink :=
  s.prof.logLinks.find? fun l => decide (l.fibre.toNat = fibre) && decide (l.link.toNat = link) && decide (l.tx = tx)

/-- A logical link is bound and its physical link is in service (R214, R215). -/
def LogLink.up (l : LogLink) (s : State) : Bool := l.bound && physUp s l.pFibre.toNat l.pLink.toNat l.tx

/-- The number of the physical link that carries a logical link. -/
def LogLink.phys (l : LogLink) : Nat := linkKey l.pFibre.toNat l.pLink.toNat

/-- The number of a logical link's name. -/
def LogLink.name (l : LogLink) : Nat := linkKey l.fibre.toNat l.link.toNat

/-- The logical link that a physical link end carries. -/
def logOf (s : State) (fibre link : Nat) (tx : Bool) : Option LogLink :=
  s.prof.logLinks.find? fun l => l.bound && decide (l.pFibre.toNat = fibre) && decide (l.pLink.toNat = link) && decide (l.tx = tx)

/-- The name of the logical link on a physical link end; the physical name where there is none. -/
def nameOf (s : State) (fibre link : Nat) (tx : Bool) : Nat := ((logOf s fibre link tx).map LogLink.name).getD (linkKey fibre link)

/-- Logical links that transmit and are in service, by their names in order. -/
def upLinks (s : State) : List LogLink := s.prof.logLinks.filter fun l => l.tx && l.up s

/-- The better of two logical links by peer, fibre and link (R225). -/
def LogLink.before (a b : LogLink) : Bool :=
  decide (a.peer.toNat * 256 + a.name < b.peer.toNat * 256 + b.name)

/-! ### Messages in service cells (R152) -/

/-- A message waits for the next service cell of a physical link. -/
def queueMsg (phys ty : Nat) (body : Bytes) (s : State) : State :=
  s.modNet fun n => { n with msgs := n.msgs ++ [{ link := phys, ty := BitVec.ofNat 8 ty, body := body }] }

/-- The bytes of a message: header, body, padding (R152). -/
def msgBytes (m : SvcMsg) : Bytes := le 1 m.ty.toNat ++ zeros 1 ++ le 2 m.body.length ++ padTo (roundUp m.body.length 4) m.body

/-! ### Fabric notices (R223 to R227) -/

/-- The bytes of a notice: 16-byte header and body (R223). -/
def Notice.bytes (n : Notice) : Bytes :=
  le 16 (2 ^ 31 * b2n n.bcast + 2 ^ 32 * n.jobTag.toNat + 2 ^ 64 * n.nseq.toNat + 2 ^ 88 * n.ttl.toNat + 2 ^ 96 * n.dst.toNat +
    2 ^ 108 * n.src.toNat + 2 ^ 120 * n.kind.toNat) ++ n.body

/-- Read a notice. -/
def readNotice (b : Bytes) : Notice :=
  let v := rd b 0 16
  { kind := BitVec.ofNat 8 (v >>> 120), src := BitVec.ofNat 12 (v >>> 108), dst := BitVec.ofNat 12 (v >>> 96), ttl := BitVec.ofNat 8 (v >>> 88),
    nseq := BitVec.ofNat 24 (v >>> 64), jobTag := BitVec.ofNat 32 (v >>> 32), bcast := bit v 31, body := b.drop 16 }

/-- One round of distances: modules that a link takes to a module of the last round (R225). -/
def reach (links : List FabLink) (seen : List (BitVec 12)) (last : List (BitVec 12)) : List (BitVec 12) :=
  ((links.filter fun l => decide (l.b ∈ last) && !decide (l.a ∈ seen)).map (·.a)).eraseDups

/-- How many links a shortest route from a module to the last round's modules takes. -/
def distFrom (links : List FabLink) (src : BitVec 12) : Nat → List (BitVec 12) → List (BitVec 12) → Option Nat
  | 0, _, _ => none
  | f + 1, seen, last => if src ∈ last then some 0 else (distFrom links src f (seen ++ last) (reach links (seen ++ last) last)).map (· + 1)

/-- The link among some that starts a shortest route to a module; ties by peer, fibre and link (R225). -/
def nearest (s : State) (ls : List LogLink) (dst : BitVec 12) : Option LogLink :=
  match s.prof.fab with
  | none => none
  | some p =>
    let cands := ls.filterMap fun l => (distFrom p.links l.peer (p.modules.length + 1) [] [dst]).map fun d => (d, l)
    (cands.foldl (fun b c => match b with
      | none => some c
      | some x => if c.1 < x.1 ∨ (c.1 = x.1 ∧ c.2.before x.2) then some c else some x) none).map (·.2)

/-- The logical link that starts a shortest route to a module (R225). -/
def routeLink (s : State) (dst : BitVec 12) : Option LogLink := nearest s (s.prof.logLinks.filter (·.tx)) dst

/-- The physical link for a lane-control message, which takes any available link (R160): the nearest of the logical links in service, or
with no route a home link to the module itself. -/
def openLink (s : State) (dst : BitVec 12) : Option Nat :=
  match nearest s (upLinks s) dst with
  | some l => some l.phys
  | none => (s.opt.links.find? fun l => l.tx && l.inService && decide (l.tag = 0) && decide ((fibreOf s l.fibre).rxModule = dst)).map fun l =>
      linkKey l.fibre l.link.toNat

/-- The physical link on which a Prefect-to-Prefect message leaves: by the route table, or for lane control any available one (R160,
R324). -/
def p2pLink (s : State) (ty : Nat) (dst : BitVec 12) : Option Nat :=
  if ty = 6 then openLink s dst else ((routeLink s dst).filter fun l => l.up s).map LogLink.phys

/-- Send a notice on a logical link, where it is in service. -/
def noticeOn (n : Notice) (l : LogLink) (s : State) : State := if l.up s then queueMsg l.phys 3 n.bytes s else s

/-- Send a notice on every logical link in service but one (R225, R227). -/
def noticeAll (n : Notice) (except : Option Nat) (s : State) : State :=
  (upLinks s).foldl (fun t l => if some l.name = except then t else noticeOn n l t) s

/-- The low 32 bits of the job number (R226). -/
def jobTag (s : State) : BitVec 32 := s.job.number.setWidth 32

/-- The newest notice number seen from a module. -/
def newestOf (s : State) (m : BitVec 12) : Option (BitVec 24) := (s.net.newest.find? fun e => decide (e.1 = m.toNat)).map (·.2)

/-- Remember the newest number of a source. -/
def noteNewest (m : BitVec 12) (n : BitVec 24) (s : State) : State :=
  s.modNet fun x => { x with newest := (x.newest.filter fun e => decide (e.1 ≠ m.toNat)) ++ [(m.toNat, n)] }

/-- A notice number is later than another, modulo 2²⁴ (R225). -/
def later24 (a b : BitVec 24) : Bool := decide (1 ≤ (a - b).toNat) && decide ((a - b).toNat ≤ 2 ^ 23 - 1)

/-- Originate a broadcast: three copies, the other two by NOTICE_REPEAT (R223, R227). -/
def broadcast (kind : Nat) (tag : BitVec 32) (body : Bytes) (s : State) : State :=
  let q := s.net.nseq + 1
  let n : Notice := { kind := BitVec.ofNat 8 kind, src := moduleId s, dst := 0, ttl := 64, nseq := q, jobTag := tag, bcast := true, body := body }
  noteNewest (moduleId s) q <| noticeAll n none <| s.modNet fun x => { x with nseq := q, repeats := x.repeats ++ [(n, 2)] }

/-- Originate a notice to one module over the route table (R224, R225). -/
def unicast (kind : Nat) (dst : BitVec 12) (tag : BitVec 32) (body : Bytes) (s : State) : State :=
  let q := s.net.nseq + 1
  let n : Notice := { kind := BitVec.ofNat 8 kind, src := moduleId s, dst := dst, ttl := 64, nseq := q, jobTag := tag, bcast := false, body := body }
  let s1 := s.modNet fun x => { x with nseq := q }
  match routeLink s1 dst with
  | some l => noticeOn n l s1
  | none => s1

/-- NOTICE_REPEAT: 100 µs have passed since a copy of the oldest notice with copies left (R227). -/
def noticeRepeat (s : State) : State :=
  match s.net.repeats with
  | [] => s
  | (n, k) :: t => noticeAll n none (s.modNet fun x => { x with repeats := if k ≤ 1 then t else t ++ [(n, k - 1)] })

/-- NOTICE_REPEAT (R227). -/
def execNoticeRepeat (s : State) : Host.Outcome State Fault Refusal := if litUp s then .next (noticeRepeat s) else .next s

/-- NOTICE_TTL_EXPIRED: the notice is not relayed (R225). -/
def ttlExpired (n : Notice) (s : State) : State :=
  raise evNoticeTtlExpired srcSv (le 2 n.src.toNat ++ le 2 n.dst.toNat ++ le 1 n.kind.toNat) s

/-- A LINK_ACK that is link-local: the one that R218 routes has more relays left (R218, R224). -/
def Notice.linkLocal (n : Notice) : Bool := decide (n.kind = 4) && decide (n.ttl = 1)

/-- Relay a notice that came on a link: with `FN.TTL` lowered by one, or not at all when it has reached 0. A link-local notice is
never relayed (R225, R226). -/
def relayNotice (n : Notice) (from_ : Nat) (s : State) : State :=
  if n.linkLocal then s
  else if n.ttl = 0 then ttlExpired n s
  else
    let m : Notice := { n with ttl := n.ttl - 1 }
    if n.bcast then noticeAll m (some from_) s
    else match routeLink s n.dst with
      | some l => noticeOn m l s
      | none => s

/-- How a module takes a notice: none when it discards it; otherwise whether it acts on it, and the state with the
relay made (R225, R226). -/
def takeNotice (n : Notice) (port : Nat) (s : State) : Option (Bool × State) :=
  let from_ := nameOf s (port / 64) (port % 64) false
  if n.bcast then
    let old := match newestOf s n.src with
      | some m => !later24 n.nseq m
      | none => false
    if old then none else some (true, relayNotice n from_ (noteNewest n.src n.nseq s))
  else if n.dst = moduleId s then some (true, s)
  else some (false, relayNotice n from_ s)

/-- A job-scope notice: NOTICE_JOB_MISMATCH where an image with another tag is loaded; acted on only with the tag of the
loaded job (R226). -/
def jobScope (n : Notice) (act : State → State) (s : State) : State :=
  if !imageLoaded s then s
  else if n.jobTag = jobTag s then act s
  else raise evNoticeJobMismatch srcSv (le 2 n.src.toNat ++ le 1 n.kind.toNat ++ le 4 n.jobTag.toNat) s

/-- A kind that R224 reserves. -/
def Notice.reserved (n : Notice) : Bool := decide (n.kind = 0) || decide (5 < n.kind.toNat)

/-- A notice of a kind that arrives on a link: taken, relayed, and acted on; one of a reserved kind is relayed when its scope
requires and not acted on (R224). -/
def onNotice (kind : Nat) (port : Nat) (b : Bytes) (act : Notice → State → State) (s : State) : State :=
  let n := readNotice b
  if !litUp s ∨ (n.kind.toNat ≠ kind ∧ n.reserved = false) then s
  else match takeNotice n port s with
    | none => s
    | some (true, t) => if n.reserved then t else act n t
    | some (false, t) => t

/-! ### Remote signals (R40, R151, R228) -/

/-- A remote signal waits for the service cells of the link that starts the route to its module; with no route it is dropped (R228; log
entry 87, DESIGN CHOICE). -/
def sendSignal (r : RemoteSig) (s : State) : State :=
  match routeLink s r.module with
  | some l => s.modNet fun n => { n with rsOut := n.rsOut ++ [(l.name, r)] }
  | none => s

/-- An entry of the remote-signal area (R151). -/
def rsEntry (r : RemoteSig) (seq : Nat) : Bytes :=
  le 8 (seq % 2 ^ 20 + 2 ^ 20 * r.n.toNat + 2 ^ 36 * r.object.toNat + 2 ^ 52 * r.module.toNat)

/-- A remote signal reaches this module: applied here, or sent on; with no image loaded there is no object to apply it to (R37, R228;
log entry 87, DESIGN CHOICE). -/
def takeSignal (r : RemoteSig) (s : State) : State :=
  if r.module = moduleId s then (if imageLoaded s then syncAdd r.object r.n.toNat srcSv s else s) else sendSignal r s

/-- The numbers applied on a logical link outlive its re-bindings (R215); the last 2¹⁹ are remembered (R40, R151; log entry 86, DESIGN
CHOICE). -/
def noteSignal (name : Nat) (q : BitVec 20) (s : State) : State := s.modNet fun n => { n with rsSeen := tmod [] n.rsSeen name fun l => (q :: l).take (2 ^ 19) }

/-- REMOTE_SIGNAL_ENTRY: an entry of the remote-signal area arrives; one already applied on the link, or an empty one,
is discarded (R40, R151). -/
def execRemoteSignalEntry (fibre link : Nat) (entry : Bytes) (s : State) : Host.Outcome State Fault Refusal :=
  let v := rd entry 0 8
  let q := BitVec.ofNat 20 v
  let name := nameOf s fibre link false
  match physLink s fibre link false with
  | none => .next s
  | some _ =>
    if !litUp s ∨ fld v 20 16 = 0 ∨ q ∈ tget [] s.net.rsSeen name then .next s
    else .next (takeSignal { module := BitVec.ofNat 12 (v >>> 52), object := BitVec.ofNat 16 (v >>> 36), n := BitVec.ofNat 16 (v >>> 20) } (noteSignal name q s))

/-! ### Acknowledgements (R218, R221, R223) -/

/-- The cell indices that a tile in progress lacks: its lowest, or its count. -/
def RxTile.low (t : RxTile) : Nat := ((List.range t.cells).find? fun k => !decide (k ∈ t.placed)).getD t.cells

/-- The lowest cell number, counting from `SC.CSEQ`, that is not placed (R218). -/
def ackFrom : BitVec 32 → List RxTile → BitVec 32
  | a, [] => a
  | a, t :: ts => if t.low = t.cells then ackFrom (t.base + BitVec.ofNat 32 t.cells) ts else a + BitVec.ofNat 32 t.low

/-- The acknowledgement value A of a receiving context (R218). -/
def ackOf (s : State) (st : BitVec 20) : BitVec 32 := ackFrom (ctxOf s st).cseq (rxOf s st).tiles

/-- The module that sends a remote stream: the peer of the link its cells arrive on; before the first cell, that of a
link on the fibre of its producer FX (R34, R218). -/
def senderOf (s : State) (st : BitVec 20) : Option (BitVec 12) :=
  let r := rxOf s st
  let fibre := 4 * stnDie (ctxOf s st).prodStn + stnIndex (ctxOf s st).prodStn
  ((s.prof.logLinks.find? fun l => !l.tx && (if r.via = 0 then decide (l.fibre.toNat = fibre) else decide (l.name + 1 = r.via)))).map (·.peer)

/-- The link that carries a stream's acknowledgements and whether it leads straight to the transmitter: its
lowest-numbered logical link in service, or the route of R225 (R218). -/
def ackLink (s : State) (st : BitVec 20) : Option (LogLink × Bool) :=
  match senderOf s st with
  | none => none
  | some m =>
    match (upLinks s).filter fun l => decide (l.peer = m) with
    | l :: ls => some (ls.foldl (fun a b => if b.name < a.name then b else a) l, true)
    | [] => (routeLink s m).map fun l => (l, false)

/-- A LINK_ACK entry (R223). -/
def ackEntry (s : State) (st : BitVec 20) : Bytes :=
  let r := rxOf s st
  le 12 (2 ^ 20 * b2n r.grantReset + 2 ^ 21 * (ctxOf s st).cmax + 2 ^ 28 * (r.grant % 65536) + 2 ^ 44 * (ackOf s st).toNat + 2 ^ 76 * st.toNat)

/-- A LINK_ACK notice to a module with entries (R223, R224): link-local on a direct link, else relayed by R225. -/
def ackNotice (s : State) (dst : BitVec 12) (direct : Bool) (entries : List Nat) : Notice :=
  { kind := 4, src := moduleId s, dst := dst, ttl := if direct then 1 else 64, nseq := 0, jobTag := jobTag s, bcast := false,
    body := (entries.map fun e => ackEntry s (BitVec.ofNat 20 e)).flatten }

/-- The module that an entry goes to, and whether it goes there straight. -/
def ackDst (s : State) (st : Nat) : BitVec 12 × Bool :=
  ((senderOf s (BitVec.ofNat 20 st)).getD 0, ((ackLink s (BitVec.ofNat 20 st)).map (·.2)).getD true)

/-- The entries that fit into an area of a given room, oldest first: 12 bytes each, and 20 for the notice of each module (R152, R223). -/
def fitAcks (s : State) : Nat → List (BitVec 12 × Bool) → List Nat → List Nat
  | _, _, [] => []
  | room, seen, st :: t =>
    let n := if ackDst s st ∈ seen then 12 else 32
    if n ≤ room then st :: fitAcks s (room - n) (ackDst s st :: seen) t else []

/-- The entries that a service cell of a physical link carries: up to 64, oldest change first, as the message area of 832 bytes
holds them (R150, R218). -/
def ackDue (s : State) (phys : Nat) : List Nat :=
  fitAcks s 832 [] ((s.strm.ackQ.filter fun st => match ackLink s (BitVec.ofNat 20 st) with
    | some (l, _) => decide (l.phys = phys)
    | none => false).take 64)

/-- Group the due entries by the module they go to. -/
def ackNotices (s : State) (due : List Nat) : List Notice :=
  (due.map (ackDst s)).eraseDups.map fun d => ackNotice s d.1 d.2 (due.filter fun st => decide (ackDst s st = d))

/-- The entries are sent: nothing more is owed, and the grant has been given. -/
def ackSent (due : List Nat) (s : State) : State :=
  due.foldl (fun t st => modRx (BitVec.ofNat 20 st) (fun r => { r with grant := 0, grantReset := false }) t)
    (s.modStrm fun x => { x with ackQ := x.ackQ.filter fun st => !decide (st ∈ due) })

/-! ### Service cells (R150) -/

/-- A lane tag: path tag and data lane number (R148). -/
def laneTag (tag : BitVec 10) (lane : Nat) : Nat := tag.toNat * 64 + lane % 64

/-- The lane in a position of a link: that line of the fibre whose lane record holds the position (R155). -/
def laneAt (s : State) (l : PhysLink) (pos : Nat) : Nat :=
  ((List.range 33).find? fun k =>
    let x := tget {} s.opt.lanes (l.fibre * 33 + k)
    x.inService && decide (x.link = l.link) && decide (x.pos.toNat = pos)).getD (l.lanes.getD pos 0)

/-- The 1,056 bytes of a cell: header without CRC as a number, and payload (R148, R149). -/
def cellBytes (hdr : Nat) (payload : Bytes) : Bytes :=
  let p := padTo 1024 payload
  le 28 hdr ++ le 4 (crc32c (le 28 hdr ++ p)) ++ p

/-- A big-endian number of n bytes, as Ethernet and 1588 have it (R172, R238). -/
def beN (n v : Nat) : Bytes := (le n v).reverse

/-- The lanes that carry a position of a link: its own, and the spare that bridges it (R160 steps 2 to 4). -/
def carriers (s : State) (l : PhysLink) (pos : Nat) : List Nat :=
  laneAt s l pos :: (List.range 33).filter fun k =>
    let x := tget {} s.opt.lanes (l.fibre * 33 + k)
    decide (x.role = .bridged) && decide (x.link = l.link) && decide (x.pos.toNat = pos)

/-- The number of the faceplate port that a link of a faceplate group is: 16 × group + 8 × cage + port (R171; log entry 16, DESIGN
CHOICE). -/
def portOfLink (l : PhysLink) : Nat := 16 * (l.fibre / 4) + 8 * (l.fibre % 4 / 2) + 4 * (l.fibre % 2) + l.link.toNat

/-- A link is an Ethernet port: its lane tag carries 0x3F as its data lane number (R172). -/
def PhysLink.ethernet (l : PhysLink) : Bool := decide (l.lanes = [63])

/-- An Ethernet frame (R172). -/
def etherFrame (dst src : BitVec 48) (tag : Option (BitVec 16)) (ty : Nat) (body : Bytes) : Bytes :=
  let b := beN 6 dst.toNat ++ beN 6 src.toNat ++ (match tag with
    | some t => beN 2 0x8100 ++ beN 2 t.toNat
    | none => []) ++ beN 2 ty ++ body
  b ++ le 4 (fcs b)

/-- The frame in which a faceplate port sends a cell (R172). -/
def portFrame (s : State) (p : Nat) (cell : Bytes) : Bytes :=
  etherFrame (Config.portMac p false) (Config.portMac p true) (Config.portTag p) (tget 0x88B5 s.net.etherType (p / 16)).toNat cell

/-- A cell leaves in a place of a link: in an Ethernet frame of its port, or on every lane that carries the position, whose lane frames
it joins (R145, R156, R160, R172). `hdr` is its header without CRC and lane tag. -/
def sendCell (c : Chan) (l : PhysLink) (slot pos hdr : Nat) (body : Bytes) (s : State) : State :=
  let cell := fun k => cellBytes (hdr + 2 ^ 202 * laneTag l.tag k) body
  if l.ethernet then emit .frame (portOfLink l) (portFrame s (portOfLink l) (cell 63)) s
  else (carriers s l pos).foldl (fun t k => emit c (linkKey l.fibre l.link.toNat) (cell k) t)
    (modLinks (isLink l.fibre l.link.toNat true) (fun x => { x with queue := x.queue ++ [{ slot := slot, pos := pos, hdr := hdr, body := body }] }) s)

/-- The message type of a 1588 message. -/
def ptpType (b : Bytes) : Nat := rd b 0 1 % 16

/-- The 10 bytes of a 1588 timestamp of a fabric time in 1/64 ns: seconds and nanoseconds (R235). -/
def ptpStamp (t : Nat) : Bytes := beN 6 (t / 64 / 1000000000) ++ beN 4 (t / 64 % 1000000000)

/-- A correctionField of 1/64 ns units: 1,024 scaled units each (R235). -/
def ptpCorr (u : Int) : Bytes := (leInt 8 (u * 1024)).reverse

/-- The whole PTP time of a fabric time: the one nearest to the calendar (R235; log entry 48, DEDUCED). -/
def fullTime (s : State) (t : BitVec 64) : Nat :=
  let c := s.life.cal.toNat * 64000000000
  if c + 2 ^ 63 ≤ t.toNat then t.toNat else t.toNat + (c + 2 ^ 63 - t.toNat) / 2 ^ 64 * 2 ^ 64

/-- A message as it leaves at a time, whose whole PTP time is given: a Sync gets its originTimestamp, a Pdelay_Resp its turnaround, a roll-call answer
its `RA.T_TX` (R183, R238, R239). -/
def stamped (full : Nat) (t : BitVec 64) (m : SvcMsg) : Bytes :=
  let b := m.body
  if m.ty = 1 ∧ ptpType b = 0 then b.take 8 ++ ptpCorr (full % 64) ++ part b 16 18 ++ ptpStamp full ++ b.drop 44
  else if m.ty = 1 ∧ ptpType b = 3 then b.take 8 ++ ptpCorr (t - m.t2).toNat ++ b.drop 16
  else if m.ty = 4 then b.take 16 ++ le 8 t.toNat ++ b.drop 24
  else b

/-- Fit messages into a message area of a given room: those that go, in order; one 1588 message of each type (R152,
R239). -/
def fitMsgs : Nat → List Nat → List SvcMsg → List SvcMsg × List SvcMsg
  | _, _, [] => ([], [])
  | room, seen, m :: t =>
    let n := (msgBytes m).length
    if n ≤ room ∧ (m.ty ≠ 1 ∨ ptpType m.body ∉ seen) then
      let r := fitMsgs (room - n) (if m.ty = 1 then ptpType m.body :: seen else seen) t
      (m :: r.1, r.2)
    else
      let r := fitMsgs room seen t
      (r.1, m :: r.2)

/-- The 1588 port of a fibre (R238). -/
def portOf (fibre : Nat) : Nat := fibre + 1

/-- The time at which a symbol crosses a serialiser or deserialiser, or an edge a pin, in 1/64 ns: within the present cycle of the service
clock, at a place that is a free value (R237, R254; log entry 95, DESIGN CHOICE). -/
def stampTime (s : State) : BitVec 64 := s.tm.ft + BitVec.ofNat 64 ((freeVal 8 s).toNat % 160)

/-- A time at a fibre's serialiser or deserialiser as it refers to J3: less the internal delay (R237). -/
def atJ3 (tx : Bool) (fibre : Nat) (t : BitVec 64) : BitVec 64 := t - Config.innerDelay tx fibre

/-- The time at which a Pdelay_Req leaves is kept for its answer (R244). -/
def noteSent (fibre : Nat) (t1 : BitVec 64) (m : SvcMsg) (s : State) : State :=
  if m.ty = 1 ∧ ptpType m.body = 2 then
    s.modTm fun t => { t with ports := tmod {} t.ports (portOf fibre) fun p => { p with reqTx := some t1 } }
  else s

/-- A slot table is in force on a fibre: its cell slots are counted from the first of each period (R202, R205). -/
def slotFibre (s : State) (f : Nat) : Bool := decide (12 ≤ f) && ((s.job.image.map fun i => i.slots.isSome)).getD false

/-- The service cell of a physical link: up to 24 remote signals, then acknowledgements and messages (R150 to R152, R218); its messages share
its timestamp, which a roll-call answer takes at the serialiser and a 1588 message at J3 (R183, R237). -/
def serviceCell (l : PhysLink) (s : State) : State :=
  let phys := linkKey l.fibre l.link.toNat
  let name := nameOf s l.fibre l.link.toNat true
  let sigs := (s.net.rsOut.filter fun e => decide (e.1 = name)).take 24
  let area := ((number24 sigs).map fun e => rsEntry e.2.2 ((tget 0 s.net.rsSeq name).toNat + e.1)).flatten
  let due := ackDue s phys
  let acks := (ackNotices s due).map fun n => msgBytes { link := phys, ty := 3, body := n.bytes }
  let mine := s.net.msgs.filter fun m => decide (m.link = phys)
  let fit := fitMsgs (832 - acks.flatten.length) [] mine
  let out := stampTime s
  let t1 := atJ3 true l.fibre out
  let body := padTo 192 area ++ acks.flatten ++
    (fit.1.map fun m => msgBytes { m with body := stamped (fullTime s t1) (if m.ty = 1 then t1 else out) m }).flatten
  let s1 := sendCell .service l (64 * l.svcNo) 0 (2 ^ 150 * l.svcSeq.toNat + 2 ^ 222 * 2) body s
  let s2 := modLinks (isLink l.fibre l.link.toNat true)
    (fun x => { x with svcSeq := x.svcSeq + 1, svcNo := x.svcNo + 1, svcAt := s.tm.ft, freeSlot := if slotFibre s l.fibre then x.freeSlot else x.freeSlot - 64 }) s1
  let s3 := s2.modNet fun n =>
    { n with rsSeq := tmod 0 n.rsSeq name (· + BitVec.ofNat 20 sigs.length), rsOut := sigs.foldl (fun q e => dropFirst (fun x => decide (x = e)) q) n.rsOut,
             msgs := (n.msgs.filter fun m => decide (m.link ≠ phys)) ++ fit.2 }
  useFree (fit.1.foldl (fun t m => noteSent l.fibre t1 m t) (ackSent due s3))
where
  /-- Number the signals of a cell. -/
  number24 (l : List (Nat × RemoteSig)) : List (Nat × Nat × RemoteSig) := (List.range l.length).zip l

/-- SERVICE_CELL_SLOT: slot s with s mod 64 = 0 of a link (R150, R156). -/
def execServiceCellSlot (fibre link : Nat) (s : State) : Host.Outcome State Fault Refusal :=
  match physLink s fibre link true with
  | some l => if litUp s && l.inService then .next (serviceCell l s) else .next s
  | none => .next s

end Sys2Proof.Machine
end

