-- ==== Sys2Proof/Machine/JobOps.lean ====
section
/-!
DEFINITION. The state of the job beneath its commands: cc of fabric time, the work that stations have done (R56 to R60,
R73), the transitions to HELD and COMPLETE (R70, R71), and the power states that a job enters and leaves.
-/

namespace Sys2Proof.Machine

/-! ### Time in cc (R50) -/

/-- The clock of the loaded image in 10 MHz; 0 with no image. -/
def jobF (s : State) : Nat := (s.job.image.map oppF).getD 0

/-- A fabric time in cc of the loaded image. -/
def ccOf (s : State) (t : Nat) : Nat := t * jobF s / 6400

/-- The cc at hand. -/
def nowCc (s : State) : Nat := ccOf s s.tm.ft.toNat

/-- The cc of the newest period Bell. -/
def tbCc (s : State) : Nat := ccOf s s.job.tb.toNat

/-- cc since the newest period Bell. -/
def sinceBell (s : State) : Nat := nowCc s - tbCc s

/-- Time a is at or past time b (R235). -/
def reached (a b : BitVec 64) : Bool := decide ((a - b).toNat < 2 ^ 63)

/-! ### Stations of the job -/

/-- The state of a station. -/
def stnOf (s : State) (x : BitVec 16) : StnState := tget {} s.stn.st x.toNat

/-- Change the state of a station. -/
def modStn (x : BitVec 16) (f : StnState → StnState) (s : State) : State :=
  s.modStn fun t => { t with st := tmod {} t.st x.toNat f }

/-- The expanded program of a station in the loaded image (R54). -/
def jobWords (s : State) (x : BitVec 16) : List Ew := (s.job.image.map fun i => expanded (progOf i x)).getD []

/-- The stations that have work words. The words of control engines run on the Bell grid in every job state (R72) and are
not among them. -/
def jobStns (s : State) : List (BitVec 16) :=
  (s.job.image.map fun i => (i.programs.filter fun p => !(expanded p.2).isEmpty && decide (stnKind p.1 ≠ 7)).map (·.1)).getD []

/-- An output counts in the completion of its period: not a tile whose last run has not issued, which its words do not complete
(R21, R57). -/
def Outst.counts (o : Outst) : Bool := decide (stnKind o.stn = 6) || decide (o.left = 0)

/-- The DMA channels of an HX station on which a transfer is in progress: its word has not completed (R57, R60). -/
def hxBusy (s : State) (x : BitVec 16) : List HxCh :=
  if stnKind x = 6 then ((List.range 16).map fun c => tget {} s.stn.hx (stnDie x * 16 + c)).filter (·.busy) else []

/-- A station has issued and completed every word of its period (R60, R73). -/
def stnDone (s : State) (x : BitVec 16) : Bool :=
  decide ((jobWords s x).length ≤ (stnOf s x).pc) && !(s.stn.outst.any fun o => o.counts && decide (o.stn = x)) && (hxBusy s x).isEmpty

/-- A station has completed work period w. -/
def stnUpTo (s : State) (w : Nat) (x : BitVec 16) : Bool :=
  decide (w < (stnOf s x).period) || (decide ((stnOf s x).period = w) && stnDone s x)

/-- Every station has completed work period w. -/
def allUpTo (s : State) (w : Nat) : Bool := (jobStns s).all (stnUpTo s w)

/-- The highest work period that a station has started. -/
def maxPeriod (s : State) : Nat := (jobStns s).foldl (fun m x => max m (stnOf s x).period) 0

/-- The last work period of the job; none for a job that runs until it is unloaded (R47). -/
def lastPeriod (s : State) : Option Nat :=
  (s.job.image.map fun i => i.periodCount.toNat).bind fun n => if n = 0 then none else some (n - 1)

/-- Start a work period on every station. -/
def startPeriod (w : Nat) (s : State) : State :=
  (jobStns s).foldl (fun t x => modStn x (fun y => { y with pc := 0, period := w }) t)
    (s.modJob fun j => { j with wper := w, latest := 0, slipMax := 0 })

/-- The hold time of stalled streams runs: the job is running or Held (R36). -/
def holdRuns (s : State) : Bool := decide (s.job.st = .strict) || looseMode s || decide (s.job.st = .held)

/-! ### Transitions of the job (R70, R71) -/

/-- An entry to HELD discards the credits of every forward (R222). -/
def dropCredits (s : State) : State :=
  let s1 := s.modStrm fun x => { x with ctx := x.ctx.filterMap fun e => if ({ e.2 with credits := 0 } : StreamCtx) = {} then none else some (e.1, { e.2 with credits := 0 }) }
  s1.modStrm fun x => { x with fwd := x.fwd.filterMap fun e => if ({ e.2 with credits := 0 } : FwdState) = {} then none else some (e.1, { e.2 with credits := 0 }) }

/-- STATION_TRAP with the trap record, for each station that has trapped since (R61). -/
def trapBits (t : TrapRec) : Nat :=
  t.detail.toNat + 2 ^ 112 * t.cause.toNat + 2 ^ 142 * t.opc.toNat + 2 ^ 150 * t.offset.toNat + 2 ^ 176 * t.iter.toNat +
    2 ^ 192 * t.index.toNat + 2 ^ 208 * t.stn.toNat + 2 ^ 224 * t.wperiod.toNat + 2 ^ 256 * t.bell.toNat

/-- Raise STATION_TRAP for the stations that have trapped (R61). -/
def raiseTraps (s : State) : State :=
  (s.job.newTraps.foldl (fun t x => match (stnOf t x).trap with
    | some r => raise evStationTrap x.toNat (le 40 (trapBits r)) t
    | none => t) s).modJob fun j => { j with newTraps := [] }

/-- Entry to HELD (R70, R71): JOB_HELD with b, w, the reason bits and the first overrunning station. -/
def enterHeld (bits : Nat) (noResume : Bool) (stn : Nat) (s : State) : State :=
  let s1 := raiseTraps (dropCredits s)
  raise evJobHeld srcSv (le 8 s1.job.bell ++ le 8 s1.job.wper ++ le 1 bits ++ le 2 stn)
    (s1.modJob fun j => { j with st := .held, reasons := BitVec.ofNat 8 bits, noResume := j.noResume || noResume, late := false, resumeReq := none })

/-- Entry to COMPLETE: holds still accepted are answered 0x0201 (R70). -/
def enterComplete (s : State) : State :=
  let s1 := raise evJobComplete srcSv (le 8 s.job.bell ++ le 8 s.job.wper) (s.modJob fun j => { j with st := .complete, holds := [] })
  s.job.holds.foldl (fun t h => reply h.2.2.2 stStateInvalid [] t) s1

/-- Answer the holds of a list that have taken effect: the b or W at which the job is Held, with the status that says a
boundary had passed (R70, R71, R355). -/
def answerHolds (l : List (Bool × Nat × Bool × PktRef)) (s : State) : State :=
  l.foldl (fun t h => reply h.2.2.2 (if h.2.2.1 then stDeferred else stSuccess) (le 8 (if h.1 then s.job.wper else s.job.bell)) t) s

/-- The greatest work period that stations may start in loose mode: W of a catch-up, or of a hold (R70). -/
def loosePermit (s : State) : Option Nat :=
  let hold := (s.job.holds.filter (·.1)).foldl (fun (m : Option Nat) h => some (min (m.getD h.2.1) h.2.1)) none
  match s.job.st with
  | .catchup => s.job.resumeReq.map (·.2)
  | _ => match hold, lastPeriod s with
    | some a, some b => some (min a b)
    | some a, none => some a
    | none, b => b

/-- A station that has completed its period goes on to the next, in program order (R73). -/
def advanceStn (x : BitVec 16) (s : State) : State :=
  let w := (stnOf s x).period
  let ok := match loosePermit s with
    | some m => decide (w < m)
    | none => true
  if looseMode s && stnDone s x && ok && decide ((stnOf s x).trap = none) then
    (modStn x (fun y => { y with pc := 0, period := w + 1 }) s).modJob fun j => { j with wper := max j.wper (w + 1) }
  else s

/-- What completes in LOOSE: the last work period, or the work period that a hold names (R70). -/
def looseCheck (s : State) : State :=
  if s.job.st ≠ .loose then s
  else if (lastPeriod s).any (allUpTo s) then enterComplete s
  else
    let due := s.job.holds.filter fun h => h.1 && allUpTo s h.2.1
    if due.isEmpty then s
    else answerHolds due (enterHeld 4 false 0xFFFF (s.modJob fun j => { j with holds := j.holds.filter fun h => !decide (h ∈ due) }))

/-- After a station has issued a word or completed an output. -/
def progress (x : BitVec 16) (s : State) : State := looseCheck (advanceStn x s)

/-- Entry to loose mode, by a start, a resume or a catch-up: receiving contexts send a reset grant, forwards hold no
credits until theirs comes, and stations go on where they may (R221, R222). -/
def enterLoose (s : State) : State :=
  let ctxs := s.strm.ctx
  let s1 := dropCredits s
  let s2 := ctxs.foldl (fun t e =>
    let st := BitVec.ofNat 20 e.1
    let t1 := [0, 1].foldl (fun u i => if (e.2.fwd i).kind = 2 then modFwd st i (fun f => { f with creditReset := false }) u else u) t
    if e.2.srcRemote then
      oweAck e.1 (modRx st (fun r => { r with grantReset := true, grant := (e.2.depth - ahead e.2.tseqHead e.2.tseqTail) * e.2.cmax }) t1)
    else t1) s1
  (jobStns s2).foldl (fun t x => advanceStn x t) s2

/-! ### Power states that follow the job (R17, R380) -/

/-- The power state changes: the time in the one just left is no matter of the spec, the transition's is (R397). -/
def enterState (ps : PState) (s : State) : State :=
  raise evPowerStateChanged srcSv (le 1 (psCode s.pwr.ps) ++ le 1 (psCode ps) ++ leSat 4 (msSince s s.pwr.stageMs)) (s.modPwr fun p => { p with ps := ps })

/-- Running is reached: the JOB_LOAD packet gets its final reply, the low 16 bytes of the image digest (R355, R380). -/
def jobRunning (s : State) : State :=
  match s.job.loadPkt, s.job.image with
  | some r, some i => reply r 0 (le 16 i.digest.toNat) (s.modJob fun j => { j with loadPkt := none })
  | _, _ => s

/-- Lit is reached after an unload: the JOB_UNLOAD packet gets its final reply, the job number (R355, R380). -/
def jobGone (s : State) : State :=
  match s.job.unloadPkt with
  | some r => reply r 0 (le 8 s.job.number.toNat) (s.modJob fun j => { j with unloadPkt := none, number := 0 })
  | none => s

end Sys2Proof.Machine
end

