-- ==== Sys2Proof/Machine/Stn.lean ====
section
/-!
DEFINITION. Stations: when a word is ready and issues (R56, R57, R73), traps (R61, R131), the tiles a word reads (R27,
R29, R53) and the tile it writes (R21, R25), and the completion of outputs with what it starts (R33, R36, R38).
-/

namespace Sys2Proof.Machine

/-! ### Words on the Bell grid (R66, R72) -/

/-- The words of a station that run on the Bell grid in every job state: the housekeeping track of an MM, the program of a
control engine (R66, R72). -/
def gridWords (s : State) (x : BitVec 16) : List Ew :=
  match s.job.image with
  | some i => if stnKind x = 7 then expanded (progOf i x) else expanded (houseOf i x)
  | none => []

/-- The next word of a station on the Bell grid, when its offset is reached; one at or beyond P_cc runs only in a stretched period
(R54, R63, R66). An MM issues one word per cc (R56). -/
def gridDue (x : BitVec 16) (s : State) : Option Ew :=
  match (gridWords s x)[tget 0 s.job.hkPc x.toNat]? with
  | none => none
  | some e =>
    if litUp s && (decide (stnKind x ≠ 7) || decide ((stnOf s x).trap = none)) && s.job.gridOn && decide (e.off ≤ sinceBell s) &&
        (s.job.stretched || decide (e.off < ((s.job.image.map Image.pcc).getD 0))) && (decide (stnKind x ≠ 4) || decide ((stnOf s x).last ≤ nowCc s)) then
      some e else none

/-- That word, when it has an opcode. -/
def gridWordAt (opc : Nat) (x : BitVec 16) (s : State) : Option Ew :=
  match gridDue x s with
  | some e => if iwOpc e.w = opc then some e else none
  | none => none

/-! ### The word at hand -/

/-- The issue throttle lets MX, VX and SX stations issue on every second cc (R393). -/
def throttleOk (x : BitVec 16) (s : State) : Bool := !s.pwr.throttle || decide (3 < stnKind x) || decide (nowCc s % 2 = 0)

/-- In LOOSE under a stretch request, words issue in the share of the cc that the period has of the stretched length
(R73; which cc those are: log entry 33, DESIGN CHOICE). -/
def looseRate (s : State) : Bool :=
  match s.job.image with
  | some i =>
    !(s.job.st = .loose && s.job.ownReq) ||
      decide (nowCc s * i.periodNs.toNat / max 1 i.stretchNs.toNat < (nowCc s + 1) * i.periodNs.toNat / max 1 i.stretchNs.toNat)
  | none => false

/-- What a word occupies: cc on its unit, cc to its completion, and the unit (R57). -/
def wordTimes (s : State) (x : BitVec 16) (w : BitVec 128) : Nat × Nat × Nat :=
  match s.job.image with
  | some i => timesOf s i x (sinceBell s) w
  | none => (1, 1, 0)

/-- A word of a station as it would lie in the period at hand, were it to issue now (R57). -/
def nowSlot (x : BitVec 16) (e : Ew) (s : State) : Slot :=
  let t := wordTimes s x e.w
  let o := sinceBell s
  { stn := x, e := { e with off := o }, house := false, occ := o + t.1, fin := o + t.2.1, unit := t.2.2 }

/-- No Recess window of the period owns what a word would use (R67): a word that has slipped into a window waits for its end, as
the words of loose mode do. -/
def windowOk (x : BitVec 16) (e : Ew) (s : State) : Bool :=
  match s.job.image with
  | some i => !s.job.gridOn || i.recess.all fun w => !(s.job.stretched || decide (w.start < i.pcc)) || !overlaps w (nowSlot x e s)
  | none => true

/-- An LPDDR command of the program waits for a housekeeping word that is due, which takes precedence (R66). -/
def houseFirst (x : BitVec 16) (e : Ew) (s : State) : Bool := (lpCmdOf e).isSome && (gridDue x s).isSome

/-- Whether the unit that a word needs is free, and its station may issue in this cc (R56). -/
def unitFree (x : BitVec 16) (w : BitVec 128) (s : State) : Bool :=
  decide ((stnOf s x).last ≤ nowCc s) && decide (tget 0 (stnOf s x).busy (wordTimes s x w).2.2 ≤ nowCc s)

/-- The offset of a word has been reached; no work word issues in the extension of a stretched period (R56, R63). In loose
mode offsets are ignored (R73). -/
def offsetOk (e : Ew) (s : State) : Bool :=
  looseMode s || (decide (s.job.st = .strict) && decide (e.off ≤ sinceBell s) && decide (sinceBell s < ((s.job.image.map Image.pcc).getD 0)))

/-- The word that a station issues next, when it has an opcode and nothing but its tiles and conditions can hold it
back. -/
def wordAt (opc : Nat) (x : BitVec 16) (s : State) : Option Ew :=
  match (jobWords s x)[(stnOf s x).pc]? with
  | none => none
  | some e =>
    if decide (iwOpc e.w = opc) && decide (s.pwr.ps = .running) && litUp s && decide ((stnOf s x).trap = none) && offsetOk e s && unitFree x e.w s &&
        throttleOk x s && looseRate s && windowOk x e s && !houseFirst x e s && (!s.pwr.coreOff || decide (3 < stnKind x)) then some e else none

/-! ### Traps (R61) -/

/-- A word traps: its cause is recorded, its station stops, and the job is held at the next Bell, or in loose mode at
once, since the station has stopped at its boundary (R61, R70; `TRAP.DETAIL`: log entry 34, DESIGN CHOICE). -/
def trapWord (x : BitVec 16) (e : Ew) (cause : Nat) (pl : Bytes) (detail : Nat) (s : State) : State :=
  let r : TrapRec :=
    { bell := BitVec.ofNat 64 s.job.bell, wperiod := BitVec.ofNat 32 (stnOf s x).period, stn := x, index := BitVec.ofNat 16 e.idx,
      iter := BitVec.ofNat 16 e.iter, offset := BitVec.ofNat 26 e.off, opc := BitVec.ofNat 8 (iwOpc e.w), cause := BitVec.ofNat 16 cause,
      detail := BitVec.ofNat 112 detail }
  let s1 := (modStn x (fun y => { y with trap := some r }) (raise cause x.toNat pl s)).modJob fun j => { j with newTraps := j.newTraps ++ [x] }
  if looseMode s then enterHeld 2 true 0xFFFF s1 else s1

/-- A trap whose detail is its payload without the station (log entry 34, DESIGN CHOICE). -/
def trapPl (x : BitVec 16) (e : Ew) (cause : Nat) (pl : Bytes) (s : State) : State :=
  trapWord x e cause (le 2 x.toNat ++ pl) (ofLe pl) s

/-- The fetch of a program word meets an uncorrectable code word (R131): its address is 16 × its index (log entry 35, DEDUCED). -/
def trapFetch (x : BitVec 16) (e : Ew) (s : State) : State :=
  let syn := freeVal 15 s
  trapWord x e evFetchUncorrectable (le 2 x.toNat ++ leSat 4 (16 * e.idx) ++ le 4 syn.toNat) (16 * e.idx + 2 ^ 44 * syn.toNat) (useFree s)

/-- A stream context or sync object meets an uncorrectable code word (R131): MEM_UNCORRECTABLE with kind 6, whose address
is not given (log entry 3, DESIGN CHOICE). -/
def trapCtx (x : BitVec 16) (e : Ew) (id : Nat) (s : State) : State :=
  let a := freeVal 44 s
  let syn := freeVal 15 (useFree s)
  let s1 := useFree (useFree s)
  trapWord x e evMemUncorrectable (uePayload a.toNat ⟨0, 0, 0, 0, 0⟩ 6 syn.toNat { kind := 6, stn := x.toNat, index := e.idx } s1) id s1

/-- A check word of SRAM other than tile store is corrected (R126): the macro is not given (log entry 3, DESIGN CHOICE). -/
def corrected (die : Nat) (src : Nat) (s : State) : State :=
  memCorrected src (le 1 1 ++ le 1 die ++ le 2 (freeVal 16 s).toNat) (useFree s)

/-! ### Bindings (R53) -/

/-- The binding table of a station in the loaded image. -/
def jobBinds (s : State) (x : BitVec 16) : List Binding := (s.job.image.map fun i => bindsOf i x).getD []

/-- Entry b of the binding table. -/
def bindAt (s : State) (x : BitVec 16) (b : Nat) : Binding := (jobBinds s x).getD b ⟨0, 0, 0, 0, 0, 0, 0⟩

/-- The position of a station in entry b. -/
def posOf (s : State) (x : BitVec 16) (b : Nat) : BindPos := tget {} s.stn.bind (x.toNat * 64 + b)

/-- Change the position of a station in entry b. -/
def modPos (x : BitVec 16) (b : Nat) (f : BindPos → BindPos) (s : State) : State :=
  s.modStn fun t => { t with bind := tmod {} t.bind (x.toNat * 64 + b) f }

/-- The next tile that an input use of entry b takes: a RELEASE moves it on (R29, R53). -/
def nextIn (s : State) (x : BitVec 16) (b : Nat) : BitVec 32 :=
  let n := (posOf s x b).inNext
  match consBit x with
  | some k => if later (relOf s (bindAt s x b).stream k) n then relOf s (bindAt s x b).stream k else n
  | none => n

/-- One use of an input operand: entry, stream and tile. -/
structure InUse where
  /-- Binding entry. -/
  bind : Nat
  /-- Stream. -/
  stream : BitVec 20
  /-- Tile number. -/
  tile : BitVec 32
  deriving DecidableEq, Repr

/-- The uses of a word's input operands, in port order: a second use of one entry takes the tile after (R53). -/
def inUses (s : State) (x : BitVec 16) : List Nat → List Nat → List InUse
  | [], _ => []
  | b :: t, seen =>
    ⟨b, (bindAt s x b).stream, nextIn s x b + BitVec.ofNat 32 (seen.filter fun k => decide (k = b)).length⟩ :: inUses s x t (b :: seen)

/-- The uses of a word. -/
def usesOf (s : State) (x : BitVec 16) (w : BitVec 128) : List InUse := inUses s x (iwInputs w) []

/-- The number of the next tile that an output operand writes: after those in flight (R53). -/
def nextOut (s : State) (st : BitVec 20) : BitVec 32 :=
  (ctxOf s st).tseqHead + BitVec.ofNat 32 (s.stn.outst.filter fun o => decide (o.stream = st) && !o.noTile).length

/-- Every stream that a word touches. -/
def wordStreams (s : State) (x : BitVec 16) (w : BitVec 128) : List (BitVec 20) := (allBind w).filterMap fun b => if b = 63 then none else some (bindAt s x b).stream

/-! ### Issue -/

/-- The slip of a word that issues now (R56). -/
def slipNow (s : State) (e : Ew) : Nat := sinceBell s - e.off

/-- A word completes at a cc: the latest such word of the station counts in the end of its period (R60, R74). -/
def doneBy (e : Ew) (slip fin : Nat) (y : StnState) : StnState :=
  if y.doneAt < fin then { y with doneAt := fin, doneIdx := e.idx, doneSlip := slip } else y

/-- A word has issued: its station goes on, its unit is busy, its slip and completion count (R56, R57, R60, R62). -/
def issued (x : BitVec 16) (e : Ew) (s : State) : State :=
  let t := wordTimes s x e.w
  let now := nowCc s
  let out := ((iwOutput e.w).isSome && decide (stnKind x ≠ 5)) || decide (stnKind x = 6)
  let s1 := modStn x (fun y =>
    let y1 := { y with pc := y.pc + 1, last := now + 1, busy := if t.2.2 = 0 then y.busy else tset 0 y.busy t.2.2 (now + t.1) }
    if out then y1 else doneBy e (slipNow s e) (now + t.2.1) y1) s
  s1.modJob fun j =>
    { j with slipMax := if s.job.st = .strict then max j.slipMax (slipNow s e) else j.slipMax,
             latest := if out then j.latest else max j.latest (sinceBell s + t.2.1) }

/-- The positions move past the tiles that a word takes (R53). -/
def takeIns (x : BitVec 16) (us : List InUse) (s : State) : State :=
  us.foldl (fun t u => modPos x u.bind (fun p => { p with inNext := u.tile + 1 }) t) s

/-- A word of an opcode issues at a station once its stream contexts can be read and are valid (R36, R131) and its
condition is met; `body` is what it then does. -/
def issueIf (opc : Nat) (x : BitVec 16) (err : ReadErr) (cond : Ew → State → Bool) (body : Ew → State → State) (s0 : State) : State :=
  let s := advanceStn x s0
  match wordAt opc x s with
  | none => s0
  | some e =>
    let fetch := (err.prog.find? fun m => decide (m.1 = x.toNat * 65536 + e.idx)).map (·.2)
    if fetch.any SramKind.unusable then trapFetch x e s
    else
      let sts := wordStreams s x e.w
      let objs := if iwOpc e.w = 2 ∨ iwOpc e.w = 4 ∨ iwOpc e.w = 5 then [2 ^ 20 + iwArg e.w 0] else []
      let bad := err.ctx.find? fun m => m.2.unusable && decide (m.1 ∈ sts.map BitVec.toNat ++ objs)
      let fixed := (if fetch.isSome then 1 else 0) + (err.ctx.filter fun m => !m.2.unusable && decide (m.1 ∈ sts.map BitVec.toNat ++ objs)).length
      let s1 := (List.range fixed).foldl (fun t _ => corrected (stnDie x) x.toNat t) s
      match bad, sts.find? fun st => decide ((ctxOf s st).state = .invalid) with
      | some m, _ => trapCtx x e m.1 s1
      | none, some st => trapPl x e evStreamContextInvalid (le 2 e.idx ++ le 4 st.toNat) s1
      | none, none =>
        if cond e s then progress x (body e s1) else s0

/-- A word whose input tiles are complete and whose own condition is met issues (R56). -/
def issue (opc : Nat) (x : BitVec 16) (err : ReadErr) (cond : Ew → State → Bool) (body : Ew → State → State) (s : State) : State :=
  issueIf opc x err (fun e t => (usesOf t x e.w).all (fun u => tileReady t u.stream u.tile) && cond e t) body s

/-- The output slot of a word is free (R29, R56). -/
def outFree (x : BitVec 16) (e : Ew) (s : State) : Bool :=
  match iwOutput e.w with
  | some b => slotFree s (bindAt s x b).stream (nextOut s (bindAt s x b).stream)
  | none => true

/-! ### Reading input tiles (R27, R131) -/

/-- An input tile as a station has it. -/
structure TileIn where
  /-- Its header. -/
  hdr : TileHdr
  /-- Its shape. -/
  shape : Shape
  /-- Its payload. -/
  bytes : List (BitVec 8)
  /-- A word of it could not be used. -/
  poison : Bool
  /-- Its stream. -/
  stream : BitVec 20
  deriving DecidableEq, Repr

/-- The flags that an output takes over from a tile (R26, R131). -/
def TileIn.flags (t : TileIn) : BitVec 8 := inherit t.hdr.flags ||| (if t.poison then flPoison else 0)

/-- The values of a tile in storage order. -/
def TileIn.vals (t : TileIn) : List Val := tileVals t.shape t.hdr.grid t.bytes

/-- Which access a word makes to tile store. -/
def wordSrc (x : BitVec 16) (e : Ew) : MemSrc := { kind := 4, stn := x.toNat, index := e.idx }

/-- Read the input tile of a use: the check of R27 that its header fails, with the header's number, or the tile. -/
def readTile (err : ReadErr) (x : BitVec 16) (e : Ew) (u : InUse) (s : State) : (Nat × BitVec 32) × TileIn × State :=
  let b := bindAt s x u.bind
  let a := slotAddr u.stream (ctxOf s u.stream) u.tile
  let h := tsRead err 4 (wordSrc x e) a 32 s
  let hdr := readTileHdr (ofLe h.1)
  let c := hdrCheck b.shape hdr u.tile
  if c ≠ 0 then ((c, hdr.tseq), ⟨hdr, b.shape, [], h.2.1, u.stream⟩, h.2.2)
  else
    let d := tsRead err 4 (wordSrc x e) (a + 32) b.shape.plen h.2.2
    ((0, hdr.tseq), ⟨hdr, b.shape, d.1, h.2.1 || d.2.1, u.stream⟩, d.2.2)

/-- Read every input tile in port order; the first that fails a check of R27 ends it. -/
def readTiles (err : ReadErr) (x : BitVec 16) (e : Ew) : List InUse → State → Option (Nat × InUse × BitVec 32) × List TileIn × State
  | [], s => (none, [], s)
  | u :: t, s =>
    match readTile err x e u s with
    | ((0, _), i, s1) =>
      let r := readTiles err x e t s1
      (r.1, i :: r.2.1, r.2.2)
    | ((c, f), _, s1) => (some (c, u, f), [], s1)

/-- Read a word's tiles and go on with them, or trap with TILE_HEADER_MISMATCH (R27). -/
def withTiles (err : ReadErr) (x : BitVec 16) (e : Ew) (k : List InUse → List TileIn → State → State) (s : State) : State :=
  let us := usesOf s x e.w
  match readTiles err x e us s with
  | (some (c, u, f), _, s1) =>
    trapPl x e evTileHeaderMismatch (le 4 u.stream.toNat ++ le 4 u.tile.toNat ++ le 4 f.toNat ++ le 1 c) s1
  | (none, ts, s1) => k us ts s1

/-! ### Writing output tiles (R21, R25, R26) -/

/-- What a word gives for its output tile. -/
structure TileOut where
  /-- Element area and scale bytes, as far as the format has them. -/
  body : List (BitVec 8)
  /-- Grid of the whole tile; none where no rule gives it. -/
  grid : Option (BitVec 16) := none
  /-- Grid words by block; none where no rule gives them. -/
  words : Option (List (BitVec 16)) := none
  /-- Flags. -/
  flags : BitVec 8 := 0
  /-- Elements that saturated in an exact sum. -/
  sat : Nat := 0
  /-- SXOVF stands in an input. -/
  had : Bool := false
  deriving DecidableEq, Repr

/-- The releases that `IW.REL` makes when the word completes (R52). -/
def relsOf (x : BitVec 16) (e : Ew) (us : List InUse) : List (Nat × BitVec 20 × BitVec 32) :=
  if iwRel e.w then
    match consBit x with
    | some k => us.map fun u => (k, u.stream, u.tile)
    | none => []
  else []

/-- The word at hand is the last of its job that writes a stream: its tile is the last of the stream (`EOS`, R25; log
entry 36, DEDUCED). -/
def isLast (s : State) (x : BitVec 16) (st : BitVec 20) : Bool :=
  decide (lastPeriod s = some (stnOf s x).period) &&
    ((jobWords s x).drop ((stnOf s x).pc + 1)).all fun w => decide (iwOpc w.w = 0x51) || (iwOutput w.w).all fun b => decide ((bindAt s x b).stream ≠ st)

/-- What no rule gives of tile n of a stream: a free value (log entry 37, DESIGN CHOICE). -/
def openOf (s : State) (st : BitVec 20) (n : BitVec 32) (k : Nat) : BitVec 16 := Config.tileOpen k (ctxOf s st).srStream n

/-- The header that a producer writes; `TH.TROW` and `TH.TCOL` are not given by any rule: free values (log entry 37, DESIGN CHOICE). -/
def mkHdr (x : BitVec 16) (b : Binding) (n : BitVec 32) (o : TileOut) (s : State) : TileHdr :=
  { prodStn := x, prodMod := moduleId s, jobTag := jobTag s,
    grid := if b.gridMode = 1 then o.grid.getD (openOf s b.stream n 0) else 0, gridMode := b.gridMode, flags := o.flags,
    scaleOff := BitVec.ofNat 11 b.shape.scaleOff, plen := BitVec.ofNat 17 b.shape.plen, scalePlace := b.scalePlace, layout := b.layout,
    colsM1 := b.colsM1, rowsM1 := b.rowsM1, tseq := n, tcol := openOf s b.stream n 1, trow := openOf s b.stream n 2,
    format := b.format, stream := b.stream }

/-- The grid words of a tile: those given, or free values where no rule gives them. -/
def wordsOf (t : Shape) (st : BitVec 20) (n : BitVec 32) (o : TileOut) (s : State) : Bytes :=
  if t.gridMode = 2 then ((List.range t.blocks).map fun k => le 2 ((o.words.map fun w => w.getD k 0).getD (openOf s st n (3 + k))).toNat).flatten else []

/-- SXOVF_RAISED, where a station sets `SXOVF` in a tile whose inputs had none (R106). -/
def noteSxovf (x : BitVec 16) (st : BitVec 20) (n : BitVec 32) (o : TileOut) (s : State) : State :=
  if o.flags &&& flSxovf ≠ 0 ∧ o.had = false then raise evSxovfRaised x.toNat (le 2 x.toNat ++ le 4 st.toNat ++ le 4 n.toNat ++ leSat 4 o.sat) s else s

/-- Write the output tile into its slot; it is complete when OUTPUT_COMPLETE comes (R21, R57). -/
def writeOut (x : BitVec 16) (e : Ew) (bi : Nat) (us : List InUse) (o0 : TileOut) (s : State) : State :=
  let b := bindAt s x bi
  let t := b.shape
  let n := nextOut s b.stream
  let o := { o0 with flags := o0.flags ||| (if isLast s x b.stream then flEos else 0) }
  let h := mkHdr x b n o s
  let ws := wordsOf t b.stream n o s
  let pay := if t.gridMode = 2 then padTo (t.elemLen + t.gridOff) o.body ++ ws else padTo t.plen o.body
  let s1 := tsWrite {} (slotAddr b.stream (ctxOf s b.stream) n) (h.bytes ++ pay) s
  let q : Outst :=
    { stn := x, stream := b.stream, tseq := n, doneCc := nowCc s + (wordTimes s x e.w).2.1, left := 0, rel := relsOf x e us, noTile := false, sf := o.flags,
      idx := e.idx, slip := slipNow s e }
  noteSxovf x b.stream n o (s1.modStn fun y => { y with outst := y.outst ++ [q] })

/-- A word without an output tile: what `IW.REL` releases waits for its completion, which OUTPUT_COMPLETE marks under the
name of its first input tile (log entry 38, DESIGN CHOICE). -/
def noOut (x : BitVec 16) (e : Ew) (us : List InUse) (s : State) : State :=
  match relsOf x e us, us with
  | r :: rs, u :: _ =>
    let q : Outst :=
      { stn := x, stream := u.stream, tseq := u.tile, doneCc := nowCc s + (wordTimes s x e.w).2.1, left := 0, rel := r :: rs, noTile := true, sf := 0,
        idx := e.idx, slip := slipNow s e }
    s.modStn fun y => { y with outst := y.outst ++ [q] }
  | _, _ => s

/-! ### Completion (R30, R33, R36, R38, R213) -/

/-- A tile completes in its stream: it can be read, its flags stick, its sync object is signalled, and kind 1 forwards
start (R29, R32, R33, R38, R213). -/
def completeTile (st : BitVec 20) (flags : BitVec 8) (s : State) : State :=
  let c := ctxOf s st
  let s1 := modCtx st (fun y => { y with tseqHead := y.tseqHead + 1, sticky := y.sticky ||| flags, state := if y.state = .stalled then .open else y.state }) s
  let s2 := [0, 1].foldl (fun t i => if (c.fwd i).kind = 1 then modFwd st i (fun f => { f with copying := true }) t else t) s1
  if c.syncEn then syncAdd c.syncId 1 c.prodStn.toNat s2 else s2

/-- The releases of a list: mask bit, stream and tile of each (R29, R52). -/
def releaseAll (l : List (Nat × BitVec 20 × BitVec 32)) (s : State) : State := l.foldl (fun t r => releaseTile r.2.1 r.1 r.2.2 t) s

/-- OUTPUT_COMPLETE: a word of a station completes: the releases of `IW.REL`, then its output tile (R30, R52, R57). -/
def outputComplete (x : BitVec 16) (st : BitVec 20) (n : BitVec 32) (s : State) : State :=
  match s.stn.outst.find? fun o => decide (o.stn = x) && decide (o.stream = st) && decide (o.tseq = n) with
  | none => s
  | some o =>
    if nowCc s < o.doneCc ∨ o.left ≠ 0 ∨ stnKind x = 6 ∨ (o.noTile = false ∧ n ≠ (ctxOf s st).tseqHead) then s
    else
      let s1 := releaseAll o.rel ((s.modStn fun y => { y with outst := dropFirst (fun q => decide (q = o)) y.outst }).modJob fun j =>
        { j with latest := max j.latest (sinceBell s) })
      progress x (if o.noTile then s1 else completeTile st o.sf s1)

/-- OUTPUT_COMPLETE (R57). -/
def execOutputComplete (stn : BitVec 16) (stream : BitVec 20) (tseq : BitVec 32) (s : State) : Host.Outcome State Fault Refusal :=
  if litUp s && (decide (s.job.st = .strict) || looseMode s) then .next (outputComplete stn stream tseq s) else .next s

/-- KIND1_FORWARD_DONE: the copy of a tile is complete in the ring of the destination die (R213): it carries the
destination's stream and number, and `POISON` where a word of it could not be used. -/
def kind1Done (st : BitVec 20) (i : Nat) (err : ReadErr) (s : State) : State :=
  let c := ctxOf s st
  let f := c.fwd i
  let w := fwdOf s st i
  let d := ctxOf s f.dstStream
  let n := w.doneTile
  if f.kind ≠ 1 ∨ tileReady s st n = false ∨ d.state = .invalid ∨ slotFree s f.dstStream d.tseqHead = false then s
  else
    let a := slotAddr st c n
    let r := tsRead err 4 { kind := 4, stn := c.prodStn.toNat, stream := some (f.dstStream.toNat, d.tseqHead.toNat) } a 32 s
    let h := readTileHdr (ofLe r.1)
    let p := tsRead err 4 { kind := 4, stn := c.prodStn.toNat, stream := some (f.dstStream.toNat, d.tseqHead.toNat) } (a + 32) h.plen.toNat r.2.2
    let h1 := { h with stream := f.dstStream, tseq := d.tseqHead, flags := h.flags ||| (if r.2.1 || p.2.1 then flPoison else 0) }
    let s1 := tsWrite {} (slotAddr f.dstStream d d.tseqHead) (h1.bytes ++ p.1) p.2.2
    let s2 := modFwd st i (fun y => { y with doneTile := n + 1, nextTile := n + 1, copying := decide (n + 1 ≠ c.tseqHead) }) s1
    retail st (completeTile f.dstStream h1.flags s2)

/-- KIND1_FORWARD_DONE (R213). -/
def execKind1ForwardDone (stream : BitVec 20) (fwd : Nat) (err : ReadErr) (s : State) : Host.Outcome State Fault Refusal :=
  if litUp s && imageLoaded s && decide (fwd < 2) then .next (kind1Done stream fwd err s) else .next s

/-- A word on the Bell grid has issued; an MM issues its next word in a later cc (R56). -/
def gridIssued (x : BitVec 16) (s : State) : State :=
  let s1 := s.modJob fun j => { j with hkPc := tmod 0 j.hkPc x.toNat (· + 1) }
  if stnKind x = 4 then modStn x (fun y => { y with last := nowCc s + 1 }) s1 else s1

/-! ### Sync words, RELEASE, NOP, PPHASE (R38, R55) -/

/-- The power-profile phase that a CE station applies (R274). -/
def setPhase (x : BitVec 16) (ph : Nat) (s : State) : State := s.modJob fun j => { j with pphase := tset 0 j.pphase (stnIndex x) (ph + 1) }

/-- The fetch of a word on the Bell grid: an uncorrectable code word traps at a station that has not stopped already, and the word does
not run (R131). -/
def gridFetched (x : BitVec 16) (err : ReadErr) (body : State → State) (e : Ew) (s : State) : State :=
  match (err.prog.find? fun m => decide (m.1 = x.toNat * 65536 + e.idx)).map (·.2) with
  | none => body s
  | some m =>
    if m.unusable then (if (stnOf s x).trap = none then trapFetch x e s else s) else body (corrected (stnDie x) x.toNat s)

/-- STATION_NOP: no effect but its cc (R55). A NOP of a Bell-grid track that is due goes before one of the program (R66). -/
def execStationNop (stn : BitVec 16) (err : ReadErr) (s : State) : Host.Outcome State Fault Refusal :=
  match gridWordAt 0x00 stn s with
  | some e => .next (gridFetched stn err (gridIssued stn) e s)
  | none => if stnKind stn = 7 then .next s else .next (issue 0x00 stn err (fun _ _ => true) (fun e t => issued stn e t) s)

/-- SIGNAL: add n to a sync object (R38). -/
def execSignal (stn : BitVec 16) (err : ReadErr) (s : State) : Host.Outcome State Fault Refusal :=
  .next (issue 0x02 stn err (fun _ _ => true) (fun e t => syncAdd (BitVec.ofNat 16 (iwArg e.w 0)) (iwArg e.w 1) stn.toNat (issued stn e t)) s)

/-- SIGNAL_REMOTE: a signal to an object of a module, this one included (R38, R40, R228). -/
def execSignalRemote (stn : BitVec 16) (err : ReadErr) (s : State) : Host.Outcome State Fault Refusal :=
  .next (issue 0x03 stn err (fun _ _ => true) (fun e t =>
    takeSignal { module := BitVec.ofNat 12 (iwArg e.w 0), object := BitVec.ofNat 16 (iwArg e.w 1), n := BitVec.ofNat 16 (iwArg e.w 2) } (issued stn e t)) s)

/-- WAIT: issues once the count has reached t (R38). -/
def execWait (stn : BitVec 16) (err : ReadErr) (s : State) : Host.Outcome State Fault Refusal :=
  .next (issue 0x04 stn err (fun e t => syncMet t (BitVec.ofNat 16 (iwArg e.w 0)) (iwArg e.w 1)) (fun e t => issued stn e t) s)

/-- A word of an opcode on a sync object is ready at a station in this cc. -/
def readyOn (opc : Nat) (obj : BitVec 16) (y : BitVec 16) (s : State) : Option Ew :=
  match wordAt opc y s with
  | some e => if BitVec.ofNat 16 (iwArg e.w 0) = obj then some e else none
  | none => none

/-- A tile whose completion is due in this cc signals the object (R38, R57). -/
def signalDue (obj : BitVec 16) (s : State) : Bool :=
  s.stn.outst.any fun o => !o.noTile && decide (o.left = 0) && decide (o.doneCc ≤ nowCc s) && decide (stnKind o.stn ≠ 6) &&
    decide (o.tseq = (ctxOf s o.stream).tseqHead) && (ctxOf s o.stream).syncEn && decide ((ctxOf s o.stream).syncId = obj)

/-- It is a station's turn to take from an object in this cc: the signals of the cc that the module's stations make have been
applied, and no station with a lower identifier has a TAKE that the count satisfies (R39). Signals from outside come in the order
of their commands (log entry 65, DESIGN CHOICE). -/
def takeTurn (x : BitVec 16) (obj : BitVec 16) (s : State) : Bool :=
  !signalDue obj s && (jobStns s).all fun y =>
    (readyOn 0x02 obj y s).isNone && (decide (x.toNat ≤ y.toNat) || ((readyOn 0x05 obj y s).all fun e => !syncMet s obj (iwArg e.w 1)))

/-- TAKE: issues once the count has reached t, and takes t from it (R38), in its turn (R39). -/
def execTake (stn : BitVec 16) (err : ReadErr) (s : State) : Host.Outcome State Fault Refusal :=
  .next (issue 0x05 stn err (fun e t => syncMet t (BitVec.ofNat 16 (iwArg e.w 0)) (iwArg e.w 1) && takeTurn stn (BitVec.ofNat 16 (iwArg e.w 0)) t)
    (fun e t => syncTake (BitVec.ofNat 16 (iwArg e.w 0)) (iwArg e.w 1) (issued stn e t)) s)

/-- The oldest tile of entry b that the station has not released is complete (R29). -/
def relReady (x : BitVec 16) (b : Nat) (s : State) : Bool :=
  match consBit x with
  | some k => tileReady s (bindAt s x b).stream (relOf s (bindAt s x b).stream k)
  | none => false

/-- The consumer of entry b releases its oldest unreleased tile of the stream. -/
def releaseNext (x : BitVec 16) (b : Nat) (s : State) : State :=
  match consBit x with
  | some k => releaseTile (bindAt s x b).stream k (relOf s (bindAt s x b).stream k) s
  | none => s

/-- RELEASE: releases the oldest unreleased tile of a binding, whether read or not (R29, R55). -/
def execRelease (stn : BitVec 16) (err : ReadErr) (s : State) : Host.Outcome State Fault Refusal :=
  .next (issue 0x06 stn err (fun e t => relReady stn (iwArg e.w 0) t) (fun e t => releaseNext stn (iwArg e.w 0) (issued stn e t)) s)

/-- PPHASE: a control engine applies a phase of the power profile as feed-forward (R55, R72, R274). -/
def execPphase (stn : BitVec 16) (err : ReadErr) (s : State) : Host.Outcome State Fault Refusal :=
  match gridWordAt 0x70 stn s with
  | none => .next s
  | some e => .next (gridFetched stn err (fun t => gridIssued stn (setPhase stn (iwArg e.w 0) t)) e s)

end Sys2Proof.Machine
end

