-- ==== Sys2Proof/Machine/Mx.lean ====
section
/-!
DEFINITION. Matrix stations: MMA and ACC_FLUSH (R85 to R92).
-/

namespace Sys2Proof.Machine

/-- What R85 fixes for a pair of operand formats. -/
structure Pair where
  /-- Weight exponent of the least significant bit of a block product. -/
  q : Int
  /-- Every block product, or 16-bit product, is below 2^t before scaling. -/
  t : Int
  /-- Products are added one by one, not by block. -/
  perProduct : Bool
  /-- INT8 × INT8. -/
  int8 : Bool := false
  deriving DecidableEq, Repr

/-- The element type of a format code: an MX format counts as its plain type. -/
def elemType (f : Nat) : Nat := if fmtMx f then f - 0x10 else f

/-- The pair of two formats in either order; none where R85 allows none. -/
def pairOf (f g : Nat) : Option Pair :=
  let a := min (elemType f) (elemType g)
  let b := max (elemType f) (elemType g)
  if a = 5 ∧ b = 5 then some ⟨-18, 23, false, false⟩
  else if a = 6 ∧ b = 6 then some ⟨-10, 37, false, false⟩
  else if a = 5 ∧ b = 6 then some ⟨-17, 30, false, false⟩
  else if a = 7 ∧ b = 7 then some ⟨-8, 15, false, false⟩
  else if a = 8 ∧ b = 8 then some ⟨-6, 11, false, false⟩
  else if a = 7 ∧ b = 8 then some ⟨-7, 13, false, false⟩
  else if a = 9 ∧ b = 9 then some ⟨-2, 11, false, false⟩
  else if a = 2 ∧ b = 2 then some ⟨0, 2, true, false⟩
  else if a = 3 ∧ b = 3 then some ⟨0, 2, true, false⟩
  else if a = 4 ∧ b = 4 then some ⟨0, 0, false, true⟩
  else none

/-- Element (r, c) of a tile without its block scale. -/
def rawAt (t : TileIn) (r c : Nat) : Val := readElem t.shape.format (elemCode (fmtBits t.shape.format) t.bytes (t.shape.idx r c)) 0

/-- The product of two values. -/
def Val.mul : Val → Val → Val
  | .nan, _ => .nan
  | _, .nan => .nan
  | .inf n, .inf k => .inf (n != k)
  | .inf n, .fin k m _ => if m = 0 then .nan else .inf (n != k)
  | .fin n m _, .inf k => if m = 0 then .nan else .inf (n != k)
  | .fin n m e, .fin k l g => .fin (n != k) (m * l) (e + g)

/-- The scale exponent of the block of an element; none for a scale of 0xFF, 0 for a plain tile (R86). -/
def scaleAt (t : TileIn) (r c : Nat) : Option Int :=
  if fmtMx t.shape.format then
    let k := scaleByte t.shape t.bytes (t.shape.block (t.shape.idx r c))
    if k = 255 then none else some ((k : Int) - 127)
  else some 0

/-- A tagged integer sum of tagged integers. -/
def addTagged (a b : AccTag × Int) : AccTag × Int := (a.1.join b.1, a.2 + b.2)

/-- One block dot product of 32 elements along k: its tag and its integer in units of 2^q (R86). -/
def blockDot (p : Pair) (a b : TileIn) (r c k0 n : Nat) : AccTag × Int :=
  (List.range n).foldl (fun s i => addTagged s (contrib ((rawAt a r (k0 + i)).mul (rawAt b (k0 + i) c)) p.q)) (.finite, 0)

/-- The contribution of a block to a window with floor F: weighted by the scale sum and rounded to 2^F (R86, R88). -/
def blockContrib (p : Pair) (a b : TileIn) (r c k0 n : Nat) (f : Int) : AccTag × Int :=
  let d := blockDot p a b r c k0 n
  match scaleAt a r k0, scaleAt b k0 c with
  | some x, some y => contrib (tagged d.1 d.2 (p.q + x + y)) f
  | _, _ => (.nan, 0)

/-- What A × B contributes to element (r, c) of a window with floor F (R86, R88). -/
def dotContrib (p : Pair) (a b : TileIn) (r c : Nat) (f : Int) : AccTag × Int :=
  let k := a.shape.cols
  if p.perProduct then
    (List.range k).foldl (fun s i => addTagged s (contrib ((rawAt a r i).mul (rawAt b i c)) f)) (.finite, 0)
  else
    (List.range (ceilDiv k 32)).foldl (fun s i => addTagged s (blockContrib p a b r c (32 * i) (min 32 (k - 32 * i)) f)) (.finite, 0)

/-- The greatest of a list; 0 for none. -/
def maxI : List Int → Int
  | [] => 0
  | x :: t => t.foldl max x

/-- The largest scale exponent of a tile, without bytes of 0xFF (R87). -/
def topScale (t : TileIn) : Int :=
  if fmtMx t.shape.format then
    maxI ((List.range t.shape.blocks).filterMap fun k =>
      let b := scaleByte t.shape t.bytes k
      if b = 255 then none else some ((b : Int) - 127))
  else 0

/-- The largest exponent of a 16-bit tile's finite non-zero elements (R87). -/
def topExp (t : TileIn) : Int := maxI (t.vals.filterMap Val.log?)

/-- The floor exponent of a window that is not placed for XS (R87). -/
def floorOf (p : Pair) (a b : TileIn) : Int :=
  if p.int8 then 0
  else if p.perProduct then topExp a + topExp b + p.t - 80
  else topScale a + topScale b + p.t - 80

/-- An accumulator of an MX station. -/
def mxOf (s : State) (x : BitVec 16) (a : Nat) : MxAcc := tget {} s.stn.mx (x.toNat * 4 + a)

/-- Write an accumulator. -/
def setMx (x : BitVec 16) (a : Nat) (m : MxAcc) (s : State) : State := s.modStn fun t => { t with mx := tset {} t.mx (x.toNat * 4 + a) m }

/-- The row and column of each output element of a window, in row-major order. -/
def cellsRC (rows cols : Nat) : List (Nat × Nat) := (List.range (rows * cols)).map fun i => (i / cols, i % cols)

/-- Open a window for a START word: its floors, cleared (R87, R90). -/
def openMx (xs : Bool) (p : Pair) (a b : TileIn) (c : Option TileIn) : MxAcc :=
  let rc := cellsRC a.shape.rows b.shape.cols
  let f := floorOf p a b
  { isOpen := true, xs := xs, rows := a.shape.rows, cols := b.shape.cols,
    floors := rc.map fun q => match xs, c with
      | true, some t => gridAt t.shape t.hdr.grid t.bytes (t.shape.idx q.1 q.2)
      | _, _ => f,
    win := rc.map fun _ => 0, tags := rc.map fun _ => .finite,
    gridMode := (c.map fun t => t.hdr.gridMode).getD 0, gridPlace := (c.map fun t => t.hdr.scalePlace).getD 0,
    grid := (c.map fun t => t.hdr.grid).getD 0,
    words := match c with
      | some t => if t.shape.gridMode = 2 then (List.range t.shape.blocks).map fun k => BitVec.ofNat 16 (gridWord t.shape t.bytes k) else []
      | none => [],
    flags := 0 }

/-- Add A × B, and C where the word names it, to a window: 128 bits and 16 guard bits of two's complement (R87, R88). -/
def addMx (p : Pair) (a b : TileIn) (c : Option TileIn) (m : MxAcc) : MxAcc :=
  let sums := (number (cellsRC m.rows m.cols)).map fun q =>
    let f := m.floors.getD q.1 0
    let d := addTagged (m.tags.getD q.1 .finite, m.win.getD q.1 0) (dotContrib p a b q.2.1 q.2.2 f)
    match c with
    | some t => addTagged d (contrib (elemVal t.shape t.hdr.grid t.bytes (t.shape.idx q.2.1 q.2.2)) f)
    | none => d
  { m with win := sums.map fun q => wrapI 144 q.2, tags := sums.map (·.1),
           flags := m.flags ||| a.flags ||| b.flags ||| ((c.map TileIn.flags).getD 0) }

/-- What a window gives for its output tile: W × 2^F rounded once, or its integers on their grids (R89, R90, R98). -/
def mxOut (t : Shape) (o : OutCtx) (m : MxAcc) : TileOut :=
  let el := (List.range t.count).map fun i =>
    let q := t.rc i
    let j := q.1 * m.cols + q.2
    let st := satTag 128 (m.tags.getD j .finite) (m.win.getD j 0)
    (st.1, m.win.getD j 0, m.floors.getD j 0, st.2)
  let past := (el.filter fun x => x.2.2.2).length
  if isXs t.format then
    let w := xsPack t.format (el.map fun x => (x.1, x.2.1))
    { body := w.1, grid := some m.grid, words := some m.words, had := decide (m.flags &&& flSxovf ≠ 0), sat := past + w.2,
      flags := m.flags ||| (if past + w.2 = 0 then 0 else flSxovf) }
  else
    let w := convert t o (el.map fun x => tagged x.1 x.2.1 x.2.2.1)
    { body := w.1, had := decide (m.flags &&& flSxovf ≠ 0), sat := past,
      flags := m.flags ||| (if past = 0 then 0 else flSxovf) ||| (if w.2 then flConvsat else 0) ||| (if o.mode = 5 then flSr else 0) }

/-- The conversion of an output (R78, R81). -/
def outCtx (x : BitVec 16) (e : Ew) (bi : Nat) (s : State) : OutCtx :=
  { mode := ((iwFmtRound e.w).map (·.2)).getD 0, seed := s.job.seed, sr := (ctxOf s (bindAt s x bi).stream).srStream, tseq := nextOut s (bindAt s x bi).stream }

/-- ACC_STATE: the accumulator is not in the state that the word needs (R92, R104, R106): 1 closed, 2 open. -/
def trapAcc (x : BitVec 16) (e : Ew) (acc : Nat) (isOpen : Bool) (s : State) : State :=
  trapPl x e evAccState (le 2 e.idx ++ le 1 acc ++ le 1 (if isOpen then 2 else 1)) s

/-- GRID_ABSENT (R90, R102). -/
def trapGrid (x : BitVec 16) (e : Ew) (st : BitVec 20) (n : BitVec 32) (s : State) : State :=
  trapPl x e evGridAbsent (le 2 e.idx ++ le 4 st.toNat ++ le 4 n.toNat) s

/-- Round a window to the output tile and close it; an XS format needs a window placed for XS (R89, R90). -/
def flushMx (x : BitVec 16) (e : Ew) (acc bi : Nat) (us : List InUse) (m : MxAcc) (s : State) : State :=
  let b := bindAt s x bi
  if isXs b.shape.format && !m.xs then trapGrid x e b.stream (nextOut s b.stream) s
  else
    let o := outCtx x e bi s
    issued x e (takeIns x us (writeOut x e bi us (mxOut b.shape o m) (setMx x acc {} s)))

/-- MMA with its tiles read (R85 to R91). -/
def mmaBody (x : BitVec 16) (e : Ew) (us : List InUse) (ts : List TileIn) (s : State) : State :=
  let start := bit (iwMod e.w) 0
  let fin := bit (iwMod e.w) 1
  let acc := iwArg e.w 4
  let m := mxOf s x acc
  match ts with
  | a :: b :: cs =>
    match pairOf a.shape.format b.shape.format with
    | none => trapPl x e evFormatPairInvalid (le 2 e.idx ++ le 1 a.shape.format ++ le 1 b.shape.format) s
    | some p =>
      if start = m.isOpen then trapAcc x e acc m.isOpen s
      else
        let m1 := addMx p a b cs.head? (if start then openMx (isXs (iwArg e.w 5)) p a b cs.head? else m)
        if fin then flushMx x e acc (iwArg e.w 3) us m1 s
        else issued x e (takeIns x us (noOut x e us (setMx x acc m1 s)))
  | _ => s

/-- MMA: A × B (+ C) into an accumulator; START opens it, END writes it (R55, R85 to R92). -/
def execMma (stn : BitVec 16) (err : ReadErr) (s : State) : Host.Outcome State Fault Refusal :=
  .next (issue 0x10 stn err (fun e t => outFree stn e t) (fun e t => withTiles err stn e (mmaBody stn e) t) s)

/-- ACC_FLUSH: rounds an accumulator to its output and closes it (R55, R89, R91). -/
def execAccFlush (stn : BitVec 16) (err : ReadErr) (s : State) : Host.Outcome State Fault Refusal :=
  .next (issue 0x11 stn err (fun e t => outFree stn e t) (fun e t =>
    let m := mxOf t stn (iwArg e.w 0)
    if m.isOpen then flushMx stn e (iwArg e.w 0) (iwArg e.w 1) [] m t else trapAcc stn e (iwArg e.w 0) false t) s)

end Sys2Proof.Machine
end

