-- ==== Sys2Proof/Machine/Vfunc.lean ====
section
/-!
DEFINITION. The transcendental functions of a VX station (R94, R96, R462): the exact value of the function, rounded once
to FP32. The functions are computed in fixed point with a bound on the error, at a precision that is raised until both
ends of the interval round to the same FP32 value; that value is then the correctly rounded one.
-/

namespace Sys2Proof.Machine

/-! ### Fixed point: an integer stands for itself over 2^w -/

/-- Product of two fixed-point numbers. -/
def fxMul (w : Nat) (a b : Int) : Int := a * b / (2 : Int) ^ w

/-- Quotient of two fixed-point numbers. -/
def fxDiv (w : Nat) (a b : Int) : Int := a * (2 : Int) ^ w / b

/-- A dyadic number in fixed point, rounded down. -/
def fxOf (w : Nat) (neg : Bool) (m : Nat) (e : Int) : Int :=
  let k := e + w
  let a : Int := if 0 ≤ k then m * 2 ^ k.toNat else m / 2 ^ (-k).toNat
  if neg then -a else a

/-- Σ z^(2k+1)/(2k+1), with the sign of each term alternating for arctan. -/
def oddSeries (w : Nat) (alt : Bool) (z2 : Int) : Nat → Nat → Int → Int
  | 0, _, _ => 0
  | n + 1, k, p =>
    (if alt && decide (k % 2 = 1) then -(p / (2 * k + 1 : Nat)) else p / (2 * k + 1 : Nat)) + oddSeries w alt z2 n (k + 1) (fxMul w p z2)

/-- artanh z for a small z. -/
def fxAtanh (w : Nat) (z : Int) : Int := oddSeries w false (fxMul w z z) (w / 3 + 4) 0 z

/-- arctan of 1/n. -/
def fxAtanInv (w n : Nat) : Int :=
  let z := (2 : Int) ^ w / n
  oddSeries w true (fxMul w z z) (w / 4 + 4) 0 z

/-- π by Machin's formula. -/
def fxPi (w : Nat) : Int := 4 * (4 * fxAtanInv w 5 - fxAtanInv w 239)

/-- ln 2. -/
def fxLn2 (w : Nat) : Int := 2 * fxAtanh w ((2 : Int) ^ w / 3)

/-- The Taylor series of exp: Σ r^k/k!. -/
def expSeries (w : Nat) (r : Int) : Nat → Nat → Int → Int
  | 0, _, _ => 0
  | n + 1, k, p => p + expSeries w r n (k + 1) (fxMul w p r / (k + 1 : Nat))

/-- exp x for |x| ≤ 2¹². -/
def fxExp (w : Nat) (x : Int) : Int :=
  let l := fxLn2 w
  let k := x / l
  let s := expSeries w (x - k * l) (w / 4 + 24) 0 ((2 : Int) ^ w)
  if 0 ≤ k then s * (2 : Int) ^ k.toNat else s / (2 : Int) ^ (-k).toNat

/-- Natural logarithm of a positive dyadic number. -/
def fxLog (w m : Nat) (e : Int) : Int :=
  let k := ilog m e
  let y := fxOf w false m (e - k)
  2 * fxAtanh w (fxDiv w (y - (2 : Int) ^ w) (y + (2 : Int) ^ w)) + k * fxLn2 w

/-- The series of sine (odd) and cosine (even): p, then −p r²/((k+1)(k+2)), and so on. -/
def trigSeries (w : Nat) (r2 : Int) : Nat → Nat → Int → Int
  | 0, _, _ => 0
  | n + 1, k, p => p + trigSeries w r2 n (k + 2) (-(fxMul w p r2 / ((k + 1) * (k + 2) : Nat)))

/-- sin (q = 0) or cos (q = 1) of a dyadic number: the quadrant is taken off with π of enough bits. -/
def fxSin (w : Nat) (q : Nat) (neg : Bool) (m : Nat) (e : Int) : Int :=
  let h := fxPi (w + 160) / 2
  let x := fxOf (w + 160) neg m e
  let k := x / h
  let r := (x - k * h) / (2 : Int) ^ 160
  let n := ((k + q) % 4).toNat
  let v := if n % 2 = 0 then trigSeries w (fxMul w r r) (w / 4 + 24) 1 r
    else trigSeries w (fxMul w r r) (w / 4 + 24) 0 ((2 : Int) ^ w)
  if 2 ≤ n then -v else v

/-- Logistic function of a fixed-point number: 1/(1 + e^−y); beyond ±4,096 the exponential is below the precision. -/
def fxSigmoid (w : Nat) (y : Int) : Int :=
  let one := (2 : Int) ^ w
  let lim := 4096 * one
  if lim < y then one else if y < -lim then 0
  else if 0 ≤ y then fxDiv w one (one + fxExp w (-y))
  else
    let t := fxExp w y
    fxDiv w t (one + t)

/-- Square root of a positive dyadic number, or its reciprocal, in fixed point. -/
def fxSqrt (w m : Nat) (e : Int) : Int :=
  let k := e + 2 * w
  Nat.sqrt (if 0 ≤ k then m * 2 ^ k.toNat else m / 2 ^ (-k).toNat)

/-- 2x for the tanh of GELU: √(8/π) × (x + 0.044715 x³), held within ±2¹³ by limiting x (the result is past the
precision there). -/
def geluArg (w : Nat) (neg : Bool) (m : Nat) (e : Int) : Int :=
  let x := clampI (-64 * (2 : Int) ^ w) (64 * (2 : Int) ^ w) (fxOf w neg m e)
  let c : Int := Nat.sqrt (((8 * (2 : Int) ^ (3 * w)) / fxPi w).toNat)
  fxMul w c (x + fxMul w (fxMul w x x) x * 44715 / 1000000)

/-- Codes of VFUNC (R94). -/
inductive Vf where
  | exp | exp2 | log | log2 | recip | rsqrt | sqrt | tanh | sigmoid | gelu | silu | sin | cos
  deriving DecidableEq, Repr

/-- Read a VFUNC sub-operation code (R94). -/
def vfOf : Nat → Option Vf
  | 0x00 => some .exp | 0x01 => some .exp2 | 0x02 => some .log | 0x03 => some .log2 | 0x04 => some .recip
  | 0x05 => some .rsqrt | 0x06 => some .sqrt | 0x07 => some .tanh | 0x08 => some .sigmoid | 0x09 => some .gelu
  | 0x0A => some .silu | 0x0B => some .sin | 0x0C => some .cos | _ => none

/-- Magnitude and sign of a product with x of a factor at precision w. -/
def timesX (m : Nat) (e : Int) (v : Int) : Int × Int := (v * m, e)

/-- The function at a finite non-zero input within its domain, at precision w: a value and its exponent beyond −w.
The error is below 2²⁴ units times the factor that was multiplied in. -/
def vfAt (f : Vf) (w : Nat) (neg : Bool) (m : Nat) (e : Int) : Int × Int × Nat :=
  let one := (2 : Int) ^ w
  let lim := 4096 * one
  let x := clampI (-lim) lim (fxOf w neg m e)
  match f with
  | .exp => (fxExp w x, 0, 1)
  | .exp2 => (fxExp w (fxMul w x (fxLn2 w)), 0, 2 ^ 13)
  | .log => (fxLog w m e, 0, 1)
  | .log2 => (fxDiv w (fxLog w m e) (fxLn2 w), 0, 2 ^ 10)
  | .recip => (let v : Int := 2 ^ (2 * w) / m; if neg then -v else v, -e - w, 1)
  | .rsqrt => (fxDiv w one (fxSqrt w (if e % 2 = 0 then m else 2 * m) 0), -(e / 2), 1)
  | .sqrt => (fxSqrt w (if e % 2 = 0 then m else 2 * m) 0, e / 2, 1)
  | .tanh => (2 * fxSigmoid w (2 * x) - one, 0, 1)
  | .sigmoid => (fxSigmoid w x, 0, 1)
  | .gelu => (let v := fxSigmoid w (geluArg w neg m e) * m; if neg then -v else v, e, m)
  | .silu => (let v := fxSigmoid w x * m; if neg then -v else v, e, m)
  | .sin => (fxSin w 0 neg m e, 0, 1)
  | .cos => (fxSin w 1 neg m e, 0, 1)

/-- The sign of a result that is known beforehand: positive, or that of the input; none for the others. -/
def vfSign (f : Vf) (neg : Bool) : Option Bool :=
  match f with
  | .exp | .exp2 | .sigmoid | .sqrt | .rsqrt => some false
  | .gelu | .silu | .tanh | .recip => some neg
  | _ => none

/-- FP32 code of an interval's end, with a known sign where there is one. -/
def endCode (sign : Option Bool) (w : Nat) (v e : Int) : Nat :=
  let neg := sign.getD (decide (v < 0))
  let mag := if sign = none then v.natAbs else (if neg then -v else v).toNat
  (fp32.write 0 0 (.fin neg mag (e - w))).1

/-- Round the function to FP32: raise the precision until both ends agree. -/
def vfRound (f : Vf) (neg : Bool) (m : Nat) (e : Int) : Nat → Nat → Nat
  | 0, w => let v := vfAt f w neg m e; endCode (vfSign f neg) w v.1 v.2.1
  | n + 1, w =>
    let v := vfAt f w neg m e
    let d : Int := 2 ^ 24 * v.2.2
    let lo := endCode (vfSign f neg) w (v.1 - d) v.2.1
    let hi := endCode (vfSign f neg) w (v.1 + d) v.2.1
    if lo = hi then lo else vfRound f neg m e n (2 * w)

/-- Results at zeros and infinities, and outside the domain (R462); none where R96 applies. -/
def vfSpecial (f : Vf) (v : Val) : Option Val :=
  let one : Val := .fin false 1 0
  match v with
  | .nan => some .nan
  | .inf n =>
    match f with
    | .exp | .exp2 => some (if n then .zero else .inf false)
    | .log | .log2 => some (if n then .nan else .inf false)
    | .recip => some (.fin n 0 0)
    | .rsqrt => some (if n then .nan else .zero)
    | .sqrt => some (if n then .nan else .inf false)
    | .tanh => some (.fin n 1 0)
    | .sigmoid => some (if n then .zero else one)
    | .gelu | .silu => some (if n then .fin true 0 0 else .inf false)
    | .sin | .cos => some .nan
  | .fin n m _ =>
    if m = 0 then
      match f with
      | .exp | .exp2 | .cos => some one
      | .log | .log2 => some (.inf true)
      | .recip | .rsqrt => some (.inf n)
      | .sigmoid => some (.fin false 1 (-1))
      | .sqrt | .tanh | .gelu | .silu | .sin => some (.fin n 0 0)
    else if n then
      match f with
      | .log | .log2 | .rsqrt | .sqrt => some .nan
      | _ => none
    else none

/-- VFUNC on one FP32 value (R96, R462). -/
def vfunc (f : Vf) (v : Val) : Val :=
  match vfSpecial f v with
  | some r => r
  | none =>
    match v with
    | .fin n m e => fp32.read (vfRound f n m e 3 384)
    | w => w

end Sys2Proof.Machine
end

