-- ==== Sys2Proof/Machine/Vx.lean ====
section
/-!
DEFINITION. Vector stations: VEW, VRED, VCVT, VXPOSE, VGATHER, VSCATTER and VFUNC (R93 to R96, R461 to R463). Operands
count by their FP32 values, and FP32 arithmetic has the signed zeros and infinities of IEEE 754-2019 (log entry 12, DEDUCED).
-/

namespace Sys2Proof.Machine

/-! ### FP32 operations (R93, R94) -/

/-- The exact sum of two values; a sum of zeros of both signs, or one that cancels, is +0. -/
def Val.add : Val → Val → Val
  | .nan, _ => .nan
  | _, .nan => .nan
  | .inf n, .inf k => if n = k then .inf n else .nan
  | .inf n, _ => .inf n
  | _, .inf k => .inf k
  | .fin n m e, .fin k l g =>
    let q := min e g
    let a : Int := m * 2 ^ (e - q).toNat
    let b : Int := l * 2 ^ (g - q).toNat
    if m = 0 ∧ l = 0 then .fin (n && k) 0 0 else .ofInt ((if n then -a else a) + (if k then -b else b)) q

/-- The value without its sign. -/
def Val.abs : Val → Val
  | .nan => .nan
  | .inf _ => .inf false
  | .fin _ m e => .fin false m e

/-- The value a is below b; zeros of either sign are equal. -/
def Val.lt (a b : Val) : Bool :=
  match a.add b.negate with
  | .fin n m _ => n && decide (m ≠ 0)
  | .inf n => n
  | .nan => match a, b with
    | _, _ => false

/-- The FP32 code of a value that FP32 holds. -/
def codeOf (v : Val) : Nat := (fp32.write 0 0 v).1

/-- The greatest, or the least, of a list. What a NaN among them gives, and which sign a zero has where zeros of both
signs are the extreme, no rule states: a free value of the operands (log entry 13, DESIGN CHOICE). -/
def extreme (low : Bool) (l : List Val) : Val :=
  if l.any fun v => decide (v = .nan) then fp32.read (Config.extremeNan low (l.map codeOf)).toNat
  else match l with
    | [] => .zero
    | v :: t =>
      let m := t.foldl (fun a x => if (if low then x.lt a else a.lt x) then x else a) v
      if m.isZero && (l.any fun x => x.isZero && x.neg) && (l.any fun x => x.isZero && !x.neg) then .fin (Config.extremeZero low (l.map codeOf)) 0 0 else m

/-- SCALE2: I0 × 2^n for the integer nearest I1, at most 512 of its sign (R461). -/
def scale2 (a b : Val) : Val :=
  match b with
  | .nan => .nan
  | .inf false => if a = .nan ∨ a.isZero = true then .nan else .inf a.neg
  | .inf true => match a with
    | .fin n _ _ => .fin n 0 0
    | _ => .nan
  | .fin n m e => a.scale (clampI (-512) 512 (toGrid n m e 0))

/-- An element-wise operation before its rounding to FP32 (R94). -/
def vewOp (k : Nat) (a b c : Val) : Val :=
  if k = 0x00 then a.add b
  else if k = 0x01 then a.add b.negate
  else if k = 0x02 then a.mul b
  else if k = 0x03 then (a.mul b).add c
  else if k = 0x04 then extreme false [a, b]
  else if k = 0x05 then extreme true [a, b]
  else if k = 0x06 then a.abs
  else if k = 0x07 then a.negate
  else if k = 0x08 then extreme false [a, .zero]
  else if k = 0x09 then (if c.isZero then b else a)
  else scale2 a b

/-! ### Elements by row and column -/

/-- Element (r, c) of a tile, a single row or column broadcast (R93). -/
def TileIn.at_ (t : TileIn) (r c : Nat) : Val :=
  elemVal t.shape t.hdr.grid t.bytes (t.shape.idx (if t.shape.rows = 1 then 0 else r) (if t.shape.cols = 1 then 0 else c))

/-- The flags of a word's inputs together (R26). -/
def flagsOf (ts : List TileIn) : BitVec 8 := ts.foldl (fun f t => f ||| t.flags) 0

/-- FP32 results in the storage order of the output, converted to its format (R93). -/
def vxOut (x : BitVec 16) (e : Ew) (bi : Nat) (ts : List TileIn) (vs : List Val) (s : State) : TileOut :=
  let o := outCtx x e bi s
  let w := convert (bindAt s x bi).shape o vs
  { body := w.1, flags := flagsOf ts ||| (if w.2 then flConvsat else 0) ||| (if o.mode = 5 then flSr else 0), had := true }

/-- A vector word has its output: it is written, and the word has issued. -/
def vxDone (x : BitVec 16) (e : Ew) (bi : Nat) (us : List InUse) (t : TileOut) (s : State) : State :=
  issued x e (takeIns x us (writeOut x e bi us t s))

/-- Row and column of each element of a shape, in storage order. -/
def Shape.cells (t : Shape) : List (Nat × Nat) := (List.range t.count).map t.rc

/-- The storage index of I1's element that element (r, c) of the output takes, a single row or column broadcast (R93). -/
def Shape.bIdx (t : Shape) (r c : Nat) : Nat := t.idx (if t.rows = 1 then 0 else r) (if t.cols = 1 then 0 else c)

/-- XADD: I0 rounded to the grid of I1, added, carried in I1's format and on its grids (R94, R97, R98, R461). -/
def xaddOut (t : Shape) (a b : TileIn) : TileOut :=
  let cs := t.cells.map fun q =>
    let i := b.shape.bIdx q.1 q.2
    let g := gridAt b.shape b.hdr.grid b.bytes i
    addTagged (contrib (a.at_ q.1 q.2) g) (contrib (elemVal b.shape b.hdr.grid b.bytes i) g)
  let w := xsPack t.format cs
  let words := (List.range t.blocks).map fun k => BitVec.ofInt 16 (gridAt b.shape b.hdr.grid b.bytes (b.shape.bIdx (t.blockHead k).1 (t.blockHead k).2))
  { body := w.1, grid := some b.hdr.grid, sat := w.2, had := decide ((a.flags ||| b.flags) &&& flSxovf ≠ 0),
    words := some (if b.shape.gridMode = 2 then words else []), flags := a.flags ||| b.flags ||| (if w.2 = 0 then 0 else flSxovf) }

/-- VEW with its tiles read (R93, R94, R461). -/
def vewBody (x : BitVec 16) (e : Ew) (us : List InUse) (ts : List TileIn) (s : State) : State :=
  let k := iwArg e.w 0
  let t := (bindAt s x (iwArg e.w 4)).shape
  match ts with
  | [] => s
  | a :: r =>
    let b := r.headD a
    let c := (r.drop 1).headD a
    if k = 0x10 then vxDone x e (iwArg e.w 4) us (xaddOut t a b) s
    else
      let vs := t.cells.map fun q => toFp32 (vewOp k (toFp32 (a.at_ q.1 q.2)) (toFp32 (b.at_ q.1 q.2)) (toFp32 (c.at_ q.1 q.2)))
      vxDone x e (iwArg e.w 4) us (vxOut x e (iwArg e.w 4) ts vs s) s

/-- VEW: an element-wise operation (R94). -/
def execVew (stn : BitVec 16) (err : ReadErr) (s : State) : Host.Outcome State Fault Refusal :=
  .next (issue 0x20 stn err (fun e t => outFree stn e t) (fun e t => withTiles err stn e (vewBody stn e) t) s)

/-! ### Reduction (R95) -/

/-- One level of the tree: neighbours added with RNE, an odd last one passed on. -/
def treeLevel : List Val → List Val
  | a :: b :: t => toFp32 (a.add b) :: treeLevel t
  | l => l

/-- The balanced tree over n elements (R95). -/
def treeSum : Nat → List Val → Val
  | 0, l => l.headD .zero
  | f + 1, l => if l.length ≤ 1 then l.headD .zero else treeSum f (treeLevel l)

/-- The reduction of one line (R94, R95); SUMSQ adds squares rounded to FP32 (log entry 14, DEDUCED). -/
def vredLine (k : Nat) (l : List Val) : Val :=
  if k = 0 then treeSum l.length l
  else if k = 1 then extreme false l
  else if k = 2 then extreme true l
  else if k = 3 then treeSum l.length (l.map fun v => toFp32 (v.mul v))
  else extreme false (l.map Val.abs)

/-- VRED with its tile read (R94, R95). -/
def vredBody (x : BitVec 16) (e : Ew) (us : List InUse) (ts : List TileIn) (s : State) : State :=
  let t := (bindAt s x (iwArg e.w 2)).shape
  match ts with
  | [] => s
  | a :: _ =>
    let vs := t.cells.map fun q =>
      let line := if iwArg e.w 3 = 0 then (List.range a.shape.cols).map fun c => (q.1, c) else (List.range a.shape.rows).map fun r => (r, q.2)
      vredLine (iwArg e.w 0) (line.map fun p => toFp32 (a.at_ p.1 p.2))
    vxDone x e (iwArg e.w 2) us (vxOut x e (iwArg e.w 2) ts vs s) s

/-- VRED: a reduction within a tile (R94, R95). -/
def execVred (stn : BitVec 16) (err : ReadErr) (s : State) : Host.Outcome State Fault Refusal :=
  .next (issue 0x21 stn err (fun e t => outFree stn e t) (fun e t => withTiles err stn e (vredBody stn e) t) s)

/-! ### Conversion and functions (R93, R96, R462) -/

/-- One FP32 result per element of the tile. -/
def mapBody (f : Val → Val) (bi : Nat) (x : BitVec 16) (e : Ew) (us : List InUse) (ts : List TileIn) (s : State) : State :=
  let t := (bindAt s x bi).shape
  match ts with
  | [] => s
  | a :: _ => vxDone x e bi us (vxOut x e bi ts (t.cells.map fun q => f (toFp32 (a.at_ q.1 q.2))) s) s

/-- VCVT: format conversion (R93). -/
def execVcvt (stn : BitVec 16) (err : ReadErr) (s : State) : Host.Outcome State Fault Refusal :=
  .next (issue 0x22 stn err (fun e t => outFree stn e t) (fun e t => withTiles err stn e (mapBody (fun v => v) (iwArg e.w 1) stn e) t) s)

/-- VFUNC: a fixed function of each element (R96, R462). -/
def execVfunc (stn : BitVec 16) (err : ReadErr) (s : State) : Host.Outcome State Fault Refusal :=
  .next (issue 0x26 stn err (fun e t => outFree stn e t) (fun e t => withTiles err stn e
    (mapBody (fun v => match vfOf (iwArg e.w 0) with
      | some f => vfunc f v
      | none => v) (iwArg e.w 2) stn e) t) s)

/-! ### Moving elements (R463) -/

/-- The code of element i of a tile. -/
def TileIn.code (t : TileIn) (i : Nat) : Nat := elemCode (fmtBits t.shape.format) t.bytes i

/-- The scale area of a tile, as it stands. -/
def TileIn.scales (t : TileIn) : Bytes := part t.bytes t.shape.elemLen t.shape.scaleLen

/-- The grid words in a scale area. -/
def TileIn.gridWords (t : TileIn) : List (BitVec 16) :=
  if t.shape.gridMode = 2 then (List.range t.shape.blocks).map fun k => BitVec.ofNat 16 (gridWord t.shape t.bytes k) else []

/-- VXPOSE: rows and columns exchanged; every element keeps its bits, every block its scale byte and grid word, and blocks
keep their order (R463). -/
def xposeOut (t : Shape) (a : TileIn) : TileOut :=
  { body := packCodes (fmtBits t.format) (t.cells.map fun q => a.code (a.shape.idx q.2 q.1)) ++ a.scales.take a.shape.gridOff
    grid := some a.hdr.grid, words := some a.gridWords, flags := a.flags, had := true }

/-- VXPOSE (R463). -/
def execVxpose (stn : BitVec 16) (err : ReadErr) (s : State) : Host.Outcome State Fault Refusal :=
  .next (issue 0x23 stn err (fun e t => outFree stn e t) (fun e t => withTiles err stn e (fun us ts u => match ts with
    | a :: _ => vxDone stn e (iwArg e.w 1) us (xposeOut (bindAt u stn (iwArg e.w 1)).shape a) u
    | [] => u) t) s)

/-- An index of R463: the value of an element, where it is an integer from 0 to n - 1. -/
def indexOf (v : Val) (n : Nat) : Option Nat :=
  match v with
  | .fin neg m e =>
    let p := splitAt m e 0
    if p.2.1 = 0 ∧ (neg = false ∨ p.1 = 0) ∧ p.1 < n then some p.1 else none
  | _ => none

/-- Where each element of an output comes from, in storage order: an index into I0, or nothing. -/
abbrev Moves := List (Option Nat)

/-- VGATHER: element j comes from index I1[j] (R463). -/
def gatherMoves (a b : TileIn) : Moves := b.vals.map fun v => indexOf v a.shape.count

/-- VSCATTER: element i comes from the highest j with I1[j] = i (R463). -/
def scatterMoves (a b : TileIn) : Moves :=
  let dest := (number b.vals).filterMap fun q => (indexOf q.2 a.shape.count).map fun i => (i, q.1)
  (List.range a.shape.count).map fun i => ((dest.filter fun q => decide (q.1 = i)).getLast?).map (·.2)

/-- Moved elements: bit for bit in plain formats and XS, as values through R83 with RNE in MX formats; +0 where nothing
comes (R463). -/
def movedOut (t : Shape) (o : OutCtx) (a b : TileIn) (m : Moves) : TileOut :=
  let fl := a.flags ||| b.flags
  if fmtMx t.format then
    let w := convert t { o with mode := 0 } (m.map fun i => (i.map fun k => elemVal a.shape a.hdr.grid a.bytes k).getD .zero)
    { body := w.1, flags := fl ||| (if w.2 then flConvsat else 0), had := true }
  else
    { body := packCodes (fmtBits t.format) (m.map fun i => (i.map a.code).getD 0), grid := if isXs t.format then some a.hdr.grid else none,
      flags := fl, had := true }

/-- What VGATHER or VSCATTER gives for its output, its tiles read. -/
def moveOut (mv : TileIn → TileIn → Moves) (x : BitVec 16) (e : Ew) (a b : TileIn) (s : State) : TileOut :=
  movedOut (bindAt s x (iwArg e.w 2)).shape (outCtx x e (iwArg e.w 2) s) a b (mv a b)

/-- VGATHER with its tiles read. -/
def gatherBody (x : BitVec 16) (e : Ew) (us : List InUse) (ts : List TileIn) (s : State) : State :=
  match ts with
  | a :: b :: _ => vxDone x e (iwArg e.w 2) us (moveOut gatherMoves x e a b s) s
  | _ => s

/-- Elements of a body are written one by one at a place in tile store, narrow ones through the merge buffer (R127, R463). -/
def scatterWrite (a bits : Nat) (body : Bytes) (l : List Nat) (s : State) : State :=
  l.foldl (fun t i => tsWrite {} (a + i * bits / 8) (part body (i * bits / 8) ((i * bits + bits + 7) / 8 - i * bits / 8)) t) s

/-- VSCATTER with its tiles read: the output begins as +0, and each element is then written where its index says, in plain formats and XS
element by element; an MX output is converted as a whole (R463). -/
def scatterBody (x : BitVec 16) (e : Ew) (us : List InUse) (ts : List TileIn) (s : State) : State :=
  match ts with
  | a :: b :: _ =>
    let bd := bindAt s x (iwArg e.w 2)
    let o := moveOut scatterMoves x e a b s
    if fmtMx bd.shape.format then vxDone x e (iwArg e.w 2) us o s
    else
      let to_ := slotAddr bd.stream (ctxOf s bd.stream) (nextOut s bd.stream) + 32
      scatterWrite to_ (fmtBits bd.shape.format) o.body (b.vals.filterMap fun v => indexOf v a.shape.count)
        (vxDone x e (iwArg e.w 2) us { o with body := zeros o.body.length } s)
  | _ => s

/-- VGATHER (R463). -/
def execVgather (stn : BitVec 16) (err : ReadErr) (s : State) : Host.Outcome State Fault Refusal :=
  .next (issue 0x24 stn err (fun e t => outFree stn e t) (fun e t => withTiles err stn e (gatherBody stn e) t) s)

/-- VSCATTER (R463). -/
def execVscatter (stn : BitVec 16) (err : ReadErr) (s : State) : Host.Outcome State Fault Refusal :=
  .next (issue 0x25 stn err (fun e t => outFree stn e t) (fun e t => withTiles err stn e (scatterBody stn e) t) s)

end Sys2Proof.Machine
end

