-- ==== Sys2Proof/Machine/Sx.lean ====
section
/-!
DEFINITION. Exact-sum stations: SUM_OPEN, SUM_ADD, SUM_CLOSE (R101 to R104) and EXPMAX (R99, R100).
-/

namespace Sys2Proof.Machine

/-- An accumulation of an SX station. -/
def sxOf (s : State) (x : BitVec 16) (a : Nat) : SxAcc := tget {} s.stn.sx (x.toNat * 4 + a)

/-- Write an accumulation. -/
def setSx (x : BitVec 16) (a : Nat) (m : SxAcc) (s : State) : State := s.modStn fun t => { t with sx := tset {} t.sx (x.toNat * 4 + a) m }

/-- The EXPMAX register of an SX station, 2,048 bytes (R100). -/
def expReg (s : State) (x : BitVec 16) : Bytes := padTo 2048 (tget [] s.stn.expmax x.toNat)

/-- Write the EXPMAX register; all zero is its initial content. -/
def setExpReg (x : BitVec 16) (r : Bytes) (s : State) : State :=
  s.modStn fun t => { t with expmax := tset [] t.expmax x.toNat (if r.all fun b => decide (b = 0) then [] else r) }

/-! ### Accumulations -/

/-- Every earlier EXPMAX word of a station has completed (R100). -/
def expmaxDone (x : BitVec 16) (s : State) : Bool :=
  let ws := (s.job.image.map fun i => progOf i x).getD []
  !s.stn.outst.any fun o => decide (o.stn = x) && (ws[o.idx]?).any fun w => decide (iwOpc w = 0x33)

/-- SUM_OPEN: opens an accumulation with a grid source (R102, R104). -/
def sumOpen (x : BitVec 16) (e : Ew) (s : State) : State :=
  let acc := iwArg e.w 0
  let src := iwArg e.w 1
  if (sxOf s x acc).isOpen then trapAcc x e acc true s
  else
    issued x e (setSx x acc
      { isOpen := true, src := BitVec.ofNat 2 src, perBlock := src = 2 ∧ bit (iwMod e.w) 1, h40 := src = 2 ∧ bit (iwMod e.w) 0,
        reg := if src = 2 then expReg s x else [] } s)

/-- SUM_OPEN (R102). With gridsrc 2 it waits for the EXPMAX words before it (R100). -/
def execSumOpen (stn : BitVec 16) (err : ReadErr) (s : State) : Host.Outcome State Fault Refusal :=
  .next (issue 0x30 stn err (fun e t => decide (iwArg e.w 1 ≠ 2) || expmaxDone stn t) (sumOpen stn) s)

/-- The grid that a register byte gives (R101). -/
def regGrid (h40 : Bool) (b : Nat) : Int := (max 1 (min 254 b) : Nat) - 127 - (if h40 then 40 else 96)

/-- The direction in which an accumulation's blocks run: the tile's, or along rows (R101). -/
def blockPlace (t : Shape) : Nat := if t.place = 2 then 2 else 1

/-- The grids of an accumulation, from its first tile: its grid mode and the grid of each element; none where it has none
(R101, R102). -/
def firstGrids (m : SxAcc) (t : TileIn) : Option (Nat × List Int) :=
  let n := t.shape.count
  if m.src = 2 then
    if m.perBlock then
      some (2, (List.range n).map fun i => regGrid m.h40 (m.reg.getD (t.shape.blockAt (blockPlace t.shape) i) 0).toNat)
    else some (1, (List.range n).map fun _ => regGrid m.h40 (m.reg.getD 0 0).toNat)
  else if t.shape.gridMode = 0 then none
  else some (t.shape.gridMode, (List.range n).map fun i => gridAt t.shape t.hdr.grid t.bytes i)

/-- The first difference between the grids of an accumulation and those of a tile, element by element in the accumulation's layout:
expected and found (R102). -/
def gridDiff (m : SxAcc) (t : TileIn) : Option (Int × Int) :=
  let own : Shape := { t.shape with layout := m.layout.toNat }
  let f := (List.range t.shape.count).map fun i => gridAt t.shape t.hdr.grid t.bytes (t.shape.idx (own.rc i).1 (own.rc i).2)
  if t.shape.gridMode ≠ m.gridMode.toNat then some (m.grids.headD 0, f.headD 0)
  else ((List.range t.shape.count).find? fun i => decide (m.grids.getD i 0 ≠ f.getD i 0)).map fun i => (m.grids.getD i 0, f.getD i 0)

/-- Add a tile's elements to an accumulation, each brought to its grid and added in 160 bits (R97, R103). -/
def addSx (m : SxAcc) (t : TileIn) : SxAcc :=
  let own : Shape := { t.shape with layout := m.layout.toNat }
  let sums := (List.range t.shape.count).map fun i =>
    let q := own.rc i
    addTagged (m.tags.getD i .finite, m.sum.getD i 0) (contrib (elemVal t.shape t.hdr.grid t.bytes (t.shape.idx q.1 q.2)) (m.grids.getD i 0))
  { m with tags := sums.map (·.1), sum := sums.map fun q => wrapI 160 q.2, flags := m.flags ||| t.flags, added := true }

/-- SUM_ADD with its tile read (R102 to R104). -/
def sumAddBody (x : BitVec 16) (e : Ew) (us : List InUse) (ts : List TileIn) (s : State) : State :=
  let acc := iwArg e.w 0
  let m := sxOf s x acc
  match ts, us with
  | t :: _, u :: _ =>
    if !m.isOpen then trapAcc x e acc false s
    else if !m.added then
      match firstGrids m t with
      | none => trapGrid x e u.stream u.tile s
      | some (mode, g) =>
        let m1 : SxAcc :=
          { m with rows := t.shape.rows, cols := t.shape.cols, layout := BitVec.ofNat 2 t.shape.layout, place := BitVec.ofNat 2 (blockPlace t.shape),
                   gridMode := BitVec.ofNat 2 mode, grids := g }
        issued x e (takeIns x us (noOut x e us (setSx x acc (addSx m1 t) s)))
    else if t.shape.rows ≠ m.rows ∨ t.shape.cols ≠ m.cols then
      trapPl x e evTileHeaderMismatch (le 4 u.stream.toNat ++ le 4 u.tile.toNat ++ le 4 t.hdr.tseq.toNat ++ le 1 1) s
    else match (if m.src = 1 then gridDiff m t else none) with
      | some d => trapPl x e evGridMismatch (le 2 e.idx ++ le 4 u.stream.toNat ++ leInt 2 d.1 ++ leInt 2 d.2) s
      | none => issued x e (takeIns x us (noOut x e us (setSx x acc (addSx m t) s)))
  | _, _ => s

/-- SUM_ADD: adds a tile to an accumulation (R103). -/
def execSumAdd (stn : BitVec 16) (err : ReadErr) (s : State) : Host.Outcome State Fault Refusal :=
  .next (issue 0x31 stn err (fun _ _ => true) (fun e t => withTiles err stn e (sumAddBody stn e) t) s)

/-- The grid word of each block of an accumulation, for a tile of its shape (R101, R103). -/
def accWords (m : SxAcc) (t : Shape) : List (BitVec 16) :=
  let own : Shape := { t with layout := m.layout.toNat, rows := m.rows, cols := m.cols }
  (List.range t.blocks).map fun k => BitVec.ofInt 16 (m.grids.getD (own.idx (t.blockHead k).1 (t.blockHead k).2) 0)

/-- What an accumulation gives for its output tile (R103): each element by its row and column, on the accumulation's grids; nothing
ties the output's entry to the tiles that were added, and an element that none of them has is 0 (log entry 76, DESIGN CHOICE). -/
def sxOut (t : Shape) (o : OutCtx) (m : SxAcc) : TileOut :=
  let own : Shape := { t with layout := m.layout.toNat, rows := m.rows, cols := m.cols }
  let el := t.cells.map fun q =>
    let j := if q.1 < m.rows ∧ q.2 < m.cols then own.idx q.1 q.2 else m.sum.length
    (m.tags.getD j .finite, m.sum.getD j 0, m.grids.getD j 0)
  let had := decide (m.flags &&& flSxovf ≠ 0)
  if isXs t.format then
    let w := xsPack t.format (el.map fun x => (x.1, x.2.1))
    { body := w.1, grid := some (BitVec.ofInt 16 (m.grids.headD 0)), words := some (accWords m t), had := had, sat := w.2,
      flags := m.flags ||| (if w.2 = 0 then 0 else flSxovf) }
  else
    let w := convert t o (el.map fun x => tagged x.1 x.2.1 x.2.2)
    { body := w.1, had := had, flags := m.flags ||| (if w.2 then flConvsat else 0) ||| (if o.mode = 5 then flSr else 0) }

/-- SUM_CLOSE: writes an accumulation once and closes it; without an added tile it has no shape and the word traps (R103,
R104). -/
def sumClose (x : BitVec 16) (e : Ew) (s : State) : State :=
  let acc := iwArg e.w 0
  let m := sxOf s x acc
  let b := bindAt s x (iwArg e.w 1)
  if !m.isOpen || !m.added then trapAcc x e acc m.isOpen s
  else
    issued x e (writeOut x e (iwArg e.w 1) [] (sxOut b.shape (outCtx x e (iwArg e.w 1) s) m) (setSx x acc {} s))

/-- SUM_CLOSE (R103). -/
def execSumClose (stn : BitVec 16) (err : ReadErr) (s : State) : Host.Outcome State Fault Refusal :=
  .next (issue 0x32 stn err (fun e t => outFree stn e t) (sumClose stn) s)

/-! ### EXPMAX (R99, R100) -/

/-- The byte of a list of elements: E + 127 for the smallest E above every magnitude, 0 for zeros, 0xFF for a NaN, an
infinity or ±SAT (R99). -/
def expByte (vs : List Val) : Nat :=
  if vs.any fun v => match v with
      | .fin _ _ _ => false
      | _ => true then 0xFF
  else match vs.filterMap Val.log? with
    | [] => 0
    | l :: ls => (clampI 1 254 (ls.foldl max l + 1 + 127)).toNat

/-- The bytes of a tile or of its blocks, in block order (R99). -/
def expBytes (m : Nat) (t : TileIn) : Bytes :=
  if bit m 1 then t.bytes.take t.shape.count
  else if !bit m 0 then [BitVec.ofNat 8 (expByte t.vals)]
  else
    let n := if t.shape.place = 2 then ceilDiv t.shape.rows 32 * t.shape.cols else t.shape.rows * ceilDiv t.shape.cols 32
    let vs := number t.vals
    (List.range n).map fun k => BitVec.ofNat 8 (expByte ((vs.filter fun q => decide (t.shape.blockAt (blockPlace t.shape) q.1 = k)).map (·.2)))

/-- The bytewise maximum of a register with the first bytes of a list. -/
def maxBytes (r b : Bytes) : Bytes := (number r).map fun q => match b[q.1]? with
  | some y => if q.2.toNat < y.toNat then y else q.2
  | none => q.2

/-- EXPMAX with its tile read (R99, R100). -/
def expmaxBody (x : BitVec 16) (e : Ew) (us : List InUse) (ts : List TileIn) (s : State) : State :=
  match ts with
  | [] => s
  | t :: _ =>
    let b := expBytes (iwMod e.w) t
    let r := maxBytes (if bit (iwMod e.w) 2 then zeros 2048 else expReg s x) b
    issued x e (takeIns x us (writeOut x e (iwArg e.w 1) us { body := r.take b.length, flags := t.flags, had := true } (setExpReg x r s)))

/-- EXPMAX: the maximum-exponent pass (R99, R100). -/
def execExpmax (stn : BitVec 16) (err : ReadErr) (s : State) : Host.Outcome State Fault Refusal :=
  .next (issue 0x33 stn err (fun e t => outFree stn e t) (fun e t => withTiles err stn e (expmaxBody stn e) t) s)

end Sys2Proof.Machine
end

