-- ==== Sys2Proof/Machine/Fx.lean ====
section
/-!
DEFINITION. Transport of tiles between modules (R148, R149, R156, R210 to R222, R229 to R232): forwards and their cells,
SEND and SUMPASS, the receiving side, acknowledgements, resends, breaks.
-/

namespace Sys2Proof.Machine

/-! ### Counting events -/

/-- The header fields that every cell of a tile copies (R148). -/
def tileCopy (h : TileHdr) : Nat :=
  h.format.toNat + 2 ^ 8 * h.trow.toNat + 2 ^ 24 * h.tcol.toNat + 2 ^ 40 * h.rowsM1.toNat + 2 ^ 49 * h.colsM1.toNat +
    2 ^ 58 * h.layout.toNat + 2 ^ 60 * h.scalePlace.toNat + 2 ^ 62 * h.plen.toNat + 2 ^ 79 * h.scaleOff.toNat +
    2 ^ 90 * h.flags.toNat + 2 ^ 98 * h.gridMode.toNat + 2 ^ 100 * h.grid.toNat + 2 ^ 116 * h.prodMod.toNat + 2 ^ 128 * h.prodStn.toNat

/-- Read the copied fields of a cell header. -/
def readCopy (v : Nat) : TileHdr :=
  { format := BitVec.ofNat 8 v, trow := BitVec.ofNat 16 (v >>> 8), tcol := BitVec.ofNat 16 (v >>> 24), rowsM1 := BitVec.ofNat 9 (v >>> 40),
    colsM1 := BitVec.ofNat 9 (v >>> 49), layout := BitVec.ofNat 2 (v >>> 58), scalePlace := BitVec.ofNat 2 (v >>> 60), plen := BitVec.ofNat 17 (v >>> 62),
    scaleOff := BitVec.ofNat 11 (v >>> 79), flags := BitVec.ofNat 8 (v >>> 90), gridMode := BitVec.ofNat 2 (v >>> 98), grid := BitVec.ofNat 16 (v >>> 100),
    prodMod := BitVec.ofNat 12 (v >>> 116), prodStn := BitVec.ofNat 16 (v >>> 128) }

/-- A data cell of a tile: header without CRC and lane tag as a number (R148). -/
def cellHdr (h : TileHdr) (stream : Nat) (base : BitVec 32) (k : Nat) (hop : Nat) : Nat :=
  tileCopy h + 2 ^ 144 * k + 2 ^ 150 * (base + BitVec.ofNat 32 k).toNat + 2 ^ 182 * stream + 2 ^ 218 * hop + 2 ^ 222

/-- `CH.HOP` of cell k of C (R148, R211). -/
def hopBits (k cells : Nat) (resent fwd : Bool) : Nat := b2n (decide (k + 1 = cells)) + 2 * b2n resent + 4 * b2n fwd

/-! ### Places on a link (R156) -/

/-- The next n free places from a slot: slot and position, without the service places. -/
def placesFrom : Nat → Nat → Nat → Nat → Nat → List (Nat × Nat)
  | 0, _, _, _, _ => []
  | f + 1, w, slot, pos, n =>
    if n = 0 then []
    else if w ≤ pos then placesFrom f w (slot + 1) 0 n
    else if pos = 0 ∧ slot % 64 = 0 then placesFrom f w slot 1 n
    else (slot, pos) :: placesFrom f w slot (pos + 1) (n - 1)

/-- The slots of the period that carry cells of a fast-plane link; none for a link whose cells do not follow a slot table (R202,
R206, R208). -/
def linkSlots (s : State) (l : PhysLink) : Option (List Nat) :=
  if slotFibre s l.fibre then
    match s.job.image with
    | some i => i.slots.map fun t => fastSlots i t l.fibre l.link.toNat (periodLen s)
    | none => none
  else none

/-- Time since the newest period Bell, in 1/64 ns. -/
def intoPeriod (s : State) : Nat := (s.tm.ft - s.job.tb).toNat

/-- The first slot in which a tile may start now: after the link's previous tile (R156, R208). -/
def firstSlot (l : PhysLink) (tCell : Nat) (s : State) : Nat :=
  max l.freeSlot (match linkSlots s l with
    | some ks => cellSlotAt ks (intoPeriod s)
    | none => ceilDiv (s.tm.ft - l.svcAt).toNat (max 1 tCell))

/-- The places of the next n cells on a link: slot and position (R156). -/
def nextPlaces (l : PhysLink) (tCell n : Nat) (s : State) : List (Nat × Nat) :=
  placesFrom (4 * n + 8) (max 1 l.lanes.length) (firstSlot l tCell s) 0 n

/-- A link has the cell slots that n cells take before the period's last slot; any link but one of a slot table has (R208; a tile
whose slots do not all fit: log entry 72, DEDUCED). -/
def hasSlot (s : State) (l : PhysLink) (tCell n : Nat) : Bool :=
  match linkSlots s l with
  | some ks => (nextPlaces l tCell n s).all fun p => decide (p.1 < 24 * ks.length)
  | none => true

/-- The fabric time at which the slots that a link has given away end (R156, R208). -/
def slotEnd (s : State) (l : PhysLink) (tCell : Nat) : Nat :=
  match linkSlots s l with
  | some ks => s.job.tb.toNat + (cellSlotEnd ks (l.freeSlot - 1)).getD 0
  | none => l.svcAt.toNat + l.freeSlot * tCell

/-- The cell time of the fabric, 1/64 ns (R45). -/
def tCellOf (s : State) : Nat := (s.prof.fab.map (·.tCell)).getD 2725

/-! ### Forwards (R210 to R212) -/

/-- The number of the logical link that a forward names. -/
def Fwd.name (f : Fwd) : Nat := linkKey f.fx.toNat f.link.toNat

/-- The logical link of a forward. -/
def Fwd.link? (f : Fwd) (s : State) : Option LogLink := logLink s f.fx.toNat f.link.toNat true

/-- The link of a forward is in service (R219). -/
def Fwd.up (f : Fwd) (s : State) : Bool := ((f.link? s).map fun l => l.up s).getD false

/-- The physical link that carries a forward. -/
def Fwd.phys? (f : Fwd) (s : State) : Option PhysLink := (f.link? s).bind fun l => physLink s l.pFibre.toNat l.pLink.toNat true

/-- The forward of a context that a word of an FX serves on a link of its fibre (R210). -/
def servedFwd (s : State) (x : BitVec 16) (st : BitVec 20) (link : Nat) : Option Nat :=
  [0, 1].find? fun i =>
    let f := (ctxOf s st).fwd i
    decide (f.kind = 2) && decide (f.fx.toNat = 4 * stnDie x + stnIndex x) && decide (f.link.toNat = link)

/-- Cells of a forward are unacknowledged. -/
def FwdState.unacked (f : FwdState) : Bool := decide (f.ackA ≠ f.cseq)

/-- In loose mode a forward needs credits for a whole slot of the receiving ring (R221). -/
def creditOk (s : State) (f : FwdState) : Bool :=
  !looseMode s || (f.creditReset && decide (f.cmax ≠ 0) && decide (f.cmax ≤ f.credits.toNat))

/-- What a SEND or SUMPASS spends (R221). -/
def spendCredit (st : BitVec 20) (i : Nat) (s : State) : State :=
  if looseMode s then
    let c := (fwdOf s st i).credits - BitVec.ofNat 16 (fwdOf s st i).cmax
    modCtx st (fun y => { y with credits := c }) (modFwd st i (fun f => { f with credits := c }) s)
  else s

/-- A tile takes its cell numbers on a forward (R211). -/
def numberTile (st : BitVec 20) (i : Nat) (n : BitVec 32) (cells : Nat) (s : State) : State :=
  let b := (fwdOf s st i).cseq
  let next := b + BitVec.ofNat 32 cells
  let s1 := modFwd st i (fun f => { f with nextTile := n + 1, cseq := next, sent := f.sent ++ [{ tseq := n, base := b, cells := cells, placed := 0 }] }) s
  if (ctxOf s st).srcRemote then s1 else modCtx st (fun y => { y with cseq := next }) s1

/-- The cell slot from which the places of a link are counted: that of its last service cell, or the period's first (R156, R205). -/
def slotBase (s : State) (l : PhysLink) : Nat := if slotFibre s l.fibre then 0 else 64 * (l.svcNo - 1)

/-- Place cells of a tile on the link of its forward: the header to copy, the payload, and the cell indices, in order
(R148, R156, R211). -/
def placeCells (st : BitVec 20) (i : Nat) (h : TileHdr) (pay : Bytes) (base : BitVec 32) (cells : Nat) (ks : List Nat) (resent : Bool) (s : State) : State :=
  let f := (ctxOf s st).fwd i
  match f.phys? s with
  | none => s
  | some l =>
    let ps := nextPlaces l (tCellOf s) ks.length s
    let s1 := (ps.zip ks).foldl (fun t q =>
      sendCell .cell l (slotBase s l + q.1.1) q.1.2 (cellHdr h f.dstStream.toNat base q.2 (hopBits q.2 cells resent (ctxOf s st).srcRemote))
        (part pay (1024 * q.2) 1024) t) s
    let last := (ps.getLast?.map fun p => p.1 + 1).getD l.freeSlot
    modFwd st i (fun y => { y with timerOn := true }) (modLinks (isLink l.fibre l.link.toNat true) (fun y => { y with freeSlot := last }) s1)

/-- A forward's newest cell was sent: the resend timer starts at its base value (R219). -/
def timerBase (st : BitVec 20) (i : Nat) (s : State) : State := modFwd st i (fun f => { f with timerMult := 0 }) s

/-- The base value of a forward's resend timer in 1/64 ns: twice the latency budget and 8 µs (R219). -/
def timerValue (s : State) (st : BitVec 20) (i : Nat) : Nat := 2 * ((((ctxOf s st).fwd i).link? s).map (·.budget)).getD 0 + 512000

/-- The header and payload of a tile in its slot, the flag POISON added where a word could not be used (R131). -/
def slotTile (err : ReadErr) (q : MemSrc) (st : BitVec 20) (n : BitVec 32) (s : State) : TileHdr × Bytes × State :=
  let a := slotAddr st (ctxOf s st) n
  let r := tsRead err 4 q a 32 s
  let h := readTileHdr (ofLe r.1)
  let p := tsRead err 4 q (a + 32) h.plen.toNat r.2.2
  ({ h with flags := h.flags ||| (if r.2.1 || p.2.1 then flPoison else 0) }, p.1, p.2.2)

/-- How many cells a payload takes. -/
def cellCount (plen : Nat) : Nat := ceilDiv plen 1024

/-! ### Resends (R219) -/

/-- Which access a forward's FX makes to tile store. -/
def fxSrc (s : State) (st : BitVec 20) (i : Nat) : MemSrc :=
  let f := ((ctxOf s st).fwd i).fx.toNat
  { kind := 4, stn := (mkStn (f / 4) 5 (f % 4)).toNat, stream := some (st.toNat, 0) }

/-- The cells of a sent tile that are placed and unacknowledged. -/
def unackedOf (a : BitVec 32) (t : SentTile) : List Nat := (List.range t.placed).filter fun k => !later a (t.base + BitVec.ofNat 32 k)

/-- Send one tile's unacknowledged cells again, from the stored bytes. -/
def resendTile (err : ReadErr) (st : BitVec 20) (i : Nat) (s : State) (t : SentTile) : State :=
  let ks := unackedOf (fwdOf s st i).ackA t
  if ks.isEmpty then s
  else
    let r := slotTile err (fxSrc s st i) st t.tseq s
    placeCells st i r.1 r.2.1 t.base t.cells ks true r.2.2

/-- Cells sent again take places ahead of scheduled SENDs: the link's unit is busy to the end of their last slot, so that those SENDs
slip (R56, R219). -/
def resendHold (st : BitVec 20) (i : Nat) (s : State) : State :=
  let f := (ctxOf s st).fwd i
  match f.phys? s with
  | none => s
  | some l =>
    modStn (mkStn (f.fx.toNat / 4) 5 (f.fx.toNat % 4)) (fun y =>
      { y with busy := tmod 0 y.busy (2 + f.link.toNat) (max (ccOf s (slotEnd s l (tCellOf s)))) }) s

/-- Every cell from the newest A onward is sent again in sequence order: CELLS_RESENT with its cause, 1 the timer or 2 the
link's return (R219, R459). -/
def resendAll (err : ReadErr) (st : BitVec 20) (i cause : Nat) (s : State) : State :=
  let f := fwdOf s st i
  let n := (f.sent.map fun t => (unackedOf f.ackA t).length).foldl (· + ·) 0
  if n = 0 ∨ ((ctxOf s st).fwd i).up s = false then s
  else
    resendHold st i (raise evCellsResent (fxSrc s st i).stn (le 4 st.toNat ++ le 4 f.ackA.toNat ++ leSat 4 n ++ le 1 cause) (f.sent.foldl (resendTile err st i) s))

/-- RESEND_TIMER_EXPIRY: the third expiry without progress raises ACK_TIMEOUT, and the next expiry takes twice the value,
up to 1 ms (R219). -/
def resendExpiry (st : BitVec 20) (i : Nat) (err : ReadErr) (s : State) : State :=
  let f := fwdOf s st i
  if ((ctxOf s st).fwd i).kind ≠ 2 ∨ f.timerOn = false ∨ f.unacked = false ∨ ((ctxOf s st).fwd i).up s = false then s
  else
    let v := min 64000000 (timerValue s st i * 2 ^ f.timerMult)
    let s1 := modFwd st i (fun y => { y with expiries := y.expiries + 1, timerMult := if v < 64000000 then y.timerMult + 1 else y.timerMult }) s
    let s2 := if f.expiries = 2 then raise evAckTimeout (fxSrc s st i).stn (le 4 st.toNat ++ leSat 4 (v / 64000) ++ le 4 3) s1 else s1
    resendAll err st i 1 s2

/-- RESEND_TIMER_EXPIRY (R219). -/
def execResendTimerExpiry (stream : BitVec 20) (fwd : Nat) (err : ReadErr) (s : State) : Host.Outcome State Fault Refusal :=
  if litUp s && decide (fwd < 2) then .next (resendExpiry stream fwd err s) else .next s

/-- The forwards on a logical link: stream and entry. -/
def fwdsOn (s : State) (name : Nat) : List (BitVec 20 × Nat) :=
  (s.strm.ctx.map fun c => ([0, 1].filter fun i => decide ((c.2.fwd i).kind = 2) && decide ((c.2.fwd i).name = name)).map fun i => (BitVec.ofNat 20 c.1, i)).flatten

/-! ### In-flight sums (R105, R232) -/

/-- The word of a SUMPASS in progress, for its trap. -/
def SumRun.ew (r : SumRun) : Ew := { off := r.off, w := r.word, idx := r.index, iter := r.iter, row := 0, bank := 0 }

/-- Write back a SUMPASS in progress. -/
def modRun (r r1 : SumRun) (s : State) : State := s.modStrm fun x => { x with sums := mapFirst (fun q => decide (q = r)) (fun _ => r1) x.sums }

/-- A SUMPASS has ended. -/
def dropRun (r : SumRun) (s : State) : State := s.modStrm fun x => { x with sums := dropFirst (fun q => decide (q = r)) x.sums }

/-- The first pair of grid words in which two tiles differ within a range of payload bytes: expected and found. -/
def gridWordDiff (lo hi : Nat) (p a : Bytes) : Option (Nat × Nat) :=
  ((List.range ((hi - lo) / 2)).map fun k => (rd p (lo + 2 * k) 2, rd a (lo + 2 * k) 2)).find? fun q => decide (q.1 ≠ q.2)

/-- Add the arriving elements of cell k into the passing payload: each brought to the passing tile's grid, or added as it
stands with grid words (R97, R98, R105). Answers the elements' bytes and how many saturate. -/
def sumCell (ph ah : TileHdr) (p a : Bytes) (k : Nat) : Bytes × Nat :=
  let t := ph.shape
  let f := t.format
  let w := (xsN f + 1) / 8
  let g : Int := if t.gridMode = 1 then sx 16 ph.grid.toNat else 0
  let h : Int := if t.gridMode = 1 then sx 16 ah.grid.toNat else 0
  let n := min (t.rows * t.cols) (1024 * (k + 1) / w) - 1024 * k / w
  xsPack f ((List.range n).map fun j =>
    let i := 1024 * k / w + j
    addTagged (contrib (xsRead f (rd p (i * w) w) g) g) (contrib (xsRead f (rd a (i * w) w) h) g))

/-- The arriving tile agrees with the passing one in format, shape and grid mode (R105). -/
def sumAgrees (ph ah : TileHdr) : Bool :=
  isXs ph.format.toNat && decide (ah.format = ph.format) && decide (ah.rowsM1 = ph.rowsM1) && decide (ah.colsM1 = ph.colsM1) &&
    decide (ah.gridMode = ph.gridMode)

/-- GRID_MISMATCH ends a SUMPASS (R61, R105). -/
def sumTrap (r : SumRun) (exp got : Nat) (s : State) : State :=
  trapPl r.stn r.ew evGridMismatch (le 2 r.index ++ le 4 r.inStream.toNat ++ le 2 exp ++ le 2 got) (dropRun r s)

/-- Add arriving cell k to the passing tile in its slot, and count its flags and saturation; the header of the passing tile
takes over SXOVF and POISON (R26, R105, R106). -/
def sumAdd1 (r : SumRun) (ah : TileHdr) (pay : Bytes) (k : Nat) (s : State) : State :=
  let a := slotAddr r.stream (ctxOf s r.stream) r.tile
  let ph := readTileHdr (ofLe (tsPeek s a 32))
  let p := tsPeek s (a + 32) ph.plen.toNat
  let t := ph.shape
  let lo := max t.elemLen (1024 * k)
  let hi := min t.plen (1024 * (k + 1))
  if !sumAgrees ph ah then sumTrap r ph.grid.toNat ah.grid.toNat s
  else match (if t.gridMode = 2 then gridWordDiff lo hi p pay else none) with
    | some d => sumTrap r d.1 d.2 s
    | none =>
      let o := sumCell ph ah p pay k
      let fl := ph.flags ||| inherit ah.flags ||| (if o.2 = 0 then 0 else flSxovf)
      let h1 := { ph with flags := fl }
      modRun r { r with added := r.added ++ [k], sat := r.sat + o.2, had := r.had || decide (inherit ah.flags &&& flSxovf ≠ 0) }
        (tsWrite {} a h1.bytes (tsWrite {} (a + 32 + 1024 * k) o.1 s))

/-- The SUMPASS at the head of those that serve a forward, with its tile as it was sent. -/
def sentOf (s : State) (r : SumRun) : Option SentTile := (fwdOf s r.stream r.fwd).sent.find? fun t => decide (t.tseq = r.tile)

/-- How many cells from 0 on have been added. -/
def addedRun (r : SumRun) : Nat := ((List.range r.cells).find? fun k => !decide (k ∈ r.added)).getD r.cells

/-- Send the summed cells whose predecessors have gone, and end the SUMPASS when all have (R106, R232). -/
def sumPump (r : SumRun) (s : State) : State :=
  match sentOf s r with
  | none => dropRun r s
  | some t =>
    if ((ctxOf s r.stream).fwd r.fwd).up s = false then s
    else
      let n := addedRun r
      let ks := (List.range n).drop t.placed
      let s1 := if ks.isEmpty then s
        else
          let q := slotTile {} (fxSrc s r.stream r.fwd) r.stream r.tile s
          timerBase r.stream r.fwd (placeCells r.stream r.fwd q.1 q.2.1 t.base t.cells ks false q.2.2)
      let s2 := modFwd r.stream r.fwd (fun f => { f with sent := mapFirst (fun x => decide (x.tseq = r.tile)) (fun x => { x with placed := max x.placed n }) f.sent }) s1
      if n < r.cells then s2
      else
        let s3 := dropRun r s2
        if r.sat ≠ 0 ∧ r.had = false then raise evSxovfRaised r.stn.toNat (le 2 r.stn.toNat ++ le 4 r.stream.toNat ++ le 4 r.tile.toNat ++ leSat 4 r.sat) s3 else s3

/-- The arriving tile of a SUMPASS, as far as it has come: its header, its payload, and the cells placed. -/
def arrivingOf (err : ReadErr) (s : State) (r : SumRun) : Option (TileHdr × Bytes × List Nat × State) :=
  let c := ctxOf s r.inStream
  if tileReady s r.inStream r.inTile then
    let q := slotTile err { kind := 4, stn := r.stn.toNat, index := r.index } r.inStream r.inTile s
    some (q.1, q.2.1, List.range (cellCount q.1.plen.toNat), q.2.2)
  else
    match (rxOf s r.inStream).tiles[ahead r.inTile c.tseqHead]? with
    | none => none
    | some t => some ({ t.hdr with tseq := r.inTile }, tsPeek s (slotAddr r.inStream c r.inTile + 32) t.hdr.plen.toNat, t.placed, s)

/-- Add every arriving cell that is placed and not yet added, then send what may go (R232). The arriving tile is checked like any
input, by the header that its cells carry (R27). -/
def sumRun (err : ReadErr) (s : State) (r : SumRun) : State :=
  match arrivingOf err s r with
  | none => s
  | some (h, pay, ks, s0) =>
    let c := hdrCheck (bindAt s r.stn (iwArg r.word 0)).shape h r.inTile
    if c ≠ 0 then trapPl r.stn r.ew evTileHeaderMismatch (le 4 r.inStream.toNat ++ le 4 r.inTile.toNat ++ le 4 h.tseq.toNat ++ le 1 c) (dropRun r s0)
    else
      let s1 := (List.range r.cells).foldl (fun t k =>
        match t.strm.sums.find? fun q => decide (q.stream = r.stream) && decide (q.tile = r.tile) && decide (q.fwd = r.fwd) with
        | some q => if k ∈ ks ∧ k ∉ q.added then sumAdd1 q h pay k t else t
        | none => t) s0
      match s1.strm.sums.find? fun q => decide (q.stream = r.stream) && decide (q.tile = r.tile) && decide (q.fwd = r.fwd) with
      | some q => sumPump q s1
      | none => s1

/-- Run the SUMPASS words that read a stream. -/
def sumsOf (err : ReadErr) (st : BitVec 20) (s : State) : State :=
  (s.strm.sums.filter fun r => decide (r.inStream = st)).foldl (sumRun err) s

/-- A link is in service again: every forward on it sends its unacknowledged cells again at once, its timers restart, and
sums that waited go on (R219, R232). -/
def linkReenter (err : ReadErr) (name : Nat) (s : State) : State :=
  let s1 := (fwdsOn s name).foldl (fun t q => timerBase q.1 q.2 (resendAll err q.1 q.2 2 t)) s
  (s1.strm.sums.filter fun r => decide (((ctxOf s1 r.stream).fwd r.fwd).name = name)).foldl (sumRun err) s1

/-- A link leaves service: no cell is placed on it and its timers stop (R219). -/
def linkLeave (name : Nat) (s : State) : State := (fwdsOn s name).foldl (fun t q => modFwd q.1 q.2 (fun f => { f with timerOn := false }) t) s

/-! ### SEND and SUMPASS -/

/-- The unit of a link is busy to the end of the tile's last slot, and no shorter than the occupancy at the link's width
(R57, R156, R215). -/
def linkBusy (x : BitVec 16) (link : Nat) (f : Fwd) (cells : Nat) (start : Nat) (s : State) : State :=
  match f.phys? s with
  | none => s
  | some l =>
    let e := ccOf s (slotEnd s l (tCellOf s))
    let o := max (start + sendOcc (jobF s) (tCellOf s) cells (max 1 l.lanes.length)) e
    modStn x (fun y => { y with busy := tset 0 y.busy (2 + link) o, doneAt := max y.doneAt o }) s

/-- The tile that a word of an FX serves: its stream, forward and number, when it may go (R208, R210, R219, R221). -/
def fxReady (s : State) (x : BitVec 16) (bi link : Nat) : Option (BitVec 20 × Nat × BitVec 32) :=
  let st := (bindAt s x bi).stream
  match servedFwd s x st link with
  | none => none
  | some i =>
    let f := fwdOf s st i
    if tileReady s st f.nextTile && ((ctxOf s st).fwd i).up s && creditOk s f && (((((ctxOf s st).fwd i).phys? s).map fun l => hasSlot s l (tCellOf s) (cellsOf (bindAt s x bi).shape.plen)).getD true) then some (st, i, f.nextTile) else none

/-- The header check of a tile that an FX sends (R27). -/
def fxCheck (x : BitVec 16) (e : Ew) (bi : Nat) (st : BitVec 20) (n : BitVec 32) (h : TileHdr) (k : State → State) (s : State) : State :=
  let c := hdrCheck (bindAt s x bi).shape h n
  if c = 0 then k s else trapPl x e evTileHeaderMismatch (le 4 st.toNat ++ le 4 n.toNat ++ le 4 h.tseq.toNat ++ le 1 c) s

/-- SEND with its tile at hand (R210, R211). -/
def sendBody (err : ReadErr) (x : BitVec 16) (e : Ew) (s : State) : State :=
  let bi := iwArg e.w 0
  let link := iwArg e.w 1
  match fxReady s x bi link with
  | none => s
  | some (st, i, n) =>
    let r := slotTile err (wordSrc x e) st n s
    fxCheck x e bi st n r.1 (fun t =>
      let c := cellCount r.1.plen.toNat
      let b := (fwdOf t st i).cseq
      let t1 := timerBase st i (placeCells st i r.1 r.2.1 b c (List.range c) false (numberTile st i n c (spendCredit st i t)))
      let t2 := modFwd st i (fun f => { f with sent := mapFirst (fun q => decide (q.tseq = n)) (fun q => { q with placed := c }) f.sent }) t1
      let us : List InUse := [⟨bi, st, n⟩]
      linkBusy x link ((ctxOf s st).fwd i) c (nowCc s) (issued x e (noOut x e us t2))) r.2.2

/-- SEND: frames the oldest unsent tile of a forward into cells on its link (R210). -/
def execSend (stn : BitVec 16) (err : ReadErr) (s : State) : Host.Outcome State Fault Refusal :=
  .next (issueIf 0x50 stn err (fun e t => (fxReady t stn (iwArg e.w 0) (iwArg e.w 1)).isSome) (sendBody err stn) s)

/-- SUMPASS with its passing tile at hand: the arriving cells already placed are added, and the sums go (R105, R210,
R232). -/
def sumpassBody (err : ReadErr) (x : BitVec 16) (e : Ew) (s : State) : State :=
  let bo := iwArg e.w 1
  let link := iwArg e.w 2
  match fxReady s x bo link with
  | none => s
  | some (st, i, n) =>
    let r := slotTile err (wordSrc x e) st n s
    fxCheck x e bo st n r.1 (fun t =>
      let us := usesOf t x e.w
      let c := cellCount r.1.plen.toNat
      let u := us.headD ⟨0, 0, 0⟩
      let q : SumRun :=
        { stn := x, word := e.w, index := e.idx, iter := e.iter, off := e.off, inStream := u.stream, inTile := u.tile, stream := st, fwd := i, tile := n, cells := c,
          added := [], sat := 0, had := decide (r.1.flags &&& flSxovf ≠ 0) }
      let t1 := numberTile st i n c (spendCredit st i t)
      let t2 := linkBusy x link ((ctxOf s st).fwd i) c (nowCc s) (issued x e (takeIns x us (noOut x e us t1)))
      let t3 := if r.1.flags = (readTileHdr (ofLe (tsPeek s (slotAddr st (ctxOf s st) n) 32))).flags then t2 else tsWrite {} (slotAddr st (ctxOf s st) n) r.1.bytes t2
      sumRun err (t3.modStrm fun y => { y with sums := y.sums ++ [q] }) q) r.2.2

/-- SUMPASS: the arriving tile need not be complete, for its cells are added as they are placed; only a word that
releases it waits for it (R29, R232). -/
def execSumpass (stn : BitVec 16) (err : ReadErr) (s : State) : Host.Outcome State Fault Refusal :=
  .next (issueIf 0x51 stn err (fun e t => (fxReady t stn (iwArg e.w 1) (iwArg e.w 2)).isSome &&
    (!iwRel e.w || (usesOf t stn e.w).all fun u => tileReady t u.stream u.tile)) (sumpassBody err stn) s)

/-! ### Acknowledgements (R212, R218, R221, R231) -/

/-- The newest A of a forward: tiles acknowledged in full are done with, the timer restarts (R212, R219). A break can
acknowledge a SUMPASS tile that has not left in full; its sum stops. -/
def ackTo (st : BitVec 20) (i : Nat) (a : BitVec 32) (s : State) : State :=
  let f := fwdOf s st i
  if !later a f.ackA || later a f.cseq then s
  else
    let ended := fun (t : SentTile) => !later (t.base + BitVec.ofNat 32 t.cells) a
    let past := f.sent.takeWhile ended
    let s1 := modFwd st i (fun y =>
      { y with ackA := a, sent := y.sent.dropWhile ended, doneTile := y.doneTile + BitVec.ofNat 32 past.length, expiries := 0, timerMult := 0,
               timerOn := y.timerOn && decide (a ≠ y.cseq), stalledRaised := false }) s
    let s2 := s1.modStrm fun x => { x with sums := x.sums.filter fun r => !(decide (r.stream = st) && decide (r.fwd = i) && past.any fun t => decide (t.tseq = r.tile)) }
    if past.isEmpty then s2 else retail st s2

/-- The forward that an acknowledgement names: of a hop to a module, by its destination stream (R223). -/
def fwdTo (s : State) (m : BitVec 12) (dst : BitVec 20) : Option (BitVec 20 × Nat) :=
  ((s.strm.ctx.map fun c => [0, 1].map fun i => (BitVec.ofNat 20 c.1, i)).flatten).find? fun q =>
    let f := (ctxOf s q.1).fwd q.2
    decide (f.kind = 2) && decide (f.module = m) && decide (f.dstStream = dst)

/-- One LINK_ACK entry: credits, then the acknowledgement (R221, R223). -/
def takeAck (m : BitVec 12) (s : State) (b : Bytes) : State :=
  let v := ofLe b
  match fwdTo s m (BitVec.ofNat 20 (v >>> 76)) with
  | none => s
  | some (st, i) =>
    let f := fwdOf s st i
    let reset := bit v 20
    let on := looseMode s && (reset || f.creditReset)
    let c : BitVec 16 := if on then (if reset then BitVec.ofNat 16 (v >>> 28) else addSat f.credits (fld v 28 16)) else f.credits
    let s1 := modFwd st i (fun y => { y with credits := c, creditReset := y.creditReset || (looseMode s && reset), cmax := fld v 21 7 }) s
    ackTo st i (BitVec.ofNat 32 (v >>> 44)) (if on then modCtx st (fun y => { y with credits := c }) s1 else s1)

/-- LINK_ACK_NOTICE: acknowledgements release slots, and credits are granted or reset (R218, R221). -/
def execLinkAckNotice (port : Nat) (notice : Bytes) (s : State) : Host.Outcome State Fault Refusal :=
  .next (onNotice 4 port notice (fun n t => if imageLoaded t then (chunks 12 (n.body.length / 12) n.body).foldl (takeAck n.src) t else t) s)

/-- STREAM_BREAK_NOTICE: the transmitter counts the broken tile as acknowledged and goes on from the next base (R230). -/
def execStreamBreakNotice (port : Nat) (notice : Bytes) (s : State) : Host.Outcome State Fault Refusal :=
  .next (onNotice 5 port notice (fun n => jobScope n fun t =>
    match fwdTo t n.src (BitVec.ofNat 20 (rd n.body 0 4)) with
    | some (st, i) => ackTo st i (BitVec.ofNat 32 (rd n.body 8 4)) t
    | none => t) s)

/-- The hold limit of a context in ms (R32). -/
def StreamCtx.limit (c : StreamCtx) : Nat := if c.holdMs = 0 then 10000 else c.holdMs.toNat

/-- STREAM_TX_STALLED: unacknowledged cells for longer than the context's hold limit, raised once (R231). -/
def txStalled (st : BitVec 20) (i : Nat) (s : State) : State :=
  let f := fwdOf s st i
  if ((ctxOf s st).fwd i).kind ≠ 2 ∨ f.unacked = false ∨ f.stalledRaised ∨ (ctxOf s st).holdMs = 0xFFFF then s
  else
    raise evStreamTxStalled (fxSrc s st i).stn (le 4 st.toNat ++ le 4 f.ackA.toNat ++ le 4 (ctxOf s st).limit)
      (modFwd st i (fun y => { y with stalledRaised := true }) s)

/-- STREAM_TX_STALLED (R231). -/
def execStreamTxStalled (stream : BitVec 20) (fwd : Nat) (s : State) : Host.Outcome State Fault Refusal :=
  if litUp s && imageLoaded s && decide (fwd < 2) then .next (txStalled stream fwd s) else .next s

/-! ### The receiving side (R217, R229, R230) -/

/-- The base of the next tile: after the newest in progress, or `SC.CSEQ` (R217). -/
def nextBase (c : StreamCtx) (r : RxState) : BitVec 32 :=
  match r.tiles.getLast? with
  | some t => t.base + BitVec.ofNat 32 t.cells
  | none => c.cseq

/-- `SC.PART_CELLS`: cells placed of the oldest tile in progress (R32, R217). -/
def partCells (st : BitVec 20) (s : State) : State :=
  modCtx st (fun c => { c with partCells := BitVec.ofNat 7 (((rxOf s st).tiles.head?.map fun t => t.placed.length).getD 0) }) s

/-- STREAM_BREAK to the transmitting module (R224, R230). -/
def sendBreak (st : BitVec 20) (base next : BitVec 32) (s : State) : State :=
  match senderOf s st with
  | some m => unicast 5 m (jobTag s) (le 4 st.toNat ++ le 4 base.toNat ++ le 4 next.toNat) (modRx st (fun r => { r with breakAt := s.tm.ft }) s)
  | none => s

/-- A duplicate cell: discarded, counted, and it draws a LINK_ACK entry; one of the broken tile draws STREAM_BREAK again, at
most once per 100 µs (R217, R218, R230). -/
def dupCell (st : BitVec 20) (q : BitVec 32) (s : State) : State :=
  let s1 := countEvent evCellsDuplicate (ctxOf s st).prodStn.toNat (fun n => le 4 st.toNat ++ leSat 4 n) (tget 0 s.strm.dup st.toNat)
    (fun n t => t.modStrm fun x => { x with dup := tset 0 x.dup st.toNat n }) (oweAck st.toNat s)
  let r := rxOf s st
  match r.brokenBase with
  | some b => if !later b q && later r.brokenEnd q && decide (6400000 ≤ (s.tm.ft - r.breakAt).toNat) then sendBreak st b r.brokenEnd s1 else s1
  | none => s1

/-- The header that the receiving FX rebuilds (R25, R148). -/
def rebuilt (s : State) (st : BitVec 20) (n : BitVec 32) (h : TileHdr) (extra : BitVec 8) : TileHdr :=
  { h with stream := st, tseq := n, jobTag := jobTag s, flags := h.flags ||| extra }

/-- The oldest tile in progress is complete: its header is written, the stream goes on, and a stream that was broken
resynchronises (R25, R36, R217, R230). -/
def rxComplete (st : BitVec 20) (t : RxTile) (s : State) : State :=
  let c := ctxOf s st
  let r := rxOf s st
  let h := rebuilt s st c.tseqHead t.hdr (if r.resync then flResync else 0)
  let s1 := modRx st (fun x => { x with tiles := x.tiles.drop 1, resync := false }) (tsWrite {} (slotAddr st c c.tseqHead) h.bytes s)
  let s2 := completeTile st h.flags (modCtx st (fun y => { y with cseq := t.base + BitVec.ofNat 32 t.cells, state := if y.state = .broken then .open else y.state }) s1)
  if r.resync then raise evStreamResync c.prodStn.toNat (le 4 st.toNat ++ le 4 (r.brokenBase.getD 0).toNat ++ le 4 c.tseqHead.toNat) s2 else s2

/-- Tiles complete in sequence (R217). -/
def rxAdvance (st : BitVec 20) : Nat → State → State
  | 0, s => s
  | f + 1, s =>
    match (rxOf s st).tiles with
    | t :: _ => if t.placed.length = t.cells then rxAdvance st f (rxComplete st t s) else s
    | [] => s

/-- A tile in progress with cell k placed at a time: every flag that a cell brings sticks to it. -/
def RxTile.withCell (t : RxTile) (k : Nat) (flags : BitVec 8) (now : BitVec 64) : RxTile :=
  { t with placed := t.placed ++ [k], cellFt := now, hdr := { t.hdr with flags := t.hdr.flags ||| flags } }

/-- Place a cell of a tile in progress: its bytes go to the tile's slot, and every flag that a cell brings sticks to the tile
(R217; the flags: log entry 41, DEDUCED). -/
def placeCell (err : ReadErr) (st : BitVec 20) (b : BitVec 32) (k : Nat) (h : TileHdr) (pay : Bytes) (s : State) : State :=
  let c := ctxOf s st
  let r := rxOf s st
  let i := (r.tiles.takeWhile fun t => decide (t.base ≠ b)).length
  let a := slotAddr st c (c.tseqHead + BitVec.ofNat 32 i) + 32 + 1024 * k
  let s1 := tsWrite {} a ((padTo 1024 pay).take (h.plen.toNat - 1024 * k)) s
  let s2 := modRx st (fun x =>
    { x with tiles := mapFirst (fun t => decide (t.base = b)) (fun t => t.withCell k h.flags s.tm.ft) x.tiles }) s1
  let s3 := sumsOf err st s2
  let s4 := partCells st (rxAdvance st (r.tiles.length + 1) s3)
  if ackOf s4 st = ackOf s st then s4 else oweAck st.toNat s4

/-- A data cell reaches a receiving context (R217). -/
def rxCell (err : ReadErr) (st : BitVec 20) (via : Nat) (v : Nat) (pay : Bytes) (s0 : State) : State :=
  let s := modRx st (fun r => { r with via := via + 1 }) s0
  let c := ctxOf s st
  let r := rxOf s st
  let h := readCopy v
  let k := fld v 144 6
  let q := BitVec.ofNat 32 (v >>> 150)
  let b := q - BitVec.ofNat 32 k
  let n := cellCount h.plen.toNat
  if later c.cseq q then dupCell st q s
  else match r.tiles.find? fun t => decide (t.base = b) with
    | some t => if k ∈ t.placed then dupCell st q s else if k < t.cells then placeCell err st b k h pay s else s
    | none =>
      if b ≠ nextBase c r ∨ n ≤ k then s
      else if !slotFree s st (c.tseqHead + BitVec.ofNat 32 r.tiles.length) then
        countEvent evCellNoSlot c.prodStn.toNat (fun n => le 4 st.toNat ++ leSat 4 n) (tget 0 s.strm.noSlot st.toNat)
          (fun n t => t.modStrm fun x => { x with noSlot := tset 0 x.noSlot st.toNat n }) s
      else placeCell err st b k h pay (modRx st (fun x => { x with tiles := x.tiles ++ [{ base := b, cells := n, placed := [], hdr := h }] }) s)

/-- CELL_CRC_ERROR (R149): the fibre, the link, and the cells discarded since the last record. -/
def crcError (fibre link : Nat) (s : State) : State :=
  countEvent evCellCrcError (srcFibre fibre) (fun n => le 1 0 ++ le 1 fibre ++ le 1 link ++ leSat 4 n) (tget 0 s.strm.crcErr (linkKey fibre link))
    (fun n t => t.modStrm fun x => { x with crcErr := tset 0 x.crcErr (linkKey fibre link) n }) s

/-- The CRC of a cell is good (R149). -/
def cellCrcOk (c : Bytes) : Bool := decide (rd c 28 4 = rd (le 4 (crc32c (c.take 28 ++ part c 32 1024))) 0 4)

/-- An outer code word of a frame touches cell j of the frame: the words hold the 256-bit header and then the cells, 5,140 bits to a word
(R145, R204). -/
def touches (word j : Nat) : Bool := decide (5140 * word < 256 + 8448 * (j + 1)) && decide (256 + 8448 * j < 5140 * (word + 1))

/-- `CH.TYPE` (R148). -/
def cellType (c : Bytes) : Nat := fld (rd c 0 28) 222 2

/-- A cell is discarded as it arrives: its CRC fails, its type is reserved, or an outer code word that touches it could not be corrected
(R147, R149). `place` is its place in its frame, `words` the words of the frame that could not be corrected. -/
def cellBad (place : Nat) (words : List Nat) (c : Bytes) : Bool := !cellCrcOk c || decide (cellType c = 3) || words.any fun w => touches w place

/-- A data cell that is not discarded reaches its context (R149, R190, R217). -/
def cellArrival (err : ReadErr) (fibre link : Nat) (cell : Bytes) (s : State) : State :=
  let v := rd cell 0 28
  if !physUp s fibre link false || !imageLoaded s || decide (cellType cell ≠ 1) then s
  else
    let st := BitVec.ofNat 20 (v >>> 182)
    let c := ctxOf s st
    if c.srcRemote = false ∨ c.state = .invalid ∨ c.state = .closed then s
    else rxCell err st (nameOf s fibre link false) v (part cell 32 1024) s

/-- STREAM_HOLD_LIMIT: the context breaks: a poisoned placeholder completes, the next tile's base is expected, STREAM_BREAK
goes to the transmitter, and cells of later tiles are discarded (R36, R230). -/
def streamBreak (err : ReadErr) (st : BitVec 20) (s : State) : State :=
  let c := ctxOf s st
  match c.state, (rxOf s st).tiles with
  | .stalled, t :: _ =>
    if c.holdMs = 0xFFFF then s
    else
      let next := t.base + BitVec.ofNat 32 t.cells
      let h := rebuilt s st c.tseqHead t.hdr flPoison
      let s1 := tsWrite {} (slotAddr st c c.tseqHead) (h.bytes ++ zeros h.plen.toNat) s
      let s2 := modRx st (fun x => { x with tiles := [], brokenBase := some t.base, brokenEnd := next, resync := true }) s1
      let s3 := modCtx st (fun y => { y with cseq := next, partCells := 0, holdElapsed := BitVec.ofNat 16 c.limit }) s2
      let s4 := modCtx st (fun y => { y with state := .broken }) (completeTile st h.flags s3)
      let s5 := raise evStreamBroken c.prodStn.toNat (le 4 st.toNat ++ le 4 t.base.toNat ++ le 4 c.limit) s4
      sumsOf err st (oweAck st.toNat (sendBreak st t.base next s5))
  | _, _ => s

/-- STREAM_HOLD_LIMIT (R230). The hold time runs only while the job is Running or Held (R36). -/
def execStreamHoldLimit (stream : BitVec 20) (err : ReadErr) (s : State) : Host.Outcome State Fault Refusal :=
  if litUp s && holdRuns s then .next (streamBreak err stream s) else .next s

/-- A tile is partly placed, and no cell of it comes at the superframe boundary at hand (R36, R229). -/
def RxTile.stalls (now : BitVec 64) (t : RxTile) : Bool := decide (0 < t.placed.length) && decide (t.placed.length < t.cells) && decide (t.cellFt ≠ now)

/-- A superframe boundary on a fibre: it stalls each stream of which a remote tile is partly placed, at the first boundary after
the tile's last cell (R36, R229; log entry 66, DEDUCED). -/
def stallCheck (fibre : Nat) (s : State) : State :=
  s.strm.rx.foldl (fun t e =>
    let st := BitVec.ofNat 20 e.1
    let c := ctxOf s st
    let mine := if e.2.via = 0 then decide (4 * stnDie c.prodStn + stnIndex c.prodStn = fibre)
      else ((logLink s ((e.2.via - 1) / 64) ((e.2.via - 1) % 64) false).map fun l => decide (l.pFibre.toNat = fibre)).getD (decide ((e.2.via - 1) / 64 = fibre))
    if mine && c.srcRemote && decide (c.state = .open) && e.2.tiles.any (fun x => x.stalls s.tm.ft) then
      modCtx st (fun y => { y with state := .stalled, holdElapsed := 0 }) t
    else t) s

end Sys2Proof.Machine
end

