-- ==== Sys2Proof/Machine/Hx.lean ====
section
/-!
DEFINITION. Host DMA by station words: H2D, D2H and the end of a transfer (R21, R55, R57, R131).
-/

namespace Sys2Proof.Machine

/-- The number of an HX channel: die × 16 + channel. -/
def hxKey (x : BitVec 16) (ch : Nat) : Nat := stnDie x * 16 + ch

/-- An HX channel. -/
def hxOf (s : State) (k : Nat) : HxCh := tget {} s.stn.hx k

/-- Change an HX channel. -/
def modHx (k : Nat) (f : HxCh → HxCh) (s : State) : State := s.modStn fun t => { t with hx := tmod {} t.hx k f }

/-- A channel can take a word: no transfer runs on it and it is not halted (R57, R131). -/
def hxFree (s : State) (x : BitVec 16) (e : Ew) : Bool := !(hxOf s (hxKey x (iwArg e.w 0))).busy && !(hxOf s (hxKey x (iwArg e.w 0))).halted

/-- H2D with its descriptor read: the transfer starts, and its tile holds its slot (R21, R55). -/
def h2dBody (x : BitVec 16) (e : Ew) (us : List InUse) (ts : List TileIn) (s : State) : State :=
  match ts with
  | [] => s
  | d :: _ =>
    let b := bindAt s x (iwArg e.w 2)
    let n := nextOut s b.stream
    let fl := inherit d.flags ||| (if isLast s x b.stream then flEos else 0)
    let q : Outst := { stn := x, stream := b.stream, tseq := n, doneCc := 0, left := 1, rel := [], noTile := false, sf := fl, idx := e.idx, slip := slipNow s e }
    let h := mkHdr x b n { body := [], flags := fl } s
    let s1 := tsWrite {} (slotAddr b.stream (ctxOf s b.stream) n) h.bytes s
    let s2 := modHx (hxKey x (iwArg e.w 0)) (fun c =>
      { c with busy := true, toTile := true, stream := b.stream, tseq := n, host := Config.hxHost d.bytes, len := Config.hxLen d.bytes, mpa := Config.hxMpa d.bytes, bad := d.poison,
               rel := relsOf x e us, idx := e.idx, slip := slipNow s e }) (s1.modStn fun y => { y with outst := y.outst ++ [q] })
    issued x e (takeIns x us s2)

/-- H2D: starts a DMA from host memory into a tile (R55). -/
def execH2d (stn : BitVec 16) (err : ReadErr) (s : State) : Host.Outcome State Fault Refusal :=
  .next (issue 0x60 stn err (fun e t => hxFree t stn e && outFree stn e t) (fun e t => withTiles err stn e (h2dBody stn e) t) s)

/-- D2H with its descriptor read: the transfer starts (R55). -/
def d2hBody (x : BitVec 16) (e : Ew) (us : List InUse) (ts : List TileIn) (s : State) : State :=
  match us, ts with
  | u :: _, _ :: d :: _ =>
    issued x e (takeIns x us (modHx (hxKey x (iwArg e.w 0)) (fun c =>
      { c with busy := true, toTile := false, stream := u.stream, tseq := u.tile, host := Config.hxHost d.bytes, len := Config.hxLen d.bytes, mpa := Config.hxMpa d.bytes, bad := d.poison,
               rel := relsOf x e us, idx := e.idx, slip := slipNow s e }) s))
  | _, _ => s

/-- D2H: starts a DMA from a tile to host memory (R55). -/
def execD2h (stn : BitVec 16) (err : ReadErr) (s : State) : Host.Outcome State Fault Refusal :=
  .next (issue 0x61 stn err (fun e t => hxFree t stn e) (fun e t => withTiles err stn e (d2hBody stn e) t) s)

/-- Tiles of an HX station complete in sequence (R21). -/
def hxTiles (x : BitVec 16) (st : BitVec 20) : Nat → State → State
  | 0, s => s
  | f + 1, s =>
    match s.stn.outst.find? fun o => decide (o.stn = x) && decide (o.stream = st) && decide (o.tseq = (ctxOf s st).tseqHead) && decide (o.left = 0) with
    | some o => hxTiles x st f (completeTile st o.sf (s.modStn fun y => { y with outst := dropFirst (fun q => decide (q = o)) y.outst }))
    | none => s

/-- What an HX channel's access to memory by address is in a record. -/
def hxSrc (x : BitVec 16) (k : Nat) : MemSrc := { kind := 1, stn := x.toNat, hxch := k % 16 }

/-- The host's bytes arrive, as many as the descriptor's length gives: in the slot as far as the payload holds, or in memory at the module
address that the descriptor names, counted by channel (R112, R117, R118; log entry 40, DESIGN CHOICE). An unmapped address is refused:
nothing moves, and the channel halts. -/
def h2dEnd (x : BitVec 16) (k : Nat) (data : Bytes) (ok : Bool) (s : State) : State :=
  let c := hxOf s k
  let ctx := ctxOf s c.stream
  let a := slotAddr c.stream ctx c.tseq
  let h := readTileHdr (ofLe (tsPeek s a 32))
  let d := data.take c.len.toNat
  let good := ok && !c.bad && c.mpa.all fun m => mapped m.toNat d.length
  let fl := h.flags ||| (if good then 0 else flPoison)
  let s1 := if good then
      match c.mpa with
      | some m => mpaWrite {} (hxSrc x k) (some k) m.toNat d s
      | none => tsWrite {} (a + 32) (d.take h.plen.toNat) s
    else s
  let s2 := if good then s1 else tsWrite {} a { h with flags := fl }.bytes s1
  let s3 := s2.modStn fun y => { y with outst := mapFirst (fun o => decide (o.stn = x) && decide (o.stream = c.stream) && decide (o.tseq = c.tseq)) (fun o => { o with left := 0, sf := fl }) y.outst }
  hxTiles x c.stream (s3.stn.outst.length + 1) (modHx k (fun y => { y with busy := false, halted := !good }) s3)

/-- The bytes of memory at the module address that the descriptor names go to the host, as many as its length gives; at a burst that cannot
be used the channel halts, and the host holds the bytes before it; an unmapped address is refused (R112, R117, R118, R131; log entry
40, DESIGN CHOICE). -/
def d2hMem (x : BitVec 16) (k : Nat) (m : Nat) (ok : Bool) (err : ReadErr) (s : State) : State :=
  let c := hxOf s k
  let n := c.len.toNat
  if !ok || c.bad || !mapped m n then modHx k (fun y => { y with busy := false, halted := true }) s
  else
    let r := mpaRead err (hxSrc x k) (some k) m n s
    modHx k (fun y => { y with busy := false, halted := r.1.bad }) (if r.1.data.isEmpty then r.2 else emit .hostWrite c.host.toNat r.1.data r.2)

/-- The bytes of a tile go to the host, as many as the descriptor's length gives and the payload holds; at a word that
cannot be used the channel halts, and the host holds the bytes before it (R131). -/
def d2hEnd (x : BitVec 16) (k : Nat) (ok : Bool) (err : ReadErr) (s : State) : State :=
  let c := hxOf s k
  let a := slotAddr c.stream (ctxOf s c.stream) c.tseq
  let h := readTileHdr (ofLe (tsPeek s a 32))
  let n := if c.bad then 0 else min c.len.toNat h.plen.toNat
  let bad := ((markedIn err s (a + 32) n).filter fun m => m.2.unusable).map fun m => 8 * m.1 - (a + 32)
  let q : MemSrc := { kind := 4, stn := x.toNat, stream := some (c.stream.toNat, c.tseq.toNat), hxch := k % 16 }
  let r := tsRead err 4 q (a + 32) n s
  let sent := r.1.take (bad.foldl min n)
  let s1 := if ok && !sent.isEmpty then emit .hostWrite c.host.toNat sent r.2.2 else r.2.2
  modHx k (fun y => { y with busy := false, halted := !bad.isEmpty || c.bad || !ok }) s1

/-- HX_TRANSFER_END: a DMA transfer ends, or halts its channel; what `IW.REL` names is released (R52, R57, R131). -/
def hxEnd (die ch : Nat) (data : Bytes) (ok : Bool) (err : ReadErr) (s : State) : State :=
  let x := mkStn die 6 0
  let k := hxKey x ch
  let c := hxOf s k
  if !c.busy then s
  else
    let s1 := if c.toTile then h2dEnd x k data ok s
      else match c.mpa with
        | some m => d2hMem x k m.toNat ok err s
        | none => d2hEnd x k ok err s
    progress x (releaseAll c.rel (modHx k (fun y => { y with rel := [] }) s1))

/-- HX_TRANSFER_END (R57). -/
def execHxTransferEnd (die chan : Nat) (data : Bytes) (ok : Bool) (err : ReadErr) (s : State) : Host.Outcome State Fault Refusal :=
  if litUp s && decide (die < 2) && decide (chan < 16) then .next (hxEnd die chan data ok err s) else .next s

end Sys2Proof.Machine
end

