-- ==== Sys2Proof/Machine/Bells.lean ====
section
/-!
DEFINITION. Bells (R249 to R253): BELL_SET, BELL_CANCEL, the rings of internal and pin Bells.
-/

namespace Sys2Proof.Machine

/-- A Bell: internal 0 to 63, pin Bell k as 64 + k (R355). -/
def bellOf (s : State) (i : Nat) : Bell := tget {} s.bells.bells i

/-- Change a Bell. -/
def modBell (i : Nat) (f : Bell → Bell) (s : State) : State := s.modBells fun b => { b with bells := tmod {} b.bells i f }

/-- The signed distance from one fabric time to another (R235). -/
def timeDiff (a b : BitVec 64) : Int := (a - b).toInt

/-- 10 µs in 1/64 ns. -/
def lead : Int := 640000

/-- The descriptor that a host writes (R250). -/
def readBell (d : BitVec 256) : Bell :=
  let v := d.toNat
  { time := BitVec.ofNat 64 (v >>> 192), period := BitVec.ofNat 48 (v >>> 144), count := BitVec.ofNat 32 (v >>> 112),
    width := BitVec.ofNat 20 (v >>> 92), pol := bit v 91, st := .armed, irq := bit v 88, vector := BitVec.ofNat 6 (v >>> 82),
    syncEn := bit v 81, syncObj := BitVec.ofNat 16 (v >>> 65), syncN := BitVec.ofNat 16 (v >>> 49) }

/-- Internal Bells 8 to 63 and the pin Bells belong to the host (R249). -/
def hostBell (i : Nat) : Bool := decide (8 ≤ i) && decide (i < 72)

/-- Check 4 of R251: period and, for a pin Bell, width. -/
def bellPeriodOk (i : Nat) (b : Bell) : Bool :=
  let p := b.period.toNat
  let w := b.width.toNat
  if i < 64 then decide (p = 0) || decide (6400 ≤ p)
  else decide (8 ≤ w) && decide (w ≤ 1000000) && (decide (p = 0) || (decide (6400 ≤ p) && decide ((w + 8) * 64 ≤ p)))

/-- Check 5 of R251: the other fields. -/
def bellFieldsOk (i : Nat) (d : BitVec 256) : Bool :=
  let b := readBell d
  decide (d.toNat % 2 ^ 49 = 0) && (!b.syncEn || decide (1 ≤ b.syncN.toNat)) &&
    (if i < 64 then decide (b.width = 0) && !b.pol else !b.syncEn)

/-- A Bell's next ring is at least 10 µs away (R251). -/
def ringFar (s : State) (b : Bell) : Bool := decide (lead ≤ timeDiff b.time s.tm.ft)

/-- Put a descriptor in force: at once, or after an armed Bell's next ring when that is less than 10 µs away (R251). -/
def putBell (i : Nat) (b : Bell) (s : State) : State :=
  let old := bellOf s i
  if old.st = .armed ∧ ringFar s old = false then s.modBells fun x => { x with next := tset none x.next i (some b) }
  else (modBell i (fun _ => b) s).modBells fun x => { x with next := tset none x.next i none }

/-- BELL_SET as it begins: the checks of R251 in order. -/
def bellSetBody (i : Nat) (d : BitVec 256) (ref : PktRef) (s : State) : State :=
  let b := readBell d
  if !hostBell i then reply ref stBellReserved [] s
  else if !s.tm.valid then reply ref stTimeNotValid [] s
  else if !ringFar s b then reply ref stBellTimePast [] s
  else if !bellPeriodOk i b then reply ref stBellPeriodInvalid [] s
  else if !bellFieldsOk i d then reply ref stParamInvalid [] s
  else reply ref 0 [] (putBell i b s)

/-- BELL_SET (R251). -/
def execBellSet (p : Pkt) (index : BitVec 8) (desc : BitVec 256) (s : State) : Host.Outcome State Fault Refusal :=
  .next (runPkt p 0x0506 (le 1 index.toNat ++ le 32 desc.toNat) true (bellSetBody index.toNat desc) s)

/-- BELL_CANCEL (R251). -/
def execBellCancel (p : Pkt) (index : BitVec 8) (s : State) : Host.Outcome State Fault Refusal :=
  .next (runPkt p 0x0507 (le 1 index.toNat) true
    (fun ref t => if !hostBell index.toNat then reply ref stBellReserved [] t
      else reply ref 0 [] (putBell index.toNat { bellOf t index.toNat with st := .idle } t)) s)

/-! ### Rings (R252, R253) -/

/-- What SV does at a ring: the vector (R252). -/
def bellSvAction (i : Nat) (s : State) : State := if (bellOf s i).irq then msix (bellOf s i).vector.toNat s else s

/-- The actions of a ring: the SIGNAL of an internal Bell, the pulse of a pin Bell, and the vector, which waits while SV
restarts (R252, R371). -/
def bellActs (i : Nat) (s : State) : State :=
  let b := bellOf s i
  let s1 := if i < 64 then (if b.syncEn && litUp s then syncAdd b.syncObj b.syncN.toNat (srcBell i) s else s)
    else if s.pins.pinsDriven then
      (emit .pin (i - 64) (le 1 (b2n b.pol) ++ le 4 b.width.toNat) s).modPins fun p => { p with bellPulses := tmod 0 p.bellPulses (i - 64) (· + 1) }
    else s
  if b.irq && s.db.svDown then s1.modBoot fun x => { x with elapsedPkt := x.elapsedPkt ++ [i] } else bellSvAction i s1

/-- The descriptor after a ring: the time rises by the period, a non-zero count falls; the last ring sets done (R252). -/
def Bell.rung (b : Bell) : Bell :=
  let last := decide (b.period = 0) || decide (b.count = 1)
  { b with time := b.time + b.period.setWidth 64, count := if b.count = 0 then 0 else b.count - 1, st := if last then .done else .armed }

/-- A Bell rings; a descriptor that waited comes into force after it (R251, R252). -/
def ringBell (i : Nat) (s : State) : State :=
  let s1 := modBell i Bell.rung (bellActs i s)
  match tget none s1.bells.next i with
  | some b => (modBell i (fun _ => b) s1).modBells fun x => { x with next := tset none x.next i none }
  | none => s1

/-- INTERNAL_BELL_RING: an armed internal Bell of the host (R252). -/
def execInternalBellRing (bell : Nat) (s : State) : Host.Outcome State Fault Refusal :=
  if svOn s && decide (8 ≤ bell) && decide (bell < 64) && decide ((bellOf s bell).st = .armed) then .next (ringBell bell s) else .next s

/-- PIN_BELL_RING: an armed pin Bell (R253). -/
def execPinBellRing (bell : Nat) (s : State) : Host.Outcome State Fault Refusal :=
  if svOn s && decide (bell < 8) && decide ((bellOf s (64 + bell)).st = .armed) then .next (ringBell (64 + bell) s) else .next s

end Sys2Proof.Machine
end

