-- ==== Sys2Proof/Machine/Time.lean ====
section
/-!
DEFINITION. Fabric time: the frequency tree and the grandmaster (R241 to R243), the 1588 messages (R237 to R240, R244),
validity and holdover (R245 to R247), 1PPS (R254), and the commands that set time (R355). The octets of the messages are
those of IEEE 1588-2019 (log entry 45, PRESUMED).
-/

namespace Sys2Proof.Machine

/-! ### Fibres, combs and neighbours -/

/-- A comb source. -/
def combOf (s : State) (k : Nat) : Comb := tget {} s.opt.combs k

/-- Change a comb source. -/
def modComb (k : Nat) (g : Comb → Comb) (s : State) : State := s.modOpt fun o => { o with combs := tmod {} o.combs k g }

/-- A comb source is lit. -/
def combsLit (s : State) : Bool := (List.range 5).any fun k => (combOf s k).lit

/-- A comb source is frequency-locked. -/
def combsLocked (s : State) : Bool := (List.range 5).any fun k => (combOf s k).locked

/-- A link without an express hop: a home link, or `PE.HOPS` = 0, or an XN5 line that no module passes (R239). -/
def PhysLink.noHop (l : PhysLink) : Bool := decide (l.hops = 0)

/-- The module at the other end of a link: `PE.PEER`, or for a home link the far end's beacon (R239). -/
def linkPeer (s : State) (l : PhysLink) : Option (BitVec 12) :=
  if l.tag = 0 ∧ (fibreOf s (l.fibre / 4 * 4)).mode ≠ .xn5 then (if (fibreOf s l.fibre).beaconOk then some (fibreOf s l.fibre).rxModule else none) else some l.peer

/-- A link without an express hop leads to a module, in one direction. -/
def leadsTo (s : State) (tx : Bool) (m : BitVec 12) : Bool := s.opt.links.any fun l => decide (l.tx = tx) && l.noHop && decide (linkPeer s l = some m)

/-- Links without an express hop join this module and another in both directions (R239). -/
def joined (s : State) (m : BitVec 12) : Bool := leadsTo s true m && leadsTo s false m

/-- The link that carries the 1588 messages of a fibre's port, and the neighbour: the lowest-numbered one without an express
hop whose module is joined in both directions (R239). -/
def ptpLink (s : State) (f : Nat) : Option (PhysLink × BitVec 12) :=
  ((s.opt.links.filter fun l => l.tx && l.noHop && decide (l.fibre = f)).filterMap fun l =>
    match linkPeer s l with
    | some m => if joined s m then some (l, m) else none
    | none => none).foldl (fun b c => match b with
      | none => some c
      | some x => if c.1.link.toNat < x.1.link.toNat then some c else some x) none

/-- The cage of a faceplate port: ports 17 + 2g + c (R238). -/
def cageOf (s : State) (p : Nat) : Cage := tget {} s.net.cages (p - 17)

/-- A faceplate port's Ethernet link is in service; 1588 runs on the cage's port 0 (R238, R240). -/
def facePtp (s : State) (p : Nat) : Bool :=
  decide (17 ≤ p) && decide (p ≤ 24) && decide ((fibreOf s ((p - 17) / 2 * 4)).mode = .faceplate) && (cageOf s p).up.getLsbD 0

/-- A port. -/
def portAt (s : State) (p : Nat) : Port := tget {} s.tm.ports p

/-- Change a port. -/
def modPort (p : Nat) (g : Port → Port) (s : State) : State := s.modTm fun t => { t with ports := tmod {} t.ports p g }

/-- A port serves as the grandmaster's external time source (R240). -/
def isExternal (s : State) (p : Nat) : Bool := decide (s.tm.source = 2) && decide (s.tm.srcPort.toNat = p) && decide (17 ≤ p)

/-- The rank of a neighbour as its Announce on a port shows it: `stepsRemoved`, 15 where none has been heard (R241; log entry 47, DEDUCED,
DEDUCED). -/
def heardRank (s : State) (p : Nat) : Nat := if (portAt s p).annSeen then min 15 (portAt s p).annSteps else 15

/-- A fibre whose valid beacon names a module (R166). -/
def beaconFibre (s : State) (m : BitVec 12) : Option Nat :=
  (List.range 16).find? fun f => (fibreOf s f).beaconOk && !(fibreOf s f).los && decide ((fibreOf s f).rxModule = m)

/-- The rank of the module at the other end of a fibre port: that of its beacon, on this fibre or another, or else of its Announce (R241; log
entry 47, DEDUCED). -/
def peerRank (s : State) (p : Nat) (m : BitVec 12) : Nat :=
  let own := fibreOf s (p - 1)
  if own.beaconOk && !own.los && decide (own.rxModule = m) then own.rxRank.toNat
  else match beaconFibre s m with
    | some f => (fibreOf s f).rxRank.toNat
    | none => if (portAt s p).annSrc = m then heardRank s p else 15

/-- The neighbour of a port and its rank: that of a fibre port's link, or the sender of a faceplate port's Announce (R240, R241; log entry 47, DEDUCED,
DEDUCED). -/
def neighbour (s : State) (p : Nat) : Option (BitVec 12 × Nat) :=
  if p ≤ 16 then (ptpLink s (p - 1)).map fun x => (x.2, peerRank s p x.2)
  else if facePtp s p then some ((portAt s p).annSrc, heardRank s p)
  else none

/-! ### Validity (R245, R246) -/

/-- Fabric time becomes invalid: TIME_INVALID with its cause, 1 no parent, 2 unlocked, 3 offset (R246). -/
def timeInvalid (cause : Nat) (s : State) : State :=
  if s.tm.valid then
    raise evTimeInvalid srcSv (le 1 cause ++ le 1 (jobCode s.job.st)) (s.modTm fun t => { t with valid := false, holdover := false, goodOffs := 0 })
  else s

/-- Fabric time becomes valid: TIME_VALID (R245, R246). From then on no Sync steps it (R236). -/
def timeValid (s : State) : State :=
  raise evTimeValid srcSv (le 2 (s.tm.timeParent.getD 0).toNat ++ le 1 s.tm.rank.toNat ++ leInt 8 s.tm.lastOff)
    (s.modTm fun t => { t with valid := true, stepped := true })

/-- The time parent's Announce messages show valid time (R246). -/
def parentValid (s : State) : Bool := s.tm.timeParent.isSome && (portAt s s.tm.timePort).annSeen && (portAt s s.tm.timePort).annValid

/-- Holdover and validity after any change: holdover lasts only while the combs are locked (R246). -/
def timeSettle (s : State) : State :=
  if s.tm.gm then s.modTm fun t => { t with holdover := false }
  else if s.tm.valid then
    (if s.tm.rank = 15 ∨ (parentValid s = false ∧ combsLocked s = false) then timeInvalid 2 s else s.modTm fun t => { t with holdover := !parentValid s })
  else if parentValid s && decide (s.tm.rank ≠ 15) && decide (16 ≤ s.tm.goodOffs) then timeValid s
  else s

/-! ### Ports and the time parent (R241, rule 4) -/

/-- The better of two candidates by rank, module and port. -/
def lowest (l : List (Nat × Nat × Nat)) : Option (Nat × Nat × Nat) :=
  l.foldl (fun b c => match b with
    | none => some c
    | some x => if c.1 < x.1 ∨ (c.1 = x.1 ∧ (c.2.1 < x.2.1 ∨ (c.2.1 = x.2.1 ∧ c.2.2 < x.2.2))) then some c else some x) none

/-- The ports with a neighbour: rank, module, port. -/
def portCands (s : State) : List (Nat × Nat × Nat) :=
  ((List.range 24).map (· + 1)).filterMap fun p => if isExternal s p then none else (neighbour s p).map fun n => (n.2, n.1.toNat, p)

/-- The time parent and the port toward it: the frequency parent where a link without an express hop joins them, else the
neighbour of lowest rank with one (R241). -/
def pickTime (s : State) : Option (BitVec 12 × Nat) :=
  if s.tm.gm then none
  else
    let c : List (Nat × Nat × Nat) := portCands s
    let mine : List (Nat × Nat × Nat) := if s.tm.freqFibre.isSome then c.filter fun x => decide (x.2.1 = s.tm.freqModule.toNat) else []
    let same : Option (Nat × Nat × Nat) := mine.find? fun x => decide (s.tm.freqFibre = some (x.2.2 - 1))
    let near : Option (Nat × Nat × Nat) := if same.isSome then same else lowest mine
    let any : Option (Nat × Nat × Nat) := if near.isSome then near else lowest (c.filter fun x => decide (x.1 < 15))
    any.map fun x => (BitVec.ofNat 12 x.2.1, x.2.2)

/-- The state of a port (R241). -/
def portState (s : State) (p : Nat) : PortSt :=
  match neighbour s p with
  | none => .disabled
  | some n => if isExternal s p then .passive else if p = s.tm.timePort then .slave else if s.tm.rank.toNat < n.2 then .master else .passive

/-- TIME_NO_PATH: a module of the tree, not the grandmaster, that no neighbour can give time, once until one can (R241). -/
def noPath (s : State) : State :=
  let none_ := s.tm.timeParent.isNone && !s.tm.gm && litUp s && combsLocked s
  if none_ && !s.tm.pathRaised then raise evTimeNoPath srcSv (le 2 s.tm.freqModule.toNat) (s.modTm fun t => { t with pathRaised := true })
  else if none_ then s else s.modTm fun t => { t with pathRaised := false }

/-- Choose the time parent and the port states again (R241). -/
def settleTime (s : State) : State :=
  let tp := pickTime s
  let s1 := s.modTm fun t => { t with timeParent := tp.map (·.1), timePort := (tp.map (·.2)).getD 0 }
  let s2 := ((List.range 24).map (· + 1)).foldl (fun t p =>
    let x := portState s1 p
    modPort p (fun q => { q with st := x, annSeen := q.annSeen && decide (x ≠ .disabled) }) t) s1
  timeSettle (noPath s2)

/-! ### The frequency tree (R241, R242) -/

/-- The receiving fibres with a valid beacon of rank below 15: rank, module, fibre. -/
def freqCands (s : State) : List (Nat × Nat × Nat) :=
  (List.range 16).filterMap fun f =>
    let x := fibreOf s f
    if x.beaconOk && !x.los && decide (x.rxRank ≠ 15) then some (x.rxRank.toNat, x.rxModule.toNat, f) else none

/-- The candidate of rule 2 (R241). -/
def bestFreq (s : State) : Option (Nat × Nat × Nat) := lowest (freqCands s)

/-- Take a frequency parent. -/
def takeParent (c : Nat × Nat × Nat) (s : State) : State :=
  s.modTm fun t => { t with freqFibre := some c.2.2, freqModule := BitVec.ofNat 12 c.2.1, rank := BitVec.ofNat 4 (c.1 + 1), depthRaised := false }

/-- TREE_DEPTH_EXCEEDED: the best rank within reach is 8 or more (R241). -/
def treeDeep (c : Nat × Nat × Nat) (s : State) : State :=
  if s.tm.depthRaised then s
  else raise evTreeDepthExceeded srcSv (le 2 c.2.1 ++ le 1 c.1) (s.modTm fun t => { t with depthRaised := true })

/-- No frequency parent: rank 15; the combs hold their frequency (R241, R242). -/
def noParent (s : State) : State := s.modTm fun t => { t with freqFibre := none, rank := 15 }

/-- FREQ_PARENT_CHANGED: the module has slewed onto a new parent, in a time of at most 20 ms that is a free value (R242). -/
def parentChanged (old : BitVec 12) (s : State) : State :=
  useFree (raise evFreqParentChanged srcSv (le 2 old.toNat ++ le 2 s.tm.freqModule.toNat ++ le 1 (s.tm.freqFibre.getD 0) ++ le 1 s.tm.rank.toNat ++
    leSat 4 (min 20 (freeVal 32 s).toNat)) s)

/-- Choose a frequency parent by rule 2 (R241). -/
def chooseParent (s : State) : State :=
  match bestFreq s with
  | none => noParent s
  | some c => if 8 ≤ c.1 then noParent (treeDeep c s) else parentChanged s.tm.freqModule (takeParent c s)

/-- The parent is dropped when its beacon shows a rank equal to or above this module's own, or 15, or when its fibre has
lost signal; otherwise the rank follows the parent's (R241). -/
def treeStep (s : State) : State :=
  if s.tm.gm || !combsLocked s then s
  else match s.tm.freqFibre with
    | none => chooseParent s
    | some f =>
      let x := fibreOf s f
      if x.los ∨ x.beaconOk = false ∨ s.tm.rank.toNat ≤ x.rxRank.toNat then chooseParent s
      else s.modTm fun t => { t with rank := x.rxRank + 1 }

/-- The tree and the ports after a beacon, a loss of signal or of a comb. -/
def treeUpdate (s : State) : State := if combsLit s then settleTime (treeStep s) else timeSettle s

/-- Take the grandmaster role: rank 0 on the internal reference. Its time stands as it is, so nothing is left to slew (R241, R243). -/
def becomeGm (s : State) : State :=
  s.modTm fun t => { t with gm := true, rank := 0, freqFibre := none, freqModule := 0, depthRaised := false, slew := if t.gm then t.slew else 0 }

/-- Leave the grandmaster role: what TIME_ADJUST has left is no longer slewed (R236, R245). -/
def leaveGm (s : State) : State := s.modTm fun t => { t with gm := false, rank := 15, goodOffs := 0, adjLeft := 0, atPps := none }

/-- FREQUENCY_LOCK: on the parent of rule 2, of rank 0 to 7; or, with no such beacon and a priority1 below 128, on the
internal reference with rank 0 (R365). None where the rule names another. -/
def freqLock (fibre : Option Nat) (s : State) : Option State :=
  let lock := fun t : State => settleTime (t.modOpt fun o => { o with combs := o.combs.map fun e => (e.1, { e.2 with locked := e.2.lit && !e.2.failed }) })
  match fibre, bestFreq s with
  | some f, some c => if c.2.2 = f ∧ c.1 ≤ 7 then some (lock (takeParent c s)) else none
  | some _, none => none
  | none, c =>
    if (c.all fun x => decide (8 ≤ x.1)) && decide (s.tm.priority1.toNat < 128) then
      some (lock (becomeGm (s.modTm fun t => { t with gmId := some (moduleId s) })))
    else none

/-! ### The grandmaster (R238, R241, R243) -/

/-- `clockClass`: 6 while the grandmaster follows PPS_IN or a faceplate time source (R238, R254). -/
def ownClass (s : State) : Nat :=
  let t := s.tm
  if t.gm && ((decide (t.source = 1) && !t.ppsLost && decide (t.ppsCnt ≠ 0)) || (decide (t.source = 2) && (portAt s t.srcPort.toNat).annSeen)) then 6 else 248

/-- The clock identity: 4B 58 4E 38 00 00 and the module identifier, as a number (R238). -/
def clockId (m : BitVec 12) : Nat := 0x4B584E3800000000 + m.toNat

/-- A dataset as one number, in the order in which 1588 compares its members. -/
def dataset (prio class_ acc var prio2 ident : Nat) : Nat := ((((prio * 256 + class_) * 256 + acc) * 65536 + var) * 256 + prio2) * 2 ^ 64 + ident

/-- This module's own dataset. -/
def ownKey (s : State) : Nat :=
  dataset s.tm.priority1.toNat (ownClass s) Config.ptpAccuracy.toNat Config.ptpVariance.toNat 128 (clockId (moduleId s))

/-- The module that a dataset names. -/
def keyModule (k : Nat) : BitVec 12 := BitVec.ofNat 12 k

/-- `clockClass` of a dataset. -/
def keyClass (k : Nat) : Nat := fld k 96 8

/-- The identity that a dataset names. -/
def keyIdent (k : Nat) : Nat := k % 2 ^ 64

/-- The Announce on a port enters the comparison: it is not of the external source, it names another module than this one (1588 has a clock
ignore its own dataset when it comes back), and its sender stands in the tree: a rank of 15 knows no path to the grandmaster that it names
(R241, R243; log entry 93, DEDUCED). -/
def counted (s : State) (p : Nat) : Bool :=
  let q := portAt s p
  q.annSeen && !isExternal s p && decide (keyIdent q.annKey ≠ clockId (moduleId s)) && decide (q.annSteps < 15)

/-- The datasets that enter the comparison, with their `stepsRemoved`. -/
def heardSets (s : State) : List (Nat × Nat) :=
  (((List.range 24).map (· + 1)).filter (counted s)).map fun p => ((portAt s p).annKey, (portAt s p).annSteps)

/-- Of the datasets that name one grandmaster, 1588 takes the one with the fewest steps. -/
def nearestSets (l : List (Nat × Nat)) : List (Nat × Nat) := l.filter fun c => !(l.any fun d => decide (keyIdent d.1 = keyIdent c.1) && decide (d.2 < c.2))

/-- The dataset that wins the comparison over the Announce messages received (R241). -/
def bestKey (s : State) : Nat := (nearestSets (heardSets s)).foldl (fun b c => min b c.1) (ownKey s)

/-- Hold or leave the grandmaster role by the comparison; GRANDMASTER_CHANGED where the module sees a change (R241, R243). -/
def gmUpdate (s : State) : State :=
  if !combsLocked s then s
  else
    let k := bestKey s
    let m := keyModule k
    let s1 := match s.tm.gmId with
      | some old => if old = m then s else raise evGrandmasterChanged srcSv (le 2 old.toNat ++ le 2 m.toNat ++ le 1 (keyClass k)) s
      | none => s
    let s2 := s1.modTm fun t => { t with gmId := some m }
    if k = ownKey s then settleTime (becomeGm s2)
    else if s.tm.gm then settleTime (treeStep (leaveGm s2))
    else settleTime s2

/-! ### 1588 messages -/

/-- The octets of the common header. -/
def ptpHdr (s : State) (ty len seq log : Nat) (port : Nat) : Bytes :=
  le 1 ty ++ le 1 0x12 ++ beN 2 len ++ zeros 2 ++ beN 2 (Config.ptpFlags ty s.tm.valid).toNat ++ zeros 12 ++ beN 8 (clockId (moduleId s)) ++ beN 2 port ++
    beN 2 seq ++ zeros 1 ++ le 1 log

/-- A big-endian field of a message. -/
def ptpFld (b : Bytes) (off n : Nat) : Nat := ofLe (part b off n).reverse

/-- The message belongs to the profile: version 2, domain 0, sdoId 0, and a type that the module takes (R238). -/
def ptpOk (b : Bytes) (ty : Nat) : Bool :=
  decide (34 ≤ b.length) && decide (rd b 0 1 = ty) && decide (rd b 1 1 % 16 = 2) && decide (rd b 4 1 = 0) && decide (rd b 5 1 = 0)

/-- The destination address of 1588 messages on a faceplate port, 01-80-C2-00-00-0E (R240). -/
def ptpMac : Bytes := beN 6 0x0180C200000E

/-- A message is discarded and counted: PTP_MSG_DISCARDED (R238, R240). -/
def ptpDiscard (port : Nat) (s : State) : State :=
  countEvent evPtpMsgDiscarded (if port ≤ 16 then srcFibre (port - 1) else srcSv) (fun n => le 1 port ++ leSat 4 n) (portAt s port).discarded
    (fun n t => modPort port (fun q => { q with discarded := n }) t) s

/-- The port 0 of a faceplate port's cage (R238, R240). -/
def facePort0 (port : Nat) : Nat := 8 * (port - 17)

/-- Send a message on a port: with the next service cell of a fibre's link, or at once on a faceplate port, in an
Ethernet frame of its own; the cage's egress latency is added to the timestamp (R237, R239, R240). -/
def ptpSend (port : Nat) (b : Bytes) (t2 : BitVec 64) (s : State) : State :=
  if port ≤ 16 then match ptpLink s (port - 1) with
    | some (l, _) => s.modNet fun n => { n with msgs := n.msgs ++ [{ link := linkKey l.fibre l.link.toNat, ty := 1, body := b, t2 := t2 }] }
    | none => s
  else
    let t := stampTime s + (cageOf s port).egress.setWidth 64
    let m : SvcMsg := { ty := 1, body := b, t2 := t2 }
    let link := facePort0 port
    let s1 := useFree (emit .frame link (etherFrame 0x0180C200000E (Config.portMac link true) none 0x88F7 (stamped (fullTime s t) t m)) s)
    if ptpType b = 2 then modPort port (fun q => { q with reqTx := some t }) s1 else s1

/-- The time at which a message came, from that at which it crossed the deserialiser: at J3 for a fibre; with the cage's ingress latency on a
faceplate port (R237). -/
def rxTime (port : Nat) (t : BitVec 64) (s : State) : BitVec 64 :=
  if port ≤ 16 then atJ3 false (port - 1) t else t + (cageOf s port).ingress.setWidth 64

/-- A port takes part in 1588. -/
def ptpPort (s : State) (p : Nat) : Bool := litUp s && decide (1 ≤ p) && decide (p ≤ 24) && (neighbour s p).isSome

/-- PTP_SYNC_SEND: a MASTER port sends a one-step Sync (R238). -/
def execPtpSyncSend (port : Nat) (s : State) : Host.Outcome State Fault Refusal :=
  if ptpPort s port && decide (portState s port = .master) then
    .next (ptpSend port (ptpHdr s 0 44 (portAt s port).syncSeq.toNat 0xF6 port ++ zeros 10) 0 (modPort port (fun q => { q with syncSeq := q.syncSeq + 1 }) s))
  else .next s

/-- PDELAY_REQ_SEND: every port with a link without an express hop (R244). -/
def execPdelayReqSend (port : Nat) (s : State) : Host.Outcome State Fault Refusal :=
  if ptpPort s port then
    .next (ptpSend port (ptpHdr s 2 54 (portAt s port).reqSeq.toNat 0x7F port ++ zeros 20) 0 (modPort port (fun q => { q with reqSeq := q.reqSeq + 1, reqTx := none }) s))
  else .next s

/-- ANNOUNCE_SEND: the grandmaster's dataset as this module knows it, and its own rank as stepsRemoved (R238, R241). -/
def announceBody (s : State) (port : Nat) : Bytes :=
  let k := bestKey s
  ptpHdr s 11 64 (portAt s port).annSeq.toNat 0xFD port ++ zeros 10 ++ padTo 3 Config.ptpUtc ++ beN 6 (k >>> 64) ++ beN 8 k ++ beN 2 s.tm.rank.toNat ++
    le 1 (Config.ptpTimeSource s.tm.source.toNat).toNat

/-- ANNOUNCE_SEND (R238). -/
def execAnnounceSend (port : Nat) (s : State) : Host.Outcome State Fault Refusal :=
  if ptpPort s port then .next (ptpSend port (announceBody s port) 0 (modPort port (fun q => { q with annSeq := q.annSeq + 1 }) s)) else .next s

/-- A half of a whole number of units: where it is not whole, which neighbour is a free value (R244; log entry 49, DESIGN CHOICE). -/
def halfOf (x : Int) (s : State) : Int × State :=
  if x % 2 = 0 then (x / 2, s) else (x / 2 + b2n ((freeVal 1 s).getLsbD 0), useFree s)

/-- A correctionField in 1/64 ns: 1,024 scaled units each; where it is not whole, which neighbour is a free value. -/
def corrOf (b : Bytes) (s : State) : Int × State :=
  let c := sx 64 (ptpFld b 8 8)
  if c % 1024 = 0 then (c / 1024, s) else (c / 1024 + b2n ((freeVal 1 s).getLsbD 0), useFree s)

/-- The time in a timestamp (R235). -/
def stampOf (b : Bytes) (off : Nat) : BitVec 64 := BitVec.ofNat 64 (64 * (ptpFld b off 6 * 1000000000 + ptpFld b (off + 6) 4))

/-- PDELAY_REQ: answered one-step; the turnaround is written as the answer leaves (R238, R239). -/
def execPdelayReq (port : Nat) (msg : Bytes) (t2 : BitVec 64) (s : State) : Host.Outcome State Fault Refusal :=
  if !ptpPort s port then .next s
  else if ptpOk msg 2 then .next (ptpSend port (ptpHdr s 3 54 (ptpFld msg 30 2) 0x7F port ++ zeros 10 ++ part msg 20 10) (rxTime port t2 s) s)
  else .next (ptpDiscard port s)

/-- PDELAY_RESP: the answer to this port's newest request gives the mean path delay (R244). -/
def pdelayResp (port : Nat) (msg : Bytes) (t4 : BitVec 64) (s : State) : State :=
  let q := portAt s port
  match q.reqTx with
  | none => s
  | some t1 =>
    if ptpFld msg 30 2 ≠ (q.reqSeq - 1).toNat ∨ ptpFld msg 44 8 ≠ clockId (moduleId s) ∨ ptpFld msg 52 2 ≠ port then s
    else
      let c := corrOf msg s
      let h := halfOf (timeDiff (rxTime port t4 s) t1 - c.1) c.2
      modPort port (fun x => { x with delay := h.1 + q.asym.toInt, reqTx := none }) h.2

/-- PDELAY_RESP (R244). -/
def execPdelayResp (port : Nat) (msg : Bytes) (t4 : BitVec 64) (s : State) : Host.Outcome State Fault Refusal :=
  if !ptpPort s port then .next s else if ptpOk msg 3 then .next (pdelayResp port msg t4 s) else .next (ptpDiscard port s)

/-- ANNOUNCE: the dataset and the sender's validity; the comparison and the time parent follow (R241, R246). Any message
of a type that the module does not take comes to nothing but the count (R238). -/
def execAnnounce (port : Nat) (msg : Bytes) (s : State) : Host.Outcome State Fault Refusal :=
  if !ptpPort s port then .next s
  else if ptpOk msg 11 && decide (64 ≤ msg.length) then
    .next (gmUpdate (modPort port (fun q => { q with
      annSeen := true, annValid := Config.announceValid msg, annKey := ptpFld msg 47 14, annSteps := ptpFld msg 61 2, annSrc := BitVec.ofNat 12 (ptpFld msg 20 8) }) (prefectInput s)))
  else .next (ptpDiscard port s)

/-- ANNOUNCE_RECEIPT_TIMEOUT: three intervals without an Announce (R243, R246). -/
def execAnnounceReceiptTimeout (port : Nat) (s : State) : Host.Outcome State Fault Refusal :=
  if litUp s && decide (1 ≤ port) && decide (port ≤ 24) then .next (gmUpdate (modPort port (fun q => { q with annSeen := false, annValid := false }) s)) else .next s

/-- HOLDOVER_EXPIRED: 375 ms without a time parent that shows valid time (R246). -/
def execHoldoverExpired (s : State) : Host.Outcome State Fault Refusal :=
  if s.tm.valid && s.tm.holdover then .next (timeInvalid 1 s) else .next s

/-! ### 1PPS (R245, R254) -/

/-- The distance of a fabric time from the nearest whole TAI second. -/
def secondOff (s : State) (t : BitVec 64) : Int :=
  let r := fullTime s t % 64000000000
  if r < 32000000000 then r else (r : Int) - 64000000000

/-- PPS_IN_LOST: no pulse for 3 s (R254). -/
def execPpsInLost (s : State) : Host.Outcome State Fault Refusal :=
  if svOn s && !s.tm.ppsLost then .next (raise evPpsInLost srcSv (le 8 s.tm.ppsTs.toNat) (s.modTm fun t => { t with ppsLost := true })) else .next s

/-- PPS_OUT_PULSE: PPS_OUT rises for 100 µs at each whole TAI second while fabric time is valid (R254). -/
def execPpsOutPulse (s : State) : Host.Outcome State Fault Refusal :=
  if svOn s && s.tm.valid && s.pins.pinsDriven then
    .next ((emit .pin 8 (le 1 0 ++ le 4 100000) s).modPins fun p => { p with ppsOutSecs := p.ppsOutSecs + 1 })
  else .next s

/-! ### Commands (R245, R355) -/

/-- The time commands that only the grandmaster takes, and only while it is Lit or Running (R245). -/
def asGm (f : PktRef → State → State) (ref : PktRef) (s : State) : State := if litUp s && s.tm.gm then f ref s else reply ref stStateInvalid [] s

/-- TIME_SET 1: the TAI second of the next PPS_IN pulse (R245). -/
def timeSetAtPps (t : BitVec 64) (ref : PktRef) (s : State) : State :=
  if s.tm.valid then reply ref stStateInvalid [] s else reply ref 0 [] (s.modTm fun x => { x with atPps := some t })

/-- TIME_SET, kind 1 (R245). -/
def execTimeSetAtPps (p : Pkt) (t : BitVec 64) (s : State) : Host.Outcome State Fault Refusal :=
  .next (runPkt p 0x0501 (le 8 t.toNat ++ le 1 1) true (asGm (timeSetAtPps t)) s)

/-- TIME_ADJUST: the offset joins what is still to be slewed; the reply gives the ms at 1 ppm for the whole remainder (R245). -/
def timeAdjust (off : BitVec 64) (ref : PktRef) (s : State) : State :=
  let left := s.tm.adjLeft + off.toInt
  reply ref 0 (leSat 4 (ceilDiv left.natAbs 64)) (s.modTm fun t => { t with adjLeft := left })

/-- TIME_ADJUST (R245). -/
def execTimeAdjust (p : Pkt) (off : BitVec 64) (s : State) : Host.Outcome State Fault Refusal :=
  .next (runPkt p 0x0502 (le 8 off.toNat) true (asGm (timeAdjust off)) s)

/-- TIME_SOURCE: source, port and priority1 (R355); the comparison is made again. -/
def execTimeSource (p : Pkt) (source port prio : BitVec 8) (s : State) : Host.Outcome State Fault Refusal :=
  .next (runPkt p 0x0503 (le 1 source.toNat ++ le 1 port.toNat ++ le 1 prio.toNat)
    (decide (source.toNat ≤ 2) && (decide (source ≠ 2) || (decide (17 ≤ port.toNat) && decide (port.toNat ≤ 24))))
    (fun ref t =>
      let u := t.modTm fun x => { x with source := source, srcPort := port, priority1 := prio }
      reply ref 0 [] (if litUp u then gmUpdate u else u)) s)

/-- PTP_PORT_SET: delayAsymmetry of ports 1 to 24 (R238). -/
def execPtpPortSet (p : Pkt) (port : BitVec 8) (asym : BitVec 64) (s : State) : Host.Outcome State Fault Refusal :=
  .next (runPkt p 0x0504 (le 1 port.toNat ++ le 8 asym.toNat) (decide (1 ≤ port.toNat) && decide (port.toNat ≤ 24))
    (fun ref t => reply ref 0 [] (modPort port.toNat (fun q => { q with asym := asym }) t)) s)

/-- TIME_STATUS (R355). -/
def execTimeStatus (p : Pkt) (s : State) : Host.Outcome State Fault Refusal :=
  .next (runPkt p 0x0505 [] true (fun ref t =>
    reply ref 0 (le 1 (b2n t.tm.valid) ++ le 1 t.tm.rank.toNat ++ le 2 (t.tm.gmId.getD 0).toNat ++ le 2 (t.tm.timeParent.getD 0).toNat ++ leInt 8 t.tm.lastOff) t) s)

end Sys2Proof.Machine
end

