-- ==== Sys2Proof/Machine/P2p.lean ====
section
/-!
DEFINITION. Prefect-to-Prefect messages and the lane-control messages that share their header (R160, R323, R324): sending,
relaying, acknowledging, repeating.
-/

namespace Sys2Proof.Machine

/-! ### The header (R323) -/

/-- `PM.KIND` of a message. -/
def pmKind (b : Bytes) : Nat := fld (rd b 0 16) 120 8

/-- `PM.SRC`. -/
def pmSrc (b : Bytes) : BitVec 12 := BitVec.ofNat 12 (rd b 0 16 >>> 108)

/-- `PM.DST`. -/
def pmDst (b : Bytes) : BitVec 12 := BitVec.ofNat 12 (rd b 0 16 >>> 95)

/-- `PM.TTL`. -/
def pmTtl (b : Bytes) : Nat := fld (rd b 0 16) 87 8

/-- `PM.MSEQ`. -/
def pmSeq (b : Bytes) : BitVec 24 := BitVec.ofNat 24 (rd b 0 16 >>> 63)

/-- `PM.ACKREQ`. -/
def pmAckReq (b : Bytes) : Bool := bit (rd b 0 16) 62

/-- A message: kind, source, unit, destination, relays left, number, acknowledgement asked for, body. -/
def pmBytes (kind : Nat) (src : BitVec 12) (unit : Bool) (dst : BitVec 12) (ttl : Nat) (q : BitVec 24) (ack : Bool) (body : Bytes) : Bytes :=
  le 16 (2 ^ 62 * b2n ack + 2 ^ 63 * q.toNat + 2 ^ 87 * (ttl % 256) + 2 ^ 95 * dst.toNat + 2 ^ 107 * b2n unit + 2 ^ 108 * src.toNat + 2 ^ 120 * (kind % 256)) ++ body

/-! ### Sending (R324) -/

/-- A Prefect sends: it controls, or is a sender of the hot pair (R303, R324). -/
def unitSends (r : PfxRole) : Bool := decide (r = .controlling) || decide (r = .pairedSender)

/-- The units that send, PA as false. -/
def sendingUnits (s : State) : List Bool := (if unitSends s.pfx.pa.role then [false] else []) ++ (if unitSends s.pfx.pb.role then [true] else [])

/-- The record source of the sending Prefect (R399). -/
def pfxSrc (s : State) : Nat := if unitSends s.pfx.pb.role && !unitSends s.pfx.pa.role then srcPb else srcPa

/-- Each sending unit sends its copy over the route table (R324); type 2, or 6 for lane control. -/
def p2pSend (ty kind : Nat) (dst : BitVec 12) (q : BitVec 24) (ack : Bool) (body : Bytes) (s : State) : State :=
  match p2pLink s ty dst with
  | none => s
  | some l => (sendingUnits s).foldl (fun t u => queueMsg l ty (pmBytes kind (moduleId s) u dst 64 q ack body) t) s

/-- The next message number is taken. -/
def nextMseq (s : State) : State := s.modPfx fun p => { p with mseq := p.mseq + 1 }

/-- The fault signature of kind 4 that names this module and a fibre (R195, R323). -/
def faultSig (s : State) (fibre : Nat) : BitVec 32 := BitVec.ofNat 32 (4 * 2 ^ 28 + (moduleId s).toNat * 2 ^ 16 + fibre * 2 ^ 12)

/-- Send a message of the outbox: a FAULT_NOTICE with its signature. -/
def sendOut (m : P2pMsg) (s : State) : State := p2pSend 2 m.kind.toNat m.dst m.mseq true (le 4 m.sig.toNat ++ zeros 4) s

/-- FAULT_NOTICE to a helper module (R196, R323). -/
def sendFault (dst : BitVec 12) (fibre : Nat) (s : State) : State :=
  if (sendingUnits s).isEmpty then s
  else
    let m : P2pMsg := { dst := dst, kind := 1, mseq := s.pfx.mseq, sig := faultSig s fibre, copies := 1 }
    sendOut m ((nextMseq s).modPfx fun p => { p with outbox := p.outbox ++ [m] })

/-- A lane-control message to the transmitting module of a lane (R160, R161): lane-ready or failure report; its kind and
body are not given (log entry 44, DESIGN CHOICE). -/
def laneMessage (ready : Bool) (dst : BitVec 12) (fibre lane : Nat) (s : State) : State :=
  p2pSend 6 (Config.laneKind ready) dst s.pfx.mseq false (Config.laneBody ready fibre lane) (nextMseq s)

/-- ACK of a message (R323). -/
def p2pAck (b : Bytes) (s : State) : State := p2pSend 2 2 (pmSrc b) (pmSeq b) false [] s

/-! ### Taking a message (R225, R324) -/

/-- Relay a message over the route table with `PM.TTL` lowered by one, or not at all when it has reached 0 (R225, R324). -/
def p2pRelay (ty : Nat) (b : Bytes) (s : State) : State :=
  if pmTtl b = 0 then raise evNoticeTtlExpired srcSv (le 2 (pmSrc b).toNat ++ le 2 (pmDst b).toNat ++ le 1 (pmKind b)) s
  else match p2pLink s ty (pmDst b) with
    | some l => queueMsg l ty (le 16 (rd b 0 16 - 2 ^ 87) ++ b.drop 16) s
    | none => s

/-- The message has been taken already (R324). -/
def p2pSeen (b : Bytes) (s : State) : Bool := decide ((pmSrc b, pmSeq b) ∈ s.pfx.seen)

/-- Remember a message: the newest 256 numbers of each source (R324). -/
def p2pNote (b : Bytes) (s : State) : State :=
  let src := pmSrc b
  s.modPfx fun p =>
    { p with seen := (src, pmSeq b) :: (p.seen.filter fun e => decide (e.1 = src)).take 255 ++ p.seen.filter fun e => decide (e.1 ≠ src) }

/-- A message arrives, an input of both Prefects (R303): relayed when it is for another module; else acknowledged where it asks for that, and acted on the
first time (R324). -/
def takeP2p (ty : Nat) (b : Bytes) (act : State → State) (s : State) : State :=
  let s := prefectInput s
  if pmDst b ≠ moduleId s then p2pRelay ty b s
  else
    let s1 := if pmAckReq b then p2pAck b s else s
    if p2pSeen b s1 then s1 else act (p2pNote b s1)

/-! ### The commands -/

/-- P2P_ACK: an ACK for another module is relayed; one for this module ends the repeats (R324). -/
def execP2pAck (port : Nat) (msg : Bytes) (s : State) : Host.Outcome State Fault Refusal :=
  if !litUp s ∨ pmKind msg ≠ 2 ∨ 1024 ≤ port then .next s
  else if pmDst msg ≠ moduleId s then .next (p2pRelay 2 msg (prefectInput s))
  else .next ((prefectInput s).modPfx fun p => { p with outbox := p.outbox.filter fun m => !(decide (m.dst = pmSrc msg) && decide (m.mseq = pmSeq msg)) })

/-- P2P_MESSAGE_REPEAT: 200 µs without an ACK; up to three copies (R324). -/
def execP2pMessageRepeat (mseq : BitVec 24) (s : State) : Host.Outcome State Fault Refusal :=
  match s.pfx.outbox.find? fun m => decide (m.mseq = mseq) with
  | some m =>
    if litUp s && decide (m.copies < 3) then
      .next (sendOut m (s.modPfx fun p => { p with outbox := mapFirst (fun x => decide (x.mseq = mseq)) (fun x => { x with copies := x.copies + 1 }) p.outbox }))
    else .next s
  | none => .next s

/-- P2P_UNDELIVERED: 1 ms after the third copy without an ACK (R324). -/
def execP2pUndelivered (mseq : BitVec 24) (s : State) : Host.Outcome State Fault Refusal :=
  match s.pfx.outbox.find? fun m => decide (m.mseq = mseq) with
  | some m =>
    if litUp s && decide (3 ≤ m.copies) then
      .next (raise evP2pUndelivered (pfxSrc s) (le 2 m.dst.toNat ++ le 1 m.kind.toNat ++ le 4 m.mseq.toNat)
        (s.modPfx fun p => { p with outbox := dropFirst (fun x => decide (x.mseq = mseq)) p.outbox }))
    else .next s
  | none => .next s

end Sys2Proof.Machine
end

