-- ==== Sys2Proof/Machine/Prefect.lean ====
section
/-!
DEFINITION. The Prefect pair (R303 to R325): the gates and their claims, heartbeats, claiming and standing down, hot pair and
warm standby, reverts, and the Prefect opcodes. Units are named by a Bool, false for PA and true for PB.
-/

namespace Sys2Proof.Machine

/-! ### Units, gates, claims -/

/-- A Prefect. -/
def unitOf (s : State) (u : Bool) : PfxUnit := if u then s.pfx.pb else s.pfx.pa

/-- Change a Prefect. -/
def modUnit (u : Bool) (f : PfxUnit → PfxUnit) (s : State) : State :=
  s.modPfx fun p => if u then { p with pb := f p.pb } else { p with pa := f p.pa }

/-- A gate. -/
def gateOf (s : State) (g : Nat) : Gate := tget {} s.pfx.gates g

/-- Change a gate. -/
def modGate (g : Nat) (f : Gate → Gate) (s : State) : State := s.modPfx fun p => { p with gates := tmod {} p.gates g f }

/-- The epoch of a claim (R305). -/
def epochOf (c : BitVec 32) : Nat := c.toNat / 2

/-- The unit of a claim (R305). -/
def claimUnit (c : BitVec 32) : Bool := c.getLsbD 0

/-- The claim of a unit at an epoch (R305). -/
def mkClaim (e : Nat) (u : Bool) : BitVec 32 := BitVec.ofNat 32 (2 * e + b2n u)

/-- The number of a unit in records. -/
def unitCode (u : Bool) : Nat := b2n u

/-- The record source of a unit (R399). -/
def unitSrc (u : Bool) : Nat := if u then srcPb else srcPa

/-! ### A gate and its claims (R307) -/

/-- A gate discards a command by its claim: counted, CLAIM_DISCARDED (R307). -/
def gateDiscard (g : Nat) (c : BitVec 32) (s : State) : State :=
  let s1 := modGate g (fun x => { x with discards := addSat x.discards 1 }) s
  raise evClaimDiscarded (srcGate g) (le 1 g ++ le 4 c.toNat ++ le 4 (gateOf s1 g).claim.toNat ++ leSat 4 (gateOf s1 g).discards.toNat) s1

/-- A gate accepts a claim: the numbers seen begin at the acknowledgement again, and commands that were ahead of sequence are
gone (R307; log entry 19, DEDUCED). -/
def gateAccept (g : Nat) (c : BitVec 32) (pair : Bool) (s : State) : State :=
  modGate g (fun x => { x with claim := c, paired := pair, seenA := x.ack, seenB := x.ack, ahead := [] }) s

/-- A claim reaches a gate (R307). -/
def gateClaim (g : Nat) (c : BitVec 32) (pair : Bool) (s : State) : State :=
  let x := gateOf s g
  let e := epochOf c
  let a := epochOf x.claim
  if a + 1 < e then gateDiscard g c s
  else if e = a + 1 then gateAccept g c pair s
  else if e < a then gateDiscard g c s
  else if x.paired then s
  else if x.claim.toNat < c.toNat then modGate g (fun y => { y with claim := c }) s
  else if c = x.claim then s
  else gateDiscard g c s

/-- GATE_CLAIM (R307). -/
def execGateClaim (gate : Nat) (unit : Bool) (claim : BitVec 32) (pair : Bool) (s : State) : Host.Outcome State Fault Refusal :=
  if svOn s && decide (gate < 10) && decide (claimUnit claim = unit) then .next (gateClaim gate claim pair s) else .next s

/-! ### Configuration commands (R309, R316) -/

/-- A gate obeys a command of a claim (R307). -/
def gateObeys (x : Gate) (c : BitVec 32) : Bool := decide (epochOf c = epochOf x.claim) && (x.paired || decide (c = x.claim))

/-- A gate executes a command: its configuration takes it, and its number is acknowledged (R304, R308). -/
def gateExecute (g : Nat) (c : GateCmd) (s : State) : State :=
  modGate g (fun x => { x with ack := c.seq, first := none, done := some c, config := (c.opc, c.payload) :: x.config }) s

/-- Two copies are the same apart from their claims (R316). -/
def GateCmd.same (a b : GateCmd) : Bool := decide ({ a with claim := 0 } = { b with claim := 0 })

/-- PAIR_DIVERGED: gate, number, the opcodes of PA's and of PB's copy (R316). -/
def pairDiverged (g : Nat) (a b : GateCmd) (s : State) : State :=
  let pa := if claimUnit a.claim then b else a
  let pb := if claimUnit a.claim then a else b
  raise evPairDiverged (srcGate g) (le 1 g ++ le 4 a.seq.toNat ++ le 2 pa.opc.toNat ++ le 2 pb.opc.toNat)
    (modGate g (fun x => { x with diverged := (s.sc :: x.diverged).take 4 }) s)

/-- The gate has raised PAIR_DIVERGED four times within 1 s (R316). -/
def fourDiverged (s : State) (g : Nat) : Bool := decide (((gateOf s g).diverged.filter fun t => decide (s.sc < t + 400000000)).length = 4)

/-- The second copy of the number at hand: the same as the first, or the higher claim's copy is executed (R316). -/
def secondCopy (g : Nat) (a b : GateCmd) (s : State) : State :=
  if a.same b then gateExecute g a s
  else gateExecute g (if a.claim.toNat < b.claim.toNat then b else a) (pairDiverged g a b s)

/-- The next number in sequence is at hand: executed, or in a paired epoch its first copy waits for the second (R309, R316). -/
def inSequence (g : Nat) (c : GateCmd) (s : State) : State :=
  let x := gateOf s g
  if !x.paired then gateExecute g c s
  else match x.first with
    | none => modGate g (fun y => { y with first := some c }) s
    | some a => if a.claim = c.claim then s else secondCopy g a c s

/-- Held commands whose number has come are taken, in the order in which they arrived (R309). -/
def runAhead : Nat → Nat → State → State
  | 0, _, s => s
  | n + 1, g, s =>
    match (gateOf s g).ahead.find? fun c => decide (c.seq = (gateOf s g).ack + 1) with
    | some c => runAhead n g (inSequence g c (modGate g (fun x => { x with ahead := dropFirst (fun y => decide (y = c)) x.ahead }) s))
    | none => s

/-- A unit's highest number seen at a gate (R308). -/
def noteSeen (g : Nat) (u : Bool) (q : BitVec 32) (s : State) : State :=
  modGate g (fun x => if u then { x with seenB := if x.seenB.toNat < q.toNat then q else x.seenB } else { x with seenA := if x.seenA.toNat < q.toNat then q else x.seenA }) s

/-- A configuration command that the gate obeys (R309, R316): in sequence it is taken; up to 16 ahead of sequence are held; one
at or below the acknowledgement is discarded, with PAIR_DIVERGED when it differs from the executed copy. -/
def gateCommand (g : Nat) (u : Bool) (c : GateCmd) (s : State) : State :=
  let s1 := noteSeen g u c.seq s
  let x := gateOf s1 g
  if c.seq.toNat ≤ x.ack.toNat then
    match x.done with
    | some d => if x.paired && decide (d.seq = c.seq) && decide (d.claim ≠ c.claim) && !d.same c then pairDiverged g d c s1 else s1
    | none => s1
  else if c.seq = x.ack + 1 then runAhead 16 g (inSequence g c s1)
  else if x.ahead.length < 16 then modGate g (fun y => { y with ahead := y.ahead ++ [c] }) s1
  else s1

/-- A gate's newest 256 commands, with those of the other gates. -/
def newest256 (g : Nat) (c : GateCmd) (l : List (Nat × GateCmd)) : List (Nat × GateCmd) :=
  if l.any fun e => decide (e.1 = g) && decide (e.2.seq = c.seq) then l
  else (g, c) :: ((l.filter fun e => decide (e.1 = g)).take 255 ++ l.filter fun e => decide (e.1 ≠ g))

/-- A command is kept by its sender, which may have to send it again (R309), and in warm standby, over a cross-link that is up, by the standby
(R318). -/
def mirrored (g : Nat) (c : GateCmd) (s : State) : State :=
  s.modPfx fun p =>
    { p with sent := newest256 g c p.sent, mirror := if !(gateOf s g).paired && (p.x0 || p.x1) then newest256 g c p.mirror else p.mirror }

/-- A gate takes a command that a Prefect sent: mirrored to the standby, then taken or discarded by its claim (R307, R309, R318). -/
def gateTake (g : Nat) (u : Bool) (c : GateCmd) (s : State) : State :=
  let s1 := mirrored g c s
  if gateObeys (gateOf s1 g) c.claim then gateCommand g u c s1 else gateDiscard g c.claim s1

/-- The envelope and payload of a configuration command (R306). -/
def cmdBytes (g : Nat) (c : GateCmd) : Bytes :=
  le 16 (2 ^ 16 * (c.payload.length / 8) + 2 ^ 32 * c.opc.toNat + 2 ^ 56 + 2 ^ 60 * g + 2 ^ 64 * c.seq.toNat + 2 ^ 96 * c.claim.toNat) ++ c.payload

/-- The Prefects that send issue the next command of a gate, each its copy under its claim: every change of a crosspoint, a comb source
or a lane configuration reaches its die so (R13, R306, R309, R316). Opcode and payload are the firmware's own, by what changes (R306;
log entry 88, DESIGN CHOICE). -/
def gateIssue (g what : Nat) (args : List Nat) (s : State) : State :=
  let x := gateOf s g
  (sendingUnits s).foldl (fun t u =>
    let c : GateCmd := { claim := mkClaim (epochOf x.claim) u, seq := x.ack + 1, kind := 1, pair := x.paired, opc := Config.gateOpc what, payload := Config.gatePayload what args }
    gateTake g u c (emit .gateCmd g (cmdBytes g c) t)) s

/-- GATE_READBACK_REQUEST: the gate's full configuration goes to the Prefect, at any claim; nothing changes (R309). -/
def execGateReadbackRequest (gate : Nat) (s : State) : Host.Outcome State Fault Refusal :=
  if svOn s && decide (gate < 10) then
    .next (emit .gateCast gate (((gateOf s gate).config.map fun e => le 2 e.1.toNat ++ le 2 (e.2.length / 8) ++ e.2).flatten) s)
  else .next s

/-! ### Health (R310 to R312) -/

/-- A Prefect is healthy: bits 0 to 3, and a cross-link is up (R312). -/
def healthy (s : State) (u : Bool) : Bool := decide ((unitOf s u).health.toNat % 16 = 15) && (s.pfx.x0 || s.pfx.x1)

/-- Set or clear a bit of `HB.HEALTH`. -/
def setHealth (u : Bool) (bit : Nat) (v : Bool) (s : State) : State :=
  modUnit u (fun x => { x with health := if v then x.health ||| BitVec.ofNat 8 (2 ^ bit) else x.health &&& ~~~BitVec.ofNat 8 (2 ^ bit) }) s

/-- A host plan is between activation and completion, or a fallback plan runs (R315, R320). -/
def planBusy (s : State) : Bool := ((s.sw.plan.map fun r => decide (r.phase = PlanPhase.active)).getD false) || s.sw.fbRun.isSome

/-- A Prefect runs. -/
def unitAlive (s : State) (u : Bool) : Bool := svOn s && decide ((unitOf s u).role ≠ .off)

/-- The 16 bytes of a heartbeat (R310). -/
def hbBytes (s : State) (u : Bool) : Bytes :=
  let x := unitOf s u
  let v := x.hbCount.toNat + 2 ^ 20 * x.inputSeq.toNat + 2 ^ 52 * x.health.toNat + 2 ^ 60 * b2n (gateOf s 0).paired + 2 ^ 61 * epochOf x.lastClaim +
    2 ^ 92 * roleCode x.role + 2 ^ 95 * b2n u
  le 4 (crc32c (le 12 v)) ++ le 12 v

/-- The CRC of a heartbeat is good. -/
def hbGood (b : Bytes) : Bool := decide (b.length = 16) && decide (b.take 4 = le 4 (crc32c (b.drop 4)))

/-- HEARTBEAT_SEND: on both cross-links, every 4,000 sc (R310). -/
def execHeartbeatSend (unit : Bool) (s : State) : Host.Outcome State Fault Refusal :=
  if unitAlive s unit then
    let s1 := modUnit unit (fun x => { x with hbCount := x.hbCount + 1 }) s
    let b := hbBytes s1 unit
    .next (emit .heartbeat (2 * b2n unit + 1) b (emit .heartbeat (2 * b2n unit) b s1))
  else .next s

/-! ### Claims made by a Prefect (R313, R315, R320, R321) -/

/-- The accepted claim as a Prefect sees it: the highest that the gates hold. -/
def acceptedClaim (s : State) : BitVec 32 := (gateClaims s).foldl (fun m c => if m.toNat < c.1.toNat then c.1 else m) 0

/-- Every gate holds a claim. -/
def allHold (s : State) (c : BitVec 32) : Bool := (gateClaims s).all fun x => decide (x.1 = c)

/-- A claim goes to all ten gates: an envelope of kind 0 that carries each gate's acknowledgement (R306). -/
def sendClaim (u pair : Bool) (s : State) : State :=
  (List.range 10).foldl (fun t g =>
    emit .claim g (le 16 (2 ^ 55 * b2n pair + 2 ^ 60 * g + 2 ^ 64 * (gateOf s g).ack.toNat + 2 ^ 96 * (unitOf s u).claim.toNat)) t) s

/-- A Prefect claims the accepted epoch plus one (R313): `why` is 0 takeover, 1 revert, 2 commanded, 3 mode change, 4
re-pairing. No claim follows epoch 0x7FFF_FFFF (R307). -/
def claimNext (u pair : Bool) (why : Nat) (s : State) : State :=
  let e := epochOf (acceptedClaim s)
  if 0x7FFFFFFF ≤ e then s
  else
    sendClaim u pair (modUnit u (fun x => { x with
      claim := mkClaim (e + 1) u, claiming := true, retries := 0, settling := false, why := why,
      ackSeen := (List.range 10).map fun g => (g, (gateOf s g).ack) }) s)

/-- PREFECT_FAILED: the partner, the cause (1 misses, 2 health bits), the last count (R311); then the claim (R313). -/
def declare (u : Bool) (cause : Nat) (s : State) : State :=
  let s1 := raise evPrefectFailed (unitSrc u) (le 1 (unitCode (!u)) ++ le 1 cause ++ le 4 (unitOf s u).rxCount.toNat) (modUnit (!u) (fun x => { x with role := .failed }) s)
  claimNext u false 0 s1

/-- A Prefect whose commands are being accepted (R313). -/
def wasSender (x : PfxUnit) : Bool := unitSends x.role

/-- A switch-over is counted (R315, R413). -/
def countSwitch (s : State) : State := s.modLife fun l => { l with pfxSwitch := addSat l.pfxSwitch 1 }

/-- PREFECT_TAKEOVER: the new controller, its claim, paired, the gap in sc since the partner was last heard (R313). -/
def takeover (u : Bool) (gap : Nat) (s : State) : State :=
  raise evPrefectTakeover (unitSrc u) (le 1 (unitCode u) ++ le 4 (unitOf s u).claim.toNat ++ le 1 (b2n (gateOf s 0).paired) ++ leSat 4 gap) (countSwitch s)

/-- What a claim that every gate has accepted was for (R313, R315, R320, R321). -/
def claimTold (u : Bool) (s : State) : State :=
  let x := unitOf s u
  match x.why with
  | 0 => takeover u (if wasSender x then 0 else s.sc - x.hbSc) s
  | 1 => raise evPrefectRevert (unitSrc u) (le 1 (unitCode u) ++ le 4 x.claim.toNat ++ leSat 4 (hourReverts s)) (countSwitch s)
  | 3 =>
    match s.pfx.modePkt with
    | some (hot, pkt) =>
      replyOpt pkt 0 (le 1 (if hot then 0 else 1)) (raise evPairModeChanged (unitSrc u) (le 1 (if hot then 1 else 0) ++ le 1 (if hot then 0 else 1) ++ le 4 x.claim.toNat)
        (countSwitch (s.modPfx fun p => { p with modePkt := none })))
    | none => s
  | 2 => countSwitch s
  | _ => s

/-- A Prefect whose claim every gate holds controls: in a paired epoch both send; a sender goes on without pause, and any other
waits the settle window (R313, R316). Its path is proven (R312). -/
def claimHeld (u : Bool) (s : State) : State :=
  let x := unitOf s u
  let s1 := setHealth u 4 true ((modUnit u (fun y => { y with claiming := false, lastClaim := y.claim }) s).modPfx fun p => { p with noAccepted := false })
  if (gateOf s 0).paired then claimTold u (modUnit u (fun y => { y with role := .pairedSender }) s1)
  else if wasSender x then claimTold u (modUnit u (fun y => { y with role := .controlling }) s1)
  else modUnit u (fun y => { y with settling := true }) s1

/-- CLAIM_SETTLE_EXPIRY: 800 sc with no higher claim: the new controller asks for the configuration of each gate beyond the
commands that it holds, and sends (R313, R318). -/
def execClaimSettleExpiry (unit : Bool) (s : State) : Host.Outcome State Fault Refusal :=
  let x := unitOf s unit
  if unitAlive s unit && x.settling && allHold s x.claim then
    let s1 := claimTold unit (modUnit unit (fun y => { y with settling := false }) s)
    let s2 := modUnit unit (fun y => { y with role := .controlling }) s1
    .next ((List.range 10).foldl (fun t g =>
      if (gateOf s g).ack = 0 || s.pfx.mirror.any (fun e => decide (e.1 = g) && decide (e.2.seq = (gateOf s g).ack)) then t
      else emit .gateCmd g (le 16 (2 ^ 56 * 2 + 2 ^ 60 * g + 2 ^ 96 * x.claim.toNat)) t) s2)
  else .next s

/-- A Prefect stands down: PREFECT_STOOD_DOWN with the winning claim (R314). -/
def standDown (u : Bool) (win : BitVec 32) (s : State) : State :=
  raise evPrefectStoodDown (unitSrc u) (le 1 (unitCode u) ++ le 4 win.toNat)
    (modUnit u (fun x => { x with role := .stoodDown, claiming := false, settling := false }) s)

/-- What a Prefect remembers of a broadcast claim: the partner's at a newer epoch shows the partner in control (R313). -/
def noteClaim (u : Bool) (a : BitVec 32) (s : State) : State :=
  modUnit u (fun x => { x with
    partnerClaimed := x.partnerClaimed || (decide (claimUnit a ≠ u) && decide (epochOf x.lastClaim < epochOf a)),
    lastClaim := if x.lastClaim.toNat < a.toNat then a else x.lastClaim }) s

/-- What a broadcast carries: A and P, the acknowledgement, the highest number seen from each unit, the counts of discards and of single
copies (R308; the order of the items is log entry 101, DESIGN CHOICE). -/
def castBytes (x : Gate) (a : BitVec 32) (pair : Bool) : Bytes :=
  le 4 a.toNat ++ le 1 (b2n pair) ++ le 4 x.ack.toNat ++ le 4 x.seenA.toNat ++ le 4 x.seenB.toNat ++ le 4 x.discards.toNat ++ le 4 x.singles.toNat

/-- GATE_BROADCAST: a Prefect learns whether its claim won or lost (R308, R314, R316). -/
def gateBroadcast (g : Nat) (u : Bool) (a : BitVec 32) (pair : Bool) (s : State) : State :=
  let s1 := noteClaim u a (emit .gateCast g (castBytes (gateOf s g) a pair) s)
  let x := unitOf s1 u
  if x.claiming && decide (a = x.claim) then (if allHold s1 x.claim then claimHeld u s1 else s1)
  else if pair then
    if epochOf x.claim < epochOf a ∧ !x.pathFault then
      modUnit u (fun y => { y with role := .pairedSender, claim := mkClaim (epochOf a) u, claiming := false, settling := false }) s1
    else s1
  else if x.claim.toNat < a.toNat ∧ (wasSender x ∨ x.claiming ∨ x.settling ∨ x.role = .failed) then standDown u a s1
  else s1

/-- GATE_BROADCAST (R308). -/
def execGateBroadcast (gate : Nat) (unit : Bool) (claim : BitVec 32) (pair : Bool) (s : State) : Host.Outcome State Fault Refusal :=
  if unitAlive s unit && decide (gate < 10) then .next (gateBroadcast gate unit claim pair s) else .next s

/-! ### Divergence (R316) -/

/-- After the fourth PAIR_DIVERGED within 1 s, PB claims unpaired, and the pair stays in warm standby until the host re-pairs
it (R316). -/
def afterDiverged (g : Nat) (s : State) : State :=
  if fourDiverged s g && !s.pfx.diverged then
    let s1 := match s.pfx.modePkt with
      | some (_, pkt) => replyOpt pkt stStateInvalid [] s
      | none => s
    claimNext true false 3 (s1.modPfx fun p => { p with diverged := true, modePkt := some (false, none) })
  else s

/-- GATE_CONFIG_COMMAND: mirrored to the standby, then taken or discarded by its claim (R307, R309, R316, R318). -/
def execGateConfigCommand (gate : Nat) (unit : Bool) (cmd : GateCmd) (s : State) : Host.Outcome State Fault Refusal :=
  if !svOn s ∨ 10 ≤ gate ∨ claimUnit cmd.claim ≠ unit then .next s
  else
    let s1 := mirrored gate cmd s
    if gateObeys (gateOf s1 gate) cmd.claim then .next (afterDiverged gate (gateCommand gate unit cmd s1)) else .next (gateDiscard gate cmd.claim s1)

/-- PAIR_COPY_WINDOW_EXPIRY: the first copy is executed and a single copy is counted (R316). -/
def execPairCopyWindowExpiry (gate : Nat) (s : State) : Host.Outcome State Fault Refusal :=
  match (gateOf s gate).first with
  | some c => if svOn s then .next (runAhead 16 gate (gateExecute gate c (modGate gate (fun x => { x with singles := addSat x.singles 1 }) s))) else .next s
  | none => .next s

/-- GATE_RESEND_TIMEOUT: 5 µs without progress: the sender sends again from the acknowledgement plus one (R309). -/
def execGateResendTimeout (gate : Nat) (unit : Bool) (s : State) : Host.Outcome State Fault Refusal :=
  if unitAlive s unit && wasSender (unitOf s unit) && decide (gate < 10) then
    .next ((s.pfx.sent.reverse.filter fun e => decide (e.1 = gate) && decide ((gateOf s gate).ack.toNat < e.2.seq.toNat)).foldl (fun t e =>
      emit .gateCmd gate (cmdBytes gate { e.2 with claim := (unitOf s unit).claim }) t) s)
  else .next s

/-! ### Modes and reverts (R315, R320, R321) -/

/-- The mode in force: the gates are paired. -/
def pairedNow (s : State) : Bool := (gateOf s 0).paired

/-- The mode that the limit and the installed profile ask for (R315). -/
def wantsHot (s : State) : Bool :=
  decide (s.pfx.pairLimit ≠ 0) && ((s.prof.fab.map fun p => decide (p.modules.length ≤ s.pfx.pairLimit.toNat)).getD true)

/-- The Prefect that controls: the unit of the accepted claim (R305, R313). -/
def controller (s : State) : Bool := claimUnit (acceptedClaim s)

/-- Both Prefects are healthy with bit 5 set, and no plan is at work (R315). -/
def bothReady (s : State) : Bool :=
  healthy s false && healthy s true && (unitOf s false).health.getLsbD 5 && (unitOf s true).health.getLsbD 5 && !planBusy s

/-- No claim is on its way. -/
def noClaim (s : State) : Bool := !(s.pfx.pa.claiming || s.pfx.pb.claiming || s.pfx.pa.settling || s.pfx.pb.settling)

/-- A mode change that waits is claimed once it can be (R315). -/
def tryMode (s : State) : State :=
  match s.pfx.modePkt with
  | some (hot, _) => if bothReady s && noClaim s && !s.pfx.noAccepted then claimNext (controller s) hot 3 s else s
  | none => s

/-- A mode is asked for: done at once when it is in force; a change takes the place of none that waits (R315). -/
def askMode (hot : Bool) (pkt : Option PktRef) (s : State) : State :=
  if pairedNow s = hot ∧ s.pfx.modePkt.isNone then replyOpt pkt 0 (le 1 (pfxMode s)) s
  else if s.pfx.modePkt.isSome then replyOpt pkt stStateInvalid [] s
  else
    let s1 := s.modPfx fun p => { p with modePkt := some (hot, pkt) }
    tryMode (match pkt with
      | some r => replyPending r s1
      | none => s1)

/-- The installed profile settles the mode, unless the pair was put into warm standby by divergence (R315, R316). -/
def modeForProfile (s : State) : State :=
  let s1 := s.modPfx fun p => { p with hot := wantsHot s }
  if s.pfx.diverged || decide (pairedNow s = wantsHot s) || !fwUp s then s1 else askMode (wantsHot s) none s1

/-- PAIR_MODE_CHANGE_TIMEOUT: a change that could not be made within 1 s is refused (R315). -/
def execPairModeChangeTimeout (s : State) : Host.Outcome State Fault Refusal :=
  match s.pfx.modePkt with
  | some (_, pkt) => if svOn s then .next (replyOpt pkt stStateInvalid [] (s.modPfx fun p => { p with modePkt := none })) else .next s
  | none => .next s

/-- The home Prefect may take over from the other: it stands by, healthy with bits 4 and 5, and had no path fault (R320). -/
def homeReady (s : State) : Bool :=
  let h := s.pfx.home
  healthy s h && (unitOf s h).health.getLsbD 4 && (unitOf s h).health.getLsbD 5 && !(unitOf s h).pathFault && decide ((unitOf s h).role = .standby) &&
    decide ((unitOf s (!h)).role = .controlling)

/-- A revert that is due and can be made: the fourth within an hour is not, and turns reverting off (R320, R321). -/
def tryRevert (s : State) : State :=
  if !s.pfx.revertDue || !s.pfx.revertEn || !homeReady s || planBusy s || !noClaim s then s
  else if 3 ≤ hourReverts s then
    raise evRevertDisabled (unitSrc s.pfx.home) (leSat 4 (hourReverts s)) (s.modPfx fun p => { p with revertEn := false, revertDue := false })
  else claimNext s.pfx.home (s.pfx.hot && !s.pfx.diverged) 1 (s.modPfx fun p => { p with reverts := (s.sc :: p.reverts).take 4, revertDue := false, holdLeft := 0 })

/-- REVERT_HOLDOFF_EXPIRY (R320): a revert that falls due while a plan is at work is deferred until it ends. -/
def execRevertHoldoffExpiry (s : State) : Host.Outcome State Fault Refusal :=
  if svOn s && homeReady s then .next (tryRevert (s.modPfx fun p => { p with revertDue := true, holdLeft := 0 })) else .next s

/-- The hold-off runs while the home Prefect could revert, and starts again when it could not (R320). -/
def settleHold (s : State) : State :=
  if homeReady s && s.pfx.revertEn then (if s.pfx.holdLeft = 0 && !s.pfx.revertDue then s.modPfx fun p => { p with holdLeft := p.holdOff } else s)
  else s.modPfx fun p => { p with holdLeft := 0, revertDue := false }

/-- The home Prefect that controls re-pairs the gates once its partner has recovered, in hot pair (R320). -/
def tryRepair (s : State) : State :=
  let h := s.pfx.home
  if s.pfx.hot && !s.pfx.diverged && !pairedNow s && s.pfx.modePkt.isNone && decide ((unitOf s h).role = .controlling) && decide ((unitOf s (!h)).role = .standby) &&
      !(unitOf s (!h)).pathFault && bothReady s && noClaim s then
    claimNext h true 4 s
  else s

/-! ### Heartbeats (R311, R312, R322) -/

/-- Whether a cross-link is up, by its number. -/
def crossUp (s : State) (x1 : Bool) : Bool := if x1 then s.pfx.x1 else s.pfx.x0

/-- A cross-link goes down or comes back: CROSSLINK_DOWN, CROSSLINK_UP (R311). -/
def setCross (x1 up : Bool) (s : State) : State :=
  if crossUp s x1 = up then s
  else raise (if up then evCrosslinkUp else evCrosslinkDown) srcSv (le 1 (b2n x1)) (s.modPfx fun p => if x1 then { p with x1 := up } else { p with x0 := up })

/-- A good heartbeat on a cross-link: that link is up, and the other is down after three without one on it (R311). -/
def crossSeen (u x1 : Bool) (s : State) : State :=
  let s1 := setCross x1 true (modUnit u (fun x => if x1 then { x with miss1 := 0, miss0 := x.miss0 + 1 } else { x with miss0 := 0, miss1 := x.miss1 + 1 }) s)
  let n := if x1 then (unitOf s1 u).miss0 else (unitOf s1 u).miss1
  if 3 < n then setCross (!x1) false s1 else s1

/-- Bit 5: the partner's input number and epoch match the unit's own within two heartbeats (R312). -/
def matchPartner (u : Bool) (v : Nat) (s : State) : State :=
  let x := unitOf s u
  if fld v 52 32 = x.inputSeq.toNat ∧ fld v 93 31 = epochOf x.lastClaim then setHealth u 5 true (modUnit u (fun y => { y with mism := 0 }) s)
  else
    let s1 := modUnit u (fun y => { y with mism := y.mism + 1 }) s
    if 2 ≤ x.mism + 1 then setHealth u 5 false s1 else s1

/-- The partner is heard again: one that had failed or stood down stands by, and a unit that had stood down stands by for it
(R314, R320). -/
def partnerHeard (u : Bool) (s : State) : State :=
  let p := unitOf s (!u)
  let s1 := if p.role = .failed ∨ (p.role = .stoodDown ∧ !p.pathFault ∧ wasSender (unitOf s u)) then modUnit (!u) (fun x => { x with role := .standby }) s else s
  let x := unitOf s1 u
  if x.role = .stoodDown ∧ !x.pathFault ∧ wasSender (unitOf s1 (!u)) then modUnit u (fun x => { x with role := .standby }) s1 else s1

/-- A new heartbeat of the partner (R311): the misses start afresh; a partner that shows bit 0, 1 or 2 of its health clear has
failed at once. -/
def newHeartbeat (u : Bool) (v : Nat) (s : State) : State :=
  let s1 := modUnit u (fun x => { x with got := true, misses := 0, rxCount := BitVec.ofNat 20 (v >>> 32), partnerClaimed := false, hbSc := s.sc }) s
  if fld v 84 3 ≠ 7 then (if (unitOf s1 (!u)).role = .failed then s1 else declare u 2 s1)
  else tryRepair (tryRevert (settleHold (tryMode (matchPartner u v (partnerHeard u s1)))))

/-- HEARTBEAT (R311): `unit` is the receiver, `link` the cross-link. -/
def execHeartbeat (unit link : Bool) (frame : Bytes) (s : State) : Host.Outcome State Fault Refusal :=
  let v := rd frame 0 16
  if !unitAlive s unit ∨ hbGood frame = false ∨ bit v 127 = unit then .next s
  else
    let s1 := crossSeen unit link s
    if fld v 32 20 = (unitOf s unit).rxCount.toNat then .next s1 else .next (newHeartbeat unit v s1)

/-- The third consecutive miss (R311, R313): the partner has failed, unless the gates have accepted a newer claim of it; where
it has gone on sending, both cross-links are down (R322). -/
def thirdMiss (u : Bool) (s : State) : State :=
  let p := unitOf s (!u)
  let s1 := if 3 ≤ (p.hbCount - (unitOf s u).rxCount).toNat ∧ p.role ≠ .off then setCross true false (setCross false false s) else s
  if (unitOf s u).partnerClaimed ∨ p.role = .failed then s1 else declare u 1 s1

/-- HEARTBEAT_MISS (R311). -/
def execHeartbeatMiss (unit : Bool) (s : State) : Host.Outcome State Fault Refusal :=
  if unitAlive s unit then
    let s1 := modUnit unit (fun x => { x with misses := x.misses + 1, got := false }) s
    if (unitOf s1 unit).misses = 3 then .next (thirdMiss unit s1) else .next s1
  else .next s

/-- NO_ACCEPTED_PREFECT: the accepted claim, the claims tried, the unit or 0xF for none (R319, R322). -/
def noPrefect (tried unit : Nat) (s : State) : State :=
  raise evNoAcceptedPrefect srcSv (le 4 (acceptedClaim s).toNat ++ leSat 4 tried ++ le 1 unit) (s.modPfx fun p => { p with noAccepted := true })

/-- SV_HEARTBEAT_WATCH: the SV command engine sees no heartbeat of the controller for 100 µs: a standby is told to claim; with
none, no Prefect is accepted (R313, R322). -/
def execSvHeartbeatWatch (s : State) : Host.Outcome State Fault Refusal :=
  let c := controller s
  let o := unitOf s (!c)
  if !svOn s ∨ s.pfx.noAccepted ∨ (s.pfx.pa.role = .off ∧ s.pfx.pb.role = .off) then .next s
  else if (o.role = .standby ∨ o.role = .pairedSender ∨ (o.role = .stoodDown ∧ !o.pathFault)) ∧ o.health.toNat % 16 = 15 then .next (declare (!c) 1 s)
  else .next (noPrefect 0 0xF s)

/-- CLAIM_RETRY_TIMEOUT: no claim accepted within 4,000 sc: again, up to three times; then no Prefect is accepted, or, when an
acknowledgement has advanced, the old controller lives and this unit's path is at fault (R319). -/
def claimRetry (u : Bool) (s : State) : State :=
  let x := unitOf s u
  if !x.claiming ∨ (gateClaims s).any fun c => decide (c.1 = x.claim) then s
  else if x.retries < 3 then sendClaim u false (modUnit u (fun y => { y with retries := y.retries + 1 }) s)
  else if x.ackSeen.all fun e => decide ((gateOf s e.1).ack = e.2) then noPrefect (x.retries + 1) (unitCode u) (modUnit u (fun y => { y with claiming := false }) s)
  else
    raise evPrefectPathFault (unitSrc u) (le 1 (unitCode u) ++ le 2 1023)
      (setHealth u 4 false (modUnit u (fun y => { y with role := .stoodDown, claiming := false, pathFault := true }) s))

/-- CLAIM_RETRY_TIMEOUT (R319). -/
def execClaimRetryTimeout (unit : Bool) (s : State) : Host.Outcome State Fault Refusal := if unitAlive s unit then .next (claimRetry unit s) else .next s

/-- PATH_PACE_TIMEOUT: in a paired epoch a unit trails a gate's acknowledgement by more than 8 for 10 µs: it stands down, and its
partner claims (R317). -/
def pathPace (g : Nat) (u : Bool) (s : State) : State :=
  let x := gateOf s g
  if !x.paired ∨ (unitOf s u).role ≠ .pairedSender ∨ x.ack.toNat ≤ (if u then x.seenB else x.seenA).toNat + 8 then s
  else
    let s1 := raise evPrefectPathFault (unitSrc u) (le 1 (unitCode u) ++ le 2 (2 ^ g))
      (setHealth u 4 false (modUnit u (fun y => { y with role := .stoodDown, pathFault := true }) s))
    claimNext (!u) false 0 s1

/-- PATH_PACE_TIMEOUT (R317). -/
def execPathPaceTimeout (gate : Nat) (unit : Bool) (s : State) : Host.Outcome State Fault Refusal :=
  if unitAlive s unit && decide (gate < 10) then .next (pathPace gate unit s) else .next s

/-! ### Starts (R307, R322, R368) -/

/-- A Prefect that starts: sound, with the claim it holds. -/
def freshUnit (s : State) (role : PfxRole) (c a : BitVec 32) : PfxUnit :=
  { role := role, health := 0x3F, inputSeq := s.pfx.inputSeq, claim := c, lastClaim := a, hbSc := s.sc }

/-- The home Prefect claims an epoch on every gate, and the pair runs in its configured mode (R315, R322; log entry 19, DEDUCED). -/
def pairStart (e : Nat) (hot : Bool) (s : State) : State :=
  let h := s.pfx.home
  let c := mkClaim e h
  let s1 := (List.range 10).foldl (fun t g => gateClaim g c hot t) s
  let s2 := modUnit h (fun _ => freshUnit s (if hot then .pairedSender else .controlling) c c) s1
  let s3 := modUnit (!h) (fun _ => freshUnit s (if hot then .pairedSender else .standby) (if hot then mkClaim e (!h) else 0) c) s2
  s3.modPfx fun p => { p with x0 := true, x1 := true, noAccepted := false, hot := hot }

/-- The Prefects at a cold start: the gates hold claim 0 unpaired, and the home Prefect claims the first epoch (R307). -/
def pfxColdStart (s : State) : State := pairStart 1 (wantsHot s) (s.modPfx fun p => { p with gates := [] })

/-- The Prefects after SV has restarted: the gates have held, and the home Prefect claims the accepted epoch plus one in the
configured mode: PREFECT_TAKEOVER (R307, R322). -/
def pfxWarmStart (s : State) : State :=
  let s1 := s.modPfx fun p => { home := p.home, holdOff := p.holdOff, pairLimit := p.pairLimit, gates := p.gates, mseq := p.mseq, inputSeq := p.inputSeq }
  let s2 := pairStart (epochOf (acceptedClaim s1) + 1) (wantsHot s1) s1
  takeover s2.pfx.home (s2.sc - s2.boot.startSc) s2

/-! ### The Prefect opcodes (R355) -/

/-- The settings that MRAM keeps (R368, R413). -/
def savePfx (s : State) : State :=
  mramWrite 9 1 (s.modNvs fun n => { n with home := s.pfx.home, holdOff := s.pfx.holdOff, pairLimit := s.pfx.pairLimit })

/-- The MRAM copy of the settings is written, or waits under the write inhibit (R377). -/
def keepPfx (s : State) : State := if s.pwr.nvInhibit then inhibitNote (s.modNvw fun n => { n with setPfx := true }) else savePfx s

/-- PREFECT_STATUS: `PFX_STATUS` and the discards of each gate (R325, R355). -/
def execPrefectStatus (p : Pkt) (s : State) : Host.Outcome State Fault Refusal :=
  .next (runPkt p 0x0801 [] true (fun ref t =>
    reply ref 0 (le 8 (pfxStatusReg t) ++ ((List.range 10).map fun g => le 2 (gateOf t g).discards.toNat).flatten) t) s)

/-- PREFECT_SET_MODE as it begins: `PAIR_LIMIT`, and the mode it asks for; it re-pairs a pair that divergence parted (R315,
R316). -/
def setMode (limit : BitVec 16) (ref : PktRef) (s : State) : State :=
  let s1 := keepPfx (s.modPfx fun p => { p with pairLimit := limit, diverged := false })
  let s2 := s1.modPfx fun p => { p with hot := wantsHot s1 }
  askMode (wantsHot s2) (some ref) s2

/-- PREFECT_SET_MODE (R315). -/
def execPrefectSetMode (p : Pkt) (limit : BitVec 16) (s : State) : Host.Outcome State Fault Refusal :=
  .next (runPkt p 0x0802 (le 2 limit.toNat) (decide (limit.toNat ≤ 4096)) (setMode limit) s)

/-- PREFECT_SET_HOME (R320). -/
def execPrefectSetHome (p : Pkt) (unit : BitVec 8) (hold : BitVec 16) (s : State) : Host.Outcome State Fault Refusal :=
  .next (runPkt p 0x0803 (le 1 unit.toNat ++ le 2 hold.toNat) (decide (unit.toNat < 2) && decide (1 ≤ hold.toNat) && decide (hold.toNat ≤ 3600)) (fun ref t =>
    reply ref 0 [] (settleHold (keepPfx (t.modPfx fun x => { x with home := decide (unit.toNat = 1), holdOff := hold, holdLeft := 0, revertDue := false })))) s)

/-- PREFECT_REVERT_ENABLE: reverting is on again, for a home Prefect whose path was at fault too (R320, R321). -/
def execPrefectRevertEnable (p : Pkt) (s : State) : Host.Outcome State Fault Refusal :=
  .next (runPkt p 0x0804 [] true (fun ref t =>
    let h := t.pfx.home
    let t1 := t.modPfx fun x => { x with revertEn := true }
    reply ref 0 [] (settleHold (if (unitOf t1 h).pathFault then setHealth h 4 true (modUnit h (fun x => { x with pathFault := false }) t1) else t1))) s)

/-- PREFECT_SWITCHOVER: the other unit claims like a revert, uncounted; the reply carries its claim (R321). -/
def switchover (ref : PktRef) (s : State) : State :=
  let o := !controller s
  if s.pfx.noAccepted || !healthy s o || planBusy s || !noClaim s || !unitAlive s o || !((unitOf s o).role = .standby || (unitOf s o).role = .pairedSender) then
    reply ref stStateInvalid [] s
  else
    let s1 := claimNext o (s.pfx.hot && !s.pfx.diverged) 2 s
    reply ref 0 (le 4 (unitOf s1 o).claim.toNat) s1

/-- PREFECT_SWITCHOVER (R321). -/
def execPrefectSwitchover (p : Pkt) (s : State) : Host.Outcome State Fault Refusal := .next (runPkt p 0x0805 [] true switchover s)

end Sys2Proof.Machine
end

