-- ==== Sys2Proof/Machine/FabProfile.lean ====
section
/-!
DEFINITION. The fabric profile: FABRIC_PROFILE_INSTALL and FABRIC_PROFILE_READ (R43, R45, R46, R194, R214, R324).
-/

namespace Sys2Proof.Machine

/-- The logical links of this module in a fabric profile, each bound to the physical link of its own name (R214). -/
def logLinksOf (m : BitVec 12) (p : FabProf) : List LogLink :=
  (p.links.map fun l =>
    (if l.a = m then [{ fibre := l.aFibre, link := l.link, peer := l.b, tag := l.tag, tx := true, light := l.light, budget := l.budget, width := l.width,
                        bound := true, pFibre := l.aFibre, pLink := l.link.setWidth 6 }] else []) ++
    (if l.b = m then [{ fibre := l.bFibre, link := l.link, peer := l.a, tag := l.tag, tx := false, light := l.light, budget := l.budget, width := l.width,
                        bound := true, pFibre := l.bFibre, pLink := l.link.setWidth 6 }] else [])).flatten

/-- Two logical links of one direction share a peer and a path tag other than 0 (R214). -/
def keyClash : List LogLink → Bool
  | [] => false
  | a :: t => t.any (fun b => decide (a.tx = b.tx) && decide (a.peer = b.peer) && decide (a.tag = b.tag) && decide (a.tag ≠ 0)) || keyClash t

/-- Disarm fallback plans: FALLBACK_DISARMED with its cause, 1 used or 2 profile changed (R194, R196, R209). -/
def disarm (cause : Nat) (p : Nat × Fallback → Bool) (s : State) : State :=
  (s.sw.fallbacks.filter fun e => e.2.armed && p e).foldl
    (fun t e => raise evFallbackDisarmed srcSv (le 1 e.1 ++ le 1 cause) (t.modSw fun w => { w with fallbacks := tmod {} w.fallbacks e.1 fun f => { f with armed := false } })) s

/-- Put a fabric profile in force: identifier, MR5, logical links with their signal numbers afresh, FEC modes, and every fallback plan disarmed (R43, R147,
R194, R214, R421). -/
def installProfile (image : Bytes) (prof : FabProf) (s : State) : State :=
  let d := digest image
  let ls := logLinksOf (moduleId s) prof
  let s1 := s.modProf fun p => { p with fab := some prof, fabImage := image, fabId := d, logLinks := ls }
  let s2 := s1.modOpt fun o => { o with fec := ls.foldl (fun t l => tset false t l.name l.light) [] }
  disarm 2 (fun _ => true) (mrExtend 5 6 d (s2.modNet fun n => { n with rsSeq := [], rsSeen := [] }))

/-- FABRIC_PROFILE_INSTALL as it begins (R46, R214, R324); the pair's mode follows the profile (R315). -/
def installBody (image : Bytes) (prof : FabProf) (ref : PktRef) (s : State) : State :=
  if imageLoaded s then reply ref stStateInvalid [] s
  else if keyClash (logLinksOf (moduleId s) prof) then reply ref stProfileLinkKey [] s
  else if 1900000 < prof.noticeBoundNs then reply ref stProfileNoticeBound [] s
  else
    let t := modeForProfile (installProfile image prof s)
    reply ref 0 ((digestBytes t.prof.fabId).take 28) t

/-- FABRIC_PROFILE_INSTALL (R46): `image` is what the module fetches from host memory, `prof` what it says (log entry 42, DESIGN CHOICE). -/
def execFabricProfileInstall (p : Pkt) (addr : BitVec 64) (len : BitVec 32) (image : Bytes) (prof : FabProf) (s : State) : Host.Outcome State Fault Refusal :=
  .next (runPkt p 0x0202 (le 8 addr.toNat ++ le 4 len.toNat) true (installBody (image.take len.toNat) prof) s)

/-- FABRIC_PROFILE_READ (R355). -/
def execFabricProfileRead (p : Pkt) (buf : Buf) (s : State) : Host.Outcome State Fault Refusal :=
  .next (runPkt p 0x0203 buf.bytes true (fun r t => replyBuf r buf t.prof.fabImage ((digestBytes t.prof.fabId).take 24) t) s)

end Sys2Proof.Machine
end

