-- ==== Sys2Proof/Machine/HostIf.lean ====
section
/-!
DEFINITION. The host interface: the command aperture and the taking of packets (R334 to R343), the reply ring, event
pushes and vector 0 (R344 to R347, R351), and register writes (R330 to R332, R359, R450).
-/

namespace Sys2Proof.Machine

/-- The host reaches BAR0: the SV domain runs and the PCIe link is up. -/
def hostUp (s : State) : Bool := svOn s && s.hi.pcieUp

/-- A BAR2 write waits for the host port: later posted writes wait behind it (R333). -/
def writeWaits (s : State) : Bool := s.hi.hostPort.any fun a => decide (a.kind = 1)

/-- A posted write to BAR0 takes place, or is held back (R333). -/
def posted (off : Nat) (data : Bytes) (f : State → State) (s : State) : State :=
  if writeWaits s then s.modHi fun h => { h with heldWrites := h.heldWrites ++ [(off, data)] } else f s

/-! ### Aperture -/

/-- The aperture halts: nothing more is taken, and APERTURE_OVERRUN is raised (R336). -/
def apertureHalt (line : Nat) (s : State) : State :=
  raise evApertureOverrun srcSv (leSat 4 line ++ le 2 s.hi.free.toNat) (s.modHi fun h => { h with halt := true })

/-- `FREE` for the lines that are written and not taken. -/
def freeLines (l : List (Nat × Bytes)) : BitVec 15 := BitVec.ofNat 15 (16384 - l.length)

/-- Write whole lines from a line on. -/
def putLines : Nat → Nat → Bytes → List (Nat × Bytes) → List (Nat × Bytes)
  | 0, _, _, t => t
  | n + 1, line, d, t => putLines n (line + 1) (d.drop 64) (tset [] t line (d.take 64))

/-- APERTURE_WRITE: a write request of bytes at an offset of the aperture. It halts the aperture when it covers part of
a line or reaches a line that is not free (R334, R336). -/
def apertureWrite (off : Nat) (data : Bytes) (s : State) : State :=
  let line := off / 64
  let n := data.length / 64
  if s.hi.halt || data.isEmpty then s
  else if off % 64 ≠ 0 ∨ data.length % 64 ≠ 0 ∨ 16384 < line + n then apertureHalt line s
  else match (List.range n).find? fun i => decide (tget [] s.hi.apLines (line + i) ≠ []) with
    | some i => apertureHalt (line + i) s
    | none => s.modHi fun h =>
        let t := putLines n line data h.apLines
        { h with apLines := t, free := freeLines t }

/-- APERTURE_WRITE (R334). -/
def execApertureWrite (off : Nat) (data : Bytes) (s : State) : Host.Outcome State Fault Refusal :=
  if hostUp s then .next (posted (0x100000 + off) data (apertureWrite off data) s) else .next s

/-- n consecutive lines of the ring from a line, when all have been written (R334, R335). -/
def takeLines (t : List (Nat × Bytes)) : Nat → Nat → Option Bytes
  | _, 0 => some []
  | line, n + 1 =>
    match tget [] t (line % 16384), takeLines t (line + 1) n with
    | [], _ => none
    | b, some r => some (b ++ r)
    | _, none => none

/-- Free n lines from a line: `CONSUME`, `FREE` and the credit of the next record (R335). -/
def freeUp (n : Nat) (s : State) : State :=
  s.modHi fun h =>
    let t := (List.range n).foldl (fun a i => tset [] a ((h.consume.toNat + i) % 16384) []) h.apLines
    { h with apLines := t, free := freeLines t, consume := h.consume + BitVec.ofNat 14 n, credit := h.credit + BitVec.ofNat 16 n }

/-- The fields of a packet's first 16 bytes (R337). -/
structure Hdr where
  /-- `PK.OPCODE`. -/
  op : Nat
  /-- `PK.LEN`. -/
  len : Nat
  /-- `PK.SEQ`. -/
  seq : Nat
  /-- `PK.TAG`. -/
  tag : Nat
  /-- `PK.TARGET`. -/
  target : Nat
  /-- `PK.LEVEL`: expert. -/
  expert : Bool
  /-- `PK.FLAGS`. -/
  flags : Nat
  /-- Bits 31:0, reserved. -/
  resv : Nat
  deriving DecidableEq, Repr

/-- Read a header (R337). -/
def readHdr (b : Bytes) : Hdr :=
  { resv := rd b 0 4, flags := fld (rd b 4 1) 0 7, expert := bit (rd b 4 1) 7, target := rd b 5 1, tag := rd b 6 2,
    seq := rd b 8 4, len := rd b 12 2, op := rd b 14 2 }

/-- What a reply needs of a header. -/
def Hdr.ref (h : Hdr) (list : Bool) : PktRef :=
  { seq := BitVec.ofNat 32 h.seq, tag := BitVec.ofNat 16 h.tag, opcode := BitVec.ofNat 16 h.op, irq := bit h.flags 1, list := list }

/-- Check 1 of R338: length in range, reserved bits zero. -/
def hdrValid (h : Hdr) : Bool := decide (2 ≤ h.len) && decide (h.len ≤ 8192) && decide (h.resv = 0) && decide (h.flags < 8)

/-- The checks of R338 in their order on a packet of whole length; 0 when they pass. -/
def takeCheck (h : Hdr) (expect : Nat) (list : Bool) (b : Bytes) : Nat :=
  if !hdrValid h then stHeaderInvalid
  else if h.seq ≠ expect then stSeqMismatch
  else match opRow h.op with
    | none => stOpcodeUnknown
    | some r =>
      let c := headerCheck h.op h.expert (bit h.flags 2) (BitVec.ofNat 8 h.target)
      if c ≠ 0 then c
      else if decide (h.len ≠ (16 + roundUp (paramLen h.op r (b.drop 16)) 8 + (if bit h.flags 2 then 136 else 0)) / 8) then stLengthMismatch
      else if list && decide (h.op = 0x0102) then stParamInvalid
      else 0

/-- Hold a packet that passed its checks (R335). -/
def holdPkt (h : Hdr) (list : Bool) (b : Bytes) (s : State) : State :=
  let n := match opRow h.op with
    | some r => paramLen h.op r (b.drop 16)
    | none => 0
  s.modHi fun x => { x with held := x.held ++ [{ ref := h.ref list, fence := bit h.flags 0, level := h.expert, target := BitVec.ofNat 8 h.target, params := part b 16 n }] }

/-- A packet that fails its checks is held until its final reply, which carries the refusal (R338). -/
def refusePkt (h : Hdr) (list : Bool) (st : Nat) (s : State) : State :=
  reply (h.ref list) st [] (s.modHi fun x => { x with held := x.held ++ [{ ref := h.ref list, begun := true }] })

/-- The list in progress has ended, and every packet of it has its final reply: the EXECUTE_LIST is answered (R343). -/
def listDone (s : State) : State :=
  match s.hi.lists with
  | none => s
  | some l =>
    match l.ended with
    | none => s
    | some st =>
      if s.hi.held.any fun x => x.ref.list then s
      else reply l.ref st.toNat (le 4 l.taken ++ le 4 l.refused) (s.modHi fun h => { h with lists := none })

/-- How a list ends when its bytes are used up (R343). -/
def ListRun.endCode (l : ListRun) : BitVec 16 := if l.fetchErr then BitVec.ofNat 16 stListFetchError else 0

/-- The list after a packet of it: its rest, and whether it ends here (R342, R343). -/
def ListRun.after (l : ListRun) (left : Bytes) (refused stop : Bool) : ListRun :=
  { l with left := left, index := l.index + 1, taken := l.taken + 1, refused := l.refused + b2n refused,
           ended := if stop then some 0 else if left.isEmpty then some l.endCode else none }

/-- Take the next packet of a list (R342, R343). A length out of range does not delimit a packet, so it ends the
list. -/
def takeFromList (l : ListRun) (s : State) : State :=
  let h := readHdr l.left
  let put := fun (x : ListRun) (t : State) => t.modHi fun y => { y with lists := some x }
  if l.left.length < 16 then listDone (put { l with left := [], ended := some (BitVec.ofNat 16 stListFetchError) } s)
  else if h.len < 2 ∨ 8192 < h.len then refusePkt h true stHeaderInvalid (put (l.after [] true true) s)
  else if l.left.length < 8 * h.len then
    listDone (put { l with left := [], ended := some (BitVec.ofNat 16 stListFetchError) } s)
  else
    let b := l.left.take (8 * h.len)
    let left := l.left.drop (roundUp (8 * h.len) 64)
    let c := takeCheck h l.index true b
    if c ≠ 0 then refusePkt h true c (put (l.after left true l.stop) s)
    else holdPkt h true b (put (l.after left false false) s)

/-- Take the packet that stands at `CONSUME` (R335 to R338). -/
def takeFromAperture (s : State) : State :=
  match tget [] s.hi.apLines s.hi.consume.toNat with
  | [] => s
  | first =>
    let h := readHdr first
    let setExp := fun (t : State) => t.modHi fun x => { x with expectSeq := BitVec.ofNat 32 (h.seq + 1) }
    if h.len < 2 ∨ 8192 < h.len then
      apertureHalt s.hi.consume.toNat (refusePkt h false stHeaderInvalid (setExp (freeUp 1 s)))
    else
      let n := ceilDiv (8 * h.len) 64
      match takeLines s.hi.apLines s.hi.consume.toNat n with
      | none => s
      | some b =>
        let c := takeCheck h s.hi.expectSeq.toNat false (b.take (8 * h.len))
        let s1 := setExp (freeUp n s)
        if c ≠ 0 then refusePkt h false c s1 else holdPkt h false (b.take (8 * h.len)) s1

/-- PACKET_TAKEN: the next packet of the list in progress, or of the aperture, is taken; none while 256 are held or the
aperture is halted (R335, R336, R342). -/
def execPacketTaken (s : State) : Host.Outcome State Fault Refusal :=
  if !svOn s || decide (256 ≤ s.hi.held.length) then .next s
  else match s.hi.lists with
    | some l => if l.ended = none then .next (takeFromList l s) else if s.hi.halt then .next (listDone s) else .next (takeFromAperture (listDone s))
    | none => if s.hi.halt then .next s else .next (takeFromAperture s)

/-- What `HI_APERTURE_CTL.RESET` does (R336). -/
def apertureReset (h : HostIf) : HostIf :=
  { h with apLines := [], free := 16384, consume := 0, expectSeq := 0, halt := false }

/-- APERTURE_RESET: a write of `HI_APERTURE_CTL` (R331, R336). -/
def execApertureReset (v : BitVec 32) (s : State) : Host.Outcome State Fault Refusal :=
  if hostUp s && v.getLsbD 0 then .next (posted 0x1008 (le 4 v.toNat) (fun t => t.modHi apertureReset) s) else .next s

/-- EXECUTE_LIST as it begins: the list's bytes come by DMA, and its packets are taken in order (R342). A fetch error
ends the list at the bytes that came (R343). -/
def executeListBody (stop ok : Bool) (data : Bytes) (ref : PktRef) (s : State) : State :=
  let l : ListRun := { ref := ref, left := data, stop := stop, fetchErr := !ok }
  s.modHi fun h => { h with lists := some { l with ended := if data.isEmpty then some l.endCode else none } }

/-- EXECUTE_LIST (R342, R343, R355). -/
def execExecuteList (p : Pkt) (addr : BitVec 64) (len : BitVec 32) (stop : BitVec 8) (ok : Bool) (data : Bytes) (s : State) :
    Host.Outcome State Fault Refusal :=
  .next (runPkt p 0x0102 (le 8 addr.toNat ++ le 4 len.toNat ++ le 1 stop.toNat)
    (decide (64 ≤ len.toNat) && decide (len.toNat ≤ 16777216) && decide (len.toNat % 64 = 0) && decide (addr.toNat % 64 = 0) &&
      decide (stop.toNat ≤ 1) && !p.list && s.hi.lists.isNone)
    (fun ref t => listDone (executeListBody (decide (stop = 1)) ok (data.take len.toNat) ref t)) s)

/-! ### Reply ring -/

/-- Records of the ring: N = 2^SIZE / 64 (R345). -/
def ringN (h : HostIf) : Nat := 2 ^ h.ringSize.toNat / 64

/-- The ring is full (R345). -/
def ringFull (h : HostIf) : Bool := decide ((h.prod.toNat + 1) % ringN h = h.cons.toNat)

/-- The 64 bytes of a record (R344). -/
def replyBytes (seq tag status op kind : Nat) (dbseq : Nat) (ptr list : Bool) (data : Bytes) (s : State) : Bytes :=
  padTo 32 data ++
    le 12 (2 ^ 26 * b2n list + 2 ^ 27 * b2n s.tm.valid + 2 ^ 28 * s.tm.ft.toNat + 2 ^ 92 * b2n ptr + 2 ^ 93 * kind + 2 ^ 95 * b2n s.hi.phase) ++
    le 2 s.hi.credit.toNat ++ le 2 op ++ le 8 dbseq ++ le 2 status ++ le 2 tag ++ le 4 seq

/-- `RP.DBSEQ`: the newest record's number; 0 before the first (R344). -/
def newestSeq (s : State) : Nat := if s.db.count = 0 then 0 else dbNext s - 1

/-- Write a record at `HI_RING_PROD` and advance it; the phase toggles at each wrap (R345). -/
def ringWrite (b : Bytes) (s : State) : State :=
  (emit .hostWrite (s.hi.ringBase.toNat + 64 * s.hi.prod.toNat) b s).modHi fun h =>
    let p := (h.prod.toNat + 1) % ringN h
    { h with prod := BitVec.ofNat 32 p, phase := if p = 0 then !h.phase else h.phase, credit := 0, unsig := h.unsig + 1, fullRaised := false }

/-- Raise vector 0 and begin to count records again (R351). -/
def vector0 (s : State) : State := msix 0 (s.modHi fun h => { h with unsig := 0 })

/-- After a record: vector 0 when the count is reached or the packet asks for it (R351). -/
def moderate (irq : Bool) (s : State) : State :=
  if s.hi.unsig ≠ 0 ∧ (irq ∨ max 1 s.hi.irqCount.toNat ≤ s.hi.unsig) then vector0 s else s

/-- REPLY_WRITE: the oldest waiting reply is written once there is room (R344, R345, R351). -/
def replyWrite (s : State) : State :=
  match s.hi.replies with
  | [] => s
  | r :: t =>
    if ringFull s.hi then s
    else
      let s1 := ringWrite (replyBytes r.ref.seq.toNat r.ref.tag.toNat r.status.toNat r.ref.opcode.toNat (b2n r.interim)
        (newestSeq s) r.ptr r.ref.list r.data s) (s.modHi fun h => { h with replies := t })
      let s2 := if r.interim then markReplied r.ref s1 else listDone (unhold r.ref s1)
      moderate r.ref.irq s2

/-- REPLY_WRITE (R345). -/
def execReplyWrite (s : State) : Host.Outcome State Fault Refusal :=
  if hostUp s && s.hi.ringEn then .next (replyWrite s) else .next s

/-- REPLY_RING_FULL: the ring has been full for 10 ms (R345). -/
def execReplyRingFull (s : State) : Host.Outcome State Fault Refusal :=
  if svOn s && s.hi.ringEn && ringFull s.hi && !s.hi.fullRaised then
    .next (raise evReplyRingFull srcSv (le 4 s.hi.prod.toNat ++ le 4 s.hi.cons.toNat ++ leSat 4 s.hi.replies.length)
      (s.modHi fun h => { h with fullRaised := true }))
  else .next s

/-- The reply data of an event push (R347). -/
def pushData (r : DbRec) : Bytes :=
  le 2 r.code.toNat ++ le 1 r.sev.toNat ++ zeros 1 ++ le 2 r.src.toNat ++ le 2 r.supp.toNat ++ (padTo 40 r.payload).take 24

/-- Write one event push, and raise vector 1 at or above `URGENT` (R347, R351). -/
def pushWrite (r : DbRec) (s : State) : State :=
  let s1 := moderate false (ringWrite (replyBytes 0 0 0 0 2 r.seq false false (pushData r) s) s)
  if s.hi.urgent ≠ 0 ∧ s.hi.urgent.toNat ≤ r.sev.toNat then msix 1 s1 else s1

/-- EVENT_PUSH: the oldest due push is written; while the ring is full it is dropped and counted, but for the copy of
DAYBOOK_STORE_FAIL, which waits (R345, R347, R409). -/
def eventPush (s : State) : State :=
  match s.hi.pushes with
  | [] => s
  | q :: t =>
    if !s.hi.ringEn then s.modHi fun h => { h with pushes := t }
    else if ringFull s.hi then
      if q.sure then s else s.modHi fun h => { h with pushes := t, dropped := addSat h.dropped 1 }
    else pushWrite q.record (s.modHi fun h => { h with pushes := t })

/-- EVENT_PUSH (R347). -/
def execEventPush (s : State) : Host.Outcome State Fault Refusal :=
  if hostUp s then .next (eventPush s) else .next s

/-- VECTOR0_TIME_LIMIT: `HI_IRQ_MOD.TIME` µs have passed since the oldest unsignalled record (R351). -/
def execVector0TimeLimit (s : State) : Host.Outcome State Fault Refusal :=
  if hostUp s && decide (s.hi.irqTime ≠ 0) && decide (s.hi.unsig ≠ 0) then .next (vector0 s) else .next s

/-- Replies and pushes that wait are discarded (R345). -/
def dropReplies (s : State) : State :=
  let s1 := s.hi.replies.foldl (fun t r => if r.interim then markReplied r.ref t else dropFinal r.ref t) s
  s1.modHi fun h => { h with replies := [], pushes := [] }

/-- A write of `HI_RING_CFG` (R332, R345): `SIZE` only while `EN` was 0 and in range; enabling sets the producer index
to 0; clearing discards what waits. -/
def writeRingCfg (v : BitVec 32) (s : State) : State :=
  let en := v.getLsbD 31
  let sz := v.toNat % 32
  if s.hi.ringEn then
    if en then s else dropReplies (s.modHi fun h => { h with ringEn := false })
  else s.modHi fun h =>
    { h with ringSize := if 12 ≤ sz ∧ sz ≤ 24 then BitVec.ofNat 5 sz else h.ringSize, ringEn := en,
             prod := if en then 0 else h.prod, phase := if en then true else h.phase, unsig := if en then 0 else h.unsig }

/-- REPLY_RING_ENABLE: a write of `HI_RING_CFG` with `EN` set (R345). -/
def execReplyRingEnable (v : BitVec 32) (s : State) : Host.Outcome State Fault Refusal :=
  if hostUp s && v.getLsbD 31 then .next (posted 0x1018 (le 4 v.toNat) (writeRingCfg v) s) else .next s

/-- REPLY_RING_DISABLE: a write of `HI_RING_CFG` with `EN` clear (R345). -/
def execReplyRingDisable (v : BitVec 32) (s : State) : Host.Outcome State Fault Refusal :=
  if hostUp s && !v.getLsbD 31 then .next (posted 0x1018 (le 4 v.toNat) (writeRingCfg v) s) else .next s

/-- REPLY_RING_CONSUME: a write of `HI_RING_CONS` (R331, R345). -/
def execReplyRingConsume (v : BitVec 32) (s : State) : Host.Outcome State Fault Refusal :=
  if hostUp s then .next (posted 0x1028 (le 4 v.toNat) (fun t => t.modHi fun h => { h with cons := v }) s) else .next s

/-! ### Registers -/

/-- A write of `BOOT_CTL` (R359): the whole register in stage 4, else `PERST_WARM` and `COMB_HOLD` only. -/
def writeBootCtl (v : BitVec 32) (s : State) : State :=
  s.modBoot fun b => { b with perstWarm := v.getLsbD 31, combHold := v.getLsbD 29, fetching := b.fetching || (v.getLsbD 30 && decide (b.stage = 4)) }

/-- FW_GO: `BOOT_CTL` written with `FW_GO` (R359). -/
def execFwGo (v : BitVec 32) (s : State) : Host.Outcome State Fault Refusal :=
  if hostUp s && v.getLsbD 30 then .next (posted 0x108 (le 4 v.toNat) (writeBootCtl v) s) else .next s

/-- COMB_HOLD_RELEASE: `BOOT_CTL` written with `COMB_HOLD` clear (R359). -/
def execCombHoldRelease (v : BitVec 32) (s : State) : Host.Outcome State Fault Refusal :=
  if hostUp s && !v.getLsbD 29 then .next (posted 0x108 (le 4 v.toNat) (writeBootCtl v) s) else .next s

/-- A write of `ID_MODULE` (R450): accepted only in Awake and not during a transition out of it; `STORED` clears until
MRAM holds the value, and `ASSIGNED` sets. -/
def writeIdModule (v : BitVec 32) (s : State) : State :=
  if s.pwr.ps = .awake ∧ s.pwr.target = none then
    let s1 := (s.modIdent fun i => { i with idField := v.setWidth 12, assigned := true, stored := false }).modNvw fun n => { n with setId := true }
    if s.pwr.nvInhibit then inhibitNote s1 else s1
  else s

/-- ID_MODULE_WRITE (R450). -/
def execIdModuleWrite (v : BitVec 32) (s : State) : Host.Outcome State Fault Refusal :=
  if hostUp s then .next (posted 0x8 (le 4 v.toNat) (writeIdModule v) s) else .next s

/-- The value of `ID_MODULE` reaches MRAM (R450). -/
def storeId (s : State) : State :=
  if s.nvw.setId then
    mramWrite 10 0 <| (s.modIdent fun i => { i with nvId := i.idField, nvAssigned := i.assigned, stored := true }).modNvw fun n => { n with setId := false }
  else s

/-- A 32-bit write to the MSI-X table; a vector that is unmasked while it is pending is delivered once (R329, R352). -/
def writeMsix (i w : Nat) (v : BitVec 32) (s : State) : State :=
  let s1 := s.modHi fun h => { h with msix := tmod {} h.msix i fun e =>
    if w = 0 then { e with addr := BitVec.ofNat 64 (e.addr.toNat / 2 ^ 32 * 2 ^ 32 + v.toNat) }
    else if w = 1 then { e with addr := BitVec.ofNat 64 (e.addr.toNat % 2 ^ 32 + 2 ^ 32 * v.toNat) }
    else if w = 2 then { e with data := v } else { e with ctl := v } }
  if w = 3 ∧ v.getLsbD 0 = false ∧ s1.hi.pba.getLsbD i = true then
    msix i (s1.modHi fun h => { h with pba := h.pba &&& ~~~(BitVec.ofNat 64 (2 ^ i)) })
  else s1

/-- The low or high half of a 64-bit register replaced. -/
def half (high : Bool) (old : BitVec 64) (v : BitVec 32) : BitVec 64 :=
  if high then BitVec.ofNat 64 (old.toNat % 2 ^ 32 + 2 ^ 32 * v.toNat) else BitVec.ofNat 64 (old.toNat / 2 ^ 32 * 2 ^ 32 + v.toNat)

/-- An aligned 32-bit write to BAR0 (R329 to R332, R359); a write to a read-only or reserved place is ignored. -/
def write32 (a : Nat) (v : BitVec 32) (s : State) : State :=
  if a = 0x0008 then writeIdModule v s
  else if a = 0x0108 then writeBootCtl v s
  else if a = 0x0110 ∨ a = 0x0114 then
    if s.boot.stage = 4 then s.modBoot fun b => { b with fwAddr := half (decide (a = 0x0114)) b.fwAddr v &&& ~~~0xFFF } else s
  else if a = 0x0118 then if s.boot.stage = 4 then s.modBoot fun b => { b with fwLen := v } else s
  else if a = 0x1008 then if v.getLsbD 0 then s.modHi apertureReset else s
  else if a = 0x1010 ∨ a = 0x1014 then
    if s.hi.ringEn then s else s.modHi fun h => { h with ringBase := half (decide (a = 0x1014)) h.ringBase v &&& ~~~0xFFF }
  else if a = 0x1018 then writeRingCfg v s
  else if a = 0x1028 then s.modHi fun h => { h with cons := v }
  else if a = 0x1030 then s.modHi fun h => { h with irqTime := BitVec.ofNat 16 (v.toNat / 65536), irqCount := BitVec.ofNat 10 v.toNat }
  else if a = 0x1038 then s.modHi fun h => { h with urgent := BitVec.ofNat 3 (v.toNat / 256), push := BitVec.ofNat 3 v.toNat }
  else if a = 0x1048 then s.modHi fun h => { h with bar2Win := BitVec.ofNat 8 v.toNat }
  else if 0x8000 ≤ a ∧ a < 0x8400 then writeMsix ((a - 0x8000) / 16) (a % 16 / 4) v s
  else s

/-- REGISTER_WRITE: 32 or 64 bits wide and naturally aligned; any other is discarded (R330). -/
def registerWrite (off : Nat) (data : Bytes) (s : State) : State :=
  if data.length = 4 ∧ off % 4 = 0 then write32 off (BitVec.ofNat 32 (ofLe data)) s
  else if data.length = 8 ∧ off % 8 = 0 then
    write32 (off + 4) (BitVec.ofNat 32 (rd data 4 4)) (write32 off (BitVec.ofNat 32 (rd data 0 4)) s)
  else s

/-- REGISTER_WRITE (R330). -/
def execRegisterWrite (off : Nat) (data : Bytes) (s : State) : Host.Outcome State Fault Refusal :=
  if hostUp s then .next (posted off data (registerWrite off data) s) else .next s

/-- The posted writes that were held back take place in their order, once no BAR2 write waits (R333; log entry 107, DEDUCED). -/
def releaseWrites (s : State) : State :=
  if writeWaits s then s
  else s.hi.heldWrites.foldl (fun t w => if 0x100000 ≤ w.1 then apertureWrite (w.1 - 0x100000) w.2 t else registerWrite w.1 w.2 t)
    (s.modHi fun h => { h with heldWrites := [] })

/-- A read of BAR0. A 32-bit read of the low half of `FT_NOW` or `PPS_IN_TS` latches the high half, which the next 32-bit
read of the high half returns (R451); a read of `HI_EVENT_PUSH.DROPPED` clears it (R332). -/
def bar0Read (off len : Nat) (s : State) : State :=
  if off = 0x2000 ∧ len = 4 then
    emit .readReply off (bar0Bytes s off len) (s.modHi fun h => { h with ftLatch := BitVec.ofNat 32 (s.tm.ft.toNat / 2 ^ 32), ftLatched := true })
  else if off = 0x2010 ∧ len = 4 then
    emit .readReply off (bar0Bytes s off len) (s.modHi fun h => { h with ppsLatch := BitVec.ofNat 32 (s.tm.ppsTs.toNat / 2 ^ 32), ppsLatched := true })
  else if off = 0x2004 ∧ len = 4 ∧ s.hi.ftLatched = true then
    emit .readReply off (le 4 s.hi.ftLatch.toNat) (s.modHi fun h => { h with ftLatched := false })
  else if off = 0x2014 ∧ len = 4 ∧ s.hi.ppsLatched = true then
    emit .readReply off (le 4 s.hi.ppsLatch.toNat) (s.modHi fun h => { h with ppsLatched := false })
  else
    let s1 := emit .readReply off (bar0Bytes s off len) s
    if off < 0x103C ∧ 0x103A < off + len then s1.modHi fun h => { h with dropped := 0 } else s1

/-- FT_NOW_LOW_READ: a read of BAR0, of which the low halves of the register pairs are the ones with an effect of their
own (R330, R451). -/
def execFtNowLowRead (off len : Nat) (s : State) : Host.Outcome State Fault Refusal :=
  if hostUp s then .next (bar0Read off len s) else .next s

/-- EXPERT_LATCH_EXPIRY: `HI_LATCH.REMAIN` reaches 0 and every latch clears (R349). -/
def clearLatches (s : State) : State := s.modHi fun h => { h with latchGroups := 0, latchRemain := 0 }

/-- EXPERT_LATCH_EXPIRY (R349). -/
def execExpertLatchExpiry (s : State) : Host.Outcome State Fault Refusal := .next (clearLatches s)

/-- BM_ALERT_READ: over I3C, in every power state; it returns the bits and clears them (R438). -/
def execBmAlertRead (s : State) : Host.Outcome State Fault Refusal :=
  if s.pwr.aon then .next ((emit .readReply 5 (part (bmBytes s) 5 1) s).modPins fun p => { p with alert := 0 }) else .next s

/-- What FLR does to the host interface (R328): packets that have begun run on and their replies are discarded, a list among them is
taken to its end; the others are abandoned. -/
def flrReset (s : State) : State :=
  s.modHi fun h =>
    { apertureReset h with
      credit := 0, ringBase := 0, ringEn := false, ringSize := 12, prod := 0, cons := 0, phase := true, irqTime := 0,
      irqCount := 1, dropped := 0, urgent := 3, push := 0, latchRemain := 0, latchGroups := 0, bar2Win := 0,
      held := (h.held.filter fun x => x.begun && !h.replies.any fun r => decide (r.ref = x.ref) && !r.interim).map fun x => { x with mute := true },
      replies := [], pushes := [], unsig := 0, fullRaised := false, nonce := none, ftLatched := false, ppsLatched := false, hostPort := h.hostPort.filter (fun a => decide (a.kind ≠ 0)), heldWrites := [] }

/-- FLR (R328). -/
def execFlr (s : State) : Host.Outcome State Fault Refusal := if hostUp s then .next (listDone (flrReset s)) else .next s

end Sys2Proof.Machine
end

