-- ==== Sys2Proof/Machine/MemHost.lean ====
section
/-!
DEFINITION. The repair of memory: SRAM repairs (R133, R134), row remaps (R135, R136), retired channels (R137), and the counts and
marks of errors (R125, R355).
-/

namespace Sys2Proof.Machine

/-- Memory can be reached: LPDDR is out of self-refresh and the uncore runs (R128, R378). -/
def memUp (s : State) : Bool := litUp s && !s.mem.selfRef

/-! ### SRAM repair (R133, R134) -/

/-- Fields of a repair entry (R134). -/
def srRegion (e : BitVec 32) : Nat := fld e.toNat 26 2
/-- `SR.MACRO`. -/
def srMacro (e : BitVec 32) : Nat := fld e.toNat 16 10
/-- `SR.SPARE`. -/
def srSpare (e : BitVec 32) : Nat := fld e.toNat 28 2
/-- `SR.KIND`: bit column. -/
def srCol (e : BitVec 32) : Bool := e.getLsbD 30
/-- `SR.INDEX`. -/
def srIndex (e : BitVec 32) : Nat := fld e.toNat 0 9

/-- No reserved value in an entry (R134). -/
def srOk (e : BitVec 32) : Bool :=
  decide (fld e.toNat 9 7 = 0) && decide (srRegion e ≠ 3) &&
    (if srCol e then decide (srSpare e ≤ 1) && decide (srIndex e ≤ 78) else true)

/-- Two entries of one die stand for the same macro. -/
def srSame (a b : BitVec 32) : Bool := decide (srRegion a = srRegion b) && decide (srMacro a = srMacro b)

/-- Apply one entry: its spare is taken, or SRAM_REPAIR_CONFLICT is raised (R133). -/
def repairOne (die source : Nat) (s : State) (e : BitVec 32) : State :=
  if !e.getLsbD 31 || !srOk e then s
  else if s.mem.applied.any fun x => decide (x.2 = die) && srSame x.1 e && decide (srCol x.1 = srCol e) && decide (srSpare x.1 = srSpare e) then
    raise evSramRepairConflict srcSv (le 1 die ++ le 1 source ++ le 4 e.toNat) s
  else s.modMem fun m => { m with applied := m.applied ++ [(e, die)] }

/-- The factory entries of a die: its fuse map in words of the layout of R134 (log entry 4, DESIGN CHOICE). -/
def factoryEntries (die : Nat) : List (BitVec 32) :=
  let b := Config.factoryFuses die
  (chunks 4 (b.length / 4) b).map fun x => BitVec.ofNat 32 (ofLe x)

/-- The field fuse words of a die. -/
def fuseEntries (s : State) (die : Nat) : List (BitVec 32) := tgets 0 s.mem.fuses (die * 32) 32

/-- The soft entries of a die. -/
def softEntries (s : State) (die : Nat) : List (BitVec 32) := tgets 0 s.mem.soft (die * 256) 256

/-- A macro needs more spares than it has: more than 4 rows or 2 columns among the die's entries (R133). -/
def macroOver (all : List (BitVec 32)) (e : BitVec 32) : Bool :=
  let mine := (all.filter fun x => x.getLsbD 31 && srOk x && srSame x e).map fun x => (srCol x, srIndex x)
  let n := fun c => ((mine.filter fun x => decide (x.1 = c)).eraseDups).length
  decide (4 < n false) || decide (2 < n true)

/-- Exclude the macros of a die that cannot be repaired (R133). -/
def excludeOver (die : Nat) (all : List (BitVec 32)) (s : State) : State :=
  let bad := (((all.filter fun e => e.getLsbD 31 && srOk e && macroOver all e).map fun e => (srRegion e, srMacro e))).eraseDups
  bad.foldl (fun t r =>
    raise evSramMacroExcluded srcSv (le 1 die ++ le 1 r.1 ++ le 2 r.2)
      (if r.1 = 0 then t.modMem fun m => { m with excluded := m.excluded ++ [die * 1024 + r.2] } else t)) s

/-- The repair load of a cold start: factory map, field fuses, soft map (R133). -/
def repairLoad (s : State) : State :=
  (List.range 4).foldl (fun t die =>
    let t1 := (factoryEntries die).foldl (repairOne die 1) t
    let t2 := (fuseEntries s die).foldl (repairOne die 2) t1
    let t3 := (softEntries s die).foldl (repairOne die 3) t2
    excludeOver die (factoryEntries die ++ fuseEntries s die ++ softEntries s die) t3)
    (s.modMem fun m => { m with applied := [], excluded := [] })

/-- Write a soft entry into MRAM (R134). -/
def softApply (die i : Nat) (e : BitVec 32) (ref : PktRef) (s : State) : State :=
  reply ref 0 [] (mramWrite 7 die (s.modMem fun m => { m with soft := tset 0 m.soft (die * 256 + i) e }))

/-- The soft entries of a die with one of a content freed (R134). -/
def freeSoft (die : Nat) (e : BitVec 32) (t : List (Nat × BitVec 32)) : List (Nat × BitVec 32) :=
  t.filter fun x => decide (x.1 / 256 ≠ die) || decide (x.2 ≠ e)

/-- Burn a fuse word, of a compute die or of SV; the burn cannot be undone (R134, R431). -/
def fuseApply (die w : Nat) (e : BitVec 32) (ref : PktRef) (s : State) : State :=
  let s1 := if die = 4 then s.modSec fun c => { c with fuse := true }
    else s.modMem fun m => { m with fuses := tmod 0 m.fuses (die * 32 + w) (· ||| e), soft := freeSoft die e m.soft }
  reply ref 0 [] (raise evFieldFuseBurned srcSv (le 1 die ++ le 1 w ++ le 4 e.toNat) s1)

/-- A command that writes MRAM waits while writes are inhibited (R377). -/
def nvGate (ref : PktRef) (c : NvCmd) (now : State → State) (s : State) : State :=
  if s.pwr.nvInhibit then inhibitNote (s.modNvw fun n => { n with cmds := n.cmds ++ [(ref, c)] }) else now s

/-- SOFT_REPAIR_WRITE (R134, R355). -/
def execSoftRepairWrite (p : Pkt) (die index : BitVec 8) (entry : BitVec 32) (s : State) : Host.Outcome State Fault Refusal :=
  .next (runPkt p 0x030A (le 1 die.toNat ++ le 1 index.toNat ++ le 4 entry.toNat) (decide (die.toNat ≤ 3) && srOk entry)
    (fun r => nvGate r (.soft die.toNat index.toNat entry) (softApply die.toNat index.toNat entry r)) s)

/-- FIELD_FUSE_BURN takes these (R134, R431). -/
def fuseOk (die word : BitVec 8) (entry : BitVec 32) : Bool :=
  if die.toNat = 4 then decide (word = 0) && decide (entry = 1) else decide (die.toNat ≤ 3) && decide (word.toNat < 32) && srOk entry

/-- FIELD_FUSE_BURN (R134, R355, R431). -/
def execFieldFuseBurn (p : Pkt) (die word : BitVec 8) (entry : BitVec 32) (s : State) : Host.Outcome State Fault Refusal :=
  .next (runPkt p 0x030B (le 1 die.toNat ++ le 1 word.toNat ++ le 4 entry.toNat) (fuseOk die word entry)
    (fun r => nvGate r (.fuse die.toNat word.toNat entry) (fuseApply die.toNat word.toNat entry r)) s)

/-! ### Row remaps (R135) -/

/-- The remap entries of a bank. -/
def bankRemaps (s : State) (bk : Nat) : List RowRemap := s.mem.remaps.filter fun r => decide (r.bank = bk)

/-- The remap entries of an MM. -/
def mmRemaps (s : State) (mm : Nat) : List RowRemap := s.mem.remaps.filter fun r => decide (r.bank / 128 = mm)

/-- The lowest spare row of a bank that is free. -/
def freeSpare (s : State) (bk : Nat) : Option Nat := (List.range 16).find? fun i => !(bankRemaps s bk).any fun r => decide (r.spare = i)

/-- The channel, sub-channel and bank of a bank number. -/
def bankParts (bk : Nat) : Nat × Nat × Nat := (bk / 32, bk / 16 % 2, bk % 16)

/-- Copy one burst of a row to its spare: corrected where it can be, poisoned where it cannot (R124, R135). -/
def copyBurst (err : ReadErr) (bk row spare : Nat) (s : State) (b : Nat) : State :=
  let p := bankParts bk
  let c : Coord := ⟨p.1, p.2.1, p.2.2, row, b⟩
  let raw := rawBurst err (burstNo p.1 p.2.1 p.2.2 row b) s
  let o := rsDecode (subOf s p.1 p.2.1).degraded raw
  let s1 := noteBurst c { kind := 3, stn := (mmOf p.1).toNat } o s
  let to_ := burstNo p.1 p.2.1 p.2.2 (98304 + spare) b
  match o.data with
  | some d => putBurst to_ (rsWord d) s1
  | none => putBurst to_ (rsPoison (raw.take 32)) s1

/-- The merge entries of a stored row are written before it changes its place (R127, R135). -/
def flushRow (err : ReadErr) (bk row : Nat) (s : State) : State :=
  let mine := fun (m : MergeEnt) => decide (m.key / 256 = bk * 98320 + row)
  (s.mem.merge.filter mine).foldl (fun t m => mergeRmw err m t) (s.modMem fun x => { x with merge := x.merge.filter fun m => !mine m })

/-- Apply a remap entry: the row is copied to a free spare, or the request is refused with ROW_REMAP_FULL (R135).
Answers the spare. -/
def remapAdd (err : ReadErr) (bk row : Nat) (s : State) : Option Nat × State :=
  match (bankRemaps s bk).find? fun r => decide (r.row = row) with
  | some r => (some (98304 + r.spare), s)
  | none =>
    let p := bankParts bk
    match freeSpare s bk, decide ((mmRemaps s (bk / 128)).length < 2048) with
    | some i, true =>
      let s1 := (List.range 256).foldl (copyBurst err bk row i) (flushRow err bk row s)
      let s2 := mramWrite 3 (bk / 128) (s1.modMem fun m => { m with remaps := m.remaps ++ [{ bank := bk, row := row, spare := i }] })
      (some (98304 + i), raise evRowRemapped (mmOf p.1).toNat (le 1 p.1 ++ le 1 p.2.1 ++ le 1 p.2.2 ++ le 4 row ++ le 4 (98304 + i)) s2)
    | _, _ => (none, raise evRowRemapFull (mmOf p.1).toNat (le 2 (mmOf p.1).toNat ++ le 1 p.2.2) s)

/-- Remove a remap entry; none where there is none. -/
def remapRemove (bk row : Nat) (s : State) : Option Nat × State :=
  match (bankRemaps s bk).find? fun r => decide (r.row = row) with
  | some r => (some (98304 + r.spare), mramWrite 3 (bk / 128) ((flushRow {} bk (98304 + r.spare) s).modMem fun m => { m with remaps := m.remaps.filter fun x => !decide (x = r) }))
  | none => (none, s)

/-- Apply or remove an entry, and answer the packet (R135, R353). -/
def remapNow (err : ReadErr) (rm : Bool) (bk row : Nat) (ref : PktRef) (s : State) : State :=
  match if rm then remapRemove bk row s else remapAdd err bk row s with
  | (some i, t) => reply ref 0 (le 4 i) t
  | (none, t) => reply ref (if rm then stParamInvalid else stTableFull) [] t

/-- A request made while an image is loaded is held and applied at unload (R135). -/
def remapHold (rm : Bool) (bk row : Nat) (ref : PktRef) (s : State) : State :=
  reply ref stDeferred [] (s.modMem fun m => { m with deferred := m.deferred ++ [(rm, bk, row)] })

/-- A remap command that waited for MRAM (R377): held if an image has been loaded meanwhile (R135). -/
def remapApply (rm : Bool) (ch sub bank row : Nat) (ref : PktRef) (s : State) : State :=
  if imageLoaded s then remapHold rm (bankKey ch sub bank) row ref s else remapNow {} rm (bankKey ch sub bank) row ref s

/-- The requests held until unload are applied, in order (R135). -/
def remapDeferred (s : State) : State :=
  s.mem.deferred.foldl (fun t d => if d.1 then (remapRemove d.2.1 d.2.2 t).2 else (remapAdd {} d.2.1 d.2.2 t).2)
    (s.modMem fun m => { m with deferred := [] })

/-- A row that a bank has (R109). -/
def rowOk (sub bank : BitVec 8) (row : BitVec 32) : Bool := decide (sub.toNat ≤ 1) && decide (bank.toNat < 16) && decide (row.toNat < 98304)

/-- ROW_REMAP as it begins: deferred while an image is loaded (R135, R355). -/
def remapBody (err : ReadErr) (rm : Bool) (ch sub bank row : Nat) (ref : PktRef) (s : State) : State :=
  if imageLoaded s then remapHold rm (bankKey ch sub bank) row ref s
  else if !memUp s then reply ref stStateInvalid [] s
  else nvGate ref (.remap rm ch sub bank row) (remapNow err rm (bankKey ch sub bank) row ref) s

/-- ROW_REMAP with op 0 (R135, R355). -/
def execRowRemapAdd (p : Pkt) (chan sub bank : BitVec 8) (row : BitVec 32) (err : ReadErr) (s : State) : Host.Outcome State Fault Refusal :=
  .next (runPkt p 0x0306 (le 1 0 ++ le 1 chan.toNat ++ le 1 sub.toNat ++ le 1 bank.toNat ++ le 4 row.toNat) (rowOk sub bank row)
    (remapBody err false chan.toNat sub.toNat bank.toNat row.toNat) s)

/-- ROW_REMAP with op 1 (R135, R355). -/
def execRowRemapRemove (p : Pkt) (chan sub bank : BitVec 8) (row : BitVec 32) (err : ReadErr) (s : State) : Host.Outcome State Fault Refusal :=
  .next (runPkt p 0x0306 (le 1 1 ++ le 1 chan.toNat ++ le 1 sub.toNat ++ le 1 bank.toNat ++ le 4 row.toNat) (rowOk sub bank row)
    (remapBody err true chan.toNat sub.toNat bank.toNat row.toNat) s)

/-! ### Post-package repair (R136) -/

/-- PPR_REQUEST: for a remapped row of a package that supports it, with no image loaded (R136). -/
def pprBody (ch sub bank row : Nat) (ref : PktRef) (s : State) : State :=
  let bk := bankKey ch sub bank
  if imageLoaded s || !memUp s || !Config.pprSupported (ch / 4) then reply ref stStateInvalid [] s
  else match (bankRemaps s bk).find? fun r => decide (r.row = row) with
    | none => reply ref stParamInvalid [] s
    | some r => replyPending ref (s.modMem fun m => { m with ppr := m.ppr ++ [(r, ref)] })

/-- PPR_REQUEST (R136, R355). -/
def execPprRequest (p : Pkt) (chan sub bank : BitVec 8) (row : BitVec 32) (s : State) : Host.Outcome State Fault Refusal :=
  .next (runPkt p 0x0309 (le 1 chan.toNat ++ le 1 sub.toNat ++ le 1 bank.toNat ++ le 4 row.toNat) (rowOk sub bank row)
    (pprBody chan.toNat sub.toNat bank.toNat row.toNat) s)

/-- The contents of a repaired row are not stated: free values (log entry 3, DESIGN CHOICE). -/
def freeRow (r : RowRemap) (s : State) : State :=
  let at_ := 36 * ((r.bank * 98320 + r.row) * 256)
  (s.modMem fun m => { m with cells := tsets 0 m.cells at_ ((List.range 9216).map fun i => Config.freeBits 8 (s.free + i)) }).modFree (· + 9216)

/-- POST_PACKAGE_REPAIR_DONE: after a successful repair, the remap entry and its spare are freed (R136). -/
def pprDone (ok : Bool) (s : State) : State :=
  match s.mem.ppr with
  | [] => s
  | (r, ref) :: t =>
    let s1 := s.modMem fun m => { m with ppr := t }
    if ok then
      let s2 := s1.modMem fun m => { m with remaps := m.remaps.filter fun x => !decide (x = r) }
      reply ref 0 (le 1 1) (freeRow r (mramWrite 3 (r.bank / 128) (s2.modIdent fun i => { i with pprDone := i.pprDone ++ [r.bank * 98320 + r.row] })))
    else reply ref 0 (le 1 0) s1

/-- POST_PACKAGE_REPAIR_DONE (R136). -/
def execPostPackageRepairDone (ok : Bool) (s : State) : Host.Outcome State Fault Refusal := if svOn s then .next (pprDone ok s) else .next s

/-! ### Retired channels (R137) -/

/-- The data of a channel is lost: its symbols and merge entries go. -/
def dropChannel (ch : Nat) (s : State) : State :=
  s.modMem fun m => { m with cells := m.cells.filter fun e => decide (burstCh (e.1 / 36) ≠ ch), merge := m.merge.filter fun e => decide (burstCh e.key ≠ ch) }

/-- Bytes 0 to 7 of the module profile identifier (R355). -/
def profileLow (s : State) : Bytes := le 8 (profileId s).toNat

/-- Retire a channel in service (R137). -/
def retireApply (ch : Nat) (ref : PktRef) (s : State) : State :=
  if ch ∈ s.mem.retired then reply ref 0 (profileLow s) s
  else
    let s1 := dropChannel ch (mramWrite 5 0 (s.modMem fun m =>
      { m with retired := (m.retired ++ [ch]).mergeSort, sub := m.sub.filter fun e => decide (e.1 / 2 ≠ ch) }))
    reply ref 0 (profileLow s1) (raise evChannelRetired (mmOf ch).toNat (le 1 ch ++ profileLow s1) s1)

/-- CHANNEL_RETIRE as it begins (R137). -/
def retireBody (ch : Nat) (ref : PktRef) (s : State) : State :=
  if imageLoaded s then reply ref stStateInvalid [] s
  else if ch ∈ s.mem.retired then reply ref 0 (profileLow s) s
  else nvGate ref (.retire ch) (retireApply ch ref) s

/-- CHANNEL_RETIRE (R137, R355). -/
def execChannelRetire (p : Pkt) (chan : BitVec 8) (s : State) : Host.Outcome State Fault Refusal :=
  .next (runPkt p 0x0305 (le 1 chan.toNat) true (retireBody chan.toNat) s)

/-- Return a retired channel to service, zero-filled (R137). -/
def restoreApply (ch : Nat) (ref : PktRef) (s : State) : State :=
  let s1 := if ch ∈ s.mem.retired then
      dropChannel ch (mramWrite 5 0 (s.modMem fun m => { m with retired := m.retired.filter fun x => decide (x ≠ ch) }))
    else s
  reply ref 0 (profileLow s1) s1

/-- CHANNEL_RESTORE (R137, R355): as for retirement, only while no image is loaded. -/
def execChannelRestore (p : Pkt) (chan : BitVec 8) (s : State) : Host.Outcome State Fault Refusal :=
  .next (runPkt p 0x030C (le 1 chan.toNat) true
    (fun r t => if imageLoaded t then reply r stStateInvalid [] t else nvGate r (.restore chan.toNat) (restoreApply chan.toNat r) t) s)

/-! ### Counts and marks -/

/-- The counts of one channel: corrected of each of its 24 pins, then uncorrectable of the channel, 4 bytes each. -/
def chanCounts (s : State) (ch : Nat) : Bytes :=
  ((List.range 24).map fun i => leSat 4 (tget 0 s.life.pinCor (ch * 24 + i))).flatten ++ leSat 4 (tget 0 s.life.eccUnc ch).toNat

/-- MEM_COUNTS_READ (R355). -/
def execMemCountsRead (p : Pkt) (first : BitVec 8) (count : BitVec 16) (buf : Buf) (s : State) : Host.Outcome State Fault Refusal :=
  .next (runPkt p 0x0307 (le 1 first.toNat ++ le 2 count.toNat ++ buf.bytes) (decide (1 ≤ count.toNat) && decide (first.toNat + count.toNat ≤ 256))
    (fun r t => replyBuf r buf ((List.range count.toNat).map fun i => chanCounts t (first.toNat + i)).flatten [] t) s)

/-- PIN_MARK_CLEAR: the degraded mark of a sub-channel clears (R125, R355). -/
def execPinMarkClear (p : Pkt) (chan sub : BitVec 8) (s : State) : Host.Outcome State Fault Refusal :=
  .next (runPkt p 0x0308 (le 1 chan.toNat ++ le 1 sub.toNat) (decide (sub.toNat ≤ 1))
    (fun r t => reply r 0 [] (modSub chan.toNat sub.toNat (fun x => { x with degraded := false }) t)) s)

end Sys2Proof.Machine
end

