-- ==== Sys2Proof/Machine/HostPort.lean ====
section
/-!
DEFINITION. Host access to memory: the host port of an MM (R119), the memory commands (R112, R355), BAR2 (R333), merge entries that
have aged (R127), and channel hot spots (R118).
-/

namespace Sys2Proof.Machine

/-! ### Room on a sub-channel (R119) -/

/-- The length in cc of an access sequence of n bursts: activate, bursts, precharge (R58, R119). -/
def seqCc (p : LpCc) (write : Bool) (n : Nat) : Nat := max p.ras (p.rcd + p.run n + (if write then p.wr else p.rtp)) + p.rp

/-- The words of a list that name a sub-channel of their MM. -/
def onSub (x : BitVec 16) (ch sub : Nat) (l : List Ew) : List Ew := l.filter fun e => (lpCmdOf e).isSome && decide (mmCh x e.w = (ch, sub))

/-- The length in cc of the period at hand. -/
def periodCc (s : State) (i : Image) : Nat := if s.job.stretched then i.scc else i.pcc

/-- A word list of the period has nothing due on a sub-channel before a cc: neither a word still to be issued, nor one of the next
period. -/
def listClear (x : BitVec 16) (ch sub done len upto : Nat) (l : List Ew) : Bool :=
  (onSub x ch sub ((l.drop done).filter fun e => decide (e.off < len))).all (fun e => decide (upto ≤ e.off)) &&
    (onSub x ch sub l).all fun e => decide (upto ≤ len + e.off)

/-- No scheduled command of a sub-channel, no housekeeping word and no Recess window of its MM comes before a cc of the period
(R66, R67, R119). Scheduled commands are those of strict mode; in loose mode a word has no cc of its own (R73). -/
def gridClear (s : State) (i : Image) (x : BitVec 16) (ch sub upto : Nat) : Bool :=
  let len := periodCc s i
  (!s.job.gridOn ||
    (listClear x ch sub (tget 0 s.job.hkPc x.toNat) len upto (gridWords s x) &&
     i.recess.all fun w => decide (w.kind ≠ 1) || decide (w.stn ≠ x) ||
       ((apart w.start w.len (sinceBell s) (upto - sinceBell s) || decide (len ≤ w.start)) && decide (upto ≤ len + w.start)))) &&
    (decide (s.job.st ≠ .strict) || listClear x ch sub (stnOf s x).pc len upto (jobWords s x))

/-- The host port of an MM can issue an access sequence of n bursts now: with no image loaded, or where the bank is closed, the
timing allows an activate, and the whole sequence ends before the sub-channel is needed (R119). -/
def portRoom (s : State) (c : Coord) (write : Bool) (n : Nat) : Bool :=
  match s.job.image with
  | none => true
  | some i =>
    let p := lpCc (c.ch / 4) (jobF s)
    let t := (subOf s c.ch c.sub).t
    decide (t.busAt ≤ nowCc s + p.rcd) && (lpEarliest p t (.act c.bank c.row)).any (fun a => decide (a ≤ nowCc s)) &&
      gridClear s i (mmOf c.ch) c.ch c.sub (sinceBell s + seqCc p write n)

/-- The command timing after an access sequence that begins now (R119). -/
def portIssue (c : Coord) (write : Bool) (n : Nat) (s : State) : State :=
  if imageLoaded s then
    let p := lpCc (c.ch / 4) (jobF s)
    let x := nowCc s
    modSub c.ch c.sub (fun y =>
      { y with t := lpAfter p (lpAfter p (lpAfter p y.t x (.act c.bank c.row)) (x + p.rcd) (if write then .wr c.bank n else .rd c.bank n))
                 (x + seqCc p write n - p.rp) (.pre c.bank) }) s
  else s

/-! ### Accesses that wait -/

/-- An access writes. -/
def PortAcc.write (a : PortAcc) : Bool := decide (a.kind = 1) || decide (3 ≤ a.kind)

/-- The coordinates of an access's next sequence, where it has any: those of its next byte, or of an aged entry's code word. -/
def PortAcc.coord (a : PortAcc) (s : State) : Option Coord :=
  if a.kind = 4 then some (addressed s a.mpa)
  else match place (a.mpa + a.done) with
    | .lpddr die off => some (toCoord s.mem.ikey.toNat die off)
    | _ => none

/-- The bytes of an access's next sequence: up to the end of the column block, which one sequence covers, or of the granule in a hole
(R110, R113, R121). -/
def PortAcc.next (a : PortAcc) (s : State) : Nat :=
  let k := if (a.coord s).any fun c => chanUp s c.ch then 128 else 256
  min (a.len - a.done) (k - (a.mpa + a.done) % k)

/-- The bursts of an access's next sequence. -/
def PortAcc.bursts (a : PortAcc) (s : State) : Nat := if a.kind = 4 then 1 else (accessPieces (a.mpa + a.done) (a.next s)).length

/-- The host port has room for the next sequence of an access; a hole of R121 needs none. -/
def PortAcc.room (a : PortAcc) (s : State) : Bool :=
  match a.coord s with
  | some c => !chanUp s c.ch || portRoom s c a.write (a.bursts s)
  | none => true

/-- n bytes of an access from a place on: its bytes, repeated (R355). -/
def PortAcc.bytes (a : PortAcc) (from_ n : Nat) : Bytes := (List.range n).map fun i => a.data.getD ((from_ + i) % max 1 a.data.length) 0

/-- The source under which an access's bursts are counted: BAR2's (R118). -/
def PortAcc.hot (a : PortAcc) : Option Nat := if a.kind ≤ 1 then some 32 else none

/-- What an access answers when it ends (R131, R333, R355). -/
def portEnd (a : PortAcc) (bad : Bool) (s : State) : State :=
  if a.kind = 0 then (if bad then emit .readAbort 2 (le 8 a.mpa) s else emit .readReply a.mpa a.got s)
  else if a.kind = 2 then reply a.ref (if bad then stDataUncorrectable else stSuccess) (le 4 a.got.length) (emit .hostWrite a.host a.got s)
  else if a.kind = 3 then reply a.ref 0 (le (if a.wide then 8 else 4) a.len) s
  else s

/-- The bytes of an access from its place to n bytes on are read or written: the access then, whether a code word could not be used,
and the state. -/
def portMove (err : ReadErr) (a : PortAcc) (n : Nat) (s : State) : PortAcc × Bool × State :=
  if a.write then
    ({ a with done := a.done + n }, false, mpaWrite err { kind := 1 } a.hot (a.mpa + a.done) (a.bytes a.done n) s)
  else
    let r := mpaRead err { kind := 1 } a.hot (a.mpa + a.done) n s
    ({ a with done := a.done + n, got := a.got ++ r.1.data }, r.1.bad, r.2)

/-- An access does all that is left of it at once. -/
def portAll (err : ReadErr) (a : PortAcc) (s : State) : State :=
  let r := portMove err a (a.len - a.done) s
  portEnd r.1 r.2.1 r.2.2

/-- An access to memory begins: tile store, and LPDDR with no image loaded, are accessed at once; else it waits for its host ports,
behind those that wait already (R119; log entry 81, DESIGN CHOICE). -/
def portBegin (err : ReadErr) (a : PortAcc) (s : State) : State :=
  match place a.mpa with
  | .lpddr _ _ => if imageLoaded s then s.modHi fun h => { h with hostPort := h.hostPort ++ [a] } else portAll err a s
  | _ => portAll err a s

/-- What an access waits behind: the accesses of its own MM, and, for one of BAR2, the writes of BAR2 before it, as PCIe orders them
(R119, R333). MMs are numbered 0 to 63, and 64 stands for a write of BAR2. -/
def PortAcc.behind (a : PortAcc) (s : State) : List Nat := ((a.coord s).map fun c => c.ch / 4).toList ++ (if a.kind ≤ 1 then [64] else [])

/-- What the accesses after an access wait behind. -/
def PortAcc.blocks (a : PortAcc) (s : State) : List Nat := ((a.coord s).map fun c => c.ch / 4).toList ++ (if a.kind = 1 then [64] else [])

/-- The first access of a list that has room and waits behind none before it. -/
def portPick (s : State) : List Nat → List PortAcc → Option PortAcc
  | _, [] => none
  | seen, a :: t => if a.room s && (a.behind s).all (fun k => decide (k ∉ seen)) then some a else portPick s (a.blocks s ++ seen) t

/-- The access queue with one changed, or gone. -/
def portPut (a : PortAcc) (b : Option PortAcc) (s : State) : State :=
  s.modHi fun h =>
    { h with hostPort := match b with
        | some x => mapFirst (fun y => decide (y = a)) (fun _ => x) h.hostPort
        | none => dropFirst (fun y => decide (y = a)) h.hostPort }

/-- The oldest merge entry of a code word is written by read-modify-write and leaves the buffer (R127). -/
def agedWrite (err : ReadErr) (key : Nat) (s : State) : State :=
  match mergeOf s.mem.merge key with
  | some m => mergeRmw err m (s.modMem fun x => { x with merge := mergeDrop x.merge key })
  | none => s

/-- One access sequence of an access that has room: it goes on, or ends (R119, R131). -/
def portStep (err : ReadErr) (a : PortAcc) (s : State) : State :=
  let s1 := match a.coord s with
    | some c => if chanUp s c.ch then portIssue c a.write (a.bursts s) s else s
    | none => s
  if a.kind = 4 then portPut a none (agedWrite err a.mpa s1)
  else
    let r := portMove err a (a.next s) s1
    if r.2.1 || decide (a.len ≤ r.1.done) then releaseWrites (portEnd r.1 r.2.1 (portPut a none r.2.2)) else portPut a (some r.1) r.2.2

/-- The accesses that still wait take place, as they may with no image loaded, before the MMs stop (R119, R333). -/
def portDrain (s : State) : State :=
  releaseWrites (s.hi.hostPort.foldl (fun t a => if a.kind = 4 then agedWrite {} a.mpa t else portAll {} a t) (s.modHi fun h => { h with hostPort := [] }))

/-- HOST_PORT_ACCESS: a host port finds room for the oldest access that waits for it, and issues one access sequence (R119). -/
def execHostPortAccess (err : ReadErr) (s : State) : Host.Outcome State Fault Refusal :=
  if memUp s then
    match portPick s [] s.hi.hostPort with
    | some a => .next (portStep err a s)
    | none => .next s
  else .next s

/-- MERGE_ENTRY_AGED: an entry reaches 256 cycles. That of an SRAM port is written by read-modify-write; that of an MM waits for the next
opportunity of its host port (R119, R127). -/
def mergeAged (sram : Bool) (key : Nat) (err : ReadErr) (s : State) : State :=
  if sram then
    match mergeOf s.ts.merge key with
    | some m => tsRmw err m (s.modTs fun x => { x with merge := mergeDrop x.merge key })
    | none => s
  else if imageLoaded s then
    if (mergeOf s.mem.merge key).isSome then s.modHi fun h => { h with hostPort := h.hostPort ++ [{ kind := 4, mpa := key }] } else s
  else agedWrite err key s

/-- MERGE_ENTRY_AGED (R127). -/
def execMergeEntryAged (sram : Bool) (key : Nat) (err : ReadErr) (s : State) : Host.Outcome State Fault Refusal :=
  if memUp s then .next (mergeAged sram key err s) else .next s

/-! ### Memory commands (R112, R355) -/

/-- What a memory command is refused with before it moves a byte: below Lit, or an unmapped address (R112, R353). -/
def memRefusal (a n : Nat) (s : State) : Nat :=
  if !memUp s then stStateInvalid else if mapped a n then 0 else stAddressUnmapped

/-- A byte count of 1 to 2³⁰ (R355). -/
def memLenOk (n : BitVec 32) : Bool := decide (1 ≤ n.toNat) && decide (n.toNat ≤ 2 ^ 30)

/-- A memory command begins: refused, or its access does (R112, R119). -/
def memBody (err : ReadErr) (a : PortAcc) (s : State) : State :=
  if memRefusal a.mpa a.len s = 0 then portBegin err a s else reply a.ref (memRefusal a.mpa a.len s) [] s

/-- MEM_READ (R355): the bytes before an uncorrectable or poisoned burst are moved (R131, R353). -/
def execMemRead (p : Pkt) (mpa : BitVec 64) (len : BitVec 32) (host : BitVec 64) (err : ReadErr) (s : State) : Host.Outcome State Fault Refusal :=
  .next (runPkt p 0x0301 (le 8 mpa.toNat ++ le 4 len.toNat ++ le 8 host.toNat) (memLenOk len)
    (fun r => memBody err { kind := 2, mpa := mpa.toNat, len := len.toNat, ref := r, host := host.toNat }) s)

/-- MEM_WRITE (R355): the host's bytes come with the command. -/
def execMemWrite (p : Pkt) (mpa : BitVec 64) (len : BitVec 32) (host : BitVec 64) (data : Bytes) (s : State) : Host.Outcome State Fault Refusal :=
  .next (runPkt p 0x0302 (le 8 mpa.toNat ++ le 4 len.toNat ++ le 8 host.toNat) (memLenOk len)
    (fun r => memBody {} { kind := 3, mpa := mpa.toNat, len := len.toNat, data := padTo len.toNat data, ref := r }) s)

/-- MEM_FILL (R355): an 8-byte pattern, repeated. -/
def execMemFill (p : Pkt) (mpa len pattern : BitVec 64) (s : State) : Host.Outcome State Fault Refusal :=
  .next (runPkt p 0x0303 (le 8 mpa.toNat ++ le 8 len.toNat ++ le 8 pattern.toNat) (decide (1 ≤ len.toNat))
    (fun r => memBody {} { kind := 3, mpa := mpa.toNat, len := len.toNat, data := le 8 pattern.toNat, ref := r, wide := true }) s)

/-- HX_RESTART: a halted HX channel runs again (R131, R355). -/
def execHxRestart (p : Pkt) (die chan : BitVec 8) (s : State) : Host.Outcome State Fault Refusal :=
  .next (runPkt p 0x0304 (le 1 die.toNat ++ le 1 chan.toNat) (decide (die.toNat ≤ 1) && decide (chan.toNat < 16))
    (fun r t => reply r 0 [] (t.modStn fun x => { x with hx := tmod {} x.hx (die.toNat * 16 + chan.toNat) fun h => { h with halted := false } })) s)

/-! ### BAR2 (R119, R333) -/

/-- The module address of a BAR2 offset (R333). -/
def bar2Mpa (s : State) (off : Nat) : Nat := s.hi.bar2Win.toNat * 2 ^ 36 + off % 2 ^ 36

/-- BAR2_READ: Unsupported Request for an unmapped address (R112); tile store answers at once, LPDDR waits for the host port, and
none passes a write of BAR2 that waits (R119, R333). -/
def bar2Read (err : ReadErr) (off len : Nat) (s : State) : State :=
  let a : PortAcc := { kind := 0, mpa := bar2Mpa s off, len := len }
  if !memUp s || !mapped a.mpa len then emit .readAbort 1 (le 8 a.mpa) s
  else match place a.mpa with
    | .lpddr _ _ => s.modHi fun h => { h with hostPort := h.hostPort ++ [a] }
    | _ => if writeWaits s then s.modHi fun h => { h with hostPort := h.hostPort ++ [a] } else portAll err a s

/-- BAR2_READ (R333). -/
def execBar2Read (off len : Nat) (err : ReadErr) (s : State) : Host.Outcome State Fault Refusal :=
  if hostUp s && decide (1 ≤ len) then .next (bar2Read err off len s) else .next s

/-- BAR2_WRITE (R333): an unmapped write changes nothing; one behind a write that waits, waits too. -/
def execBar2Write (off : Nat) (data : Bytes) (s : State) : Host.Outcome State Fault Refusal :=
  let a := bar2Mpa s off
  if hostUp s && memUp s && !data.isEmpty && mapped a data.length then
    let w : PortAcc := { kind := 1, mpa := a, len := data.length, data := data }
    .next (if writeWaits s then s.modHi fun h => { h with hostPort := h.hostPort ++ [w] } else portBegin {} w s)
  else .next s

/-- BAR2_TIMEOUT: the host port has found no room for 900 µs; the oldest read completes with Completer Abort (R333). -/
def execBar2Timeout (s : State) : Host.Outcome State Fault Refusal :=
  match s.hi.hostPort.find? fun a => decide (a.kind = 0) with
  | none => .next s
  | some a => .next (raise evBar2Timeout srcSv (le 8 a.mpa) (emit .readAbort 0 (le 8 a.mpa) (portPut a none s)))

/-! ### Hot spots (R118) -/

/-- The bursts of a source in the 1 ms window, by channel. -/
def hotOf (s : State) (source : Nat) : List (Nat × Nat) := (s.mem.hot.filter fun e => decide (e.1 / 256 = source)).map fun e => (e.1 % 256, e.2)

/-- CHANNEL_HOTSPOT: a window ends with at least 4,096 bursts of a source and more than 75 % of them on one channel; at
most once per 10 s for each source (R118). BAR2 has no HX channel, and its item is 0x1F (log entry 79, DESIGN CHOICE). -/
def channelHotspot (stn chan : Nat) (s : State) : State :=
  let source := if stn = 0xFFFF then 32 else stnDie (BitVec.ofNat 16 stn) * 16 + chan
  let l := hotOf s source
  let total := (l.map (·.2)).sum
  let top := l.foldl (fun m e => if m.2 < e.2 then e else m) (0, 0)
  let last := tget 0 s.mem.hotAt source
  let s1 := s.modMem fun m => { m with hot := m.hot.filter fun e => decide (e.1 / 256 ≠ source) }
  if 4096 ≤ total ∧ 3 * total < 4 * top.2 ∧ (last = 0 ∨ last + 4000000000 ≤ s.sc + 1) then
    raise evChannelHotspot (if stn = 0xFFFF then srcSv else stn)
      (le 2 stn ++ le 1 (if stn = 0xFFFF then 0x1F else chan) ++ le 1 top.1 ++ leSat 4 (top.2 * 100 / total) ++ leSat 4 total)
      (s1.modMem fun m => { m with hotAt := tset 0 m.hotAt source (s.sc + 1) })
  else s1

/-- CHANNEL_HOTSPOT (R118). -/
def execChannelHotspot (stn : BitVec 16) (chan : Nat) (s : State) : Host.Outcome State Fault Refusal :=
  if svOn s then .next (channelHotspot stn.toNat chan s) else .next s

end Sys2Proof.Machine
end

