-- ==== Sys2Proof/Machine/Mm.lean ====
section
/-!
DEFINITION. Memory stations: ACT, RDRUN, WRRUN, PRE, PREA and the housekeeping words (R55, R57, R58, R66), refresh and
package temperature (R128, R129), and scrub (R126, R130).
-/

namespace Sys2Proof.Machine

/-! ### Timing of a sub-channel -/

/-- The timing of an MM's package at the clock of the image. -/
def mmT (s : State) (x : BitVec 16) : LpCc := lpCc (mmPkg x) (jobF s)

/-- The channel and sub-channel that an MM word names. -/
def chSub (x : BitVec 16) (e : Ew) : Nat × Nat := mmCh x e.w

/-- The command timing of the sub-channel that a word names. -/
def lpOf (s : State) (x : BitVec 16) (e : Ew) : LpT := (subOf s (chSub x e).1 (chSub x e).2).t

/-- Change the command timing of a sub-channel. -/
def setLp (ch sub : Nat) (t : LpT) (s : State) : State := modSub ch sub (fun y => { y with t := t }) s

/-- A row that a refresh has closed is opened again, as early as timing allows, before a run that needs it (R66). -/
def reopen (p : LpCc) (t : LpT) (b : Nat) : LpT :=
  if tget 0 t.open_ b = 0 ∧ tget 0 t.want b ≠ 0 then
    match lpEarliest p t (.act b (tget 0 t.want b - 1)) with
    | some a => lpAfter p t a (.act b (tget 0 t.want b - 1))
    | none => t
  else t

/-- The timing that a command meets: a run finds its row open again. -/
def lpBefore (p : LpCc) (t : LpT) : LpCmd → LpT
  | .rd b _ => reopen p t b
  | .wr b _ => reopen p t b
  | _ => t

/-- A command may be issued now (R58). -/
def lpReady (p : LpCc) (t : LpT) (c : LpCmd) (now : Nat) : Bool := (lpEarliest p (lpBefore p t c) c).any fun a => decide (a ≤ now)

/-- The command of a word. -/
def lpWord (e : Ew) : LpCmd := (lpCmdOf e).getD .prea

/-- An MM word has issued its command. -/
def lpIssue (x : BitVec 16) (e : Ew) (s : State) : State :=
  let p := mmT s x
  setLp (chSub x e).1 (chSub x e).2 (lpAfter p (lpBefore p (lpOf s x e) (lpWord e)) (nowCc s) (lpWord e)) s

/-- An MM word's command may be issued now. -/
def lpOk (x : BitVec 16) (e : Ew) (s : State) : Bool := lpReady (mmT s x) (lpOf s x e) (lpWord e) (nowCc s)

/-! ### Refresh (R66, R128, R129) -/

/-- The refresh window of a ceiling code over 8,192, in ps (R68). -/
def trefiPs (code : Nat) : Nat := (if code = 0 then 32 else if code = 1 then 16 else 8) * 1000000000 / 8192

/-- The temperature of a ceiling code (R47). -/
def ceilTemp (code : Nat) : Int := if code = 0 then 85 else if code = 1 then 95 else 105

/-- The ceiling code in force: the image's; 1 with no image (R129). -/
def ceilCode (s : State) : Nat := (s.job.image.map fun i => i.memTceil.toNat).getD 1

/-- The eight sub-channels of a package. -/
def pkgSubs (pkg : Nat) : List (Nat × Nat) := (List.range 8).map fun i => (4 * pkg + i / 2, i % 2)

/-- The sub-channels of a package that are refreshed and scrubbed: those of channels in service (R137). -/
def liveSubs (s : State) (pkg : Nat) : List (Nat × Nat) := (pkgSubs pkg).filter fun q => chanUp s q.1

/-- The state of a package. -/
def pkgOf (s : State) (pkg : Nat) : Pkg := tget {} s.mem.pkg pkg

/-- Change the state of a package. -/
def modPkg (pkg : Nat) (f : Pkg → Pkg) (s : State) : State := s.modMem fun m => { m with pkg := tmod {} m.pkg pkg f }

/-- The station of the MM of a package. -/
def pkgStn (pkg : Nat) : BitVec 16 := mkStn (pkg / 16) 4 (pkg % 16)

/-- An all-bank refresh of a sub-channel now: open banks are precharged first (R66, R129). -/
def refreshNow (p : LpCc) (ch sub n : Nat) (s : State) : State :=
  let t := lpCloseFor p (subOf s ch sub).t (nowCc s)
  let a := max (nowCc s) ((lpEarliest p t .refab).getD 0)
  modSub ch sub (fun y => { y with t := lpAfter p t (a + (n - 1) * p.rfcab) .refab, refs := y.refs + n }) s

/-- EMERGENCY_REFRESH with the count inserted since the last record (R129). The item 'ceiling' is the limit in °C (log entry 80, DEDUCED,
DEDUCED). -/
def emergencyNote (pkg n : Nat) (s : State) : State :=
  let q := pkgOf s pkg
  let keep := suppressed evEmergencyRefresh s.db
  raise evEmergencyRefresh (pkgStn pkg).toNat (le 1 (0x40 + pkg) ++ leInt 2 q.temp ++ leInt 2 (ceilTemp (ceilCode s)) ++ leSat 4 (q.inserted + n))
    (modPkg pkg (fun y => { y with inserted := if keep then y.inserted + n else 0 }) s)

/-- The emergency refreshes due on the sub-channel of an ACT are inserted before it, and it slips (R129). -/
def insertDue (x : BitVec 16) (e : Ew) (s : State) : State :=
  let q := chSub x e
  let n := (subOf s q.1 q.2).emDue
  emergencyNote (mmPkg x) n (modSub q.1 q.2 (fun y => { y with emDue := 0 }) (refreshNow (mmT s x) q.1 q.2 n s))

/-- Emergency refreshes fall due on every sub-channel of a package that is refreshed: held for the next ACT while an image is loaded,
issued at once with none (R129). -/
def makeDue (pkg : Nat) (s : State) : State :=
  let subs := liveSubs s pkg
  if imageLoaded s then subs.foldl (fun t q => modSub q.1 q.2 (fun y => { y with emDue := y.emDue + 1 }) t) s
  else emergencyNote pkg subs.length (subs.foldl (fun t q => refreshNow (lpCc pkg (jobF t)) q.1 q.2 1 t) s)

/-- With the image gone, the emergency refreshes still due on a package are issued at once (R129). -/
def issueDue (s : State) (pkg : Nat) : State :=
  let subs := (liveSubs s pkg).filter fun q => decide (0 < (subOf s q.1 q.2).emDue)
  let n := (subs.map fun q => (subOf s q.1 q.2).emDue).sum
  if n = 0 then s
  else emergencyNote pkg n (subs.foldl (fun t q => modSub q.1 q.2 (fun y => { y with emDue := 0 }) (refreshNow (lpCc pkg (jobF t)) q.1 q.2 (subOf t q.1 q.2).emDue t)) s)

/-- MEM_TEMP_READING: the reading of a package, every 8 µs (R129). -/
def tempReading (pkg : Nat) (temp : Int) (s : State) : State :=
  let lim := ceilTemp (ceilCode s)
  let was := (pkgOf s pkg).hot
  let s1 := modPkg pkg (fun y => { y with temp := temp, hot := decide (lim < temp), double_ := decide (lim + 10 < temp) }) s
  let s2 := if lim + 10 < temp then raise evMemTempLimit (pkgStn pkg).toNat (le 1 (0x40 + pkg) ++ leInt 2 temp) s1 else s1
  if lim < temp ∧ was = false then makeDue pkg s2 else s2

/-- MEM_TEMP_READING (R129). -/
def execMemTempReading (pkg : Nat) (temp : Int) (s : State) : Host.Outcome State Fault Refusal :=
  if memUp s && decide (pkg < 64) then .next (tempReading pkg temp s) else .next s

/-- EMERGENCY_REFRESH_DUE: another tREFI, or tREFI / 2, has passed while readings stay above the limit (R129). -/
def execEmergencyRefreshDue (pkg : Nat) (s : State) : Host.Outcome State Fault Refusal :=
  if memUp s && decide (pkg < 64) && (pkgOf s pkg).hot then .next (makeDue pkg s) else .next s

/-- IDLE_REFRESH: with no image, or until the first Bell of one, an MM refreshes its sub-channels by itself (R128). -/
def execIdleRefresh (die mm : Nat) (s : State) : Host.Outcome State Fault Refusal :=
  if memUp s && s.mem.idleRef && decide (die < 4) && decide (mm < 16) then
    .next ((liveSubs s (16 * die + mm)).foldl (fun t q => refreshNow (lpCc (16 * die + mm) (jobF t)) q.1 q.2 1 t) s)
  else .next s

/-! ### Work words (R55, R57) -/

/-- ACT: activates a row; a due emergency refresh goes first and the ACT slips (R55, R129). -/
def execAct (stn : BitVec 16) (err : ReadErr) (s : State) : Host.Outcome State Fault Refusal :=
  .next (issue 0x40 stn err (fun e t => lpOk stn e t) (fun e t =>
    if 0 < (subOf t (chSub stn e).1 (chSub stn e).2).emDue then insertDue stn e t else issued stn e (lpIssue stn e t)) s)

/-- PRE: precharges a bank (R55). -/
def execPre (stn : BitVec 16) (err : ReadErr) (s : State) : Host.Outcome State Fault Refusal :=
  .next (issue 0x43 stn err (fun e t => lpOk stn e t) (fun e t => issued stn e (lpIssue stn e t)) s)

/-- PREA: precharges all banks (R55). -/
def execPrea (stn : BitVec 16) (err : ReadErr) (s : State) : Host.Outcome State Fault Refusal :=
  .next (issue 0x44 stn err (fun e t => lpOk stn e t) (fun e t => issued stn e (lpIssue stn e t)) s)

/-- The coordinates of burst i of a run: consecutive columns of the open row (R55, R110). -/
def runCoord (x : BitVec 16) (e : Ew) (t : LpT) (i : Nat) : Coord :=
  ⟨(chSub x e).1, (chSub x e).2, iwArg e.w 2, tget 0 t.want (iwArg e.w 2) - 1, 4 * iwArg e.w 3 + i⟩

/-- Read the bursts of a run; from the first that cannot be used, zeros (R131). Answers the bytes, whether the tile has met
such a burst, and the state. -/
def readRun (err : ReadErr) (x : BitVec 16) (e : Ew) (q : MemSrc) (t : LpT) (zero : Bool) (s : State) : Bytes × Bool × State :=
  (List.range (iwArg e.w 4)).foldl (fun (r : Bytes × Bool × State) i =>
    if r.2.1 then (r.1 ++ zeros 32, true, r.2.2)
    else match readBurst err (runCoord x e t i) q r.2.2 with
      | (some d, s1) => (r.1 ++ d, false, s1)
      | (none, s1) => (r.1 ++ zeros 32, true, s1)) ([], zero, s)

/-- The bursts of a tile's payload. -/
def tileBursts (t : Shape) : Nat := ceilDiv t.plen 32

/-- An RDRUN with `toff` 0 starts the next tile; any other adds to the tile last started (R53). -/
def startBuild (x : BitVec 16) (e : Ew) (s : State) : State :=
  if iwArg e.w 6 = 0 then
    let st := (bindAt s x (iwArg e.w 5)).stream
    let n := nextOut s st
    let q : Outst := { stn := x, stream := st, tseq := n, doneCc := 0, left := tileBursts (bindAt s x (iwArg e.w 5)).shape, rel := [], noTile := false, sf := 0, idx := e.idx, slip := slipNow s e }
    let s1 := s.modStn fun y => { y with outst := y.outst ++ [q] }
    modPos x (iwArg e.w 5) (fun p => { p with building := some n, bursts := 0, flags := 0, zeroFrom := false }) s1
  else s

/-- The data of a run go into the tile being built; with its last burst the header is written, and the tile completes when
the run's data is in tile store (R21, R57). -/
def placeRun (x : BitVec 16) (e : Ew) (d : Bytes) (bad : Bool) (s : State) : State :=
  let bi := iwArg e.w 5
  let b := bindAt s x bi
  let p := posOf s x bi
  match p.building with
  | none => s
  | some n =>
    let t := b.shape
    let a := slotAddr b.stream (ctxOf s b.stream) n
    let off := 32 * iwArg e.w 6
    let s1 := tsWrite {} (a + 32 + off) (d.take (t.plen - off)) s
    let got := p.bursts + iwArg e.w 4
    let last := decide (tileBursts t ≤ got)
    let fin := nowCc s + (wordTimes s x e.w).2.1
    let fl : BitVec 8 := (if bad then flPoison else 0) ||| (if last && isLast s x b.stream then flEos else 0)
    let s2 := if last then tsWrite {} a (mkHdr x b n { body := [], flags := fl } s1).bytes s1 else s1
    let mine := fun (o : Outst) => decide (o.stn = x) && decide (o.stream = b.stream) && decide (o.tseq = n)
    let done := fun (o : Outst) => { o with left := if last then 0 else tileBursts t - got, doneCc := fin, sf := fl, idx := e.idx, slip := slipNow s e }
    let s3 := s2.modStn fun y => { y with outst := mapFirst mine done y.outst }
    modPos x bi (fun y => { y with bursts := got, zeroFrom := bad, building := if last then none else some n }) s3

/-- A run completes with its data in tile store, or at the end of its sub-channel's busy time (R57). -/
def runDone (x : BitVec 16) (e : Ew) (s : State) : State :=
  let t := wordTimes s x e.w
  (modStn x (doneBy e (slipNow s e) (nowCc s + t.2.1)) s).modJob fun j => { j with latest := max j.latest (sinceBell s + t.2.1) }

/-- RDRUN (R53, R55, R131). -/
def rdrunBody (err : ReadErr) (x : BitVec 16) (e : Ew) (s : State) : State :=
  let s1 := startBuild x e s
  let bi := iwArg e.w 5
  let p := posOf s1 x bi
  let q : MemSrc := { kind := 0, stn := x.toNat, index := e.idx, stream := p.building.map fun n => ((bindAt s1 x bi).stream.toNat, n.toNat) }
  let r := readRun err x e q (lpBefore (mmT s1 x) (lpOf s1 x e) (lpWord e)) p.zeroFrom s1
  issued x e (runDone x e (lpIssue x e (placeRun x e r.1 r.2.1 r.2.2)))

/-- RDRUN: reads a run of bursts into a tile (R55). -/
def execRdrun (stn : BitVec 16) (err : ReadErr) (s : State) : Host.Outcome State Fault Refusal :=
  .next (issue 0x41 stn err (fun e t => lpOk stn e t && (decide (iwArg e.w 6 ≠ 0) || outFree stn e t)) (rdrunBody err stn) s)

/-- WRRUN with its tile read: n bursts from byte 32 × `toff` of the payload; a poisoned tile gives poisoned bursts (R55,
R124). -/
def wrrunBody (x : BitVec 16) (e : Ew) (us : List InUse) (ts : List TileIn) (s : State) : State :=
  match ts with
  | [] => s
  | a :: _ =>
    let poison := decide (a.flags &&& flPoison ≠ 0)
    let t := lpBefore (mmT s x) (lpOf s x e) (lpWord e)
    let s1 := (List.range (iwArg e.w 4)).foldl (fun u i => writeBurst poison (runCoord x e t i) (padTo 32 (part a.bytes (32 * (iwArg e.w 6 + i)) 32)) u) s
    issued x e (takeIns x us (noOut x e us (lpIssue x e s1)))

/-- WRRUN: writes a run of bursts from a tile (R55). -/
def execWrrun (stn : BitVec 16) (err : ReadErr) (s : State) : Host.Outcome State Fault Refusal :=
  .next (issue 0x42 stn err (fun e t => lpOk stn e t) (fun e t => withTiles err stn e (wrrunBody stn e) t) s)

/-! ### Housekeeping words (R66) -/

/-- A refresh of the housekeeping track: once its banks are precharged and timing allows (R58, R66). -/
def houseRefresh (x : BitVec 16) (e : Ew) (s : State) : State :=
  let p := mmT s x
  let q := chSub x e
  let t := lpCloseFor p (lpOf s x e) (nowCc s)
  let now := nowCc s
  if (lpEarliest p t (lpWord e)).any fun a => decide (a ≤ now) then
    let fin := (wordTimes s x e.w).2.1
    (gridIssued x (modSub q.1 q.2 (fun y => { y with t := lpAfter p t now (lpWord e), refs := y.refs + 1 }) s)).modJob fun j =>
      { j with latest := if e.off < ((s.job.image.map Image.pcc).getD 0) then max j.latest (sinceBell s + fin) else j.latest }
  else setLp q.1 q.2 t s

/-- A refresh word of the housekeeping track: LPDDR in self-refresh takes none (R128), and a word whose fetch meets an uncorrectable
code word traps (R131). -/
def houseWord (opc : Nat) (x : BitVec 16) (err : ReadErr) (s : State) : State :=
  match gridWordAt opc x s with
  | some e => if s.mem.selfRef then s else gridFetched x err (houseRefresh x e) e s
  | none => s

/-- REFAB: all-bank refresh of a sub-channel (R55, R66). -/
def execRefab (word : HouseIssue) (s : State) : Host.Outcome State Fault Refusal := .next (houseWord 0x45 word.stn word.err s)

/-- REFPB: per-bank refresh (R55, R66). -/
def execRefpb (word : HouseIssue) (s : State) : Host.Outcome State Fault Refusal := .next (houseWord 0x46 word.stn word.err s)

/-! ### Scrub (R126, R130) -/

/-- The column blocks that the rest of a window takes on a sub-channel from a position on: row by row, each opened only where its
precharge falls within the window (R130; log entry 39, DEDUCED). `f` bounds the rows. -/
def scrubBlocks (p : LpCc) : Nat → Nat → Nat → Nat
  | 0, _, _ => 0
  | f + 1, k, len =>
    let m := min (64 - k % 64) ((len - p.rcd - p.rtp) / max 1 (p.run 4))
    let open_ := max p.ras (p.rcd + m * p.run 4 + p.rtp)
    if m = 0 ∨ len < open_ then 0 else m + scrubBlocks p f (k + m) (len - max p.rc (open_ + p.rp))

/-- Scrub one burst: a corrected one is written back, others stay as they are (R130). -/
def scrubBurst (err : ReadErr) (c : Coord) (s : State) : State :=
  let o := decodeAt err c s
  let s1 := noteBurst c { kind := 2, stn := (mmOf c.ch).toNat } o s
  match o with
  | .fixed d _ => modSub c.ch c.sub (fun y => { y with scrubCor := y.scrubCor + 1 }) (putBurst (c.no s) (rsWord d) s1)
  | .bad _ => modSub c.ch c.sub (fun y => { y with scrubUnc := y.scrubUnc + 1 }) s1
  | _ => s1

/-- Scrub the column block at the position of a sub-channel and move on, in column-block, row, bank order (R130). -/
def scrubBlock (err : ReadErr) (ch sub : Nat) (s : State) : State :=
  let k := (subOf s ch sub).scrub
  let s1 := (List.range 4).foldl (fun t i => scrubBurst err ⟨ch, sub, k / 64 / 98304, k / 64 % 98304, 4 * (k % 64) + i⟩ t) s
  modSub ch sub (fun y => { y with scrub := (k + 1) % 100663296 }) s1

/-- SCRUB_PASS_DONE at the end of a pass of an MM, counted by its first channel in service (R130). -/
def scrubDone (pkg ch sub : Nat) (s : State) : State :=
  let subs := pkgSubs pkg
  let q := subOf s ch sub
  let cor := (subs.map fun p => (subOf s p.1 p.2).scrubCor).sum
  let unc := (subs.map fun p => (subOf s p.1 p.2).scrubUnc).sum
  raise evScrubPassDone (pkgStn pkg).toNat (le 2 (pkgStn pkg).toNat ++ leSat 4 ((s.sc - q.scrubAt) / 400000000) ++ leSat 4 cor ++ leSat 4 unc)
    (subs.foldl (fun t p => modSub p.1 p.2 (fun y => { y with scrubCor := 0, scrubUnc := 0, scrubAt := s.sc }) t) s)

/-- Scrub every sub-channel of an MM in service for a window of a length in cc (R130). -/
def scrubMm (err : ReadErr) (pkg : Nat) (p : LpCc) (len : Nat) (s : State) : State :=
  let subs := liveSubs s pkg
  let s1 := subs.foldl (fun t q =>
    let k := (subOf t q.1 q.2).scrub
    (List.range (scrubBlocks p (len + 1) k len)).foldl (fun u _ => scrubBlock err q.1 q.2 u) t) s
  match subs with
  | q :: _ => if (subOf s1 q.1 q.2).scrub < (subOf s q.1 q.2).scrub then scrubDone pkg q.1 q.2 s1 else s1
  | [] => s1

/-- IDLE_SCRUB: with no image loaded, an MM scrubs in 0.5 µs of every 20 µs, at the clock of 1.60 GHz (R130, R379). -/
def execIdleScrub (die mm : Nat) (err : ReadErr) (s : State) : Host.Outcome State Fault Refusal :=
  if memUp s && !imageLoaded s && decide (die < 4) && decide (mm < 16) then
    .next (scrubMm err (16 * die + mm) (lpCc (16 * die + mm) 160) 800 s)
  else .next s

/-- The tile-store scrub of a die: corrected words are rewritten, others are left in place (R126, R131). -/
def scrubTiles (err : ReadErr) (die : Nat) (x : BitVec 16) (s : State) : State :=
  let ms := markedIn err s (die * 2 ^ 29) (2 ^ 29)
  let s1 := ms.foldl (fun t m => noteWord 2 { kind := 2, stn := x.toNat } m.1 m.2 t) s
  s1.modTs fun t => { t with marks := t.marks.filter fun e => !(ms.any fun m => decide (m.1 = e.1) && decide (m.2 = .correctable)) }

/-- One word of the background pass over program memory, contexts and sync objects: a corrected one is rewritten (R126); one that
is uncorrectable stays, and is recorded with kind 5 or 6, one that is poisoned with kind 7 (R132). A program word's address is 16 ×
its index (log entry 35, DEDUCED); that of a context or sync object is not given: a free value (log entry 3, DESIGN CHOICE). -/
def backgroundWord (kind die stn idx : Nat) (addr : Option Nat) (t : State) (k : SramKind) : State :=
  let a := addr.getD (freeVal 44 t).toNat
  let t1 := if addr.isSome then t else useFree t
  let q : MemSrc := { kind := kind, stn := stn, index := idx }
  match k with
  | .correctable => corrected die srcSv t
  | .uncorrectable => raise evMemUncorrectable srcSv (uePayload a ⟨0, 0, 0, 0, 0⟩ kind (freeVal 15 t1).toNat q (useFree t1)) (useFree t1)
  | .poisoned => raise evPoisonRead srcSv (uePayload a ⟨0, 0, 0, 0, 0⟩ 7 sramPoison q t1) t1

/-- The words that the pass meets, in the order of the arrays. -/
def backgroundPass (err : ReadErr) (s : State) : State :=
  let s1 := err.prog.foldl (fun t m =>
    backgroundWord 5 (stnDie (BitVec.ofNat 16 (m.1 / 65536))) (m.1 / 65536) (m.1 % 65536) (some (16 * (m.1 % 65536))) t m.2) s
  err.ctx.foldl (fun t m => backgroundWord 6 (if m.1 < 2 ^ 20 then m.1 / 2 ^ 18 else (m.1 - 2 ^ 20) / 2 ^ 14) 0xFFFF 0xFFFF none t m.2) s1

/-- SRAM_BACKGROUND_PASS (R126): once every 100 ms. -/
def execSramBackgroundPass (err : ReadErr) (s : State) : Host.Outcome State Fault Refusal :=
  if litUp s then .next (backgroundPass err s) else .next s

end Sys2Proof.Machine
end

