-- ==== Sys2Proof/Machine/Job.lean ====
section
/-!
DEFINITION. The job: load and unload, the period Bell with its transitions, holds and resumes, stretch requests, and the
host's sync and context commands (R42, R49 to R74, R388 to R391).
-/

namespace Sys2Proof.Machine

/-! ### Stretch requests (R64, R65) -/

/-- A request is open at a Bell count (R64). -/
def StretchReq.open_ (r : StretchReq) (b : Nat) : Bool := decide (r.first ≤ b) && (r.close.map fun c => decide (b < c)).getD true

/-- The period that starts at a Bell count is stretched (R64). -/
def stretchedAt (s : State) (b : Nat) : Bool := s.job.reqs.any fun r => r.open_ b

/-- The Bell count that a notice takes effect at here, and whether it came late (R65). -/
def noticeBell (s : State) (v : Nat) : Nat × Bool := if s.job.gridOn && decide (v ≤ s.job.bell) then (s.job.bell + 1, true) else (v, false)

/-- STRETCH_LATE: the named count and the count at arrival; the job is held at the next Bell (R65). -/
def noteLate (v : Nat) (late : Bool) (s : State) : State :=
  if late then raise evStretchLate srcSv (le 8 v ++ le 8 s.job.bell) (s.modJob fun j => { j with late := true }) else s

/-- A stretch notice opens its sender's request; one of the same sender whose end still lies ahead stands beside it (R64). -/
def openReq (m : BitVec 12) (v : Nat) (s : State) : State :=
  let b := noticeBell s v
  noteLate v b.2 (s.modJob fun j => { j with reqs := j.reqs ++ [{ module := m, first := b.1, close := none }] })

/-- An unstretch notice closes its sender's open request (R64). -/
def closeReq (m : BitVec 12) (v : Nat) (s : State) : State :=
  if s.job.reqs.any fun r => decide (r.module = m) && r.close.isNone then
    let b := noticeBell s v
    noteLate v b.2 (s.modJob fun j => { j with reqs := j.reqs.map fun r => if r.module = m ∧ r.close = none then { r with close := some b.1 } else r })
  else s

/-- STRETCH_NOTICE (R64). -/
def execStretchNotice (port : Nat) (notice : Bytes) (s : State) : Host.Outcome State Fault Refusal :=
  .next (onNotice 1 port notice (fun n => jobScope n (openReq n.src (rd n.body 0 8))) s)

/-- UNSTRETCH_NOTICE (R64). -/
def execUnstretchNotice (port : Nat) (notice : Bytes) (s : State) : Host.Outcome State Fault Refusal :=
  .next (onNotice 2 port notice (fun n => jobScope n (closeReq n.src (rd n.body 0 8))) s)

/-- `GTT.STRETCH_LEAD`. -/
def stretchLead (s : State) : Nat := (s.job.image.map fun i => i.stretchLead.toNat).getD 0

/-- CE5 opens this module's request: STRETCH_REQUESTED with its cause, 1 power or 2 junction; in loose mode no notice is sent
(R388, R390, R391). -/
def openOwn (a pm cause : Nat) (s : State) : State :=
  let v := s.job.bell + stretchLead s
  let s1 := raise evStretchRequested (ceSrc 5) (leSat 2 a ++ leSat 2 pm ++ le 1 cause ++ le 8 v)
    ((s.modJob fun j => { j with ownReq := true, below := 0, above := 0, unmet := 0 }).modSw fun w => { w with allotW := 50 })
  if s.job.st = .strict then broadcast 1 (jobTag s1) (le 8 v) (openReq (moduleId s1) v s1) else s1

/-- CE5 closes it: STRETCH_RELEASED (R389, R391). -/
def closeOwn (a pu : Nat) (s : State) : State :=
  let v := s.job.bell + stretchLead s
  let s1 := raise evStretchReleased (ceSrc 5) (leSat 2 a ++ leSat 2 pu ++ le 8 v)
    ((s.modJob fun j => { j with ownReq := false, above := 0, unmet := 0 }).modSw fun w => { w with allotW := 80 })
  if s.job.st = .strict then broadcast 2 (jobTag s1) (le 8 v) (closeReq (moduleId s1) v s1) else s1

/-- T times the unstretched power that a stretched period predicts (R389): P_u = (P_m × T_s − P_x × (T_s − T)) / T. -/
def unstretchedWork (i : Image) (pm px : Nat) : Int :=
  (pm : Int) * i.stretchNs.toNat - (px : Int) * (i.stretchNs.toNat - i.periodNs.toNat : Nat)

/-- P_u in W (R389). -/
def unstretchedPower (i : Image) (pm px : Nat) : Int := unstretchedWork i pm px / (max 1 i.periodNs.toNat : Nat)

/-- CE5 at a period Bell: P_m and P_x of the period just ended, and whether it was stretched (R388 to R390). -/
def ce5Bell (pm px : Nat) (wasStretched : Bool) (s : State) : State :=
  match allowance s, s.job.image with
  | some a, some i =>
    let won := junctionWon s
    if s.job.ownReq then
      let pu := unstretchedPower i pm px
      let ok := decide (105 * unstretchedWork i pm px ≤ 100 * (a : Int) * i.periodNs.toNat) && !won && wasStretched
      let up := if ok then s.job.above + 1 else 0
      let un := if wasStretched && decide (a < pm) then s.job.unmet + 1 else 0
      let s1 := s.modJob fun j => { j with above := up, unmet := un }
      let s2 := if un = 16 then raise evPowerCapUnmet (ceSrc 5) (le 2 s.pwr.capW.toNat ++ leSat 2 pm ++ leSat 2 a) s1 else s1
      if 8 ≤ up then closeOwn a pu.toNat s2 else s2
    else
      let n := if wasStretched then s.job.below else if a < pm then s.job.below + 1 else 0
      let s1 := s.modJob fun j => { j with below := n }
      if 2 ≤ n then openOwn a pm 1 s1 else if won then openOwn a pm 2 s1 else s1
  | _, _ => s

/-! ### The period Bell (R51, R60 to R64, R70, R71) -/

/-- A CE station has not run every word of the period. -/
def ceBehind (s : State) : Option (BitVec 16) :=
  ((s.job.image.map fun i => i.programs).getD []).findSome? fun p =>
    if decide (stnKind p.1 = 7) && decide (tget 0 s.job.hkPc p.1.toNat < (expanded p.2).length) && decide ((stnOf s p.1).trap = none) then some p.1 else none

/-- The first station that has not completed work period w at an instant: in ascending order (R60). -/
def behind (s : State) (w : Nat) (cc : Nat) : Option (BitVec 16) :=
  match (jobStns s).find? fun x => !stnUpTo s w x || (decide ((stnOf s x).period = w) && decide (cc < (stnOf s x).doneAt)) with
  | some x => some x
  | none => ceBehind s

/-- The word of a station that a Bell finds incomplete, and its slip: the next word that has not issued, by then; else an output or a
transfer that is not complete, else the word without output that completes last, each with the slip at which it issued (R56, R60, R74). -/
def overWord (x : BitVec 16) (cc : Nat) (s : State) : Nat × Nat :=
  let k := if stnKind x = 7 then tget 0 s.job.hkPc x.toNat else (stnOf s x).pc
  match (if stnKind x = 7 then gridWords s x else jobWords s x)[k]? with
  | some e => (e.idx, cc - (tbCc s + e.off))
  | none =>
    match s.stn.outst.find? fun o => o.counts && decide (o.stn = x) with
    | some o => (o.idx, o.slip)
    | none =>
      match hxBusy s x with
      | c :: _ => (c.idx, c.slip)
      | [] => ((stnOf s x).doneIdx, (stnOf s x).doneSlip)

/-- PERIOD_OVERRUN: b, w, the station, its word and the word's slip (R60, R74). The words of CATCHUP have no scheduled cc: their slip
is a free value (log entry 67, DESIGN CHOICE). -/
def raiseOverrun (x : BitVec 16) (cc : Nat) (s : State) : State :=
  let o := overWord x cc s
  let cu := decide (s.job.st = .catchup)
  let slip := if cu then (freeVal 32 s).toNat else o.2
  raise evPeriodOverrun srcSv (le 8 s.job.bell ++ le 8 s.job.wper ++ le 2 x.toNat ++ le 2 o.1 ++ leSat 4 slip) (if cu then useFree s else s)

/-- SLACK_LOW: the period's latest completion lies past its length less a quarter of its slack (R62, R63). -/
def slackCheck (len : Nat) (s : State) : State :=
  match s.job.image with
  | none => s
  | some i =>
    let sl := len - i.endCc.toNat
    if 4 * len < 4 * s.job.latest + sl then raise evSlackLow srcSv (le 8 s.job.bell ++ leSat 4 s.job.latest ++ leSat 4 sl) s else s

/-- The holds that act at this Bell in STRICT: of a Bell count that has come, or of a work period that has ended (R70,
R71). -/
def holdDue (b w : Nat) (h : Bool × Nat × Bool × PktRef) : Bool := if h.1 then decide (h.2.1 ≤ w) else decide (h.2.1 ≤ b)

/-- The next work period starts in STRICT (R51, R73, R273). -/
def strictPeriod (w : Nat) (s : State) : State := rotePeriod (startPeriod w (s.modJob fun j => { j with st := .strict }))

/-- The Bell that ends a STRICT period: overrun, trap, hold request, late notice and thermal trip together make one
transition to HELD; otherwise the job completes or goes on (R60, R61, R70, R71, R394). -/
def strictBell (cc len : Nat) (s : State) : State :=
  let w := s.job.wper
  let late := behind s w cc
  let s1 := match late with
    | some x => raiseOverrun x cc (slackCheck len s)
    | none => slackCheck len s
  let trap := !s.job.newTraps.isEmpty
  let due := s.job.holds.filter (holdDue s.job.bell w)
  let bits := b2n late.isSome + 2 * b2n trap + 4 * b2n (!due.isEmpty) + 8 * b2n s.job.late + 32 * b2n s.job.tripped
  if bits ≠ 0 then
    answerHolds due (enterHeld bits (trap || s.job.tripped) ((late.map BitVec.toNat).getD 0xFFFF)
      (s1.modJob fun j => { j with holds := j.holds.filter fun h => !holdDue s.job.bell w h }))
  else if lastPeriod s1 = some w then enterComplete s1
  else strictPeriod (w + 1) s1

/-- The Bell at T_r ends CATCHUP: STRICT with w = W + 1, or HELD when work of W is incomplete; a hold of that very Bell acts at it
(R70). -/
def catchupBell (w : Nat) (cc : Nat) (s : State) : State :=
  match behind s w cc with
  | some x => enterHeld 1 false x.toNat (raiseOverrun x cc (s.modJob fun j => { j with wper := w }))
  | none =>
    let s1 := s.modJob fun j => { j with wper := w, resumeReq := none }
    let due := s.job.holds.filter (holdDue s.job.bell w)
    if !due.isEmpty then
      answerHolds due (enterHeld 4 false 0xFFFF (s1.modJob fun j => { j with holds := j.holds.filter fun h => !holdDue s.job.bell w h }))
    else if (lastPeriod s1).any fun l => decide (l ≤ w) then enterComplete s1 else strictPeriod (w + 1) (dropCredits s1)

/-- What a Bell does to the job's state once its count is set: `cc` is the Bell's cc, `len` the length of the period that it
ends. -/
def bellState (cc len : Nat) (s : State) : State :=
  match s.job.st with
  | .strict => strictBell cc len s
  | .loose => if s.job.tripped then enterHeld 32 true 0xFFFF s else s
  | .catchup =>
    if s.job.tripped then enterHeld 32 true 0xFFFF s
    else match s.job.resumeReq with
      | some (tr, w) => if tr = s.job.tb then catchupBell w cc s else s
      | none => s
  | _ => s

/-- The length of the new period: STRETCH_BEGIN at the first stretched period, STRETCH_END when the last open request
closes (R63, R64). -/
def stretchBell (s : State) : State :=
  let b := s.job.bell
  let on := stretchedAt s b
  let first := s.job.reqs.foldl (fun (m : Option StretchReq) r => if r.open_ b then (match m with
    | some x => if r.first < x.first then some r else m
    | none => some r) else m) none
  let past := s.job.reqs.filter fun r => (r.close.map fun c => decide (c ≤ b)).getD false
  let s1 := s.modJob fun j => { j with stretched := on, reqs := j.reqs.filter fun r => !((r.close.map fun c => decide (c ≤ b)).getD false) }
  if on && !s.job.stretched then
    raise evStretchBegin srcSv (le 2 ((first.map fun r => r.module.toNat).getD 0) ++ le 8 b) s1
  else if !on && s.job.stretched then
    raise evStretchEnd srcSv (le 2 ((past.getLast?.map fun r => r.module.toNat).getD 0) ++ le 8 b) s1
  else s1

/-- The Bell at T0 starts period 0 (R51, R70): JOB_STARTED, and the start packet's final reply. -/
def firstBell (loose : Bool) (ref : PktRef) (s : State) : State :=
  let s1 := s.modJob fun j => { j with gridOn := true, bell := 0, tb := j.t0, hkPc := [], slot := 0, first := true, startReq := none }
  let s2 := raise evJobStarted srcSv (le 8 s.job.t0.toNat ++ le 1 (b2n loose)) ((stretchBell s1).modMem fun m => { m with idleRef := false })
  let s3 := if loose then enterLoose (startPeriod 0 (s2.modJob fun j => { j with st := .loose })) else strictPeriod 0 s2
  reply ref 0 [] (calPeriod s3)

/-- The period Bell with the grid running. -/
def nextBell (pm px : Nat) (s : State) : State :=
  let was := s.job.st
  let len := ccOf s (bellDue s).toNat - tbCc s
  let cc := ccOf s (bellDue s).toNat
  let strE := if was = .loose then s.job.ownReq else s.job.stretched
  let s1 := s.modJob fun j => { j with bell := j.bell + 1 }
  let t1 : State := match was with
    | .strict => bellState cc len s1
    | _ => bellState cc len (s1.modJob fun j => { j with tb := bellDue s })
  let t2 := stretchBell (t1.modJob fun j => { j with tb := bellDue s, hkPc := [], slot := 0, late := false })
  calPeriod (if (was = .strict ∨ was = .loose) ∧ (t2.job.st = .strict ∨ t2.job.st = .loose) then ce5Bell pm px strE t2 else t2)

/-- PERIOD_BELL: at T0 the job starts; afterwards the Bell ends a period and starts the next (R51, R70). -/
def periodBell (pm px : Nat) (s : State) : State :=
  if !imageLoaded s || !reached s.tm.ft (bellDue s) then s
  else if s.job.gridOn then nextBell pm px s
  else match s.job.startReq with
    | some (loose, ref) => firstBell loose ref s
    | none => s

/-- PERIOD_BELL (R51). -/
def execPeriodBell (pm px : Nat) (s : State) : Host.Outcome State Fault Refusal :=
  if litUp s && decide (s.pwr.ps = .running) then .next (periodBell pm px s) else .next s

/-! ### Load and unload (R42, R69, R70) -/

/-- The tables of a load: tile store zero, contexts, sync objects, stations (R42). -/
def loadTables (i : Image) (s : State) : State :=
  { s with
    ts := {}
    strm := { ctx := i.ctxs.foldl (fun t e => tset {} t e.1.toNat e.2) [] }
    sync := i.syncs.foldl (fun t e => tset {} t e.1.toNat e.2) []
    stn := { expmax := s.stn.expmax, hx := s.stn.hx.map fun e => (e.1, { halted := e.2.halted }) } }

/-- The sync objects of the image, their starting counts judged like any other (R37, R41; log entry 68, DEDUCED). -/
def presetNotify (i : Image) (s : State) : State := i.syncs.foldl (fun t e => syncNotify e.1 t) s

/-- The sub-channels' command timing starts afresh. -/
def resetTiming (s : State) : State :=
  s.modMem fun m => { m with sub := m.sub.filterMap fun e => if ({ e.2 with t := {} } : SubCh) = {} then none else some (e.1, { e.2 with t := {} }) }

/-- POWER_PROFILE_OVER_CAP for each phase above the host's cap (R69, R74). -/
def overCap (i : Image) (s : State) : State :=
  (number i.phases).foldl (fun t p =>
    if 2 * s.pwr.capW.toNat < p.2.total then raise evPowerProfileOverCap srcSv (le 1 p.1 ++ leSat 2 (ceilDiv p.2.total 2) ++ le 2 s.pwr.capW.toNat) t else t) s

/-- A job load that passes every check (R42, R69, R70, R380). -/
def loadJob (i : Image) (number seed key : BitVec 64) (ref : PktRef) (s : State) : State :=
  let s1 := resetTiming (presetNotify i (loadTables i (mergeFlush {} s)))
  let s2 := mrExtend 4 5 i.digest ((s1.modMem fun m => { m with ikey := key }).modJob fun _ => { st := .loaded, number := number, seed := seed, image := some i, loadPkt := some ref })
  let s3 := raise evJobLoaded srcSv (le 8 number.toNat ++ le 16 i.digest.toNat) s2
  let s4 := roteLoadJob i (overCap i s3)
  replyPending ref (s4.modPwr fun p => { p with target := some .running, targetPkt := none, stageMs := s.sc })

/-- A load that a check refuses: LOAD_REFUSED, and nothing changes (R69, R74). -/
def refuseLoad (st : Nat) (f : LoadFail) (ref : PktRef) (s : State) : State :=
  reply ref st (le 2 f.stn ++ le 2 f.idx) (raise evLoadRefused srcSv (le 2 st ++ le 2 f.stn ++ le 2 f.idx) s)

/-- JOB_LOAD as it begins (R69, R114, R394). -/
def jobLoadBody (number seed key : BitVec 64) (image : Bytes) (ref : PktRef) (s : State) : State :=
  if decide (s.pwr.ps ≠ .lit) || s.pwr.target.isSome || s.boot.starting || imageLoaded s || s.pins.thermtrip then reply ref stStateInvalid [] s
  else match loadCheck s image with
    | some (st, f) => refuseLoad st f ref s
    | none => loadJob { readImage image with digest := digest image } number seed key ref s

/-- JOB_LOAD (R69). `image` is what the module fetches from host memory. -/
def execJobLoad (p : Pkt) (addr : BitVec 64) (len : BitVec 32) (number seed key : BitVec 64) (image : Bytes) (s : State) : Host.Outcome State Fault Refusal :=
  .next (runPkt p 0x0204 (le 8 addr.toNat ++ le 4 len.toNat ++ le 8 number.toNat ++ le 8 seed.toNat ++ le 8 key.toNat) (keyOk key.toNat)
    (jobLoadBody number seed key (image.take len.toNat)) s)

/-- The packets that wait for a job that goes away are answered CANCELLED (R14). -/
def cancelWaiting (s : State) : State :=
  let s1 := s.job.holds.foldl (fun t h => reply h.2.2.2 stCancelled [] t) s
  match s.job.startReq with
  | some (_, r) => reply r stCancelled [] s1
  | none => s1

/-- JOB_UNLOAD: the job is gone, the merge buffers are written, held remaps apply, the MMs refresh by themselves, and the
module goes to Lit (R70, R127, R128, R135, R380, R391). -/
def jobUnloadBody (ref : PktRef) (s : State) : State :=
  if (s.job.st = .loaded ∨ s.job.st = .held ∨ s.job.st = .complete) ∧ s.pwr.target = none then
    let s1 := raise evJobUnloaded srcSv (le 8 s.job.number.toNat) (cancelWaiting s)
    let s2 := s1.modJob fun j => { number := j.number, unloadPkt := some ref }
    let s3 := (s2.modStn fun t => { expmax := t.expmax, hx := t.hx.map fun e => (e.1, { halted := e.2.halted }) }).modStrm fun x => { x with sums := [] }
    let s4 := (List.range 64).foldl issueDue ((remapDeferred (mergeFlush {} s3)).modMem fun m => { m with idleRef := true })
    (s4.modSw fun w => { w with allotW := 80 }).modPwr fun p => { p with target := some .lit, targetPkt := none, stageMs := s.sc }
  else reply ref stStateInvalid [] s

/-- JOB_UNLOAD (R70). -/
def execJobUnload (p : Pkt) (s : State) : Host.Outcome State Fault Refusal := .next (runPkt p 0x0208 [] true jobUnloadBody s)

/-! ### Start, hold and resume (R51, R70, R71) -/

/-- JOB_START (R51): T0 on a 50 ns boundary and at least 1 ms ahead. -/
def jobStartBody (loose : Bool) (t0 : BitVec 64) (ref : PktRef) (s : State) : State :=
  if s.job.st ≠ .loaded ∨ s.job.startReq.isSome ∨ s.pwr.ps ≠ .running ∨ s.pwr.target.isSome then reply ref stStateInvalid [] s
  else if !s.tm.valid then reply ref stTimeNotValid [] s
  else if t0.toNat % 3200 ≠ 0 ∨ reached (s.tm.ft + 63999999) t0 then reply ref stParamInvalid [] s
  else replyPending ref (s.modJob fun j => { j with t0 := t0, startReq := some (loose, ref) })

/-- JOB_START in mode 0 (R51). -/
def execJobStartStrict (p : Pkt) (t0 : BitVec 64) (s : State) : Host.Outcome State Fault Refusal :=
  .next (runPkt p 0x0205 (le 8 t0.toNat ++ le 1 0) true (jobStartBody false t0) s)

/-- JOB_START in mode 1 (R51). -/
def execJobStartLoose (p : Pkt) (t0 : BitVec 64) (s : State) : Host.Outcome State Fault Refusal :=
  .next (runPkt p 0x0205 (le 8 t0.toNat ++ le 1 1) true (jobStartBody true t0) s)

/-- A hold is accepted: it names a work period or a Bell count; one that has passed acts at the next boundary, and its reply
will say so (R70, R71). -/
def acceptHold (period : Bool) (v : Nat) (passed : Bool) (ref : PktRef) (s : State) : State :=
  looseCheck (replyPending ref (s.modJob fun j => { j with holds := j.holds ++ [(period, v, passed, ref)] }))

/-- The Bell count at T_r of the strict resume in force (R70). -/
def resumeBell (s : State) (tr : BitVec 64) : Nat := s.job.bell + (tr - s.job.tb).toNat / max 1 (periodLen s)

/-- JOB_HOLD (R70, R71). -/
def jobHoldBody (period : Bool) (v : BitVec 64) (ref : PktRef) (s : State) : State :=
  let n := v.toNat
  match s.job.st with
  | .strict => acceptHold period n (if period then decide (n < s.job.wper) else decide (n ≤ s.job.bell)) ref s
  | .loose => if period then acceptHold true (max n (maxPeriod s)) (decide (n < maxPeriod s)) ref s else reply ref stStateInvalid [] s
  | .catchup =>
    match s.job.resumeReq with
    | some (tr, w) =>
      if (if period then decide (w < n) else decide (resumeBell s tr ≤ n)) then acceptHold period n false ref s else reply ref stStateInvalid [] s
    | none => reply ref stStateInvalid [] s
  | _ => reply ref stStateInvalid [] s

/-- JOB_HOLD of a Bell count (R70). -/
def execJobHoldBell (p : Pkt) (v : BitVec 64) (s : State) : Host.Outcome State Fault Refusal :=
  .next (runPkt p 0x0206 (le 1 0 ++ le 8 v.toNat) true (jobHoldBody false v) s)

/-- JOB_HOLD of a work period (R70). -/
def execJobHoldPeriod (p : Pkt) (v : BitVec 64) (s : State) : Host.Outcome State Fault Refusal :=
  .next (runPkt p 0x0206 (le 1 1 ++ le 8 v.toNat) true (jobHoldBody true v) s)

/-- A job that is HELD and may be resumed (R61, R70, R394). -/
def canResume (s : State) : Bool := decide (s.job.st = .held) && !s.job.noResume && !s.job.tripped && decide (s.pwr.ps = .running)

/-- JOB_RESUMED, and the stations go on in program order (R70). -/
def resumed (strict : Bool) (tr w : BitVec 64) (ref : PktRef) (s : State) : State :=
  enterLoose (reply ref 0 [] (raise evJobResumed srcSv (le 1 (b2n (!strict)) ++ le 8 tr.toNat ++ le 8 w.toNat)
    (s.modJob fun j => { j with st := if strict then .catchup else .loose, resumeReq := if strict then some (tr, w.toNat) else none })))

/-- A strict resume names a Bell instant of the running grid at least 1 ms ahead, and a W not below the started work
period (R70). -/
def jobResumeStrictBody (tr w : BitVec 64) (ref : PktRef) (s : State) : State :=
  if !canResume s then reply ref stStateInvalid [] s
  else if !s.tm.valid then reply ref stTimeNotValid [] s
  else if (tr - s.job.tb).toNat % max 1 (periodLen s) ≠ 0 ∨ reached (s.tm.ft + 63999999) tr ∨ w.toNat < s.job.wper then reply ref stParamInvalid [] s
  else resumed true tr w ref s

/-- JOB_RESUME in mode 0 (R70). -/
def execJobResumeStrict (p : Pkt) (tr w : BitVec 64) (s : State) : Host.Outcome State Fault Refusal :=
  .next (runPkt p 0x0207 (le 1 0 ++ le 8 tr.toNat ++ le 8 w.toNat) true (jobResumeStrictBody tr w) s)

/-- JOB_RESUME in mode 1 (R70). -/
def execJobResumeLoose (p : Pkt) (tr w : BitVec 64) (s : State) : Host.Outcome State Fault Refusal :=
  .next (runPkt p 0x0207 (le 1 1 ++ le 8 tr.toNat ++ le 8 w.toNat) true
    (fun ref t => if canResume t then looseCheck (resumed false tr w ref t) else reply ref stStateInvalid [] t) s)

/-! ### Status, traps, sync objects, contexts (R37, R38, R41, R355) -/

/-- JOB_STATUS (R355). -/
def execJobStatus (p : Pkt) (s : State) : Host.Outcome State Fault Refusal :=
  .next (runPkt p 0x0209 [] true (fun ref t =>
    reply ref 0 (le 1 (jobCode t.job.st) ++ le 1 t.job.reasons.toNat ++ le 1 (b2n t.job.stretched) ++ le 8 t.job.bell ++ le 8 t.job.wper) t) s)

/-- TRAP_READ: the trap record of a station that has stopped at one (R61, R355). -/
def execTrapRead (p : Pkt) (stn : BitVec 16) (buf : Buf) (s : State) : Host.Outcome State Fault Refusal :=
  .next (runPkt p 0x020A (le 2 stn.toNat ++ buf.bytes) (stnValid stn) (fun ref t => match (stnOf t stn).trap with
    | some r => replyBuf ref buf (le 40 (trapBits r)) [] t
    | none => reply ref stStateInvalid [] t) s)

/-- The compute dies can be reached: Lit or above. -/
def onDies (f : PktRef → State → State) (ref : PktRef) (s : State) : State := if litUp s then f ref s else reply ref stStateInvalid [] s

/-- SYNC_SIGNAL: n from 1 (R38). -/
def execSyncSignal (p : Pkt) (obj n : BitVec 16) (s : State) : Host.Outcome State Fault Refusal :=
  .next (runPkt p 0x020B (le 2 obj.toNat ++ le 2 n.toNat) (decide (1 ≤ n.toNat))
    (onDies fun ref t =>
      let t1 := syncAdd obj n.toNat srcSv t
      reply ref 0 (le 4 (syncOf t1 obj).count.toNat) t1) s)

/-- SYNC_ARM: the condition is evaluated when the write takes effect (R41). -/
def execSyncArm (p : Pkt) (obj thresh : BitVec 16) (vec : BitVec 8) (s : State) : Host.Outcome State Fault Refusal :=
  .next (runPkt p 0x020C (le 2 obj.toNat ++ le 2 thresh.toNat ++ le 1 vec.toNat) (decide (vec.toNat < 64))
    (onDies fun ref t =>
      reply ref 0 [] (syncNotify obj (modSyncObj obj (fun o => { o with notify := true, thresh := thresh, vector := BitVec.ofNat 6 vec.toNat }) t))) s)

/-- SYNC_READ (R37). -/
def execSyncRead (p : Pkt) (obj : BitVec 16) (s : State) : Host.Outcome State Fault Refusal :=
  .next (runPkt p 0x020D (le 2 obj.toNat) true (onDies fun ref t => reply ref 0 (le 8 (syncOf t obj).bits) t) s)

/-- SYNC_RESET: only while the job is Held or unloaded (R38). -/
def execSyncReset (p : Pkt) (obj : BitVec 16) (s : State) : Host.Outcome State Fault Refusal :=
  .next (runPkt p 0x020E (le 2 obj.toNat) true
    (onDies fun ref t =>
      if t.job.st = .held ∨ t.job.st = .noJob then reply ref 0 [] (modSyncObj obj (fun o => { o with count := 0, sat := false }) t)
      else reply ref stStateInvalid [] t) s)

/-- CONTEXT_READ: 64 bytes for each context from the first on (R32, R355). -/
def execContextRead (p : Pkt) (first count : BitVec 32) (buf : Buf) (s : State) : Host.Outcome State Fault Refusal :=
  .next (runPkt p 0x020F (le 4 first.toNat ++ le 4 count.toNat ++ buf.bytes) (decide (1 ≤ count.toNat) && decide (first.toNat + count.toNat ≤ 2 ^ 20))
    (onDies fun ref t =>
      if buf.len.toNat < 64 * count.toNat then reply ref stBufferShort (le 4 (64 * count.toNat)) t
      else replyBuf ref buf (((List.range count.toNat).map fun i => le 64 (ctxOf t (BitVec.ofNat 20 (first.toNat + i))).bits).flatten) [] t) s)

end Sys2Proof.Machine
end

