-- ==== Sys2Proof/Machine/Light.lean ====
section
/-!
DEFINITION. Lanes and physical links: lane records and announcements (R153 to R158), links that enter and leave service
(R190, R219), the rotating spare's relief of a lane (R159 to R163) and the narrowing of a link (R162).
-/

namespace Sys2Proof.Machine

/-! ### Lanes -/

/-- The number of a lane: 33 × fibre + lane. -/
def laneKey (f k : Nat) : Nat := f * 33 + k

/-- The record of a lane. -/
def laneOf (s : State) (f k : Nat) : Lane := tget {} s.opt.lanes (laneKey f k)

/-- Change the record of a lane; the lane number 0x3F of a faceplate port has none (R172). -/
def modLane (f k : Nat) (g : Lane → Lane) (s : State) : State :=
  if k < 33 then s.modOpt fun o => { o with lanes := tmod {} o.lanes (laneKey f k) g } else s

/-- Change the records of several lanes of a fibre. -/
def modLanes (f : Nat) (ks : List Nat) (g : Lane → Lane) (s : State) : State := ks.foldl (fun t k => modLane f k g t) s

/-- The fibre's spare (R158). -/
def spareOf (s : State) (f : Nat) : Option Nat := (List.range 33).find? fun k => (laneOf s f k).spare

/-- The fibre has no spare, nor one announced (R154, R158). -/
def noSpare (s : State) (f : Nat) : Bool := (spareOf s f).isNone && !(s.opt.announce.any fun a => decide (a.fibre = f) && decide (a.role = .spare))

/-- A slot table is in force: an image that has one is loaded (R202). -/
def slotMode (s : State) : Bool := ((s.job.image.map fun i => i.slots.isSome)).getD false

/-- A fibre of the fast plane (R201). -/
def fastFibre (f : Nat) : Bool := decide (12 ≤ f)

/-- The fibre's lanes are fixed: the fast plane in slot mode, where no spare relieves (R205). -/
def fixedLanes (s : State) (f : Nat) : Bool := fastFibre f && slotMode s

/-- The calibration of a fibre. -/
def rotOf (s : State) (f : Nat) : Rotation := tget {} s.cal.rot f

/-- Change the calibration of a fibre. -/
def modRot (f : Nat) (g : Rotation → Rotation) (s : State) : State := s.modCal fun c => { c with rot := tmod {} c.rot f g }

/-- The link on which a lane transmits. -/
def txLinkOf (s : State) (f k : Nat) : Option PhysLink := s.opt.links.find? fun l => l.tx && decide (l.fibre = f) && decide (k ∈ l.lanes)

/-- The link on which a lane is received. -/
def rxLinkOf (s : State) (f k : Nat) : Option PhysLink := s.opt.links.find? fun l => !l.tx && decide (l.fibre = f) && decide (k ∈ l.lanes)

/-- The position of a lane in a link. -/
def posIn (l : PhysLink) (k : Nat) : Nat := ((findIdx? (fun x => decide (x = k)) l.lanes 0).map (·.1)).getD 0

/-- The number of a link end's link. -/
def PhysLink.key (l : PhysLink) : Nat := linkKey l.fibre l.link.toNat

/-- The module at the other end of a link, for messages to it: the fibre's neighbour for a home link. -/
def PhysLink.far (l : PhysLink) (s : State) : BitVec 12 := if l.tag = 0 ∧ (fibreOf s (l.fibre / 4 * 4)).mode ≠ .xn5 then (fibreOf s l.fibre).rxModule else l.peer

/-- Change one link end. -/
def modLink (l : PhysLink) (g : PhysLink → PhysLink) (s : State) : State := modLinks (isLink l.fibre l.link.toNat l.tx) g s

/-! ### Announcements (R153, R154) -/

/-- `FH.ROLE` of a role (R153). -/
def LaneRole.code : LaneRole → Nat
  | .inService => 0 | .spare => 1 | .bridged => 2 | .calibrating => 3 | .unassigned => 4

/-- Announce a change of a lane: it applies three superframe boundaries on, so that every frame of two whole superframes has
announced it (R154). A newer announcement of the lane takes the place of an older one. The command goes to the fibre's photonic engine
(R13). -/
def announce (f k : Nat) (role : LaneRole) (link : BitVec 6) (pos width : Nat) (s : State) : State :=
  gateIssue (f / 4) 4 [f, k, role.code, link.toNat, pos, width] <| s.modOpt fun o =>
    { o with announce := (o.announce.filter fun a => !(decide (a.fibre = f) && decide (a.lane = k))) ++
        [{ fibre := f, lane := k, role := role, link := link, pos := BitVec.ofNat 5 pos, width := width, sfc := (fibreOf s f).sfc + 3 }] }

/-- Announce a lane's role with the link and position it has. -/
def announceRole (f k : Nat) (role : LaneRole) (s : State) : State :=
  announce f k role (laneOf s f k).link (laneOf s f k).pos.toNat (((txLinkOf s f k).map fun l => l.lanes.length).getD 1) s

/-- The lanes of a fibre that carry positions of a link, in order of position. -/
def lanesOfLink (s : State) (f : Nat) (link : BitVec 6) : List Nat :=
  (((List.range 32).map fun p => (List.range 33).find? fun k =>
    (laneOf s f k).inService && decide ((laneOf s f k).link = link) && decide ((laneOf s f k).pos.toNat = p)).filterMap id)

/-- What is announced of a lane. -/
def announced (s : State) (f k : Nat) : Option Announce := s.opt.announce.find? fun a => decide (a.fibre = f) && decide (a.lane = k)

/-- A lane carries a position of a link once what is announced has applied. -/
def nextAt (s : State) (f : Nat) (link : BitVec 6) (p k : Nat) : Bool :=
  match announced s f k with
  | some a => decide (a.role = .inService) && decide (a.link = link) && decide (a.pos.toNat = p)
  | none => (laneOf s f k).inService && decide ((laneOf s f k).link = link) && decide ((laneOf s f k).pos.toNat = p)

/-- The lanes of a link in order of position once what is announced has applied (R162). -/
def nextLanes (s : State) (f : Nat) (link : BitVec 6) : List Nat := ((List.range 32).map fun p => (List.range 33).find? (nextAt s f link p)).filterMap id

/-- Take back what is announced of a lane. -/
def unannounce (f k : Nat) (s : State) : State :=
  s.modOpt fun o => { o with announce := o.announce.filter fun a => !(decide (a.fibre = f) && decide (a.lane = k)) }

/-- Apply one announced change to the lane's record (R154, R158); a lane that has failed takes no role, but keeps a position that it
still has (R161, R162). -/
def applyAnnounce (a : Announce) (s : State) : State :=
  modLane a.fibre a.lane (fun l =>
    if l.failed then (if l.inService && decide (a.role = .inService) then { l with link := a.link, pos := a.pos }
      else { l with role := .unassigned, inService := false, spare := false, cal := false }) else
    { l with role := a.role, link := a.link, pos := a.pos, inService := decide (a.role = .inService), spare := decide (a.role = .spare),
             cal := decide (a.role = .calibrating) }) s

/-! ### Links that enter and leave service (R190, R219) -/

/-- The lanes of a fibre may send: it is not in automatic power reduction (R165). -/
def mayLight (s : State) (f : Nat) : Bool := !(fibreOf s f).apr

/-- The FEC mode of a link end is Light: the profile's for its logical link; a home link and the links of XN5 compatibility mode have Full
(R146, R167, R181). -/
def lightLink (s : State) (l : PhysLink) : Bool :=
  decide (l.tag ≠ 0) && decide (modeOf s l.fibre = .native) && tget false s.opt.fec (nameOf s l.fibre l.link.toNat l.tx)

/-- A link end leaves service: its lanes carry no position, and a transmit end's forwards place no cell (R219). -/
def leaveService (l : PhysLink) (s : State) : State :=
  let s1 := modLink l (fun x => { x with inService := false, locked := false, verified := none, queue := [] }) s
  if l.tx then
    let s2 := modLanes l.fibre l.lanes (fun x => { x with inService := false, role := .unassigned }) s1
    if l.inService then linkLeave (nameOf s l.fibre l.link.toNat true) s2 else s2
  else s1

/-- Every link end that passes a test leaves service. -/
def dropLinks (p : PhysLink → Bool) (s : State) : State := (s.opt.links.filter p).foldl (fun t l => leaveService l t) s

/-- A link end enters service: role 0, and the counts of its service cells start at 0 (R150, R190, R219); the lanes of a receive end are
FEC-locked (R158, R190). -/
def enterService (err : ReadErr) (l : PhysLink) (s : State) : State :=
  let s1 := modLink l (fun x => { x with inService := true, svcSeq := 0, svcNo := 0, svcAt := s.tm.ft, freeSlot := 0, queue := [] }) s
  if l.tx then
    linkReenter err (nameOf s1 l.fibre l.link.toNat true) (modLanes l.fibre l.lanes (fun x => { x with inService := true, role := .inService, txOn := mayLight s l.fibre }) s1)
  else modLanes l.fibre l.lanes (fun x => { x with fecLock := true }) s1

/-- The lanes of a new transmit end get their positions in ascending line order and its tag; they are sent in role 4 until
the link is in service (R155, R190). -/
def assignLanes (l : PhysLink) (s : State) : State :=
  ((List.range l.lanes.length).zip l.lanes).foldl (fun t q =>
    modLane l.fibre q.2 (fun x => { x with role := .unassigned, spare := false, subst := false, substFor := 0, cal := false, inService := false, link := l.link,
                                           pos := BitVec.ofNat 5 q.1, tag := l.tag, txOn := mayLight s l.fibre }) t) s

/-- Put a link end into the table, out of service. -/
def addLink (l : PhysLink) (s : State) : State :=
  let s1 := s.modOpt fun o => { o with links := o.links ++ [l] }
  if l.tx then assignLanes l s1 else s1

/-- Take a link end out of the table. -/
def removeLink (l : PhysLink) (s : State) : State :=
  (leaveService l s).modOpt fun o => { o with links := o.links.filter fun x => !isLink l.fibre l.link.toNat l.tx x }

/-! ### Home links (R181) -/

/-- The lanes of a home link: the fibre's 32 lanes that are neither its spare nor failed (R181). -/
def homeLanes (s : State) (f : Nat) : List Nat :=
  let ok := (List.range 33).filter fun k => !(laneOf s f k).failed
  if ok.length < 33 then ok else ok.filter fun k => decide (k ≠ (spareOf s f).getD 32)

/-- The home link of a fibre, one direction (R181). -/
def homeLink (s : State) (f : Nat) (tx : Bool) : PhysLink := { fibre := f, link := 0, tx := tx, lanes := homeLanes s f, tag := 0 }

/-- The lane that no home link takes becomes the fibre's spare (R158). -/
def homeSpare (f : Nat) (s : State) : State :=
  let out := (List.range 33).filter fun k => !(laneOf s f k).failed && !decide (k ∈ homeLanes s f)
  modLanes f out (fun x => { x with spare := true, role := .spare, cal := false, inService := false, subst := false, txOn := mayLight s f }) s

/-- The fibre carries its home link alone: link 0 in both directions (R181). -/
def homeFibre (f : Nat) (s : State) : State :=
  let s1 := (s.opt.links.filter fun l => decide (l.fibre = f)).foldl (fun t l => removeLink l t) s
  homeSpare f (addLink (homeLink s1 f false) (addLink (homeLink s1 f true) s1))

/-! ### Abandoning a relief or a lane step (R163, R301) -/

/-- The relief in progress on a fibre. -/
def reliefOn (s : State) (f : Nat) : Option Relief := s.opt.reliefs.find? fun r => decide (r.fibre = f)

/-- End the relief on a fibre. -/
def dropRelief (f : Nat) (s : State) : State := s.modOpt fun o => { o with reliefs := o.reliefs.filter fun r => decide (r.fibre ≠ f) }

/-- Change the relief on a fibre. -/
def modRelief (f : Nat) (g : Relief → Relief) (s : State) : State :=
  s.modOpt fun o => { o with reliefs := o.reliefs.map fun r => if r.fibre = f then g r else r }

/-- The spare is spare again: at once while it has announced nothing, else by announcement (R154, R160). -/
def spareBack (f k : Nat) (s : State) : State :=
  let s1 := unannounce f k s
  if (laneOf s1 f k).role = .spare then s1 else announceRole f k .spare s1

/-- The lane that carries the position which a calibrating lane left (R160). -/
def substOf (s : State) (f x : Nat) : Option Nat :=
  (List.range 33).find? fun k => (laneOf s f k).inService && (laneOf s f k).subst && decide ((laneOf s f k).substFor.toNat = x)

/-- A calibrating lane returns to its position at the next announceable superframe, and its substitute becomes the spare
again (R163). -/
def laneReturns (f x : Nat) (s : State) : State :=
  match substOf s f x with
  | none => s
  | some k =>
    let l := laneOf s f k
    let w := ((txLinkOf s f k).map fun y => y.lanes.length).getD 1
    announceRole f k .spare (announce f x .inService l.link l.pos.toNat w s)

/-- CAL_STEP_ABANDONED with its cause: 1 plan or path, 2 lane failure, 3 K4, 4 warm start, 5 POWER_FAIL (R301, R459). -/
def stepAbandoned (f x cause : Nat) (s : State) : State := raise evCalStepAbandoned (srcFibre f) (le 1 f ++ le 1 x ++ le 1 cause) s

/-- Abandon a relief that has not rolled: the bridge or retarget ends, and a roll that was announced is taken back, so that the lane keeps
its position (R163). -/
def abandonRelief (f : Nat) (s : State) : State :=
  match reliefOn s f with
  | none => s
  | some r => replyOpt r.pkt stAbandoned [] (spareBack f r.spare (unannounce f r.lane (dropRelief f s)))

/-- Abandon the lane step on a fibre, the relief that begins it included; the lane keeps its old values and returns to its
position where `back` says so; the rotation goes on with the next lane, or with the same lane after a warm start (R163,
R301). -/
def abandonStep (f cause : Nat) (back : Bool) (s : State) : State :=
  match (rotOf s f).step with
  | none => abandonRelief f s
  | some st =>
    let s1 := abandonRelief f s
    let s2 := if st.rolled && back then laneReturns f st.lane s1 else s1
    let s3 := modRot f (fun r => { r with step := none, line := if cause = 4 then (st.lane + 32) % 33 else st.lane }) s2
    replyOpt st.pkt stAbandoned [] (stepAbandoned f st.lane cause s3)

/-! ### Relief of a lane (R159, R160) -/

/-- The spare's line is free on every outgoing fibre along a lane's light path: here, that no express crosspoint feeds it;
in the modules that the path crosses, a free value (R159). -/
def lineFree (s : State) (f k : Nat) (l : PhysLink) : Bool × State :=
  let here := !(s.sw.xps.any fun x => decide (x.line = k) && decide (x.out = f) && decide (x.inp < 16))
  if l.tag = 0 ∨ l.hops = 0 then (here, s) else (here && (freeVal 1 s).getLsbD 0, useFree s)

/-- SPARE_BLOCKED with its cause: 1 line not free, 2 no lane-ready (R159, R160). -/
def spareBlocked (f x cause : Nat) (s : State) : State := raise evSpareBlocked (srcFibre f) (le 1 f ++ le 1 x ++ le 1 cause) s

/-- Begin the relief of a lane: step 1, the retarget of the spare's line (R160, R161). -/
def beginRelief (f k x : Nat) (l : PhysLink) (fail : Bool) (pkt : Option PktRef) (s : State) : State :=
  s.modOpt fun o => { o with reliefs := o.reliefs ++ [{ fibre := f, spare := k, lane := x, link := l.link, pos := BitVec.ofNat 5 (posIn l x), forFail := fail, step := 1, pkt := pkt }] }

/-! ### Narrowing (R162) -/

/-- The link loses a lane's position: announced at the first superframe that can be, with the positions counted as they are announced
already; LINK_WIDTH_REDUCED now (R154, R162). -/
def narrow (f x : Nat) (l : PhysLink) (s : State) : State :=
  let now := nextLanes s f l.link
  let left := now.filter fun k => decide (k ≠ x)
  let p := (now.takeWhile fun k => decide (k ≠ x)).length
  let s1 := ((List.range left.length).zip left).foldl (fun t q => announce f q.2 .inService l.link q.1 left.length t) s
  let s2 := (l.lanes.filter fun k => !decide (k ∈ left)).foldl (fun t k => announce f k .unassigned l.link 0 1 t) s1
  let s3 := s2.modOpt fun o =>
    { o with degraded := tset 0 o.degraded l.key left.length,
             reliefs := o.reliefs.map fun r => if r.fibre = f ∧ r.link = l.link ∧ r.lane ∈ left then { r with pos := BitVec.ofNat 5 (left.takeWhile fun k => decide (k ≠ r.lane)).length } else r }
  raise evLinkWidthReduced (srcFibre f) (le 1 f ++ le 1 l.link.toNat ++ le 1 left.length ++ le 1 p) s3

/-- The link in service on which a lane transmits is narrowed by it, where an accepted Prefect can (R162, R304); answers the link. -/
def narrowed (f x : Nat) (s : State) : Option PhysLink × State :=
  match txLinkOf s f x with
  | some l => if l.inService && ceReach s 0 then (some l, narrow f x l s) else (none, s)
  | none => (none, s)

/-- A failed lane of a link is relieved by a spare directly, or the link loses its position (R161, R162); answers the link that was
narrowed. -/
def relieveFailed (f x : Nat) (sp : Option Nat) (l : PhysLink) (s : State) : Option PhysLink × State :=
  if fixedLanes s f then (some l, narrow f x l s)
  else match sp with
    | none => (some l, narrow f x l s)
    | some k =>
      let c := lineFree s f k l
      if c.1 then (none, beginRelief f k x l true none c.2) else (some l, narrow f x l c.2)

/-- Mark a lane failed: it is no spare and in no calibration (R158, R161). -/
def markFailed (f x : Nat) (s : State) : State :=
  modLane f x (fun l => { l with failed := true, spare := false, cal := false, fecLock := false }) s

/-- A lane fails while the spare relieves no failed lane: a lane step on the fibre is abandoned, and once its lane is back the spare
relieves the failed lane; without a spare, or where its line is not free, the link narrows (R161 to R163). -/
def failAlone (f x : Nat) (s : State) : Option PhysLink × State :=
  let step := (rotOf s f).step
  let sp := ((spareOf s f).or ((reliefOn s f).map fun r => r.spare)).filter fun k => decide (k ≠ x)
  let s1 := markFailed f x (abandonStep f 2 (decide (step.map (·.lane) ≠ some x)) s)
  match txLinkOf s1 f x with
  | none => (none, s1)
  | some l =>
    if !l.inService || !ceReach s1 0 then (none, s1)
    else match step with
      | some st =>
        if st.rolled then
          -- the substitute itself failed: the calibrating lane takes its position back and nothing more is lost
          if substOf s f st.lane = some x then (none, s1)
          else (none, s1.modOpt fun o => { o with reliefs := o.reliefs ++ [{ fibre := f, spare := (substOf s f st.lane).getD 0, lane := x, link := l.link, pos := BitVec.ofNat 5 (posIn l x), forFail := true, step := 0 }] })
        else relieveFailed f x sp l s1
      | none => relieveFailed f x sp l s1

/-- A lane is on its way back from calibration to its position, which its substitute still carries. -/
def returning (s : State) (f x : Nat) : Bool := (substOf s f x).isSome && ((announced s f x).map fun a => decide (a.role = .inService)).getD false

/-- A lane fails while the spare is taken by an earlier failure (R161, R162): where it is the spare, or the lane whose return the spare
waits for, the earlier lane's link narrows; else its own link. -/
def failDuring (r : Relief) (f x : Nat) (s : State) : Option PhysLink × State :=
  let s1 := markFailed f x s
  if r.step = 0 ∧ returning s f x = true then
    narrowed f r.lane (dropRelief f (unannounce f ((substOf s f x).getD 33) (unannounce f x s1)))
  else if r.spare = x then narrowed f r.lane (abandonRelief f s1)
  else narrowed f x s1

/-- A transmitted lane has failed (R161 to R163). Answers the link that was narrowed. In XN5 compatibility mode there is no spare, and the
line's link of width 1 leaves service (R167). -/
def laneFails (f x : Nat) (s : State) : Option PhysLink × State :=
  if (laneOf s f x).failed then (none, s)
  else if modeOf s f = .xn5 then (none, (s.opt.links.filter fun l => decide (l.fibre = f) && decide (x ∈ l.lanes)).foldl (fun t l => removeLink l t) (markFailed f x s))
  else match (reliefOn s f).filter fun r => r.forFail with
    | some r => failDuring r f x s
    | none => failAlone f x s

/-! ### Superframe boundaries: the transmit side (R154, R160) -/

/-- Rebuild a transmit end's lanes from the lane records after announced changes; its width may have fallen (R155, R162).
Where it did, the link leaves and re-enters service (R219). -/
def rebuildLink (err : ReadErr) (s : State) (l : PhysLink) : State :=
  let ls := lanesOfLink s l.fibre l.link
  if !l.tx || !l.inService || decide (ls = l.lanes) then s
  else if ls.isEmpty then modLink l (fun x => { x with inService := false, lanes := [] }) (linkLeave (nameOf s l.fibre l.link.toNat true) s)
  else
    let s1 := modLink l (fun x => { x with lanes := ls }) s
    if ls.length = l.lanes.length then s1
    else
      let n := nameOf s l.fibre l.link.toNat true
      linkReenter err n (linkLeave n s1)

/-- A relief whose spare has just taken its position: the lane that it relieved is in calibration or out, and the packet that
forced it is answered; the lane step begins at this superframe (R160, R281, R355). -/
def rolled (f : Nat) (s : State) : State :=
  match reliefOn s f with
  | none => s
  | some r =>
    if r.step = 4 && (laneOf s f r.spare).inService then
      let s1 := modLane f r.spare (fun x => { x with subst := true, substFor := BitVec.ofNat 6 r.lane }) (dropRelief f s)
      if r.forFail then modLane f r.lane (fun x => { x with inService := false, role := .unassigned }) s1
      else
        let st := (rotOf s f).step
        modRot f (fun x => { x with step := some { (st.getD ({ lane := r.lane } : LaneStep)) with rolled := true, s0 := (fibreOf s f).sfc } }) (replyOpt r.pkt 0 [] s1)
    else s

/-- A relief of a failed lane that waited for the spare begins, or the link narrows; answers the link that was narrowed (R159, R163). -/
def waitingRelief (f : Nat) (s : State) : Option PhysLink × State :=
  match reliefOn s f with
  | none => (none, s)
  | some r =>
    if r.step = 0 && (laneOf s f r.spare).spare then
      match txLinkOf s f r.lane with
      | none => (none, dropRelief f s)
      | some l =>
        let c := lineFree s f r.spare l
        if c.1 then (none, modRelief f (fun x => { x with step := 1 }) c.2) else narrowed f r.lane (dropRelief f c.2)
    else (none, s)

/-- A line of XN5 compatibility mode whose role 0 has been announced is in service (R154, R167). -/
def linesEnter (err : ReadErr) (f : Nat) (s : State) : State :=
  (s.opt.links.filter fun l => l.tx && decide (l.fibre = f) && !l.inService && decide (modeOf s f = .xn5) && l.lanes.all fun k => (laneOf s f k).inService).foldl
    (fun t l => enterService err l t) s

/-- The announced changes of a fibre whose superframe has come apply (R154). -/
def applyDue (err : ReadErr) (f : Nat) (s : State) : State :=
  let due := s.opt.announce.filter fun a => decide (a.fibre = f) && decide (a.sfc = (fibreOf s f).sfc)
  if due.isEmpty then s
  else
    let s1 := due.foldl (fun t a => applyAnnounce a t) s
    let s2 := s1.modOpt fun o => { o with announce := o.announce.filter fun a => !decide (a ∈ due) }
    let s3 := rolled f s2
    linesEnter err f ((s3.opt.links.filter fun l => decide (l.fibre = f)).foldl (rebuildLink err) s3)

/-! ### Darkness -/

/-- The lanes of a fibre are off or on again (R165). -/
def lanesOn (f : Nat) (on : Bool) (s : State) : State := modLanes f (List.range 33) (fun l => { l with txOn := on && !l.failed }) s

/-- A fibre goes dark: its links leave service, its steps are abandoned, its lanes and pilots are off (R17, R170). -/
def fibreDark (f : Nat) (s : State) : State :=
  let s1 := dropLinks (fun l => decide (l.fibre = f)) (abandonStep f 1 false s)
  let s2 := s1.modOpt fun o => { o with announce := o.announce.filter (fun a => decide (a.fibre ≠ f)), reliefs := o.reliefs.filter fun r => decide (r.fibre ≠ f) }
  modFibre f (fun x => { x with pilots := false }) (lanesOn f false s2)

/-- A group's comb source is not wanted: it is in faceplate mode, and K4 does not stand in for the source (R170). -/
def combSpared (s : State) (k : Nat) : Bool := decide (k < 4) && decide (modeOf s (4 * k) = .faceplate) && decide (s.opt.k4For ≠ some k)

/-- The comb sources start from their operating points, K4 among them, but for those of faceplate groups (R170, R365);
CAL_PRIV_DEFAULTED for each that starts from its factory point (R296); and the fibres have no signal yet (R164). -/
def combsUp (s : State) : State :=
  let s1 := ((List.range 5).filter fun k => !combSpared s k).foldl (fun t k =>
    let u := gateIssue (5 + k) 3 [1] (modComb k (fun c => { c with lit := true, locked := false, failed := false }) t)
    if (combOf t k).valid then u else raise evCalPrivDefaulted srcSv (le 1 (0x10 + k)) u) s
  (List.range 16).foldl (fun t f => modFibre f (fun x => { x with los := false, losAt := t.sc, apr := false, beaconOk := false, pilots := decide (modeOf t f ≠ .faceplate) }) t) s1

end Sys2Proof.Machine
end

