-- ==== Sys2Proof/Machine/Paths.lean ====
section
/-!
DEFINITION. The switch plane: crosspoints and the heater budget (R175, R176, R192, R193), path plans and their checks (R184
to R188), activation (R187, R190), re-binding of logical links (R215), fallback plans (R194 to R197) and wrong-line lock
(R198 to R200).
-/

namespace Sys2Proof.Machine

/-! ### Reading a plan (R185, R186) -/

/-- Read a plan entry. -/
def readPlanEnt (b : Bytes) : PlanEnt :=
  let v := rd b 0 16
  { kind := BitVec.ofNat 4 (v >>> 124), inFibre := BitVec.ofNat 4 (v >>> 120), outFibre := BitVec.ofNat 4 (v >>> 116), link := BitVec.ofNat 3 (v >>> 113),
    tag := BitVec.ofNat 10 (v >>> 103), hops := BitVec.ofNat 2 (v >>> 101), lines := BitVec.ofNat 33 (v >>> 64), peer := BitVec.ofNat 12 (v >>> 52),
    peerFibre := BitVec.ofNat 4 (v >>> 48), resv := decide (fld v 97 4 ≠ 0) || decide (fld v 0 48 ≠ 0) }

/-- Read a plan: header, and the entries that `PP.NENT` counts. -/
def readPlan (b : Bytes) : Plan :=
  let v := rd b 0 32
  let n := fld v 132 12
  { act := BitVec.ofNat 64 (v >>> 192), planId := BitVec.ofNat 32 (v >>> 160), module := BitVec.ofNat 12 (v >>> 148), nent := n,
    mode := BitVec.ofNat 2 (v >>> 130), notify := (List.range (min 8 (fld v 28 4))).map fun i => BitVec.ofNat 12 (v >>> (118 - 12 * i)),
    nnotify := fld v 28 4, resv := decide (fld v 144 4 ≠ 0) || decide (fld v 0 28 ≠ 0) || decide (fld v 32 2 ≠ 0),
    ents := (chunks 16 (min n 1024) (b.drop 32)).map readPlanEnt }

/-- The lines an entry names, ascending. -/
def PlanEnt.lineList (e : PlanEnt) : List Nat := setBits e.lines.toNat 33

/-- The fibres that an entry's kind uses. -/
def PlanEnt.fibres (e : PlanEnt) : List Nat :=
  match e.kind.toNat with
  | 0 => [e.outFibre.toNat]
  | 1 => [e.inFibre.toNat]
  | 2 => [e.outFibre.toNat]
  | 3 => [e.inFibre.toNat, e.outFibre.toNat]
  | _ => [e.inFibre.toNat]

/-- The crosspoints that an entry sets (R186). -/
def PlanEnt.sets (e : PlanEnt) : List Xp :=
  match e.kind.toNat with
  | 2 => e.lineList.map fun n => { line := n, inp := 16, out := e.outFibre.toNat, st := .waiting, tag := e.tag }
  | 3 => e.lineList.map fun n => { line := n, inp := e.inFibre.toNat, out := e.outFibre.toNat, st := .waiting, tag := e.tag }
  | 4 => e.lineList.map fun n => { line := n, inp := e.inFibre.toNat, out := 16, st := .waiting, tag := e.tag }
  | _ => []

/-! ### Crosspoints (R175, R176) -/

/-- The same crosspoint. -/
def Xp.same (a b : Xp) : Bool := decide (a.line = b.line) && decide (a.inp = b.inp) && decide (a.out = b.out)

/-- Two different crosspoints share an output line or an input line (R175). -/
def Xp.clash (a b : Xp) : Bool :=
  !a.same b && decide (a.line = b.line) && ((decide (a.out = b.out) && decide (a.out < 16)) || (decide (a.inp = b.inp) && decide (a.inp < 16)))

/-- A crosspoint of the fast plane. -/
def Xp.fast (x : Xp) : Bool := (decide (12 ≤ x.inp) && decide (x.inp < 16)) || (decide (12 ≤ x.out) && decide (x.out < 16))

/-- The home crosspoints of a fibre: every line added and dropped (R181). -/
def homeXps (f : Nat) : List Xp :=
  ((List.range 33).map fun n => [{ line := n, inp := 16, out := f, st := .waiting }, { line := n, inp := f, out := 16, st := .waiting }]).flatten

/-- A fibre carries light paths: its group is native (R170, R188). -/
def nativeFibre (s : State) (f : Nat) : Bool := decide (modeOf s f = .native)

/-- The fibres that a plan of mode HOME or REPLACE acts on: native ones, and those of the fast plane only without a slot
table (R187). -/
def planFibres (s : State) : List Nat := (List.range 16).filter fun f => nativeFibre s f && !fixedLanes s f

/-! ### Heater budget (R192, R193) -/

/-- Slow-plane crosspoints of a state. -/
def countXp (s : State) (st : XpSt) : Nat := (s.sw.xps.filter fun x => decide (x.st = st) && !x.fast).length

/-- The base heater power, in 10 mW. -/
def heaterBase : Nat := min Config.heaterBase 752

/-- The slow plane's heater power, in 10 mW (R192). -/
def heaterPower (s : State) : Nat := heaterBase + 4 * countXp s .held + 14 * countXp s .stepping

/-- The allotment in 10 mW: 80 W while a fallback plan runs (R192, R196). -/
def allotment (s : State) : Nat := if s.sw.fbRun.isSome then 8000 else 100 * s.sw.allotW

/-- Admit waiting ring steps in order while the power stays within the allotment (R193). -/
def admitXps (allot : Nat) : Nat → List Xp → List Xp
  | _, [] => []
  | p, x :: t =>
    if x.st = .waiting && decide (p + 14 ≤ allot) then { x with st := .stepping } :: admitXps allot (p + 14) t else x :: admitXps allot p t

/-- CE4's heater power loop: it reads the slow plane's heater power and stands in a minimum-select group with the admission gate (R256,
R454; log entry 97, DEDUCED). -/
def heaterLoop (s : State) : Option (Nat × Loop) :=
  (enabledLoops s 4).find? fun e => decide (ldInput e.2.desc = 0x4000) && decide (ldGroup e.2.desc ≠ 0) && decide (e.2.samples ≠ 0)

/-- The power up to which ring steps are admitted, in 10 mW: the allotment, or the output of the heater power loop in W where that is less
(R193). -/
def admitLimit (s : State) : Nat :=
  match heaterLoop s with
  | some e => min (allotment s) (100 * (fixSum 48 0 (e.2.set.outX - 17) [(mant e.2.out, e.2.set.outX - 17)]).1.toNat)
  | none => allotment s

/-- Admission after any change (R193). -/
def admitNow (s : State) : State := s.modSw fun w => { w with xps := admitXps (admitLimit s) (heaterPower s) w.xps }

/-- The waves that n ring steps take from a power, and the peak in 10 mW (R193). -/
def waves (allot : Nat) : Nat → Nat → Nat → Nat × Nat
  | 0, p, _ => (0, p)
  | f + 1, p, n =>
    if n = 0 then (0, p)
    else
      let k := min n ((allot - p) / 14)
      let r := waves allot f (p + 4 * k) (n - k)
      (r.1 + 1, max (p + 14 * k) r.2)

/-! ### Applying crosspoints -/

/-- Clear the crosspoints that pass a test: their gates shut and the rings park (R190 step 1), by a command each to the switch die's gate
(R13). -/
def clearXps (p : Xp → Bool) (s : State) : State :=
  (s.sw.xps.filter p).foldl (fun t x => gateIssue 4 2 [x.line, x.inp, x.out] t) (s.modSw fun w => { w with xps := w.xps.filter fun x => !p x })

/-- Set one crosspoint: one that is set already keeps its ring and takes the tag; another displaces what it would conflict
with; the fast plane switches at once (R175, R176, R186). The command goes to the switch die's gate (R13). -/
def setXp (x : Xp) (s : State) : State :=
  if s.sw.xps.any fun y => y.same x && decide (y.st ≠ .failed) then
    s.modSw fun w => { w with xps := w.xps.map fun y => if y.same x then { y with tag := x.tag } else y }
  else gateIssue 4 1 [x.line, x.inp, x.out]
    (s.modSw fun w => { w with xps := (w.xps.filter fun y => !y.same x && !y.clash x) ++ [{ x with st := if x.fast then .held else .waiting }] })

/-- A crosspoint is set, or being set. -/
def xpSet (l : List Xp) (line inp out : Nat) : Bool := l.any fun x => decide (x.line = line) && decide (x.inp = inp) && decide (x.out = out)

/-- The crosspoint of a lane of a link end (R175). -/
def laneXp (l : PhysLink) (k : Nat) : Xp := if l.tx then { line := k, inp := 16, out := l.fibre } else { line := k, inp := l.fibre, out := 16 }

/-- Every crosspoint of a link end at this module has locked. -/
def linkLit (s : State) (l : PhysLink) : Bool :=
  l.lanes.all fun k => s.sw.xps.any fun x => x.same (laneXp l k) && decide (x.st = .held)

/-! ### The links of a plan (R155, R186) -/

/-- Link ends that the ORIGIN and TERMINUS entries of a plan make, in entry order. -/
def planLinks (ents : List PlanEnt) : List PhysLink :=
  ents.foldl (fun ls e =>
    if e.kind = 2 ∨ e.kind = 4 then
      let tx := decide (e.kind = 2)
      let f := if tx then e.outFibre.toNat else e.inFibre.toNat
      if ls.any (isLink f e.link.toNat tx) then
        ls.map fun l => if isLink f e.link.toNat tx l then { l with lanes := (List.range 33).filter fun k => decide (k ∈ l.lanes) || decide (k ∈ e.lineList) } else l
      else ls ++ [{ fibre := f, link := e.link.setWidth 6, tx := tx, lanes := e.lineList, tag := e.tag, hops := e.hops.toNat, peer := e.peer, peerFibre := e.peerFibre }]
    else ls) []

/-- Two link ends are the same in all that a plan says of them. -/
def PhysLink.agrees (a b : PhysLink) : Bool :=
  isLink a.fibre a.link.toNat a.tx b && decide (a.lanes = b.lanes) && decide (a.tag = b.tag) && decide (a.hops = b.hops) && decide (a.peer = b.peer) &&
    decide (a.peerFibre = b.peerFibre)

/-- The crosspoints that a plan's CLEAR entries and its mode remove from those now set (R186, R187). -/
def planClears (s : State) (mode : Nat) (ents : List PlanEnt) (x : Xp) : Bool :=
  let sets := (ents.map PlanEnt.sets).flatten
  (ents.any fun e => decide (x.line ∈ e.lineList) && ((decide (e.kind = 0) && decide (x.out = e.outFibre.toNat)) || (decide (e.kind = 1) && decide (x.inp = e.inFibre.toNat)))) ||
    (decide (mode = 1) && !(x.fast && slotMode s) && !sets.any x.same)

/-- The crosspoints after a plan: clears before sets. -/
def afterPlan (s : State) (mode : Nat) (ents : List PlanEnt) : List Xp :=
  let sets := (ents.map PlanEnt.sets).flatten
  let kept := s.sw.xps.filter fun x => decide (x.st ≠ .failed) && !planClears s mode ents x && !sets.any x.same
  kept ++ sets

/-- The link ends that outlast a plan beside its own: none of their crosspoints is cleared, and no entry names them. -/
def outlast (s : State) (mode : Nat) (ents : List PlanEnt) : List PhysLink :=
  s.opt.links.filter fun l =>
    !(planLinks ents).any (fun n => isLink l.fibre l.link.toNat l.tx n) &&
      l.lanes.all fun k => xpSet (afterPlan s mode ents) k (laneXp l k).inp (laneXp l k).out

/-! ### Checks (R188) -/

/-- Check 2. -/
def entOk (e : PlanEnt) : Bool :=
  let k := e.kind.toNat
  decide (k ≤ 4) && (decide (k ≠ 3) || decide (fastFibre e.inFibre.toNat = fastFibre e.outFibre.toNat)) &&
    (decide (k = 1 ∨ k = 3 ∨ k = 4) || decide (e.inFibre = 0)) && (decide (k = 0 ∨ k = 2 ∨ k = 3) || decide (e.outFibre = 0)) &&
    (decide (k < 2) || decide (e.tag ≠ 0))

/-- Check 3: each link's lines, and the widths on a fibre. -/
def widthsOk (s : State) (mode : Nat) (ents : List PlanEnt) : Bool :=
  let ls := planLinks ents
  ls.all (fun l => decide (l.lanes.length ∈ [4, 8, 16, 32])) &&
    (List.range 16).all fun f => [true, false].all fun tx =>
      !(ls.any fun l => decide (l.fibre = f) && decide (l.tx = tx)) ||
        decide ((((ls ++ outlast s mode ents).filter fun l => decide (l.fibre = f) && decide (l.tx = tx)).map fun l => l.lanes.length).sum ≤ 32)

/-- The checks of R188 in their order; 0 when the plan passes. -/
def planCheck (fallback : Bool) (p : Plan) (s : State) : Nat :=
  let m := p.mode.toNat
  if m = 3 ∨ 1024 < p.nent ∨ 8 < p.nnotify ∨ p.module ≠ moduleId s ∨ p.resv = true ∨ (p.ents.any fun e => e.resv) = true ∨ (m = 2 ∧ p.nent ≠ 0) then stPlanFormat
  else if !p.ents.all entOk then stPlanEntryInvalid
  else if !widthsOk s m p.ents then stPlanLinkWidth
  else if (afterPlan s m p.ents).any fun x => (p.ents.map PlanEnt.sets).flatten.any x.clash then stPlanConflict
  else if p.ents.any fun e => decide (3 < e.hops.toNat) then stPlanHops
  else if p.ents.any fun e => e.fibres.any fun f => !nativeFibre s f then stPlanGroupMode
  else if slotMode s && p.ents.any fun e => e.fibres.any fastFibre then stPlanFastplaneBusy
  else if !fallback && (decide (timeDiff p.act s.tm.ft < 64000000) || decide (640000000000 < timeDiff p.act s.tm.ft)) then stPlanActTime
  else if fallback && decide (408 < ((p.ents.map PlanEnt.sets).flatten).length) then stFallbackTooLarge
  else 0

/-! ### Activation (R187, R190) -/

/-- The entries that a fallback plan applies: those for the fast plane are skipped while a slot table is in force (R194). -/
def liveEnts (s : State) (p : Plan) (fallback : Bool) : List PlanEnt :=
  if fallback && slotMode s then p.ents.filter fun e => !e.fibres.any fastFibre else p.ents

/-- What a plan sets: its entries' crosspoints, or the home configuration (R181, R187). -/
def planSets (s : State) (mode : Nat) (ents : List PlanEnt) : List Xp :=
  if mode = 2 then ((planFibres s).map homeXps).flatten else (ents.map PlanEnt.sets).flatten

/-- What a plan removes from the crosspoints now set (R186, R187). -/
def planDrops (s : State) (mode : Nat) (ents : List PlanEnt) (x : Xp) : Bool :=
  if mode = 2 then !(x.fast && slotMode s) && !(planSets s mode ents).any x.same else planClears s mode ents x

/-- The link ends that a plan makes: its entries', or the home links (R181). -/
def planMakes (s : State) (mode : Nat) (ents : List PlanEnt) : List PhysLink :=
  if mode = 2 then ((planFibres s).map fun f => [homeLink s f true, homeLink s f false]).flatten else planLinks ents

/-- A link end that a plan leaves in place: it is one of its links as it stands, or no entry names it and none of its
crosspoints changes (R187); the link of a faceplate port has none. -/
def linkKept (s : State) (after : List Xp) (makes : List PhysLink) (l : PhysLink) : Bool :=
  l.ethernet || (l.lanes.all (fun k => after.any fun x => x.same (laneXp l k) && (s.sw.xps.any fun y => y.same x && decide (y.st = .held))) &&
    (makes.any l.agrees || !(makes.any fun n => isLink l.fibre l.link.toNat l.tx n || (decide (n.fibre = l.fibre) && decide (n.tx = l.tx) && l.lanes.any fun k => decide (k ∈ n.lanes)))))

/-- The re-bindings that a plan's entries make: logical links with the entry's peer and path tag (R215). -/
def planRebinds (ents : List PlanEnt) : List (BitVec 12 × BitVec 10 × Bool × BitVec 4 × BitVec 6 × Nat) :=
  ((planLinks ents).filter fun l => decide (l.tag ≠ 0)).map fun l => (l.peer, l.tag, l.tx, BitVec.ofNat 4 l.fibre, l.link, l.lanes.length)

/-- A logical link is unbound: its forwards hold their cells; LINK_UNBOUND (R215). -/
def unbind (l : LogLink) (s : State) : State :=
  raise evLinkUnbound (srcFibre l.fibre.toNat) (le 1 l.fibre.toNat ++ le 1 l.link.toNat ++ le 2 l.peer.toNat ++ le 2 l.tag.toNat)
    (s.modProf fun p => { p with logLinks := p.logLinks.map fun x => if x = l then { x with bound := false } else x })

/-- The lines that a plan takes from a logical link that it re-binds (R215). -/
def noteWas (g : LogLink) (l : PhysLink) (s : State) : State :=
  s.modProf fun p => { p with logLinks := p.logLinks.map fun x => if x = g then { x with was := l.lanes } else x }

/-- Take the links out of service that a plan removes; their logical links are unbound unless the plan re-binds them
(R187, R215). -/
def dropPlanLinks (rb : List (BitVec 12 × BitVec 10 × Bool × BitVec 4 × BitVec 6 × Nat)) (gone : List PhysLink) (s : State) : State :=
  gone.foldl (fun t l =>
    let t1 := removeLink l t
    match logOf t l.fibre l.link.toNat l.tx with
    | some g => if rb.any fun r => decide (r.1 = g.peer) && decide (r.2.1 = g.tag) && decide (r.2.2.1 = g.tx) then noteWas g l t1 else unbind g t1
    | none => t1) s

/-- The lane steps and reliefs on links that a plan changes are abandoned (R163, R301). -/
def abandonOn (gone : List PhysLink) (s : State) : State :=
  (List.range 16).foldl (fun t f =>
    let hit := fun (j : BitVec 6) => gone.any fun l => l.tx && decide (l.fibre = f) && decide (l.link = j)
    let onStep := match (rotOf t f).step with
      | some st => st.rolled && (match substOf t f st.lane with
          | some k => hit (laneOf t f k).link
          | none => false)
      | none => false
    let onRelief := ((reliefOn t f).map fun r => hit r.link).getD false
    if onStep || onRelief then
      let x := ((rotOf t f).step.map fun st => st.lane).getD 33
      modLane f x (fun l => if l.cal then { l with cal := false, role := .unassigned } else l) (abandonStep f 1 false t)
    else t) s

/-- After the links of a fibre have changed, a lane that no link takes is its spare: the spare it had, else the highest announces it
(R154, R158, R180). -/
def settleSpare (f : Nat) (s : State) : State :=
  let idle := (List.range 33).filter fun k => !(laneOf s f k).failed && (txLinkOf s f k).isNone && !(laneOf s f k).cal
  if !noSpare s f || !nativeFibre s f then s
  else match idle.getLast? with
    | some k => announceRole f k .spare (modLane f k (fun l => { l with inService := false, subst := false, txOn := mayLight s f }) s)
    | none => s

/-- HEATER_STAGGER, where the share takes more than one wave (R193). -/
def stagger (planId : BitVec 32) (n : Nat) (s : State) : State :=
  let w := waves (allotment s) 64 (heaterPower s) n
  if 1 < w.1 then
    raise evHeaterStagger srcSv (le 4 planId.toNat ++ leSat 1 w.1 ++ leSat 2 (w.2 / 10) ++ leSat 4 (40 + 600 * w.1 + 1360)) s
  else s

/-- Apply a plan: step 1 of R190 and the first admission of step 2; answers the state and the links of the share. -/
def applyPlan (p : Plan) (fallback : Bool) (s : State) : List PhysLink × List (BitVec 12 × BitVec 10 × Bool × BitVec 4 × BitVec 6 × Nat) × State :=
  let m := p.mode.toNat
  let ents := liveEnts s p fallback
  let sets := planSets s m ents
  let fresh := sets.filter fun x => !(s.sw.xps.any fun y => y.same x && decide (y.st ≠ .failed))
  let drops := s.sw.xps.filter fun x => planDrops s m ents x || (!sets.any x.same && sets.any x.clash)
  let after := (s.sw.xps.filter fun x => !decide (x ∈ drops) && !sets.any x.same) ++ sets
  let makes := planMakes s m ents
  let rb := if m = 2 then [] else planRebinds ents
  let gone := s.opt.links.filter fun l => !(fixedLanes s l.fibre) && !linkKept s after makes l
  let s1 := dropPlanLinks rb gone (abandonOn gone s)
  let s2 := sets.foldl (fun t x => setXp x t) (clearXps (fun x => decide (x ∈ drops)) s1)
  let news := makes.filter fun l => !(s2.opt.links.any fun o => isLink l.fibre l.link.toNat l.tx o)
  let s3 := (List.range 16).foldl (fun t f => settleSpare f t) (news.foldl (fun t l => addLink l t) s2)
  let s4 := raise evPathPlanActivated srcSv (le 4 p.planId.toNat ++ leSat 4 fresh.length ++ leSat 4 drops.length ++ leSat 2 (allotment s / 100)) s3
  (makes, rb, admitNow (stagger p.planId (fresh.filter fun x => !x.fast).length s4))

/-- The plan run after activation: links in service already count as verified (R187, R191). -/
def runOf (r : PlanRun) (makes : List PhysLink) (rb : List (BitVec 12 × BitVec 10 × Bool × BitVec 4 × BitVec 6 × Nat)) (s : State) : PlanRun :=
  { r with phase := .active, startSc := s.sc, rebinds := rb, links := makes.map fun l => (l.fibre, l.link.toNat, l.tx),
           okLinks := (makes.filter fun l => physUp s l.fibre l.link.toNat l.tx).length }

/-- PLAN_ACTIVATION of the pending host plan (R184, R190). -/
def activateHost (r : PlanRun) (s : State) : State :=
  let a := applyPlan r.plan false s
  a.2.2.modSw fun w => { w with plan := some (runOf r a.1 a.2.1 a.2.2) }

/-- PLAN_ACTIVATION: Bell 1 rings at `PP.ACT` (R190). The gates take it from an accepted Prefect (R319). -/
def execPlanActivation (s : State) : Host.Outcome State Fault Refusal :=
  match s.sw.plan with
  | some r => if litUp s && ceReach s 0 && decide (r.phase = PlanPhase.waiting) then .next (activateHost r s) else .next s
  | none => .next s

/-! ### Fallback plans and faults (R14, R194 to R197) -/

/-- A fault signature of kind 1, 2, 3 or 5 at this module (R195). -/
def sigOf (kind fibre link : Nat) : BitVec 32 := BitVec.ofNat 32 (kind * 2 ^ 28 + fibre * 2 ^ 12 + link * 2 ^ 9)

/-- A warm start is restarting the Prefects: the gates hold, and faults wait (R371). -/
def prefectsDown (s : State) : Bool := s.boot.starting && decide (s.boot.kind = 1) && !s.boot.fwRunning

/-- The fallback plan at an index is activated: step 1 of R190 at the full allotment (R196). -/
def runFallback (i : Nat) (sig : BitVec 32) (s : State) : State :=
  let f := tget {} s.sw.fallbacks i
  let run : PlanRun := { plan := f.plan, fallback := some i }
  let a := applyPlan f.plan true (s.modSw fun w => { w with fbRun := some run })
  let s1 := a.2.2.modSw fun w => { w with fbRun := some (runOf run a.1 a.2.1 a.2.2) }
  let s2 := useFree (raise evFallbackActivated (pfxSrc s) (le 1 i ++ le 4 sig.toNat ++ le 4 (freeVal 32 s1).toNat ++ leSat 4 f.plan.notify.length) s1)
  f.plan.notify.foldl (fun t m => sendFault m (fld sig.toNat 12 4) t) s2

/-- A waiting host plan is cancelled by a fallback plan (R14). -/
def cancelByFallback (i : Nat) (s : State) : State :=
  match s.sw.plan with
  | some r =>
    if r.phase = PlanPhase.waiting then
      raise evHostPlanCancelled (pfxSrc s) (le 4 r.plan.planId.toNat ++ le 1 i) (replyOpt r.pkt stCancelled [] (s.modSw fun w => { w with plan := none }))
    else s
  | none => s

/-- A matched plan disarms until the host arms it again, and runs now or after the plan that runs (R14, R196, R197). -/
def fireFallback (i : Nat) (sig : BitVec 32) (s : State) : State :=
  let s1 := cancelByFallback i (disarm 1 (fun e => decide (e.1 = i)) s)
  let s2 := s1.modSw fun w => { w with fallbacks := tmod {} w.fallbacks i fun f => { f with used := true } }
  if s2.sw.plan.isSome || s2.sw.fbRun.isSome then s2.modSw fun w => { w with fbNext := w.fbNext ++ [(i, sig)] }
  else runFallback i sig s2

/-- The fault stands on a group in XN5 compatibility mode, to which no fallback plan applies (R167). -/
def xnFault (sig : BitVec 32) (s : State) : Bool :=
  let k := fld sig.toNat 28 4
  let f := if k = 3 then 4 * fld sig.toNat 12 2 else fld sig.toNat 12 4
  decide (k ≠ 4) && decide (modeOf s f = .xn5)

/-- A fault is matched against the armed plans, the reserved bits of a stored signature ignored (R6, R195); the lowest index wins; one whose plan has run already does nothing; one
without a plan raises FALLBACK_NO_MATCH (R196, R197). -/
def matchFault (sig : BitVec 32) (s : State) : State :=
  let mine := s.sw.fallbacks.filter fun e => decide (e.2.sig.toNat / 512 = sig.toNat / 512) && decide (e.2.profId = s.prof.fabId) && !xnFault sig s
  match mine.find? fun e => e.2.armed with
  | some e => fireFallback e.1 sig s
  | none => if mine.any fun e => e.2.used then s else raise evFallbackNoMatch (pfxSrc s) (le 4 sig.toNat) s

/-- A fault, an input of both Prefects (R303): it waits while a warm start restarts the Prefects, and needs an accepted Prefect (R196, R319, R371). -/
def fault (sig : BitVec 32) (s : State) : State :=
  if prefectsDown s then s.modSw fun w => { w with faults := w.faults ++ [sig] }
  else if !ceReach s 0 then prefectInput s
  else matchFault sig (prefectInput s)

/-- FAULT_NOTICE: acknowledged, and matched against the helper's own kind 4 signatures (R196, R323, R324). -/
def execFaultNotice (port : Nat) (msg : Bytes) (s : State) : Host.Outcome State Fault Refusal :=
  if !litUp s ∨ pmKind msg ≠ 1 ∨ 1024 ≤ port then .next s else .next (takeP2p 2 msg (fault (BitVec.ofNat 32 (rd msg 16 4))) s)

/-! ### Ring steps (R190, R193, R198, R199) -/

/-- The resonance at which a ring meant for a line locks: k = 18 − n, where line Lj is n = j − 16 (R198). -/
def lockCount (line : Nat) : Nat := 34 - line

/-- The number of a ring. -/
def ringKey (line inp out : Nat) : Nat := 169 * line + 13 * min inp 12 + min out 12

/-- A ring step or relock is counted; HEATER_WEAR as a ring passes 80 % of its rated 2 × 10⁸ steps (R413, R415). -/
def countRing (x : Xp) (s : State) : State :=
  let k := ringKey x.line x.inp x.out
  let s1 := (s.modLife fun l => { l with heaterTotal := l.heaterTotal + 1 }).modSw fun w => { w with ringSteps := tmod 0 w.ringSteps k (· + 1) }
  if tget 0 s1.sw.ringSteps k = 160000001 then raise evHeaterWear srcSv (leSat 4 k ++ leSat 4 160000001) s1 else s1

/-- Change a crosspoint. -/
def modXp (x : Xp) (g : Xp → Xp) (s : State) : State := s.modSw fun w => { w with xps := w.xps.map fun y => if y.same x then g y else y }

/-- RING_STEP_COMPLETE: a right lock opens the gate; a wrong one moves the ring by a line and counts again, and after the
second relock the crosspoint has failed; each lets waiting steps be admitted (R193, R198, R199). The trigger is 1, the
count, or 2, the spacing. -/
def ringStep (x : Xp) (count : Nat) (spaced : Bool) (s : State) : State :=
  let s1 := countRing x s
  let k := lockCount x.line
  let trig := if count = k then 2 else 1
  if count = k ∧ spaced = true then admitNow (modXp x (fun y => { y with st := .held, relocks := 0 }) s1)
  else if x.relocks < 2 then
    raise evWrongLineLock srcSv (le 1 x.line ++ le 1 x.inp ++ le 1 x.out ++ leSat 1 k ++ leSat 1 count ++ leSat 1 (x.relocks + 1) ++ le 1 trig)
      (modXp x (fun y => { y with relocks := y.relocks + 1 }) s1)
  else
    raise evCrosspointFailed srcSv (le 1 x.line ++ le 1 x.inp ++ le 1 x.out ++ le 1 trig) (admitNow (modXp x (fun y => { y with st := .failed }) s1))

/-- Crosspoints with a path tag on a line or a neighbouring one park and run their ring step again (R200). -/
def recheckLine (tag line : Nat) (s : State) : State :=
  let hit := fun (x : Xp) => decide (x.st = .held) && !x.fast && decide (x.tag.toNat = tag) && decide (line ≤ x.line + 1) && decide (x.line ≤ line + 1)
  admitNow (s.modSw fun w => { w with xps := w.xps.map fun x => if hit x then { x with st := .waiting, relocks := 0 } else x })

/-- A terminus lane has failed: the line-check notice goes out, LINE_CHECK_SENT is raised, and this module's own rings of
the path are checked (R191, R200, R224). -/
def sendLineCheck (tag : BitVec 10) (line : Nat) (s : State) : State :=
  recheckLine tag.toNat line (raise evLineCheckSent (pfxSrc s) (le 2 tag.toNat ++ le 1 line) (broadcast 3 0 (le 2 tag.toNat ++ le 1 line ++ zeros 1) s))

/-- LINE_CHECK_NOTICE (R200, R224). -/
def execLineCheckNotice (port : Nat) (notice : Bytes) (s : State) : Host.Outcome State Fault Refusal :=
  .next (onNotice 3 port notice (fun n t => recheckLine (rd n.body 0 2) (rd n.body 2 1) t) s)

/-! ### Deskew and verification (R157, R190, R191) -/

/-- The plan run that a command of the switch plane serves: the fallback plan that runs, else the host plan. -/
def countLink (ok : Bool) (l : PhysLink) (s : State) : State :=
  let has := fun (r : PlanRun) => decide (r.phase = PlanPhase.active) && decide ((l.fibre, l.link.toNat, l.tx) ∈ r.links)
  let add := fun (r : PlanRun) => if has r then { r with okLinks := r.okLinks + b2n ok, badLinks := r.badLinks + b2n (!ok) } else r
  s.modSw fun w => { w with plan := w.plan.map add, fbRun := w.fbRun.map add }

/-- LINK_DESKEW_COMPLETE: the terminus receivers have locked; a skew above 64 ns keeps the link out of service (R157). -/
def deskewed (l : PhysLink) (lane skew : Nat) (s : State) : State :=
  if 64 < skew then raise evDeskewFail (srcFibre l.fibre) (le 1 l.fibre ++ le 1 l.link.toNat ++ le 1 lane ++ leSat 4 skew) s
  else modLanes l.fibre l.lanes (fun x => { x with fecLock := true }) (modLink l (fun x => { x with locked := true }) s)

/-- LINK_DESKEW_COMPLETE (R190 step 3). -/
def execLinkDeskewComplete (fibre link lane skew : Nat) (s : State) : Host.Outcome State Fault Refusal :=
  match physLink s fibre link false with
  | some l => if litUp s && !l.inService && !l.locked && linkLit s l && !(fibreOf s fibre).los then .next (deskewed l lane skew s) else .next s
  | none => .next s

/-- The lanes of a link whose tag is not the one expected: lane and tag found (R179). -/
def wrongTags (l : PhysLink) (tags : List Nat) : List (Nat × Nat) :=
  ((List.range l.lanes.length).zip l.lanes).filterMap fun q => if tags.getD q.1 0 = laneTag l.tag q.2 then none else some (q.2, tags.getD q.1 0)

/-- A link fails verification: it keeps its crosspoints, stays out of service and raises PATH_VERIFY_FAIL, and its lines are checked; the
terminus sends the line-check notices and matches the fault of kind 5 (R191, R195, R200). -/
def verifyFail (l : PhysLink) (bad : List (Nat × Nat)) (s : State) : State :=
  let s1 := countLink false l (modLink l (fun x => { x with verified := some false }) s)
  let b := bad.headD (l.lanes.headD 0, 0)
  let s2 := raise evPathVerifyFail (srcFibre l.fibre) (le 2 l.tag.toNat ++ le 1 l.fibre ++ le 1 l.link.toNat ++ le 1 b.1 ++ le 2 b.2) s1
  if l.tx then bad.foldl (fun t q => recheckLine l.tag.toNat q.1 t) s2
  else fault (sigOf 5 l.fibre l.link.toNat) (bad.foldl (fun t q => sendLineCheck l.tag q.1 t) s2)

/-- LINK_VERIFICATION_DONE: 11 superframes have shown the lane tags (R190 step 4). -/
def execLinkVerificationDone (fibre link : Nat) (tx : Bool) (tags : List Nat) (s : State) : Host.Outcome State Fault Refusal :=
  match physLink s fibre link tx with
  | some l =>
    if litUp s && !l.inService && decide (l.verified = none) && (if tx then mayLight s fibre else l.locked) && linkLit s l then
      .next (if (wrongTags l tags).isEmpty then countLink true l (modLink l (fun x => { x with verified := some true }) s) else verifyFail l (wrongTags l tags) s)
    else .next s
  | none => .next s

/-! ### Completion (R191) -/

/-- The lanes of a link with the tags found on them: free values, where no rule says what an unlocked lane shows (R191). -/
def freeTags (l : PhysLink) (s : State) : List (Nat × Nat) × State :=
  l.lanes.foldl (fun r k => (r.1 ++ [(k, (freeVal 16 r.2).toNat)], useFree r.2)) ([], s)

/-- The links of a share that have neither passed nor failed fail now: 6 ms have passed; every line of them is checked (R191). -/
def failRest (r : PlanRun) (s : State) : State :=
  (s.opt.links.filter fun l => decide ((l.fibre, l.link.toNat, l.tx) ∈ r.links) && !l.inService && decide (l.verified = none)).foldl
    (fun t l => verifyFail l (freeTags l t).1 (freeTags l t).2) s

/-- µs since a service cycle: 400 sc each (R382). -/
def usSince (s : State) (t : Nat) : Nat := (s.sc - t) / 400

/-- PATH_PLAN_COMPLETE and its counts. -/
def planDone (r : PlanRun) (s : State) : State :=
  let us := usSince s r.startSc
  replyOpt r.pkt 0 (leSat 2 r.okLinks ++ leSat 2 r.badLinks ++ leSat 4 us)
    (raise evPathPlanComplete (pfxSrc s) (le 4 r.plan.planId.toNat ++ leSat 4 us ++ leSat 4 r.okLinks ++ leSat 4 r.badLinks) s)

/-- The host plan is between activation and completion. -/
def hostRun (s : State) : Option PlanRun := s.sw.plan.filter fun r => decide (r.phase = PlanPhase.active)

/-- The fallback plan that waits runs next, once no plan is at work (R14, R197). -/
def nextFallback (s : State) : State :=
  match s.sw.fbNext with
  | [] => s
  | q :: t => if (hostRun s).isSome || s.sw.fbRun.isSome then s else runFallback q.1 q.2 (s.modSw fun w => { w with fbNext := t })

/-- Every link of a share has passed or failed, or 6 ms have passed since activation (R191). -/
def PlanRun.over (r : PlanRun) (s : State) : Bool := decide (r.links.length ≤ r.okLinks + r.badLinks) || decide (6000 ≤ usSince s r.startSc)

/-- The fallback plan that runs is complete (R191). -/
def fallbackDone (r : PlanRun) (s : State) : State :=
  let s1 := failRest r s
  nextFallback (planDone (s1.sw.fbRun.getD r) (s1.modSw fun w => { w with fbRun := none }))

/-- The host plan is complete (R191). -/
def hostDone (r : PlanRun) (s : State) : State :=
  let s1 := failRest r s
  nextFallback (planDone (s1.sw.plan.getD r) (s1.modSw fun w => { w with plan := none }))

/-- PATH_PLAN_COMPLETE: of a host plan and a fallback plan that are both at work, the one that is over (R191). -/
def planComplete (s : State) : State :=
  match s.sw.fbRun, hostRun s with
  | some r, some q => if q.over s && !r.over s then hostDone q s else fallbackDone r s
  | some r, none => fallbackDone r s
  | none, some q => hostDone q s
  | none, none => s

/-- PATH_PLAN_COMPLETE (R191). -/
def execPathPlanComplete (s : State) : Host.Outcome State Fault Refusal := if litUp s then .next (planComplete s) else .next s

/-! ### Links that enter service (R190, R214, R215) -/

/-- LINK_REBOUND with its direction, 1 transmit or 2 receive (R215, R234). -/
def rebound (g : LogLink) (l : PhysLink) (s : State) : State :=
  raise evLinkRebound (srcFibre l.fibre) (le 2 g.peer.toNat ++ le 2 g.tag.toNat ++ le 1 (if g.tx then 1 else 2) ++ le 1 g.pFibre.toNat ++ le 1 l.fibre ++
    le 1 g.pLink.toNat ++ le 1 l.link.toNat ++ le 1 l.lanes.length)
    (s.modProf fun p => { p with logLinks := p.logLinks.map fun x => if x = g then { x with bound := true, pFibre := BitVec.ofNat 4 l.fibre, pLink := l.link, width := l.lanes.length, was := [] } else x })

/-- The logical link that an entering link end re-binds: the one with its peer and path tag, unless it stands there already on those lines
(R215). -/
def rebindOf (l : PhysLink) (s : State) : Option LogLink :=
  if l.tag = 0 then none
  else (s.prof.logLinks.find? fun g => decide (g.tx = l.tx) && decide (g.peer = l.peer) && decide (g.tag = l.tag)).filter fun g =>
    !(g.bound && decide (g.pFibre.toNat = l.fibre) && decide (g.pLink = l.link) && decide (g.width = l.lanes.length) && (g.was.isEmpty || l.lanes.all fun k => decide (k ∈ g.was)))

/-- A home link that returns carries its logical link again (R181, R214). -/
def homeBinds (l : PhysLink) (s : State) : State :=
  let mine := fun (g : LogLink) => decide (l.tag = 0) && decide (g.tag = 0) && decide (g.tx = l.tx) && decide (g.fibre.toNat = l.fibre) && decide (g.link.toNat = l.link.toNat)
  s.modProf fun p => { p with logLinks := p.logLinks.map fun g => if mine g then { g with bound := true } else g }

/-- A verified link end enters service at a superframe boundary, and logical links are re-bound (R190, R215). -/
def enterVerified (err : ReadErr) (l : PhysLink) (s : State) : State :=
  enterService err l (match rebindOf l s with
    | some g => rebound g l s
    | none => homeBinds l s)

end Sys2Proof.Machine
end

