-- ==== Sys2Proof/Machine/TimeSteps.lean ====
section
/-!
DEFINITION. What steps or slews fabric time: a step with the Bells that it passes (R245, R246, R252), the offsets of Syncs (R244, R246), the
pulses of PPS_IN (R254), and TIME_SET (R245).
-/

namespace Sys2Proof.Machine

/-! ### A step of fabric time (R245, R246, R252) -/

/-- A time lies after the old time and not after the new one. -/
def passed (old new t : BitVec 64) : Bool := decide (0 < timeDiff t old) && decide (timeDiff t new ≤ 0)

/-- BELL_LATE (R252). -/
def bellLate (i : Nat) (sched : BitVec 64) (s : State) : State :=
  raise evBellLate srcSv (le 1 i ++ le 8 sched.toNat ++ le 8 s.tm.ft.toNat) s

/-- A Bell whose time a step has passed rings once, at once; its later rings keep the period grid (R252). -/
def lateRing (i : Nat) (s : State) : State :=
  let b := bellOf s i
  let s1 := bellLate i b.time (ringBell i s)
  modBell i (fun x =>
    let gone := (timeDiff s1.tm.ft x.time).toNat
    if x.st = .armed ∧ x.period ≠ 0 ∧ timeDiff x.time s1.tm.ft ≤ 0 then
      { x with time := x.time + BitVec.ofNat 64 ((gone / x.period.toNat + 1) * x.period.toNat) }
    else x) s1

/-- Bell 0 as a step passes it: the period Bell rings once, at once, with the power readings of the moment, and its later rings keep the
period grid (R51, R252; the readings are free values, log entry 95, DESIGN CHOICE). -/
def latePeriod (old : BitVec 64) (s : State) : State :=
  let due := bellDue s
  if (s.job.gridOn ∨ s.job.startReq.isSome) ∧ passed old s.tm.ft due = true then
    let s1 := bellLate 0 due (stateOf s (execPeriodBell (freeVal 32 s).toNat (freeVal 32 (useFree s)).toNat (useFree (useFree s))))
    let gone := (timeDiff s1.tm.ft (bellDue s1)).toNat
    if s1.job.gridOn ∧ timeDiff (bellDue s1) s1.tm.ft ≤ 0 then
      s1.modJob fun j => { j with tb := j.tb + BitVec.ofNat 64 ((gone / max 1 (periodLen s1) + 1) * periodLen s1) }
    else s1
  else s

/-- Bell 1 as a step passes it: the pending path plan is activated at once (R190, R252). -/
def latePlan (old : BitVec 64) (s : State) : State :=
  match s.sw.plan with
  | some r => if r.phase = PlanPhase.waiting ∧ passed old s.tm.ft r.plan.act = true then bellLate 1 r.plan.act (stateOf s (execPlanActivation s)) else s
  | none => s

/-- Step fabric time (R245, R246): Bells that the step passes ring late, in ascending index order. -/
def stepTime (new : BitVec 64) (s : State) : State :=
  let old := s.tm.ft
  let s3 := latePlan old (latePeriod old (s.modTm fun t => { t with ft := new, slew := 0 }))
  (s3.bells.bells.filter fun e => decide (e.2.st = .armed) && passed old new e.2.time).foldl (fun t e => lateRing e.1 t) s3

/-! ### Syncs (R244 to R246) -/

/-- What a SLAVE port does with an offset (R246): the one step, the slew, the fault, the count of good offsets. -/
def takeOffset (off : Int) (s : State) : State :=
  let s1 := s.modTm fun t => { t with lastOff := off }
  if !s.tm.valid && !s.tm.stepped then
    timeSettle ((stepTime (s.tm.ft - BitVec.ofInt 64 off) s1).modTm fun t => { t with stepped := true, goodOffs := if off.natAbs < 128 then t.goodOffs + 1 else 0 })
  else
    let s2 := s1.modTm fun t => { t with slew := -off, goodOffs := if off.natAbs < 128 then t.goodOffs + 1 else 0 }
    if s.tm.valid && decide (320 < off.natAbs) then
      timeInvalid 3 (raise evTimeOffsetFault srcSv (le 2 (s.tm.timeParent.getD 0).toNat ++ leInt 8 off) s2)
    else timeSettle s2

/-- The grandmaster follows a time source: it steps while its time is not valid, and else slews at no more than 1 ppm (R245). -/
def followSource (off : Int) (s : State) : State :=
  if s.tm.valid then s.modTm fun t => { t with lastOff := off, adjLeft := -off }
  else timeValid (stepTime (s.tm.ft - BitVec.ofInt 64 off) (s.modTm fun t => { t with lastOff := off }))

/-- PTP_SYNC (R244, R245): on the SLAVE port, or on the grandmaster's external time source. -/
def ptpSync (port : Nat) (msg : Bytes) (t2 : BitVec 64) (s : State) : State :=
  if ptpOk msg 0 = false then ptpDiscard port s
  else
    let c := corrOf msg s
    let off := timeDiff (rxTime port t2 s) (stampOf msg 34) - c.1 - (portAt s port).delay
    if s.tm.gm && isExternal s port then followSource off c.2
    else if portState s port = .slave ∧ s.tm.gm = false then takeOffset off c.2
    else s

/-- PTP_SYNC (R244). -/
def execPtpSync (port : Nat) (msg : Bytes) (t2 : BitVec 64) (s : State) : Host.Outcome State Fault Refusal :=
  if ptpPort s port then .next (ptpSync port msg t2 s) else .next s

/-! ### PPS_IN and TIME_SET (R245, R254) -/

/-- PPS_IN_EDGE: timestamped; on a grandmaster that follows PPS_IN it makes the time that TIME_SET named valid, or slews
toward the pulse (R245, R254). -/
def ppsEdge (s : State) : State :=
  let at_ := stampTime s
  let s1 := useFree (s.modTm fun t => { t with ppsTs := at_, ppsCnt := t.ppsCnt + 1, ppsLost := false })
  if s.tm.gm && decide (s.tm.source = 1) then
    match s.tm.atPps with
    | some t => if s.tm.valid then s1.modTm fun x => { x with atPps := none } else timeValid (stepTime t (s1.modTm fun x => { x with atPps := none }))
    | none => if s.tm.valid then s1.modTm fun x => { x with adjLeft := -secondOff s at_ } else s1
  else s1

/-- PPS_IN_EDGE (R254). -/
def execPpsInEdge (s : State) : Host.Outcome State Fault Refusal := if svOn s then .next (ppsEdge s) else .next s

/-- TIME_SET 0: now; refused once fabric time is valid (R245). -/
def timeSetNow (t : BitVec 64) (ref : PktRef) (s : State) : State :=
  if s.tm.valid then reply ref stStateInvalid [] s else reply ref 0 [] (timeValid (stepTime t s))

/-- TIME_SET, kind 0 (R245). -/
def execTimeSetNow (p : Pkt) (t : BitVec 64) (s : State) : Host.Outcome State Fault Refusal :=
  .next (runPkt p 0x0501 (le 8 t.toNat ++ le 1 0) true (asGm (timeSetNow t)) s)

end Sys2Proof.Machine
end

