-- ==== Sys2Proof/Machine/Frames.lean ====
section
/-!
DEFINITION. Lane frames (R143, R145, R146, R153, R154) and slot frames (R204): the frame header, the code words, the scrambler and the
symbols of every data lane that sends. Bits are lists, in the order in which they are sent. What the spec leaves open of their coding is
log entry 83, DESIGN CHOICE.
-/

namespace Sys2Proof.Machine

/-! ### Bits -/

/-- The n low bits of a number, most significant first. -/
def msb (n v : Nat) : List Bool := (List.range n).map fun i => v.testBit (n - 1 - i)

/-- The bits of bytes, each most significant bit first. -/
def byteBits (b : Bytes) : List Bool := (b.map fun x => msb 8 x.toNat).flatten

/-- The first n bits, with zeros where they end sooner. -/
def padBits (n : Nat) (l : List Bool) : List Bool := (l ++ List.replicate (n - l.length) false).take n

/-- The first m runs of k bits. -/
def bitRuns (k : Nat) : Nat → List Bool → List (List Bool)
  | 0, _ => []
  | m + 1, l => l.take k :: bitRuns k m (l.drop k)

/-! ### The scrambler and the symbols (R143) -/

/-- One step of the register of the PRBS x³¹ + x²⁸ + 1. -/
def prbsNext (r : BitVec 31) : BitVec 31 := (r <<< 1) ||| (if r.getLsbD 30 == r.getLsbD 27 then 0 else 1)

/-- The first bits that the PRBS puts out from a seed. -/
def prbs : Nat → BitVec 31 → List Bool
  | 0, _ => []
  | n + 1, r => r.getLsbD 30 :: prbs n (prbsNext r)

/-- The seed of a frame: (`FH.LANETAG` × 64 + `FH.FRAME`) OR 1 (R143). -/
def frameSeed (tag frame : Nat) : BitVec 31 := BitVec.ofNat 31 (tag * 64 + frame) ||| 1

/-- The additive scrambler over the bits of a frame that are scrambled (R143). -/
def scramble (seed : BitVec 31) (l : List Bool) : List Bool := List.zipWith (fun a b => a != b) l (prbs l.length seed)

/-- Bit 0 is sent as +1 and bit 1 as −1 (R143). -/
def amplitude (b : Bool) : Int := if b then -1 else 1

/-- The symbols of line bits, four amplitudes to a symbol: b3, b2, b1, b0 are X-polarisation I and Q, Y-polarisation I and Q (R143). -/
def symbols (l : List Bool) : Bytes := (l.map fun b => leInt 1 (amplitude b)).flatten

/-- The alignment word: 120 bits, not scrambled (R145). -/
def alignment : List Bool := prbs 120 (BitVec.allOnes 31)

/-- Pilot symbols: bits 0b0000, not scrambled (R145). -/
def pilots (n : Nat) : List Bool := List.replicate (4 * n) false

/-! ### Code words (R145, R146) -/

/-- An RS(544,514) outer code word of 5,140 information bits. -/
def outerWord (l : List Bool) : List Bool := l ++ msb 300 (Config.rsCheck l).toNat

/-- A BCH(126,110) inner code word of 110 information bits; in Light mode its check bits are sent as zero (R146). -/
def innerWord (light : Bool) (l : List Bool) : List Bool := l ++ (if light then List.replicate 16 false else msb 16 (Config.bchCheck l).toNat)

/-- Information bits in n outer code words, these with zeros after them in m inner code words (R145, R204). -/
def coded (light : Bool) (n m : Nat) (l : List Bool) : List Bool :=
  ((bitRuns 110 m (padBits (110 * m) (((bitRuns 5140 n (padBits (5140 * n) l)).map outerWord).flatten))).map (innerWord light)).flatten

/-- What the outer code words carry: the 256-bit header, the cells, and zeros (R145, R204). -/
def frameInfo (hdr : Nat) (cells : List Bytes) : List Bool := msb 256 hdr ++ (cells.map byteBits).flatten

/-- Blocks of a pilot symbol and 334 data symbols (R145). -/
def blocks (n : Nat) (l : List Bool) : List Bool := ((bitRuns 1336 n l).map fun b => pilots 1 ++ b).flatten

/-- A lane frame of 16 cells: 168,960 line bits (R145). -/
def laneFrame (light : Bool) (tag frame hdr : Nat) (cells : List Bytes) : List Bool :=
  alignment ++ blocks 126 (scramble (frameSeed tag frame) (coded light 27 1336 (frameInfo hdr cells)))

/-- A slot frame of 24 cells: guard, alignment word, 187 blocks whose data ends with 100 zero bits, fill (R204). -/
def slotFrame (light : Bool) (tag frame hdr : Nat) (cells : List Bytes) : List Bool :=
  pilots 248 ++ alignment ++ blocks 187 (scramble (frameSeed tag frame) (padBits 249832 (coded light 40 1982 (frameInfo hdr cells)))) ++ pilots 565

/-! ### The frame header (R153, R154) -/

/-- The link whose cells a lane sends: in service, or bridged for a position (R160). -/
def sendLink (s : State) (f k : Nat) : Option PhysLink :=
  let x := laneOf s f k
  if x.role = .inService ∨ x.role = .bridged then s.opt.links.find? fun l => l.tx && l.inService && decide (l.fibre = f) && decide (l.link = x.link) else none

/-- The width that a lane's header gives: its link's. -/
def widthOf (s : State) (f : Nat) (link : BitVec 6) : Nat :=
  ((s.opt.links.find? fun l => l.tx && decide (l.fibre = f) && decide (l.link = link)).map fun l => l.lanes.length).getD 1

/-- The change that a lane announces in the frames of a superframe: one that applies at one of the next two superframes; or, of a link end
that is being verified, its entry into service at the next (R154, R190; log entry 89, DEDUCED). -/
def nextChange (s : State) (f k : Nat) (sfc : BitVec 32) : Option Announce :=
  match (announced s f k).filter fun a => decide (a.sfc = sfc + 1) || decide (a.sfc = sfc + 2) with
  | some a => some a
  | none =>
    ((txLinkOf s f k).filter fun l => !l.inService && decide (l.verified ≠ some false) && linkLit s l && mayLight s f).map fun l =>
      { fibre := f, lane := k, role := .inService, link := l.link, pos := BitVec.ofNat 5 (posIn l k), width := l.lanes.length, sfc := sfc + 1 }

/-- The frame header that a lane sends in a frame of a superframe (R153). -/
def frameHdr (s : State) (f k : Nat) (sfc : BitVec 32) (frame : Nat) : Nat :=
  let x := laneOf s f k
  2 ^ 136 * b2n (((sendLink s f k).map (lightLink s)).getD false) +
    (match nextChange s f k sfc with
     | some a => 2 ^ 137 * a.sfc.toNat + 2 ^ 169 * (a.width - 1) + 2 ^ 174 * a.pos.toNat + 2 ^ 179 * (a.link.toNat % 8) + 2 ^ 182 * a.role.code + 2 ^ 185
     | none => 0) +
    2 ^ 186 * x.role.code + 2 ^ 189 * (widthOf s f x.link - 1) + 2 ^ 194 * x.pos.toNat + 2 ^ 199 * (x.link.toNat % 8) + 2 ^ 202 * sfc.toNat + 2 ^ 234 * frame +
    2 ^ 240 * laneTag x.tag k

/-! ### The cells of a frame (R149, R156) -/

/-- An idle cell: a valid lane tag and CRC, and everything else zero (R149). -/
def idleCell (tag : Nat) : Bytes := cellBytes (2 ^ 202 * tag) []

/-- The cell that a lane sends in a cell slot of its link: the one placed there, or an idle cell (R156). -/
def cellAt (l : Option PhysLink) (x : Lane) (k slot : Nat) : Bytes :=
  let tag := laneTag x.tag k
  match l.bind fun y => y.queue.find? fun c => decide (c.slot = slot) && decide (c.pos = x.pos.toNat) with
  | some c => cellBytes (c.hdr + 2 ^ 202 * tag) c.body
  | none => idleCell tag

/-- The number of a frame lane among the outputs. -/
def laneOut (f k : Nat) (b : List Bool) (s : State) : State := emit .symbols (laneKey f k) (symbols b) s

/-- The lanes of a fibre that send. -/
def litLanes (s : State) (f : Nat) : List Nat := (List.range 33).filter fun k => (laneOf s f k).txOn

/-- The lane frame that a lane sends as frame 0 to 63 of the superframe at hand (R145, R153). -/
def laneFrameOf (s : State) (f k frame : Nat) : List Bool :=
  let x := laneOf s f k
  let l := sendLink s f k
  laneFrame ((l.map (lightLink s)).getD false) (laneTag x.tag k) frame (frameHdr s f k (fibreOf s f).sfc frame)
    ((List.range 16).map fun j => cellAt l x k (16 * frame + j))

/-- The cells of a superframe have been sent: those placed beyond it are counted from the next one (R156). -/
def queueNext (f : Nat) (s : State) : State :=
  modLinks (fun l => l.tx && decide (l.fibre = f)) (fun l =>
    { l with svcNo := 0, queue := (l.queue.filter fun c => decide (1024 ≤ c.slot)).map fun c => { c with slot := c.slot - 1024 } }) s

/-- The 64 lane frames of the superframe that ends, on every lane of a fibre that sends (R145; the record of them at its end: log entry 83, DESIGN CHOICE,
DESIGN CHOICE). In slot mode the fibre's lanes send slot frames instead (R204). -/
def framesOut (f : Nat) (s : State) : State :=
  if fixedLanes s f then s
  else queueNext f ((litLanes s f).foldl (fun t k => (List.range 64).foldl (fun u n => laneOut f k (laneFrameOf s f k n) u) t) s)

/-! ### Slot frames (R204, R205, R208) -/

/-- The cell slots of a slot on a link: those of the slots that carry its cells, 24 to each, counted over the period (R206, R208). -/
def slotCells (s : State) (l : Option PhysLink) (x : Lane) (k slot : Nat) : List Bytes :=
  match l.bind fun y => (linkSlots s y).bind fun ks => (findIdx? (fun n => decide (n = slot)) ks 0).map fun e => e.1 with
  | some i => (List.range 24).map fun j => cellAt l x k (24 * i + j)
  | none => List.replicate 24 (idleCell (laneTag x.tag k))

/-- The slot frame that a fast-plane lane sends in slot k of the period of Bell b: `FH.FRAME` is k mod 64 and `FH.SFC` is b × 1,024 + ⌊k / 64⌋
(R204). -/
def slotFrameOf (s : State) (f k b slot : Nat) : List Bool :=
  let x := laneOf s f k
  let l := sendLink s f k
  slotFrame ((l.map (lightLink s)).getD false) (laneTag x.tag k) (slot % 64) (frameHdr s f k (BitVec.ofNat 32 (b * 1024 + slot / 64)) (slot % 64)) (slotCells s l x k slot)

/-- Something is sent on every fast-plane lane that sends. -/
def fastOut (g : Nat → Nat → List Bool) (s : State) : State :=
  [12, 13, 14, 15].foldl (fun t f => (litLanes s f).foldl (fun u k => laneOut f k (g f k) u) t) s

/-- The slot that ends has sent its slot frames (R204). -/
def slotFramesOut (s : State) : State :=
  match s.job.slotOn with
  | some (b, k) => fastOut (fun f l => slotFrameOf s f l b k) s
  | none => s

end Sys2Proof.Machine
end

