-- ==== Sys2Proof/Machine/PathCmds.lean ====
section
/-!
DEFINITION. The light-path commands of the host (R184, R194, R355), the home configuration at Lit (R181, R366) and its end
(R380), roll call (R182, R183) and the fast plane in slot mode (R202, R205).
-/

namespace Sys2Proof.Machine

/-! ### Path plans (R184, R188, R191) -/

/-- SET_LIGHT_PATHS as it begins (R184, R188). -/
def setLightPaths (b : Bytes) (ref : PktRef) (s : State) : State :=
  if s.sw.plan.isSome || !litUp s || !ceReach s 0 then reply ref stStateInvalid [] s
  else if !s.tm.valid then reply ref stTimeNotValid [] s
  else
    let p := readPlan b
    let c := planCheck false p s
    if c ≠ 0 then reply ref c [] s
    else replyPending ref (s.modSw fun w => { w with plan := some { plan := p, pkt := some ref } })

/-- SET_LIGHT_PATHS (R184). -/
def execSetLightPaths (p : Pkt) (plan : Bytes) (s : State) : Host.Outcome State Fault Refusal :=
  .next (runPkt p 0x0401 plan true (setLightPaths plan) s)

/-- PATH_PLAN_CANCEL: the waiting plan's final reply carries 0x0203; within 1 ms of `PP.ACT` or later it is refused (R355). -/
def cancelPlan (num : BitVec 32) (ref : PktRef) (s : State) : State :=
  match s.sw.plan with
  | some r =>
    if r.plan.planId = num ∧ r.phase = PlanPhase.waiting ∧ 64000000 < timeDiff r.plan.act s.tm.ft then
      reply ref 0 [] (replyOpt r.pkt stCancelled [] (s.modSw fun w => { w with plan := none }))
    else reply ref stStateInvalid [] s
  | none => reply ref stStateInvalid [] s

/-- PATH_PLAN_CANCEL (R355). -/
def execPathPlanCancel (p : Pkt) (num : BitVec 32) (s : State) : Host.Outcome State Fault Refusal :=
  .next (runPkt p 0x0402 (le 4 num.toNat) true (cancelPlan num) s)

/-! ### Fallback plans (R194) -/

/-- STORE_FALLBACK as it begins: checked as R188 says, and armed under the fabric profile in force (R194). -/
def storeFallback (i : Nat) (sig : BitVec 32) (b : Bytes) (ref : PktRef) (s : State) : State :=
  let c := planCheck true (readPlan b) s
  if c ≠ 0 then reply ref c [] s
  else
    let f : Fallback := { sig := sig, plan := readPlan b, armed := true, profId := s.prof.fabId, image := b.take (32 + 16 * (readPlan b).nent) }
    reply ref 0 [] (s.modSw fun w => { w with fallbacks := tset {} w.fallbacks i f })

/-- STORE_FALLBACK (R194, R195): index 0 to 15, a signature of kind 1 to 5. -/
def execStoreFallback (p : Pkt) (index : BitVec 8) (sig : BitVec 32) (plan : Bytes) (s : State) : Host.Outcome State Fault Refusal :=
  .next (runPkt p 0x0403 (le 1 index.toNat ++ le 4 sig.toNat ++ plan)
    (decide (index.toNat < 16) && decide (1 ≤ fld sig.toNat 28 4) && decide (fld sig.toNat 28 4 ≤ 5)) (storeFallback index.toNat sig plan) s)

/-- The armed mask. -/
def armedMask (s : State) : Nat := ofBits ((s.sw.fallbacks.filter fun e => e.2.armed).map (·.1))

/-- Arm or disarm the stored plans of a mask; a plan stored under another fabric profile stays disarmed (R194, R196). -/
def armBody (mask : BitVec 16) (arm : Bool) (ref : PktRef) (s : State) : State :=
  let hit := fun (e : Nat × Fallback) => mask.getLsbD e.1 && (!arm || decide (e.2.profId = s.prof.fabId))
  let t := s.modSw fun w => { w with fallbacks := w.fallbacks.map fun e => if hit e then (e.1, { e.2 with armed := arm, used := e.2.used && !arm }) else e }
  reply ref 0 (le 2 (armedMask t)) t

/-- FALLBACK_ARM 1 (R194). -/
def execFallbackArm (p : Pkt) (mask : BitVec 16) (s : State) : Host.Outcome State Fault Refusal :=
  .next (runPkt p 0x0404 (le 2 mask.toNat ++ le 1 1) true (armBody mask true) s)

/-- FALLBACK_ARM 0 (R194). -/
def execFallbackDisarm (p : Pkt) (mask : BitVec 16) (s : State) : Host.Outcome State Fault Refusal :=
  .next (runPkt p 0x0404 (le 2 mask.toNat ++ le 1 0) true (armBody mask false) s)

/-- FALLBACK_READ: plan, signature and state, in that order (R355). -/
def execFallbackRead (p : Pkt) (index : BitVec 8) (buf : Buf) (s : State) : Host.Outcome State Fault Refusal :=
  .next (runPkt p 0x0405 (le 1 index.toNat ++ buf.bytes) (decide (index.toNat < 16)) (fun r t =>
    match t.sw.fallbacks.find? fun e => decide (e.1 = index.toNat) with
    | some e => replyBuf r buf (e.2.image ++ le 4 e.2.sig.toNat ++ le 1 (b2n e.2.armed)) [] t
    | none => reply r stStateInvalid [] t) s)

/-! ### Crosspoints by command (R355) -/

/-- A crosspoint of R175: a line, an input and an output of one plane, at most one of them local. -/
def xpOk (line inp out : Nat) : Bool :=
  decide (line < 33) && decide (inp ≤ 16) && decide (out ≤ 16) && !(decide (inp = 16) && decide (out = 16)) &&
    (decide (inp = 16) || decide (out = 16) || decide (fastFibre inp = fastFibre out))

/-- A crosspoint may be commanded: Lit, an accepted Prefect, a native group, and no slot table on its plane (R13, R187). -/
def xpAllowed (x : Xp) (s : State) : Bool :=
  litUp s && ceReach s 0 && !(x.fast && slotMode s) && (decide (x.inp = 16) || nativeFibre s x.inp) && (decide (x.out = 16) || nativeFibre s x.out)

/-- The link ends that use a crosspoint leave service (R187). -/
def dropUsers (x : Xp) (s : State) : State := dropLinks (fun l => l.lanes.any fun k => x.same (laneXp l k)) s

/-- SET_CROSSPOINT with set 1: refused where R175 would not hold (R355). -/
def setCrosspoint (x : Xp) (ref : PktRef) (s : State) : State :=
  if !xpAllowed x s || s.sw.xps.any (fun y => y.clash x && decide (y.st ≠ .failed)) then reply ref stStateInvalid [] s
  else reply ref 0 [] (admitNow (setXp x s))

/-- SET_CROSSPOINT with set 0 (R355). -/
def clearCrosspoint (x : Xp) (ref : PktRef) (s : State) : State :=
  if !xpAllowed x s then reply ref stStateInvalid [] s
  else reply ref 0 [] (admitNow (clearXps (fun y => y.same x) (if s.sw.xps.any x.same then dropUsers x s else s)))

/-- SET_CROSSPOINT (R355). -/
def execSetCrosspoint (p : Pkt) (line inp out : BitVec 8) (s : State) : Host.Outcome State Fault Refusal :=
  .next (runPkt p 0x040C (le 1 line.toNat ++ le 1 inp.toNat ++ le 1 out.toNat ++ le 1 1) (xpOk line.toNat inp.toNat out.toNat)
    (setCrosspoint { line := line.toNat, inp := inp.toNat, out := out.toNat, st := .waiting }) s)

/-- SET_CROSSPOINT, clear (R355). -/
def execClearCrosspoint (p : Pkt) (line inp out : BitVec 8) (s : State) : Host.Outcome State Fault Refusal :=
  .next (runPkt p 0x040C (le 1 line.toNat ++ le 1 inp.toNat ++ le 1 out.toNat ++ le 1 0) (xpOk line.toNat inp.toNat out.toNat)
    (clearCrosspoint { line := line.toNat, inp := inp.toNat, out := out.toNat }) s)

/-! ### The home configuration at Lit, and leaving Lit (R181, R366, R380) -/

/-- The logical links are those of this module's identifier, which may have changed with the transition to Lit (R214, R450). -/
def relink (s : State) : State :=
  match s.prof.fab with
  | none => s
  | some p =>
    let ls := logLinksOf (moduleId s) p
    if ls.map (fun l => (l.name, l.tx, l.peer)) = s.prof.logLinks.map (fun l => (l.name, l.tx, l.peer)) then s
    else s.modProf fun x => { x with logLinks := ls }

/-- The module reaches Lit: every native fibre takes the home configuration, its crosspoints set and its transmitters on; each
home link enters service by the steps of R190 as its neighbour lights; the lanes of an XN5 group wait for their assignments (R167, R181,
R366). -/
def homeUp (s : State) : State :=
  let fs := (List.range 16).filter fun f => nativeFibre s f
  let s1 := (relink s).modSw fun w => { w with xps := (fs.map homeXps).flatten.map fun x => { x with st := .held } }
  let s2 := fs.foldl (fun t f => gateIssue 4 5 [f] (modRot f (fun r => { r with line := (spareOf t f).getD 32, running := false, step := none }) (homeFibre f (lanesOn f true t)))) s1
  ((List.range 16).filter fun f => decide (modeOf s f = .xn5)).foldl (fun t f =>
    modLanes f (List.range 33) (fun l => { l with spare := false, role := .unassigned, subst := false, cal := false, txOn := !l.failed }) t) s2

/-- The module leaves Lit: lanes off, fibres dark, combs down, crosspoints cleared, fabric time invalid (R380, R246). -/
def opticsDark (s : State) : State :=
  let s1 := (List.range 16).foldl (fun t f => fibreDark f t) s
  let s2 := s1.modOpt fun o =>
    { o with links := [], announce := [], reliefs := [], k4For := none, k4Swap := none, degraded := [],
             combs := o.combs.map fun e => (e.1, { e.2 with lit := false, locked := false, failed := false }) }
  let s3 := s2.modSw fun w => { w with xps := [], fbNext := [], rcState := 0 }
  let s4 := timeInvalid 2 s3
  (List.range 16).foldl (fun t f => modFibre f (fun x => { x with los := true, apr := false, beaconOk := false, rxRank := 15, rxNext := [] }) t)
    (s4.modTm fun t => { t with gm := false, gmId := none, rank := 15, freqFibre := none, freqModule := 0, timeParent := none, timePort := 0, holdover := false, goodOffs := 0,
                                stepped := false, slew := 0, adjLeft := 0, atPps := none, ports := t.ports.map fun e => (e.1, { e.2 with st := .disabled, annSeen := false, reqTx := none }) })

/-! ### Roll call (R182, R183) -/

/-- The roll-call result of a receiving fibre. -/
def rcOf (s : State) (f : Nat) : RcResult := tget {} s.sw.rc f

/-- Change it. -/
def modRc (f : Nat) (g : RcResult → RcResult) (s : State) : State := s.modSw fun w => { w with rc := tmod {} w.rc f g }

/-- ROLL_CALL open: the previous results are discarded; a roll call still open ends without its answer (R182). -/
def rollOpen (ident : BitVec 32) (ref : PktRef) (s : State) : State :=
  if !litUp s then reply ref stStateInvalid [] s
  else
    let s1 := replyOpt s.sw.rcPkt stCancelled [] s
    replyPending ref (s1.modSw fun w => { w with rcState := 1, rcId := ident, rcPkt := some ref, rc := [] })

/-- ROLL_CALL 0 (R182). -/
def execRollCallOpen (p : Pkt) (ident : BitVec 32) (s : State) : Host.Outcome State Fault Refusal :=
  .next (runPkt p 0x0406 (le 1 0 ++ le 4 ident.toNat) true (rollOpen ident) s)

/-- ROLL_CALL 1: `BC.RC_STATE` = 3 (R182). -/
def execRollCallClose (p : Pkt) (ident : BitVec 32) (s : State) : Host.Outcome State Fault Refusal :=
  .next (runPkt p 0x0406 (le 1 1 ++ le 4 ident.toNat) true (fun r t =>
    reply r 0 [] ((replyOpt t.sw.rcPkt stCancelled [] t).modSw fun w => { w with rcState := 3, rcPkt := none })) s)

/-- The body of a roll-call answer; `RA.T_TX` is written as its cell leaves (R183). -/
def rollBody (s : State) (f : Nat) : Bytes :=
  let r := rcOf s f
  le 8 r.lastRx.toNat ++ le 8 r.lastTx.toNat ++ zeros 8 ++
    le 8 (2 ^ 8 * r.seqOut.toNat + 2 ^ 16 * f + 2 ^ 20 * (moduleId s).toNat + 2 ^ 32 * s.sw.rcId.toNat)

/-- An answer waits on a link (R182 step 3). -/
def rollAnswer (l : PhysLink) (s : State) : State :=
  modRc l.fibre (fun r => { r with seqOut := r.seqOut + 1 }) (queueMsg l.key 4 (rollBody s l.fibre) s)

/-- ROLL_CALL_ANSWER_TIMER: each ms of the 100 ms, an answer on each link without an express hop (R182). -/
def execRollCallAnswerTimer (s : State) : Host.Outcome State Fault Refusal :=
  if litUp s && decide (s.sw.rcState = 1) then .next ((s.opt.links.filter fun l => l.tx && l.noHop && l.inService).foldl (fun t l => rollAnswer l t) s)
  else .next s

/-- ROLL_CALL_ANSWER: the one-way and two-way sums (R183). -/
def rollTake (f : Nat) (b : Bytes) (trx : BitVec 64) (s : State) : State :=
  let ttx := BitVec.ofNat 64 (rd b 16 8)
  let d := timeDiff trx ttx
  let e := timeDiff (BitVec.ofNat 64 (rd b 0 8)) (BitVec.ofNat 64 (rd b 8 8))
  modRc f (fun r => { r with answers := r.answers + 1, sumOne := r.sumOne + d, twoWay := d + e, lastTx := ttx, lastRx := trx }) s

/-- ROLL_CALL_ANSWER (R183): one of the roll call in progress, on a link without an express hop. -/
def execRollCallAnswer (fibre link : Nat) (msg : Bytes) (trx : BitVec 64) (s : State) : Host.Outcome State Fault Refusal :=
  match physLink s fibre link false with
  | some l => if litUp s && l.noHop && decide (s.sw.rcState = 1) && decide (rd msg 28 4 = s.sw.rcId.toNat) then .next (rollTake fibre msg trx s) else .next s
  | none => .next s

/-- ROLL_CALL_DONE: the identifier, fibres heard and fibres measured (R182 step 4). -/
def rollDone (s : State) : State :=
  let heard := (s.sw.rc.filter fun e => e.2.heard).length
  let meas := (s.sw.rc.filter fun e => decide (e.2.answers ≠ 0)).length
  replyOpt s.sw.rcPkt 0 [] (raise evRollCallDone srcSv (le 4 s.sw.rcId.toNat ++ leSat 4 heard ++ leSat 4 meas) (s.modSw fun w => { w with rcState := 2, rcPkt := none }))

/-- ROLL_CALL_DONE (R182). -/
def execRollCallDone (s : State) : Host.Outcome State Fault Refusal := if litUp s && decide (s.sw.rcState = 1) then .next (rollDone s) else .next s

/-- A mean, rounded; which way a tie goes is a free value (R183). -/
def meanOf (x : Int) (n : Nat) (s : State) : Int × State :=
  let r := 2 * (x % n)
  if r < n then (x / n, s) else if r = n then (x / n + b2n ((freeVal 1 s).getLsbD 0), useFree s) else (x / n + 1, s)

/-- The latency of a fibre's span and whether it is two-way; unmeasured, the value is free (R182, R183). -/
def latencyOf (f : Nat) (s : State) : Int × Bool × State :=
  let r := rcOf s f
  if r.answers = 0 then ((freeVal 64 s).toInt, false, useFree s)
  else if s.tm.valid then ((meanOf r.sumOne r.answers s).1, false, (meanOf r.sumOne r.answers s).2)
  else ((halfOf r.twoWay s).1, true, (halfOf r.twoWay s).2)

/-- ROLL_CALL_READ (R182, R355). -/
def execRollCallRead (p : Pkt) (fibre : BitVec 8) (s : State) : Host.Outcome State Fault Refusal :=
  .next (runPkt p 0x0407 (le 1 fibre.toNat) (decide (fibre.toNat < 16)) (fun ref t =>
    let r := rcOf t fibre.toNat
    let l := latencyOf fibre.toNat t
    reply ref 0 (le 2 r.module.toNat ++ le 1 r.port.toNat ++ le 1 r.rank.toNat ++ le 2 r.power.toNat ++ leSat 2 r.answers ++ leInt 8 l.1 ++ le 1 (b2n l.2.1)) l.2.2) s)

/-! ### The fast plane in slot mode (R202, R205, R206) -/

/-- The crosspoints of a configuration entry: each outgoing fibre's source for each line, and what no output takes dropped to
its local receiver (R206). -/
def confXps (c : BitVec 512) : List Xp :=
  ((List.range 33).map fun k =>
    ((List.range 4).filterMap fun o =>
      let v := fcSrc c k o
      if v < 4 then some ({ line := k, inp := 12 + v, out := 12 + o } : Xp) else if v = 4 then some { line := k, inp := 16, out := 12 + o } else none) ++
    ((List.range 4).filterMap fun i => if (List.range 4).any fun o => decide (fcSrc c k o = i) then none else some ({ line := k, inp := 12 + i, out := 16 } : Xp))).flatten

/-- The fast plane's home configuration. -/
def fastHome : List Xp := (((List.range 4).map fun o => homeXps (12 + o)).flatten).map fun x => { x with st := .held }

/-- The crossbars of the fast plane take a configuration. -/
def setFast (l : List Xp) (s : State) : State := s.modSw fun w => { w with xps := (w.xps.filter fun x => !x.fast) ++ l }

/-- A slot is shorter than 1,024 ns: the period's last, in which no slot frame is sent (R202). -/
def lastSlot (s : State) (k : Nat) : Bool := decide (periodLen s < 65536 * (k + 1))

/-- A slot starts, and the one before it has sent its frames: its configuration, or the home configuration inside a calibration window;
the slots of a link are counted anew in each period. In a final slot shorter than 1,024 ns the lanes carry pilot symbols only (R202,
R204, R205). -/
def slotStart (i : Image) (t : SlotTable) (s : State) : State :=
  let k := s.job.slot
  let s0 := slotFramesOut s
  let s1 := setFast (if k ∈ calSlots (oppF i) i.recess then fastHome else confXps (t.confs.getD (t.slots.getD k 0) 0)) s0
  let s2 := if k = 0 then modLinks (fun l => fastFibre l.fibre) (fun l => { l with freeSlot := 0, svcNo := 0, queue := [] }) s1 else s1
  let s3 := if lastSlot s k then fastOut (fun _ _ => pilots (62 * ((periodLen s - 65536 * k) / 64))) s2 else s2
  s3.modJob fun j => { j with slot := k + 1, slotOn := if lastSlot s k then none else some (j.bell, k) }

/-- FASTPLANE_SLOT_ERROR for each fibre whose slot frame came outside its guard (R209). -/
def slotErrors (fibres : List Nat) (offs : List Int) (s : State) : State :=
  (fibres.zip offs).foldl (fun t q => raise evFastplaneSlotError (srcFibre q.1) (le 1 q.1 ++ leSat 2 s.job.slot ++ leInt 8 q.2) t) s

/-- FASTPLANE_SLOT_BOUNDARY (R202): in every job state while an image with a slot table is loaded. -/
def execFastplaneSlotBoundary (fibres : List Nat) (offs : List Int) (s : State) : Host.Outcome State Fault Refusal :=
  match s.job.image with
  | some i => match i.slots with
    | some t => if litUp s && s.job.gridOn then .next (slotStart i t (slotErrors fibres offs s)) else .next s
    | none => .next s
  | none => .next s

end Sys2Proof.Machine
end

