-- ==== Sys2Proof/Machine/Lanes.lean ====
section
/-!
DEFINITION. What befalls lanes, fibres and comb sources: lane failures and reliefs (R160 to R162), bit-error measurement
(R147, R158), loss of signal and power reduction (R164, R165), beacons (R166, R182), comb faults and K4 (R141), and group
modes (R170).
-/

namespace Sys2Proof.Machine

/-! ### Lane failures (R161, R162, R200) -/

/-- LANE_FAILED with its cause: 1 FEC lock, 2 lane tag, 3 transmitter (R161). -/
def laneFailed (f x cause : Nat) (s : State) : State :=
  raise evLaneFailed (srcFibre f) (le 1 f ++ le 1 x ++ le 1 cause ++ le 2 (laneOf s f x).berLog.toNat) s

/-- The fault of kind 2 of a link that was narrowed (R162, R195). -/
def narrowFault (f : Nat) (r : Option PhysLink × State) : State :=
  match r.1 with
  | some l => fault (sigOf 2 f l.link.toNat) r.2
  | none => r.2

/-- A transmitted lane has failed: relieved, or its link narrowed with the fault of kind 2 (R161, R162, R195). -/
def txLaneFails (f x : Nat) (s : State) : State :=
  narrowFault f (laneFails f x s)

/-- The fibre of the transmitting module that feeds a received link. -/
def farFibre (s : State) (l : PhysLink) : Nat := if l.tag = 0 then (fibreOf s l.fibre).rxPort.toNat else l.peerFibre.toNat

/-- A received lane has failed: LANE_FAILED, the report to the transmitter, the line check, and for a lane tag
LANE_TAG_MISMATCH and the fault of kind 5 (R161, R195, R200). -/
def rxLaneFails (f x cause found : Nat) (l : PhysLink) (s : State) : State :=
  let s1 := modLane f x (fun y => { y with fecLock := y.fecLock && decide (cause ≠ 1) }) (laneFailed f x cause s)
  let s2 := laneMessage false (l.far s1) (farFibre s1 l) x s1
  if cause = 2 then
    let s3 := raise evLaneTagMismatch (srcFibre f) (le 1 f ++ le 1 x ++ le 2 (laneTag l.tag x) ++ le 2 found) s2
    fault (sigOf 5 f l.link.toNat) (sendLineCheck l.tag x s3)
  else sendLineCheck l.tag x s2

/-- The number of a photonic ring: receive or transmit, fibre, line (R277). -/
def photonKey (rx : Bool) (f x : Nat) : Nat := (if rx then 528 else 0) + f * 33 + x

/-- A wrong lock of a photonic ring: the engine moves it one line toward the intended one and counts again, with WRONG_LINE_LOCK; the trigger is
1 the count, 2 the spacing, 3 the lane tag, which has no count (R277; log entry 98, DEDUCED). Answers none after the second relock. -/
def photonRelock (rx : Bool) (f x found trig : Nat) (s : State) : Option State :=
  let key := photonKey rx f x
  let n := tget 0 s.ce.rings key
  if n < 2 then
    some (raise evWrongLineLock (ceSrc (f / 4)) (le 1 x ++ le 1 f ++ le 1 (if rx then 14 else 15) ++ leSat 1 (lockCount x) ++ leSat 1 found ++ leSat 1 (n + 1) ++ le 1 trig)
      (s.modCe fun c => { c with rings := tset 0 c.rings key (n + 1) }))
  else none

/-- A photonic ring forgets its relocks. -/
def photonDone (rx : Bool) (f x : Nat) (s : State) : State := s.modCe fun c => { c with rings := tset 0 c.rings (photonKey rx f x) 0 }

/-- The lane of a photonic ring fails after its second relock (R161, R277). -/
def photonFails (rx : Bool) (f x : Nat) (s : State) : State :=
  let s1 := photonDone rx f x s
  if rx then (match rxLinkOf s1 f x with
    | some l => rxLaneFails f x 2 0 l s1
    | none => laneFailed f x 2 (modLane f x (fun y => { y with failed := true }) s1))
  else if (laneOf s1 f x).failed then s1 else txLaneFails f x (laneFailed f x 3 s1)

/-- A photonic ring has swept and locked (R198, R277). -/
def photonLock (rx : Bool) (f x count : Nat) (spaced : Bool) (s : State) : State :=
  if count = lockCount x ∧ spaced = true then photonDone rx f x s
  else (photonRelock rx f x count (if count = lockCount x then 2 else 1) s).getD (photonFails rx f x s)

/-- RING_STEP_COMPLETE (R193, R198, R277): output 14 or 15 is a receive or transmit ring of the fibre in the input field, which lies on a
photonic die; any other is a crosspoint of the slow plane. -/
def execRingStepComplete (line inp out count : Nat) (spaced : Bool) (s : State) : Host.Outcome State Fault Refusal :=
  if !litUp s then .next s
  else if out = 14 ∨ out = 15 then (if inp < 16 ∧ line < 33 then .next (photonLock (decide (out = 14)) inp line count spaced s) else .next s)
  else match s.sw.xps.find? fun x => decide (x.line = line) && decide (x.inp = inp) && decide (x.out = out) && decide (x.st = .stepping) with
    | some x => .next (ringStep x count spaced s)
    | none => .next s

/-- LANE_FAILURE: at the receiver by FEC lock or lane tag for one superframe, or at the transmitter by a modulator or ring fault (R161). A lane
tag that fails also has the engine move the receive ring and count again (R277). -/
def execLaneFailure (fibre lane cause found : Nat) (s : State) : Host.Outcome State Fault Refusal :=
  if !litUp s ∨ 16 ≤ fibre ∨ 33 ≤ lane then .next s
  else if cause = 3 then .next (if (laneOf s fibre lane).failed then s else txLaneFails fibre lane (laneFailed fibre lane 3 s))
  else match rxLinkOf s fibre lane with
    | some l =>
      if l.inService && decide (cause = 1 ∨ cause = 2) then
        let t := rxLaneFails fibre lane cause found l s
        .next (if cause = 2 then (photonRelock true fibre lane 0 3 t).getD (photonDone true fibre lane t) else t)
      else .next s
    | none => .next s

/-- LANE_FAILURE_REPORT: a lane-control message reaches the transmitter, or is relayed (R160, R161). -/
def execLaneFailureReport (port : Nat) (msg : Bytes) (fibre lane : Nat) (s : State) : Host.Outcome State Fault Refusal :=
  if !litUp s ∨ 1024 ≤ port ∨ 16 ≤ fibre ∨ 33 ≤ lane then .next s else .next (takeP2p 6 msg (txLaneFails fibre lane) s)

/-! ### Steps of a relief (R160) -/

/-- The spare's line has the link's path: it is added at this module with the path's tag. -/
def retargeted (r : Relief) (l : PhysLink) (s : State) : State :=
  modLane r.fibre r.spare (fun x => { x with tag := l.tag, txOn := mayLight s r.fibre })
    (gateIssue 4 1 [r.spare, 16, r.fibre]
      (s.modSw fun w => { w with xps := (w.xps.filter fun y => !y.same (laneXp l r.spare)) ++ [{ laneXp l r.spare with st := .held, tag := l.tag }] }))

/-- SPARE_RETARGET_DONE: the spare announces the bridge; for a failed lane it announces the position at once (R160, R161). -/
def retargetDone (r : Relief) (s : State) : State :=
  match txLinkOf s r.fibre r.lane with
  | none => spareBack r.fibre r.spare (dropRelief r.fibre s)
  | some l =>
    let s1 := retargeted r l s
    let w := (nextLanes s r.fibre l.link).length
    if r.forFail then
      announce r.fibre r.lane .unassigned l.link 0 1 (announce r.fibre r.spare .inService l.link r.pos.toNat w (modRelief r.fibre (fun x => { x with step := 4 }) s1))
    else announce r.fibre r.spare .bridged l.link r.pos.toNat w (modRelief r.fibre (fun x => { x with step := 2 }) s1)

/-- SPARE_RETARGET_DONE (R160). -/
def execSpareRetargetDone (fibre : Nat) (s : State) : Host.Outcome State Fault Refusal :=
  match reliefOn s fibre with
  | some r => if litUp s && decide (r.step = 1) then .next (retargetDone r s) else .next s
  | none => .next s

/-- The far receiver has the spare: the roll is announced, the spare in position, the lane in calibration (R160 step 4). -/
def laneReady (f k : Nat) (s : State) : State :=
  match reliefOn s f with
  | some r =>
    if r.spare = k ∧ r.step = 2 then
      let w := (nextLanes s f r.link).length
      announce f r.lane .calibrating r.link r.pos.toNat w (announce f k .inService r.link r.pos.toNat w (modRelief f (fun x => { x with step := 4 }) s))
    else s
  | none => s

/-- LANE_READY_MESSAGE (R160). -/
def execLaneReadyMessage (port : Nat) (msg : Bytes) (fibre lane : Nat) (s : State) : Host.Outcome State Fault Refusal :=
  if !litUp s ∨ 1024 ≤ port then .next s else .next (takeP2p 6 msg (laneReady fibre lane) s)

/-- LANE_FORCE_SPARE: the spare relieves a lane by bridge and roll; refused where it cannot (R159, R160, R355). -/
def forceSpare (f x : Nat) (ref : PktRef) (s : State) : State :=
  match txLinkOf s f x, spareOf s f with
  | some l, some k =>
    if !litUp s || !ceReach s 0 || !l.inService || (reliefOn s f).isSome || (rotOf s f).step.isSome || fixedLanes s f || !nativeFibre s f || (fibreOf s f).apr then
      reply ref stStateInvalid [] s
    else
      let c := lineFree s f k l
      if c.1 then replyPending ref (beginRelief f k x l false (some ref) c.2) else reply ref stStateInvalid [] (spareBlocked f x 1 c.2)
  | _, _ => reply ref stStateInvalid [] s

/-- LANE_FORCE_SPARE (R355). -/
def execLaneForceSpare (p : Pkt) (fibre lane : BitVec 8) (s : State) : Host.Outcome State Fault Refusal :=
  .next (runPkt p 0x040D (le 1 fibre.toNat ++ le 1 lane.toNat) (decide (fibre.toNat < 16) && decide (lane.toNat < 33)) (forceSpare fibre.toNat lane.toNat) s)

/-- LANE_FAILED_CLEAR: a cleared lane that no link has announces that it is the fibre's spare where it has none; below Lit, where nothing is
sent, it is so at once (R154, R158, R161). -/
def clearFailed (f x : Nat) (s : State) : State :=
  if (laneOf s f x).failed then
    let sp := noSpare s f && (txLinkOf s f x).isNone && decide (modeOf s f = .native)
    let s1 := modLane f x (fun l => { l with failed := false, txOn := litUp s && mayLight s f && decide (modeOf s f ≠ .faceplate) }) s
    if !sp then s1
    else if litUp s then announceRole f x .spare s1
    else modLane f x (fun l => { l with spare := true, role := .spare }) s1
  else s

/-- LANE_FAILED_CLEAR, under the claim of an accepted Prefect (R13, R161, R355). -/
def execLaneFailedClear (p : Pkt) (fibre lane : BitVec 8) (s : State) : Host.Outcome State Fault Refusal :=
  .next (runPkt p 0x040E (le 1 fibre.toNat ++ le 1 lane.toNat) (decide (fibre.toNat < 16) && decide (lane.toNat < 33))
    (fun ref t => if ceReach t 0 then reply ref 0 [] (clearFailed fibre.toNat lane.toNat t) else reply ref stStateInvalid [] t) s)

/-! ### Bit errors (R147, R158) -/

/-- ⌊−100 × log₁₀(errors / bits)⌋, saturating at 1,023: the greatest n with 10ⁿ × errors¹⁰⁰ ≤ bits¹⁰⁰ (R158). -/
def berLogOf (errors bits : Nat) : Nat :=
  if errors = 0 then 1023
  else [512, 256, 128, 64, 32, 16, 8, 4, 2, 1].foldl (fun n d => if 10 ^ (n + d) * errors ^ 100 ≤ bits ^ 100 then n + d else n) 0

/-- BER_MEASUREMENT: the lane's readback, held while the lane is in calibration (R289); FEC_MARGIN_LOW above half the
threshold of the link's mode, 2 × 10⁻³ in Full and 10⁻⁴ in Light (R146, R147). -/
def berMeasured (f k errors bits : Nat) (s : State) : State :=
  let s1 := if rxCal s f k then s else modLane f k (fun l => { l with berLog := BitVec.ofNat 10 (berLogOf errors bits) }) s
  match rxLinkOf s f k with
  | none => s1
  | some l =>
    let light := lightLink s l
    if (if light then decide (bits < 10000 * errors) else decide (2 * bits < 1000 * errors)) then
      raise evFecMarginLow (srcFibre f) (le 1 f ++ le 1 k ++ le 1 (b2n light) ++ le 2 (laneOf s1 f k).berLog.toNat) s1
    else s1

/-- BER_MEASUREMENT (R147). -/
def execBerMeasurement (fibre lane errors bits : Nat) (s : State) : Host.Outcome State Fault Refusal :=
  if litUp s && decide (fibre < 16) && decide (lane < 33) && decide (0 < bits) && decide (errors ≤ bits) then .next (berMeasured fibre lane errors bits s) else .next s

/-! ### Loss of signal (R164, R165) -/

/-- FIBRE_LOS: the links received on the fibre leave service, the frequency tree follows, and the fault of kind 1 is
matched (R164, R195, R219, R241). -/
def fibreLos (f : Nat) (power : Int) (s : State) : State :=
  let s1 := modFibre f (fun x => { x with los := true, losAt := s.sc, beaconOk := false, bridges := [], roles := [] }) s
  let s2 := modLanes f (List.range 33) (fun l => { l with fecLock := false }) (dropLinks (fun l => decide (l.fibre = f) && !l.tx) s1)
  let s3 := raise evFibreLos (srcFibre f) (le 1 f ++ leInt 2 power) s2
  fault (sigOf 1 f 0) (treeUpdate s3)

/-- FIBRE_LOS (R164). -/
def execFibreLos (fibre : Nat) (power : Int) (s : State) : Host.Outcome State Fault Refusal :=
  if combsLit s && decide (fibre < 16) && !(fibreOf s fibre).los && decide (modeOf s fibre ≠ .faceplate) then .next (fibreLos fibre power s) else .next s

/-- APR_ENTRY: the transmitter of the pair turns its data lanes off; pilots and beacon stay; the rotation pauses (R163, R165). -/
def aprEntry (f : Nat) (s : State) : State :=
  let s1 := lanesOn f false (dropLinks (fun l => decide (l.fibre = f) && l.tx) (modFibre f (fun x => { x with apr := true }) s))
  raise evAprEntered (srcFibre f) (le 1 f) (modRot f (fun r => { r with paused := true }) s1)

/-- APR_ENTRY (R165). -/
def execAprEntry (fibre : Nat) (s : State) : Host.Outcome State Fault Refusal :=
  if combsLit s && decide (fibre < 16) && (fibreOf s fibre).los && !(fibreOf s fibre).apr && decide (modeOf s fibre ≠ .faceplate) then .next (aprEntry fibre s)
  else .next s

/-- FIBRE_RESTORED: 100 ms of valid beacons; the transmitter returns to full launch, and its links come up again by the steps
of R190 (R164, R165). -/
def fibreRestored (f : Nat) (s : State) : State :=
  let s1 := raise evFibreRestored (srcFibre f) (le 1 f ++ leSat 4 (msSince s (fibreOf s f).losAt)) (modFibre f (fun x => { x with los := false }) s)
  if (fibreOf s f).apr then
    treeUpdate (raise evAprExited (srcFibre f) (le 1 f) (modRot f (fun r => { r with paused := false }) (lanesOn f (litUp s) (modFibre f (fun x => { x with apr := false }) s1))))
  else treeUpdate s1

/-- FIBRE_RESTORED (R164). -/
def execFibreRestored (fibre : Nat) (s : State) : Host.Outcome State Fault Refusal :=
  if combsLit s && decide (fibre < 16) && (fibreOf s fibre).los && (fibreOf s fibre).beaconOk then .next (fibreRestored fibre s) else .next s

/-! ### The beacon (R166, R182) -/

/-- `BC.MODE` of a group (R166). -/
def beaconMode (m : GroupMode) : Nat := if m = .xn5 then 1 else 0

/-- Bits 119 to 16 of the beacon frame that a fibre sends (R166). -/
def beaconData (s : State) (f : Nat) : Nat :=
  2 ^ 20 * s.sw.rcId.toNat + 2 ^ 52 * ((s.tm.freqFibre.getD 0) % 16) + 2 ^ 56 * s.tm.freqModule.toNat + 2 ^ 68 * stepping +
    2 ^ 76 * beaconMode (modeOf s f) + 2 ^ 80 * s.sw.rcState.toNat + 2 ^ 84 * s.tm.rank.toNat + 2 ^ 88 * f + 2 ^ 92 * (moduleId s).toNat

/-- The beacon frame that a fibre sends, 15 bytes as a little-endian number: its data and CRC-16 (R166). -/
def beaconFrame (s : State) (f : Nat) : Bytes := le 15 (2 ^ 16 * beaconData s f + crc16 (beN 13 (beaconData s f)))

/-- A frame's CRC is good (R166). -/
def beaconGood (b : Bytes) : Bool := decide (crc16 (part b 2 13).reverse = rd b 0 2)

/-- BEACON_FRAME: the neighbour's identity, rank and roll call; the frequency tree follows, and a roll call in progress with
the same identifier hears it (R166, R182, R241). -/
def takeBeacon (f : Nat) (b : Bytes) (power : Int) (s : State) : State :=
  let v := rd b 0 15
  let s1 := modFibre f (fun x =>
    { x with rxModule := BitVec.ofNat 12 (v >>> 108), rxPort := BitVec.ofNat 4 (v >>> 104), rxRank := BitVec.ofNat 4 (v >>> 100), rxRc := BitVec.ofNat 4 (v >>> 96),
             rxStep := BitVec.ofNat 8 (v >>> 84), rxRcId := BitVec.ofNat 32 (v >>> 36), beaconOk := true }) s
  let s2 := if s.sw.rcState = 1 ∧ fld v 36 32 = s.sw.rcId.toNat then
      modRc f (fun r => { r with heard := true, module := BitVec.ofNat 12 (v >>> 108), port := BitVec.ofNat 4 (v >>> 104), rank := BitVec.ofNat 4 (v >>> 100), power := BitVec.ofInt 16 power }) s1
    else s1
  treeUpdate s2

/-- BEACON_FRAME (R166). -/
def execBeaconFrame (fibre : Nat) (frame : Bytes) (power : Int) (s : State) : Host.Outcome State Fault Refusal :=
  if combsLit s && decide (fibre < 16) && decide (modeOf s fibre ≠ .faceplate) && beaconGood frame then .next (takeBeacon fibre frame power (prefectInput s)) else .next s

/-! ### Comb sources and K4 (R141) -/

/-- The fibres of a group. -/
def groupFibres (g : Nat) : List Nat := [4 * g, 4 * g + 1, 4 * g + 2, 4 * g + 3]

/-- The light of a group is gone: its links in both directions leave service, its lanes are off, and its lane steps are
abandoned (R141, R301). -/
def groupLoses (g : Nat) (s : State) : State :=
  (groupFibres g).foldl (fun t f => lanesOn f false (dropLinks (fun l => decide (l.fibre = f)) (abandonStep f 3 true t))) s

/-- The light of a group is back: its lanes come up by the steps of R190 (R141). -/
def groupBack (g : Nat) (s : State) : State := (groupFibres g).foldl (fun t f => lanesOn f (!(fibreOf t f).apr) t) s

/-- K4 may take a source's place: it is free, lit and locked, and an accepted Prefect commands it (R13, R141). -/
def k4Free (s : State) : Bool := s.opt.k4For.isNone && s.opt.k4Swap.isNone && (combOf s 4).lit && (combOf s 4).locked && ceReach s 0

/-- The optical switch of K4 begins to move, by a command to the gate of the source and of K4 (R13, R141). -/
def switchK4 (w : K4Swap) (s : State) : State :=
  gateIssue 9 3 [2, w.src, b2n w.back] (gateIssue (5 + w.src) 3 [2, w.src, b2n w.back] (s.modOpt fun o => { o with k4Swap := some w }))

/-- COMB_SOURCE_FAULT: cause 1 lock lost, with COMB_UNLOCK and the offset, or 2 output fallen; K4 is switched in when it is
free, and else the group goes dark (R141). -/
def combFault (k cause : Nat) (off : Int) (s : State) : State :=
  let s1 := modComb k (fun c => { c with locked := false, failed := true }) s
  let s2 := if cause = 1 then raise evCombUnlock srcSv (le 1 (0x10 + k) ++ leInt 4 off) s1 else s1
  let g := if k = 4 then s.opt.k4For else if s.opt.k4For = some k then none else some k
  match g with
  | none => treeUpdate s2
  | some j =>
    let s3 := groupLoses j s2
    treeUpdate (if k < 4 ∧ k4Free s2 = true then switchK4 { src := k, cause := cause, back := false } s3 else s3)

/-- COMB_SOURCE_FAULT (R141). -/
def execCombSourceFault (src cause : Nat) (offset : Int) (s : State) : Host.Outcome State Fault Refusal :=
  if combsLit s && decide (src < 5) && (combOf s src).lit && !(combOf s src).failed && decide (cause = 1 ∨ cause = 2) then .next (combFault src cause offset s) else .next s

/-- COMB_SWAP_COMPLETE: the switch is made, COMB_SWAPPED names the source replaced and the cause, and a fault that K4 met is
matched as kind 3; or it is not, and the packet is told so (R141, R195, R355). -/
def swapDone (w : K4Swap) (ok : Bool) (s : State) : State :=
  let s1 := s.modOpt fun o => { o with k4Swap := none, k4For := if ok then (if w.back then none else some w.src) else o.k4For }
  let s2 := if ok then raise evCombSwapped srcSv (le 1 (0x10 + (if w.back then 4 else w.src)) ++ le 1 w.cause) (groupBack w.src s1)
    else if w.cause = 3 then groupBack w.src s1 else s1
  let s3 := if ok && !w.back && decide (w.cause ≠ 3) then fault (sigOf 3 w.src 0) s2 else s2
  replyOpt w.pkt 0 (le 1 (b2n ok)) s3

/-- COMB_SWAP_COMPLETE (R141). -/
def execCombSwapComplete (ok : Bool) (s : State) : Host.Outcome State Fault Refusal :=
  match s.opt.k4Swap with
  | some w => if combsLit s then .next (swapDone w ok s) else .next s
  | none => .next s

/-- The loaded image has a stream on a logical link: a forward on it, or a remote context that its cells reach (R141, R167). -/
def nameUsed (s : State) (name : Nat) (tx : Bool) : Bool :=
  if tx then !(fwdsOn s name).isEmpty
  else s.strm.ctx.any fun c => c.2.srcRemote &&
    (let via := (rxOf s (BitVec.ofNat 20 c.1)).via
     if via = 0 then decide (4 * stnDie c.2.prodStn + stnIndex c.2.prodStn = name / 64) else decide (via = name + 1))

/-- The loaded image uses a group's fibres: by the slot table of the fast plane, or by a stream on a link whose physical link, re-bound or
not, stands on them (R141, R215). -/
def groupUsed (s : State) (g : Nat) : Bool :=
  imageLoaded s && ((decide (g = 3) && slotMode s) ||
    (s.prof.logLinks.any fun l => l.bound && decide (l.pFibre.toNat / 4 = g) && nameUsed s l.name l.tx) ||
    s.opt.links.any fun l => decide (l.fibre / 4 = g) && nameUsed s (nameOf s l.fibre l.link.toNat l.tx) l.tx)

/-- COMB_SWAP as it begins (R141, R355). -/
def combSwap (k : Nat) (back : Bool) (ref : PktRef) (s : State) : State :=
  let ok := litUp s && !groupUsed s k && (if back then decide (s.opt.k4For = some k) && s.opt.k4Swap.isNone && ceReach s 0 else k4Free s)
  if ok then replyPending ref (switchK4 { src := k, cause := 3, back := back, pkt := some ref } (groupLoses k s))
  else reply ref stStateInvalid [] s

/-- COMB_SWAP 0 (R355). -/
def execCombSwapIn (p : Pkt) (src : BitVec 8) (s : State) : Host.Outcome State Fault Refusal :=
  .next (runPkt p 0x040B (le 1 src.toNat ++ le 1 0) (decide (src.toNat < 4)) (combSwap src.toNat false) s)

/-- COMB_SWAP 1 (R355). -/
def execCombSwapRestore (p : Pkt) (src : BitVec 8) (s : State) : Host.Outcome State Fault Refusal :=
  .next (runPkt p 0x040B (le 1 src.toNat ++ le 1 1) (decide (src.toNat < 4)) (combSwap src.toNat true) s)

/-! ### Group modes (R167, R170) -/

/-- The modes by number (R355). -/
def groupModes : List GroupMode := [.native, .xn5, .faceplate]

/-- The number of a mode. -/
def modeCode : GroupMode → Nat
  | .native => 0 | .xn5 => 1 | .faceplate => 2

/-- A light path uses a group's fibres: an express crosspoint, a link that a plan made, or an assigned line (R170). -/
def groupPaths (s : State) (g : Nat) : Bool :=
  (s.sw.xps.any fun x => decide (x.inp < 16) && decide (x.out < 16) && (decide (x.inp / 4 = g) || decide (x.out / 4 = g))) ||
    (s.opt.links.any fun l => decide (l.fibre / 4 = g) && decide (l.tag ≠ 0)) || (s.net.xaLines.any fun e => decide (e.1 / 33 / 4 = g))

/-- The links and crosspoints of a group's fibres go, and with them its XN5 transactions (R2, R169) and the ports of its cages (R170, R173). -/
def groupClear (g : Nat) (s : State) : State :=
  let s1 := (groupFibres g).foldl (fun t f => ((t.opt.links.filter fun l => decide (l.fibre = f)).foldl (fun u l => removeLink l u) (abandonStep f 1 false t))) s
  let s2 := clearXps (fun x => (decide (x.inp < 16) && decide (x.inp / 4 = g)) || (decide (x.out < 16) && decide (x.out / 4 = g))) s1
  s2.modNet fun n =>
    { n with xaTxns := n.xaTxns.filter fun t => decide (t.fibre / 4 ≠ g), xaPend := n.xaPend.filter fun p => decide (p.2 / 4 ≠ g),
             cages := [2 * g, 2 * g + 1].foldl (fun t c => tmod {} t c fun x => { x with up := 0, present := false, dpStarted := false, lowPower := true, flags := [] }) n.cages }

/-- A comb source lights again with the others' lock. -/
def combOn (g : Nat) (s : State) : State :=
  if (combOf s g).lit then s else gateIssue (5 + g) 3 [1] (modComb g (fun c => { c with lit := true, locked := combsLocked s, failed := false }) s)

/-- What a group's new mode does to its fibres while the module is Lit: faceplate makes them dark and powers the comb source
down unless K4 stands in for it; XN5 leaves every lane unassigned; native brings the home configuration (R167, R170, R181). -/
def groupEnter (g : Nat) (m : GroupMode) (s : State) : State :=
  let s1 := groupClear g s
  match m with
  | .faceplate =>
    let s2 := (groupFibres g).foldl (fun t f => fibreDark f t) s1
    if s2.opt.k4For = some g then s2 else gateIssue (5 + g) 3 [0] (modComb g (fun c => { c with lit := false, locked := false }) s2)
  | .xn5 => (groupFibres g).foldl (fun t f =>
      modFibre f (fun x => { x with pilots := true })
        (modLanes f (List.range 33) (fun l => { l with spare := false, role := .unassigned, subst := false, cal := false, txOn := mayLight t f && !l.failed }) t)) (combOn g s1)
  | .native => admitNow ((groupFibres g).foldl (fun t f => (homeXps f).foldl (fun u x => setXp x u) (homeFibre f (lanesOn f (mayLight t f) (modFibre f (fun x => { x with pilots := true }) t)))) (combOn g s1))

/-- GROUP_SET_MODE as it begins (R170, R355); no group enters faceplate mode while the bus switch does not answer (R439). -/
def setGroupMode (g : Nat) (m : GroupMode) (ether : BitVec 16) (ref : PktRef) (s : State) : State :=
  if imageLoaded s || groupPaths s g || !ceReach s 0 || (decide (m = .faceplate) && s.net.cmisDown) then reply ref stStateInvalid [] s
  else
    let s1 := s.modNet fun n => { n with etherType := tset 0x88B5 n.etherType g ether }
    let old := modeOf s (4 * g)
    if old = m then reply ref 0 [] s1
    else
      let s2 := (groupFibres g).foldl (fun t f => modFibre f (fun x => { x with mode := m }) t) s1
      let s3 := if litUp s then groupEnter g m s2 else s2
      reply ref 0 [] (raise evGroupModeChanged srcSv (le 1 g ++ le 1 (modeCode old) ++ le 1 (modeCode m)) s3)

/-- GROUP_SET_MODE (R170). -/
def execGroupSetMode (p : Pkt) (group mode : BitVec 8) (ether : BitVec 16) (s : State) : Host.Outcome State Fault Refusal :=
  .next (runPkt p 0x0408 (le 1 group.toNat ++ le 1 mode.toNat ++ le 2 ether.toNat) (decide (group.toNat < 4) && decide (mode.toNat < 3))
    (setGroupMode group.toNat (groupModes.getD mode.toNat .native) ether) s)

end Sys2Proof.Machine
end

