-- ==== Sys2Proof/Machine/Xn5.lean ====
section
/-!
DEFINITION. XN5 compatibility mode: rings, the assignment exchange, and the lines it assigns (R167 to R169). How its messages
travel, how a grant chooses its lines, and what a line's use makes are log entry 15, DEDUCED.
-/

namespace Sys2Proof.Machine

/-! ### Messages (R168) -/

/-- The 24 bytes of an assignment message. -/
def XaMsg.bytes (m : XaMsg) : Bytes :=
  le 24 (m.act.toNat + 2 ^ 103 * m.lines.toNat + 2 ^ 138 * m.count.toNat + 2 ^ 144 * m.dst.toNat + 2 ^ 156 * m.src.toNat + 2 ^ 168 * m.txn.toNat +
    2 ^ 184 * m.op.toNat)

/-- Read an assignment message. -/
def readXa (b : Bytes) : XaMsg :=
  let v := rd b 0 24
  { op := BitVec.ofNat 8 (v >>> 184), txn := BitVec.ofNat 16 (v >>> 168), src := BitVec.ofNat 12 (v >>> 156), dst := BitVec.ofNat 12 (v >>> 144),
    count := BitVec.ofNat 6 (v >>> 138), lines := BitVec.ofNat 33 (v >>> 103), act := BitVec.ofNat 64 v }

/-! ### Rings (R167, R168) -/

/-- The span that leaves a module on a fibre: the fabric profile's home link. -/
def spanFrom (links : List FabLink) (m : BitVec 12) (f : BitVec 4) : Option (BitVec 12 × BitVec 4) :=
  (links.find? fun l => decide (l.a = m) && decide (l.aFibre = f) && decide (l.tag = 0)).map fun l => (l.b, l.bFibre)

/-- The modules of a ring from one on, in the direction of the light, until it comes back to the first. -/
def ringWalk (links : List FabLink) (first : BitVec 12) : Nat → BitVec 12 → BitVec 4 → List (BitVec 12)
  | 0, _, _ => []
  | n + 1, m, f =>
    match spanFrom links m f with
    | none => []
    | some (x, g) => if x = first then [m] else
      let r := ringWalk links first n x g
      if r.isEmpty then [] else m :: r

/-- The ring of a fibre, this module first; empty where the fibre is on no ring. -/
def ringOf (s : State) (f : Nat) : List (BitVec 12) :=
  match s.prof.fab with
  | some p => ringWalk p.links (moduleId s) (p.modules.length + 1) (moduleId s) (BitVec.ofNat 4 f)
  | none => []

/-- The assigner of a ring: its module with the lowest identifier (R168). -/
def assigner (s : State) (f : Nat) : BitVec 12 := (ringOf s f).foldl (fun a m => if m.toNat < a.toNat then m else a) (moduleId s)

/-- This module is the assigner of a ring. -/
def isAssigner (s : State) (f : Nat) : Bool := decide (assigner s f = moduleId s)

/-- The ring from a module on. -/
def ringAt (s : State) (f : Nat) (m : BitVec 12) : List (BitVec 12) :=
  (ringOf s f).dropWhile (fun x => decide (x ≠ m)) ++ (ringOf s f).takeWhile fun x => decide (x ≠ m)

/-- The modules whose outgoing spans lead from one module to another. -/
def arcSpans (s : State) (f : Nat) (src dst : BitVec 12) : List (BitVec 12) := (ringAt s f src).takeWhile fun x => decide (x ≠ dst)

/-- The use of a line of a message at this module: 1 add, 2 drop, 3 pass; 0 off the arc (R167). -/
def lineUse (s : State) (f : Nat) (m : XaMsg) : Nat :=
  let x := moduleId s
  if x = m.src then 1 else if x = m.dst then 2 else if x ∈ arcSpans s f m.src m.dst then 3 else 0

/-- A group in XN5 mode takes part in rings. -/
def xnFibre (s : State) (f : Nat) : Bool := litUp s && decide (f < 16) && decide (modeOf s f = .xn5) && decide (2 ≤ (ringOf s f).length)

/-! ### Pinned lines (R167) -/

/-- The loaded image has a stream on a link end. -/
def linkUsed (s : State) (l : PhysLink) : Bool := nameUsed s (nameOf s l.fibre l.link.toNat l.tx) l.tx

/-- A line carries a stream of the loaded image. -/
def pinned (s : State) (f k : Nat) : Bool := imageLoaded s && s.opt.links.any fun l => decide (l.fibre = f) && decide (k ∈ l.lanes) && linkUsed s l

/-! ### Sending along the ring -/

/-- The next module of the ring. -/
def ringNext (s : State) (f : Nat) : BitVec 12 := ((ringOf s f).drop 1).headD (moduleId s)

/-- Send a message to the next module of the ring: on a link of the ring fibre where one is in service, else by the route
table. -/
def xaSend (f : Nat) (m : XaMsg) (s : State) : State :=
  let on : Option LogLink := (upLinks s).find? fun l => decide (l.pFibre.toNat = f)
  match (if on.isSome then on else routeLink s (ringNext s f)) with
  | some l => if l.up s then queueMsg l.phys 5 m.bytes s else s
  | none => s

/-- Pass a message on, unless the next module is the assigner. -/
def xaPass (f : Nat) (m : XaMsg) (s : State) : State := if ringNext s f = assigner s f then s else xaSend f m s

/-- An acknowledgement of a message. -/
def XaMsg.ack (m : XaMsg) : XaMsg := { m with op := 5, count := 0, lines := 0, act := 0 }

/-! ### The assigner (R168, R169) -/

/-- All 33 lines. -/
def allLines : BitVec 33 := BitVec.ofNat 33 (2 ^ 33 - 1)

/-- The free-line list of one span of a ring: by fibre × 4,096 + the module that it leaves. -/
def spanFree (s : State) (f : Nat) (m : BitVec 12) : BitVec 33 := tget allLines s.net.xaFree (f * 4096 + m.toNat)

/-- Change the free-line lists of spans. -/
def modSpans (f : Nat) (ms : List (BitVec 12)) (g : BitVec 33 → BitVec 33) (s : State) : State :=
  s.modNet fun n => { n with xaFree := ms.foldl (fun t m => tmod allLines t (f * 4096 + m.toNat) g) n.xaFree }

/-- The lines that the assigner may grant: free on every span, not failed and not pinned here (R167, R169). -/
def grantable (s : State) (f : Nat) (ms : List (BitVec 12)) : List Nat :=
  (List.range 33).filter fun k => (ms.all fun m => (spanFree s f m).getLsbD k) && !(laneOf s f k).failed && !(laneOf s f k).cal && !pinned s f k

/-- The first answer to a request: GRANT of the lowest free lines with an activation time at least 2 ms ahead, or DENY. -/
def xaAnswer (f : Nat) (m : XaMsg) (s : State) : XaMsg × State :=
  let ms := arcSpans s f m.src m.dst
  let ks := (grantable s f ms).take m.count.toNat
  if ks.isEmpty ∨ m.dst ∉ ringOf s f ∨ m.src ∉ ringOf s f then ({ m with op := 3, lines := 0, act := 0 }, s)
  else
    let lines := BitVec.ofNat 33 (ofBits ks)
    ({ m with op := 2, lines := lines, act := s.tm.ft + 128000000 + (freeVal 24 s).setWidth 64 }, useFree (modSpans f ms (fun x => x &&& ~~~lines) s))

/-- Keep an answer for the repeats of its transaction; one answer for each requester and transaction number. -/
def keepAnswer (m : XaMsg) (s : State) : State :=
  s.modNet fun n => { n with xaAnswers := (n.xaAnswers.filter fun a => !(decide (a.src = m.src) && decide (a.txn = m.txn))) ++ [m] }

/-! ### A message at a module -/

/-- A GRANT at a module of the arc awaits `XA.ACT` and is acknowledged (R169). -/
def grantHere (f : Nat) (m : XaMsg) (s : State) : State :=
  if lineUse s f m = 0 then s
  else
    let s1 := if s.net.xaPend.any fun p => decide (p = (m, f)) then s else s.modNet fun n => { n with xaPend := n.xaPend ++ [(m, f)] }
    if isAssigner s f then s1 else xaSend f m.ack s1

/-- A transaction of this module has its answer. -/
def endTxn (m : XaMsg) (s : State) : State :=
  if m.src = moduleId s then s.modNet fun n => { n with xaTxns := n.xaTxns.filter fun t => decide (t.msg.txn ≠ m.txn) } else s

/-- XN5_ASSIGN_DENIED (R169). -/
def denied (m : XaMsg) (s : State) : State :=
  raise evXn5AssignDenied srcSv (le 2 m.src.toNat ++ le 2 m.dst.toNat ++ leSat 4 m.count.toNat) s

/-- GRANT: acted on by each module of the arc, the source's transaction ends, and it goes on round the ring. -/
def takeGrant (f : Nat) (m : XaMsg) (s : State) : State := xaPass f m (grantHere f m (endTxn m s))

/-- DENY: at the requester the transaction ends and the event is raised; else it goes on. -/
def takeDeny (f : Nat) (m : XaMsg) (s : State) : State := if m.src = moduleId s then denied m (endTxn m s) else xaPass f m s

/-- REQUEST: at the assigner its answer, the first one again for a repeat; else it goes on. -/
def takeRequest (f : Nat) (m : XaMsg) (s : State) : State :=
  if !isAssigner s f then xaSend f m s
  else
    let r := match s.net.xaAnswers.find? fun a => decide (a.src = m.src) && decide (a.txn = m.txn) && decide (a.dst = m.dst) with
      | some a => (a, s)
      | none =>
        let r := xaAnswer f m s
        (r.1, keepAnswer r.1 r.2)
    if r.1.op = 2 then takeGrant f r.1 r.2 else takeDeny f r.1 r.2

/-- RELEASE: at the assigner the lines are free again on the spans of the arc, and it is acknowledged; a repeat frees
nothing more (R169). -/
def takeRelease (f : Nat) (m : XaMsg) (s : State) : State :=
  if !isAssigner s f then xaSend f m s
  else
    let s1 := if s.net.xaAnswers.any fun a => decide (a = m.ack) then s else keepAnswer m.ack (modSpans f (arcSpans s f m.src m.dst) (fun x => x ||| m.lines) s)
    if m.src = moduleId s then endTxn m s1 else xaPass f m.ack s1

/-- ACK: it ends the release that it answers; the assigner keeps nothing of it; else it goes on. -/
def takeAckXa (f : Nat) (m : XaMsg) (s : State) : State :=
  let s1 := if m.src = moduleId s then s.modNet fun n => { n with xaTxns := n.xaTxns.filter fun t => !(decide (t.msg.txn = m.txn) && decide (t.msg.op = 4)) } else s
  if isAssigner s f then s1 else xaPass f m s1

/-- A message of one kind arrives on a ring. -/
def onXa (op : Nat) (f : Nat) (b : Bytes) (act : XaMsg → State → State) (s : State) : State :=
  if xnFibre s f && decide ((readXa b).op.toNat = op) then act (readXa b) s else s

/-- XA_REQUEST (R169). -/
def execXaRequest (fibre : Nat) (msg : Bytes) (s : State) : Host.Outcome State Fault Refusal := .next (onXa 1 fibre msg (takeRequest fibre) s)

/-- XA_GRANT (R169). -/
def execXaGrant (fibre : Nat) (msg : Bytes) (s : State) : Host.Outcome State Fault Refusal := .next (onXa 2 fibre msg (takeGrant fibre) s)

/-- XA_DENY (R169). -/
def execXaDeny (fibre : Nat) (msg : Bytes) (s : State) : Host.Outcome State Fault Refusal := .next (onXa 3 fibre msg (takeDeny fibre) s)

/-- XA_RELEASE (R169). -/
def execXaRelease (fibre : Nat) (msg : Bytes) (s : State) : Host.Outcome State Fault Refusal := .next (onXa 4 fibre msg (takeRelease fibre) s)

/-- XA_ACK (R169). -/
def execXaAck (fibre : Nat) (msg : Bytes) (s : State) : Host.Outcome State Fault Refusal := .next (onXa 5 fibre msg (takeAckXa fibre) s)

/-! ### The requester (R169) -/

/-- Begin a transaction: its message is kept until it is answered. -/
def beginTxn (f : Nat) (m : XaMsg) (s : State) : State :=
  let m1 := { m with txn := s.net.xaTxn, src := moduleId s }
  let s1 := s.modNet fun n => { n with xaTxn := n.xaTxn + 1, xaTxns := n.xaTxns ++ [{ msg := m1, repeats := 0, fibre := f }] }
  if m1.op = 1 then takeRequest f m1 s1 else takeRelease f m1 s1

/-- XN5_QUEUE_HIGH: lines are requested toward a module (R169). -/
def execXn5QueueHigh (fibre : Nat) (dst : BitVec 12) (count : Nat) (s : State) : Host.Outcome State Fault Refusal :=
  if xnFibre s fibre && decide (1 ≤ count) && decide (count ≤ 8) && decide (dst ∈ (ringOf s fibre).drop 1) then
    .next (beginTxn fibre { op := 1, dst := dst, count := BitVec.ofNat 6 count } s)
  else .next s

/-- XN5_TXN_TIMEOUT: 10 ms without an answer; up to three repeats with the same number, then the transaction is given up
(R169). -/
def execXn5TxnTimeout (txn : BitVec 16) (s : State) : Host.Outcome State Fault Refusal :=
  match s.net.xaTxns.find? fun t => decide (t.msg.txn = txn) with
  | none => .next s
  | some t =>
    if !xnFibre s t.fibre then .next s
    else if 3 ≤ t.repeats then .next (s.modNet fun n => { n with xaTxns := n.xaTxns.filter fun x => decide (x.msg.txn ≠ txn) })
    else .next (xaSend t.fibre t.msg (s.modNet fun n => { n with xaTxns := n.xaTxns.map fun x => if x.msg.txn = txn then { x with repeats := x.repeats + 1 } else x }))

/-! ### Lines in use (R167, R169) -/

/-- The link of an added or dropped line, of width 1: the lowest number free on its fibre in its direction (R167; log entry 85, DEDUCED). -/
def lineLink (s : State) (f k use : Nat) (m : XaMsg) : Option PhysLink :=
  let tx := decide (use = 1)
  ((List.range 33).find? fun n => (physLink s f n tx).isNone).map fun n =>
    { fibre := f, link := BitVec.ofNat 6 n, tx := tx, lanes := [k], tag := 0, hops := (arcSpans s f m.src m.dst).length - 1, peer := if tx then m.dst else m.src,
      locked := true, verified := some true }

/-- The crosspoint of a line's use. -/
def lineXp (f k use : Nat) : Xp :=
  { line := k, inp := if use = 1 then 16 else f, out := if use = 2 then 16 else f, st := .waiting }

/-- A line is no longer used: its link and its crosspoints go. -/
def lineClear (f k : Nat) (s : State) : State :=
  let s1 := ((unannounce f k s).opt.links.filter fun l => decide (l.fibre = f) && decide (k ∈ l.lanes)).foldl (fun t l => removeLink l t) (unannounce f k s)
  let s2 := clearXps (fun x => decide (x.line = k) && (decide (x.inp = f) || decide (x.out = f))) s1
  s2.modNet fun n => { n with xaLines := tset 0 n.xaLines (laneKey f k) 0 }

/-- A line is added, dropped or passed as its assignment says; one that is added announces its role 0, and its link is in service from the
superframe at which that applies (R154, R167). -/
def lineSet (f k use : Nat) (m : XaMsg) (s : State) : State :=
  let s1 := lineClear f k s
  let s2 := admitNow (setXp (lineXp f k use) (s1.modNet fun n => { n with xaLines := tset 0 n.xaLines (laneKey f k) use }))
  if use = 3 then s2
  else match lineLink s2 f k use m with
    | some l => if l.tx then announce f k .inService l.link 0 1 (addLink l s2) else enterService {} l (addLink l s2)
    | none => s2

/-- XN5_ACTIVATION: a granted transaction's `XA.ACT` is here (R169). -/
def execXn5Activation (txn : BitVec 16) (s : State) : Host.Outcome State Fault Refusal :=
  match s.net.xaPend.find? fun p => decide (p.1.txn = txn) with
  | none => .next s
  | some (m, f) =>
    let s1 := s.modNet fun n => { n with xaPend := dropFirst (fun p => decide (p.1.txn = txn)) n.xaPend }
    if xnFibre s f then
      .next ((setBits m.lines.toNat 33).foldl (fun t k => if (laneOf t f k).failed then t else lineSet f k (lineUse s f m) m t) s1)
    else .next s1

/-- XN5_LINE_IDLE: the source releases a line that has carried no data cell for 100 ms, unless it is pinned (R167, R169). -/
def execXn5LineIdle (fibre lane : Nat) (s : State) : Host.Outcome State Fault Refusal :=
  if !xnFibre s fibre ∨ tget 0 s.net.xaLines (laneKey fibre lane) ≠ 1 ∨ 33 ≤ lane ∨ pinned s fibre lane then .next s
  else
    let dst := ((s.opt.links.find? fun l => decide (l.fibre = fibre) && l.tx && decide (lane ∈ l.lanes)).map (·.peer)).getD 0
    .next (beginTxn fibre { op := 4, dst := dst, lines := BitVec.ofNat 33 (2 ^ lane) } (lineClear fibre lane s))

end Sys2Proof.Machine
end

