-- ==== Sys2Proof/Machine/Faceplate.lean ====
section
/-!
DEFINITION. Faceplate mode: cages and their pluggables, Ethernet ports and frames (R171 to R173, R240, R439). The number of a
port is 16 × group + 8 × cage + port; the link that a port carries is log entry 16, DESIGN CHOICE.
-/

namespace Sys2Proof.Machine

/-! ### Cages and ports -/

/-- Change a cage, by group × 2 + cage. -/
def modCage (c : Nat) (g : Cage → Cage) (s : State) : State := s.modNet fun n => { n with cages := tmod {} n.cages c g }

/-- A cage, by group × 2 + cage. -/
def cageAt (s : State) (c : Nat) : Cage := tget {} s.net.cages c

/-- A port exists: its group is in faceplate mode and its cage has a port of that number (R171). -/
def facePort (s : State) (p : Nat) : Bool :=
  decide (p < 64) && decide (modeOf s (p / 16 * 4) = .faceplate) && (decide (p % 8 = 0) || (cageAt s (p / 8)).eight)

/-- The fibre number of a port's link. -/
def portFibre (p : Nat) : Nat := 4 * (p / 16) + 2 * (p / 8 % 2) + p % 8 / 4

/-- The link number of a port's link. -/
def portLinkNo (p : Nat) : Nat := p % 4

/-- A port's link, one direction: one lane, whose lane tag says 0x3F (R172). -/
def portLink (s : State) (p : Nat) (tx : Bool) : PhysLink :=
  { fibre := portFibre p, link := BitVec.ofNat 6 (portLinkNo p), tx := tx, lanes := [63], tag := 0,
    peer := ((logLink s (portFibre p) (portLinkNo p) tx).map (·.peer)).getD 0, locked := true, verified := some true }

/-- The 1588 port of a faceplate port's cage (R238). -/
def facePtpPort (p : Nat) : Nat := 17 + p / 8

/-- FACEPLATE_PORT_UP: the Ethernet link enters service in both directions (R173). -/
def portUp (p : Nat) (s : State) : State :=
  let c := cageAt s (p / 8)
  if !litUp s ∨ !facePort s p ∨ !c.present ∨ !c.dpStarted ∨ c.up.getLsbD (p % 8) then s
  else
    let s1 := modCage (p / 8) (fun x => { x with up := x.up ||| BitVec.ofNat 8 (2 ^ (p % 8)) }) s
    settleTime (enterService {} (portLink s p true) (enterService {} (portLink s p false) (addLink (portLink s p false) (addLink (portLink s p true) s1))))

/-- FACEPLATE_PORT_UP (R173). -/
def execFaceplatePortUp (port : Nat) (s : State) : Host.Outcome State Fault Refusal := .next (portUp port s)

/-- The links of a port leave service. -/
def portLinksGo (p : Nat) (s : State) : State :=
  (s.opt.links.filter fun l => decide (l.fibre = portFibre p) && decide (l.link.toNat = portLinkNo p)).foldl (fun t l => removeLink l t) s

/-- FACEPLATE_PORT_DOWN: the port's link drops (R173). -/
def portDown (p : Nat) (s : State) : State :=
  if !litUp s ∨ !facePort s p ∨ !(cageAt s (p / 8)).up.getLsbD (p % 8) then s
  else
    let s1 := modCage (p / 8) (fun x => { x with up := x.up &&& ~~~BitVec.ofNat 8 (2 ^ (p % 8)) }) s
    raise evFaceplatePortDown srcSv (le 1 (p / 16) ++ le 1 (p / 8 % 2) ++ le 1 (p % 8)) (settleTime (portLinksGo p s1))

/-- FACEPLATE_PORT_DOWN (R173). -/
def execFaceplatePortDown (port : Nat) (s : State) : Host.Outcome State Fault Refusal := .next (portDown port s)

/-! ### Frames (R172, R240) -/

/-- Where an Ethernet frame's EtherType stands: after the addresses and an optional 802.1Q tag. -/
def typeAt (b : Bytes) : Nat := if rd (part b 12 2).reverse 0 2 = 0x8100 then 16 else 12

/-- A frame's EtherType. -/
def etherType (b : Bytes) : Nat := rd (part b (typeAt b) 2).reverse 0 2

/-- A frame's FCS is good. -/
def fcsOk (b : Bytes) : Bool := decide (4 ≤ b.length) && decide (b.drop (b.length - 4) = le 4 (fcs (b.take (b.length - 4))))

/-- What a frame carries: the bytes between EtherType and FCS. -/
def frameBody (b : Bytes) : Bytes := (b.take (b.length - 4)).drop (typeAt b + 2)

/-- A frame is discarded and counted (R172). -/
def frameDiscard (p : Nat) (s : State) : State := s.modNet fun n => { n with frameBad := tmod 0 n.frameBad p (· + 1) }

/-- CELL_CRC_ERROR of a faceplate port: the port, its link, and the cells discarded since the last record (R172). -/
def portCrcError (p : Nat) (s : State) : State :=
  let key := linkKey (portFibre p) (portLinkNo p)
  countEvent evCellCrcError srcSv (fun n => le 1 1 ++ le 1 p ++ le 1 (portLinkNo p) ++ leSat 4 n) (tget 0 s.strm.crcErr key)
    (fun n t => t.modStrm fun x => { x with crcErr := tset 0 x.crcErr key n }) s

/-- A 1588 message in an Ethernet frame of its own: on the cage's port 0 it is taken by its type; on another port, or sent to another
address than that of R240, it is discarded and counted (R238, R240). -/
def frame1588 (p : Nat) (frame : Bytes) (s : State) : Host.Outcome State Fault Refusal :=
  let n := facePtpPort p
  let m := frameBody frame
  if p % 8 ≠ 0 ∨ frame.take 6 ≠ ptpMac then .next (ptpDiscard n s)
  else match ptpType m with
    | 0 => execPtpSync n m (stampTime s) (useFree s)
    | 2 => execPdelayReq n m (stampTime s) (useFree s)
    | 3 => execPdelayResp n m (stampTime s) (useFree s)
    | _ => execAnnounce n m s

/-! ### Pluggables (R173, R439) -/

/-- CMIS_FAULT: group, cage, page, flag byte (R173, R439). -/
def cmisFault (c page : Nat) (flag : BitVec 8) (s : State) : State :=
  raise evCmisFault srcSv (le 1 (c / 2) ++ le 1 (c % 2) ++ le 1 page ++ le 1 flag.toNat) s

/-- The flags of a poll, in pairs of page and flag byte. -/
def flagPairs : Bytes → List (Nat × BitVec 8)
  | p :: f :: t => (p.toNat, f) :: flagPairs t
  | _ => []

/-- The flags that the module could not clear, as a poll finds them: CMIS_FAULT for each that is new; one that has cleared is forgotten
(R173). -/
def takeFlags (c : Nat) (fs : List (Nat × BitVec 8)) (s : State) : State :=
  let old := (cageAt s c).flags
  let s1 := modCage c (fun x => { x with flags := fs.foldl (fun t e => tset 0 t e.1 e.2) [] }) s
  (fs.filter fun e => decide (e.2 ≠ 0) && decide (tget 0 old e.1 ≠ e.2)).foldl (fun t e => cmisFault c e.1 e.2 t) s1

/-- The module writes a control of a pluggable: 1 data path, 2 application, 3 low power, 4 software reset, and its value (R173; log entry 90, DESIGN CHOICE,
DESIGN CHOICE). -/
def cmisWrite (c kind v : Nat) (s : State) : State := emit .cmis c (le 1 kind ++ le 1 v) s

/-- A pluggable leaves low power, takes the application of the cage's ports, and its data path starts (R171, R173). -/
def cageStart (c : Nat) (s : State) : State :=
  let e := (cageAt s c).eight
  cmisWrite c 1 1 (cmisWrite c 2 (b2n e) (cmisWrite c 3 0 (modCage c (fun x => { x with dpStarted := true, app := e, lowPower := false }) s)))

/-- The module finds a pluggable, or finds it gone: a new one is started (R173). -/
def cagePresence (c : Nat) (present : Bool) (s : State) : State :=
  if present = (cageAt s c).present then s
  else if present then cageStart c (modCage c (fun x => { x with present := true, flags := [] }) s)
  else modCage c (fun x => { x with present := false, dpStarted := false, lowPower := true, flags := [] }) s

/-- A poll that the bus switch answered or not: CMIS_FAULT with page 0xFF when it stops answering (R439). -/
def cagePoll (c : Nat) (present : Bool) (flags : Bytes) (answered : Bool) (s : State) : State :=
  if !answered then
    if s.net.cmisDown then s else cmisFault c 0xFF 0 (s.modNet fun n => { n with cmisDown := true })
  else
    let s1 := s.modNet fun n => { n with cmisDown := false }
    takeFlags c (flagPairs flags) (cagePresence c present s1)

/-- CAGE_PRESENCE_POLL (R173, R439): the cages of a faceplate group; the bus switch is seen with every group. -/
def execCagePresencePoll (group cage : Nat) (present : Bool) (flags : Bytes) (answered : Bool) (s : State) : Host.Outcome State Fault Refusal :=
  if !litUp s ∨ 4 ≤ group ∨ 2 ≤ cage then .next s
  else if modeOf s (4 * group) = .faceplate then .next (cagePoll (2 * group + cage) present flags answered s)
  else .next (cagePoll (2 * group + cage) (cageAt s (2 * group + cage)).present [] answered s)

/-- The ports of a cage that are up go down (R173). -/
def cagePortsDown (c : Nat) (s : State) : State := (List.range 8).foldl (fun t i => portDown (8 * c + i) t) s

/-- CAGE_CONFIG as it begins (R171, R237, R355): other ports than before mean that those which are up go down, and that a pluggable is reset
and started with the new application. -/
def cageConfig (c : Nat) (eight : Bool) (eg ing : BitVec 32) (ref : PktRef) (s : State) : State :=
  if !ceReach s 0 then reply ref stStateInvalid [] s
  else
    let set := fun (t : State) => modCage c (fun x => { x with eight := eight, egress := eg, ingress := ing }) t
    if (cageAt s c).eight = eight then reply ref 0 [] (set s)
    else
      let s1 := set (cagePortsDown c s)
      reply ref 0 [] (if (cageAt s1 c).present then cageStart c (cmisWrite c 4 1 s1) else s1)

/-- CAGE_CONFIG (R355). -/
def execCageConfig (p : Pkt) (group cage ports : BitVec 8) (egress ingress : BitVec 32) (s : State) : Host.Outcome State Fault Refusal :=
  .next (runPkt p 0x0409 (le 1 group.toNat ++ le 1 cage.toNat ++ le 1 ports.toNat ++ le 4 egress.toNat ++ le 4 ingress.toNat)
    (decide (group.toNat < 4) && decide (cage.toNat < 2) && decide (ports.toNat < 2)) (cageConfig (2 * group.toNat + cage.toNat) (decide (ports = 1)) egress ingress) s)

/-- CMIS_CDB as it begins: the message goes to the pluggable unchanged, and its answer to the host's buffer (R173); a cage
without a pluggable, or a bus that does not answer, is a state error. -/
def cmisCdb (c : Nat) (buf : Buf) (msg answer : Bytes) (ok : Bool) (ref : PktRef) (s : State) : State :=
  if !litUp s ∨ modeOf s (c / 2 * 4) ≠ .faceplate ∨ !(cageAt s c).present ∨ s.net.cmisDown ∨ !ceReach s 0 then reply ref stStateInvalid [] s
  else
    let s1 := emit .cmis c msg s
    if ok then replyBuf ref buf answer [] s1 else reply ref stStateInvalid [] s1

/-- CMIS_CDB (R173). `answer` is what the pluggable answers, `ok` that it answers at all. -/
def execCmisCdb (p : Pkt) (group cage : BitVec 8) (buf : Buf) (msg answer : Bytes) (ok : Bool) (s : State) : Host.Outcome State Fault Refusal :=
  .next (runPkt p 0x040A (le 1 group.toNat ++ le 1 cage.toNat ++ le 2 msg.length ++ buf.bytes ++ msg)
    (decide (group.toNat < 4) && decide (cage.toNat < 2)) (cmisCdb (2 * group.toNat + cage.toNat) buf msg answer ok) s)

end Sys2Proof.Machine
end

