-- ==== Sys2Proof/Machine/Arrival.lean ====
section
/-!
DEFINITION. Cells that arrive (R149, R172, R217): data cells go to their contexts, service cells are taken apart into remote signals and
messages (R150 to R152), and cells that fail are discarded. A message of a service cell has the meaning of the command of its kind (log
entry 91, DESIGN CHOICE).
-/

namespace Sys2Proof.Machine

/-! ### Service cells (R150 to R152) -/

/-- The messages of a message area: type and body, to the first of type 0; each is as long as its header says, so that a reserved type is
skipped (R152). -/
def areaMsgs : Nat → Bytes → List (Nat × Bytes)
  | 0, _ => []
  | n + 1, b =>
    if b.length < 4 ∨ rd b 0 1 = 0 then []
    else (rd b 0 1, part b 4 (rd b 2 2)) :: areaMsgs n (b.drop (4 + roundUp (rd b 2 2) 4))

/-- A 1588 message that crossed the deserialiser at a time, by its type (R238, R239). -/
def take1588 (port : Nat) (m : Bytes) (t : BitVec 64) (s : State) : Host.Outcome State Fault Refusal :=
  match ptpType m with
  | 0 => execPtpSync port m t s
  | 2 => execPdelayReq port m t s
  | 3 => execPdelayResp port m t s
  | _ => execAnnounce port m s

/-- A fabric notice by its kind; one of a reserved kind is relayed when its scope requires (R224). -/
def takeFn (port : Nat) (m : Bytes) (s : State) : Host.Outcome State Fault Refusal :=
  match (readNotice m).kind.toNat with
  | 1 => execStretchNotice port m s
  | 2 => execUnstretchNotice port m s
  | 3 => execLineCheckNotice port m s
  | 5 => execStreamBreakNotice port m s
  | _ => execLinkAckNotice port m s

/-- A Prefect-to-Prefect message by its kind (R323, R324). -/
def takePm (port : Nat) (m : Bytes) (s : State) : Host.Outcome State Fault Refusal :=
  match pmKind m with
  | 1 => execFaultNotice port m s
  | 2 => execP2pAck port m s
  | _ => .next (takeP2p 2 m (fun t => t) s)

/-- An assignment message by its operation (R168). -/
def takeXa (fibre : Nat) (m : Bytes) (s : State) : Host.Outcome State Fault Refusal :=
  match (readXa m).op.toNat with
  | 1 => execXaRequest fibre m s
  | 2 => execXaGrant fibre m s
  | 3 => execXaDeny fibre m s
  | 4 => execXaRelease fibre m s
  | 5 => execXaAck fibre m s
  | _ => .next s

/-- The lane that a lane-control message names, and whether it says that the lane is ready (log entry 44, DESIGN CHOICE). -/
def laneNamed (m : Bytes) : Option (Bool × Nat × Nat) :=
  let all := ([true, false].map fun r => ((List.range 16).map fun f => (List.range 33).map fun k => (r, f, k)).flatten).flatten
  all.find? fun q => decide (pmKind m = Config.laneKind q.1 % 256) && decide (m.drop 16 = Config.laneBody q.1 q.2.1 q.2.2)

/-- A lane-control message: lane-ready or failure report (R160, R161); one for another module is relayed. -/
def takeLane (port : Nat) (m : Bytes) (s : State) : Host.Outcome State Fault Refusal :=
  match laneNamed m with
  | some (true, f, k) => execLaneReadyMessage port m f k s
  | some (false, f, k) => execLaneFailureReport port m f k s
  | none => .next (takeP2p 6 m (fun t => t) s)

/-- A message of a service cell that came on a link at a time, by its type (R152). -/
def takeMsg (fibre link : Nat) (t : BitVec 64) (s : State) (m : Nat × Bytes) : State :=
  let port := linkKey fibre link
  stateOf s (match m.1 with
    | 1 => if modeOf s fibre = .faceplate then .next s else take1588 (portOf fibre) m.2 t s
    | 2 => takePm port m.2 s
    | 3 => takeFn port m.2 s
    | 4 => execRollCallAnswer fibre link m.2 t s
    | 5 => takeXa fibre m.2 s
    | 6 => takeLane port m.2 s
    | _ => .next s)

/-- A service cell: its remote-signal area, then its message area, whose messages share the cell's timestamp (R150, R237). -/
def serviceArrival (fibre link : Nat) (cell : Bytes) (s : State) : State :=
  let p := part cell 32 1024
  let s1 := (chunks 8 24 p).foldl (fun t e => stateOf t (execRemoteSignalEntry fibre link e t)) s
  (areaMsgs 208 (p.drop 192)).foldl (takeMsg fibre link (stampTime s)) (useFree s1)

/-! ### The commands -/

/-- A cell that is not discarded, by its type (R148 to R150). -/
def takeCell (err : ReadErr) (fibre link : Nat) (cell : Bytes) (s : State) : State :=
  if cellType cell = 2 then (if physUp s fibre link false then serviceArrival fibre link cell s else s) else cellArrival err fibre link cell s

/-- DATA_CELL_ARRIVAL: a cell that an uncorrected outer code word touches, or with a bad `CH.CRC`, is discarded and counted (R147, R149,
R217). -/
def execDataCellArrival (fibre link : Nat) (cell : CellIn) (err : ReadErr) (s : State) : Host.Outcome State Fault Refusal :=
  if !litUp s || !physUp s fibre link false then .next s
  else if cellBad cell.place cell.words cell.bytes then .next (crcError fibre link s)
  else .next (takeCell err fibre link cell.bytes s)

/-- FACEPLATE_FRAME (R172, R240): a frame with another EtherType, a bad FCS or a bad `CH.CRC` is discarded and counted; a cell is taken as
one from any link. -/
def execFaceplateFrame (port : Nat) (frame : Bytes) (s : State) : Host.Outcome State Fault Refusal :=
  if !litUp s ∨ !facePort s port ∨ !(cageAt s (port / 8)).up.getLsbD (port % 8) then .next s
  else if !fcsOk frame then .next (frameDiscard port s)
  else if etherType frame = 0x88F7 then frame1588 port frame s
  else if etherType frame ≠ (tget 0x88B5 s.net.etherType (port / 16)).toNat ∨ (frameBody frame).length < 1056 then .next (frameDiscard port s)
  else if cellBad 0 [] ((frameBody frame).take 1056) then .next (portCrcError port (frameDiscard port s))
  else .next (takeCell {} (portFibre port) (portLinkNo port) ((frameBody frame).take 1056) s)

end Sys2Proof.Machine
end

