-- ==== Sys2Proof/Machine/HostDaybook.lean ====
section
/-!
DEFINITION. The Daybook's commands: mirror and checkpoint writes, clears, rates and reads, and the failure of its store
(R398 to R412).
-/

namespace Sys2Proof.Machine

/-- The 64 bytes of a record with its CRC (R398). -/
def recBytes (r : DbRec) : Bytes :=
  let b := le 6 r.count.toNat ++ le 2 r.era.toNat ++ le 2 r.code.toNat ++
    le 2 (r.sev.toNat + 256 * (b2n r.mirrored + 2 * b2n r.narrow + 4 * b2n r.lastGasp + 8 * b2n r.parity)) ++
    le 2 r.src.toNat ++ le 2 r.supp.toNat ++ padTo 40 r.payload ++ zeros 4
  b ++ le 4 (crc32c b)

/-- Put a record into its place by number. -/
def insertRec (r : DbRec) : List DbRec → List DbRec
  | [] => [r]
  | x :: t => if r.seq < x.seq then r :: x :: t else x :: insertRec r t

/-- Records in ascending order of their numbers (R406). -/
def sortRecs (l : List DbRec) : List DbRec := l.foldl (fun a r => insertRec r a) []

/-- A record's number lies in a range that has been cleared (R407, R408). -/
def inErase (d : Daybook) (r : DbRec) : Bool := d.erase.any fun e => decide (e.1 ≤ r.seq) && decide (r.seq ≤ e.2)

/-- The records of the mirror that can be read: the cleared ones are gone (R407, R408). -/
def mirrorHeld (d : Daybook) : List DbRec := d.mirror.filter fun r => !inErase d r

/-- Write one record to the mirror under the rule of a full store, and set `MIRRORED` in both copies (R404, R405). -/
def mirrorPut (r : DbRec) (s : State) : State :=
  match storePut 32768 s.db.mirror { r with mirrored := true } with
  | none => s.modDb fun d => { d with mirrorDrop := addSat d.mirrorDrop 1 }
  | some l => mramWrite 2 (r.count.toNat % 32768) <| s.modDb fun d =>
      { d with mirror := l, ring := d.ring.map fun x => if x.seq = r.seq then { x with mirrored := true } else x }

/-- Write every record that waits for the mirror, in order. -/
def mirrorFlush (s : State) : State :=
  s.db.mirrorQ.foldl (fun t r => mirrorPut r t) (s.modDb fun d => { d with mirrorQ := [] })

/-- The store has failed: DAYBOOK_STORE_FAIL goes into the last-gasp bank with the record whose write failed after it,
a copy that is never dropped goes to the reply ring, and narrow mode begins (R409). -/
def storeFail (store : Nat) (addr synd : Nat) (failed : DbRec) (s : State) : State :=
  let s1 := if store = 1 then s.modDb fun d => { d with mirrorOut := true } else s.modDb fun d => { d with ringFailed := true }
  let s2 := s1.modDb fun d => { d with narrow := true }
  let s3 := raise evDaybookStoreFail srcSv (le 1 store ++ leSat 4 addr ++ leSat 4 synd ++ le 8 failed.seq ++ le 2 failed.code.toNat) s2
  let r := mkRec evDaybookStoreFail srcSv (le 1 store ++ leSat 4 addr ++ leSat 4 synd ++ le 8 failed.seq ++ le 2 failed.code.toNat) s2
  let s4 := s3.modDb fun d => bankPut { failed with narrow := true } d
  if s4.hi.ringEn then
    s4.modHi fun h => { h with pushes := (h.pushes.filter fun x => decide (x.record.seq ≠ r.seq)) ++ [{ record := r, sure := true }] }
  else s4

/-- MIRROR_WRITE: the oldest waiting record is written to the mirror. A write whose read-back fails twice fails the
store (R404, R409). -/
def execMirrorWrite (ok : Bool) (s : State) : Host.Outcome State Fault Refusal :=
  match s.db.mirrorQ with
  | [] => .next s
  | r :: t =>
    if !svOn s || s.pwr.nvInhibit || s.db.mirrorOut then .next s
    else
      let s1 := s.modDb fun d => { d with mirrorQ := t }
      if ok then .next (mirrorPut r s1)
      else .next (storeFail 1 (freeVal 32 s1).toNat (freeVal 32 (useFree s1)).toNat r (useFree (useFree s1)))

/-- CHECKPOINT_WRITE: a checkpoint that is due is written (R403). -/
def execCheckpointWrite (s : State) : Host.Outcome State Fault Refusal :=
  if svOn s && !s.pwr.nvInhibit && (s.nvw.ckpt || ckptDue { s.db with count := s.db.count + 1 }) then
    .next (ckptRaise s)
  else .next s

/-- CLEARED_RECORD_ERASE: the mirror records of the oldest clear are erased (R407). -/
def execClearedRecordErase (s : State) : Host.Outcome State Fault Refusal :=
  match s.db.erase with
  | [] => .next s
  | (a, b) :: t =>
    if !svOn s || s.pwr.nvInhibit then .next s
    else .next (mramWrite 2 0 <| s.modDb fun d =>
      { d with erase := t, mirror := d.mirror.filter fun r => !(decide (a ≤ r.seq) && decide (r.seq ≤ b)) })

/-- TOKEN_REFILL: a code's bucket gains a token, up to its burst (R402). -/
def execTokenRefill (code : BitVec 16) (s : State) : Host.Outcome State Fault Refusal :=
  if s.pwr.aon then
    .next (s.modDb fun d => { d with buckets := tmod {} d.buckets code.toNat fun b => { b with tokens := min (b.tokens + 1) b.burst } })
  else .next s

/-- MIRROR_QUEUE_TIMEOUT: the queue has not been written within 1 s after writes stopped being inhibited, and the store
has failed (R409). -/
def execMirrorQueueTimeout (s : State) : Host.Outcome State Fault Refusal :=
  match s.db.mirrorQ with
  | [] => .next s
  | r :: t =>
    if !svOn s || s.pwr.nvInhibit || s.db.mirrorOut then .next s
    else .next (storeFail 1 (freeVal 32 s).toNat (freeVal 32 (useFree s)).toNat r
      (useFree (useFree (s.modDb fun d => { d with mirrorQ := t }))))

/-- DAYBOOK_READ: the read header and the records from one snapshot (R406). -/
def daybookReadBody (store : BitVec 8) (first : BitVec 64) (count : BitVec 16) (buf : Buf) (ref : PktRef) (s : State) : State :=
  let bank := decide (store = 0) && s.db.narrow
  let held := sortRecs (if bank then s.db.bank else if store = 0 then s.db.ring else mirrorHeld s.db)
  let got := (held.filter fun r => decide (first.toNat ≤ r.seq)).take count.toNat
  let lo := (held.head?.map DbRec.seq).getD 0
  let hi := (held.getLast?.map DbRec.seq).getD 0
  let drop := if bank then s.db.bankDrop else if store = 0 then s.db.ringDrop else s.db.mirrorDrop
  let hdr := le 8 lo ++ le 8 hi ++ le 4 held.length ++ le 4 got.length ++ le 4 drop.toNat ++
    le 1 (if bank then 2 else store.toNat) ++ le 1 (b2n s.db.narrow + 2 * b2n s.db.mirrorOut) ++ le 2 s.db.era.toNat ++
    le 8 (dbNext s) ++ zeros 24
  replyBuf ref buf (hdr ++ (got.map recBytes).flatten)
    (le 8 ((got.head?.map DbRec.seq).getD 0) ++ le 8 ((got.getLast?.map DbRec.seq).getD 0)) s

/-- DAYBOOK_READ (R406). -/
def execDaybookRead (p : Pkt) (store : BitVec 8) (first : BitVec 64) (count : BitVec 16) (buf : Buf) (s : State) :
    Host.Outcome State Fault Refusal :=
  .next (runPkt p 0x0901 (le 1 store.toNat ++ le 8 first.toNat ++ le 2 count.toNat ++ buf.bytes) (decide (store.toNat ≤ 1))
    (daybookReadBody store first count buf) s)

/-- The clear itself (R407): DAYBOOK_CLEARED takes the next number and stands in the mirror before the range leaves the
ring; the mirror's records of the range are marked. Where the store fails at that write, the clear is abandoned with nothing cleared and
0x0204 in the reply (R412). -/
def clearRange (first last : Nat) (ok : Bool) (signer : Nat) (ref : PktRef) (s : State) : State :=
  let inR := fun (r : DbRec) => decide (first ≤ r.seq) && decide (r.seq ≤ last)
  let nr := (s.db.ring.filter inR).length
  let nm := (s.db.mirror.filter fun r => inR r && !inErase s.db r).length
  let s1 := raise evDaybookCleared srcSv
    (le 8 first ++ le 8 last ++ le 4 nr ++ le 4 nm ++ le 1 signer ++ le 8 ((tget 0 s.sec.mr 6).toNat % 2 ^ 64)) s
  if !ok then
    let r := (s1.db.mirrorQ.find? fun r => decide (r.seq = dbNext s)).getD {}
    reply ref stAbandoned [] (storeFail 1 (freeVal 32 s1).toNat (freeVal 32 (useFree s1)).toNat r
      (useFree (useFree (s1.modDb fun d => { d with mirrorQ := d.mirrorQ.filter fun x => decide (x.seq ≠ dbNext s) }))))
  else
  let s2 := mirrorFlush (s1.modDb fun d => { d with mirrorQ := d.mirrorQ.filter fun r => !inR r })
  reply ref stSuccess (le 8 first ++ le 8 last)
    (s2.modDb fun d => { d with ring := d.ring.filter fun r => !inR r, erase := d.erase ++ [(first, last)] })

/-- DAYBOOK_CLEAR as it begins: refused out of range and in narrow mode; it waits under the write inhibit (R377,
R407). -/
def daybookClearBody (first last : Nat) (ok : Bool) (signer : Nat) (ref : PktRef) (s : State) : State :=
  if last < first ∨ dbNext s ≤ last then reply ref stParamInvalid [] s
  else if s.db.narrow then reply ref stStateInvalid [] s
  else if s.pwr.nvInhibit then inhibitNote (s.modNvw fun n => { n with cmds := n.cmds ++ [(ref, .clear first last ok signer)] })
  else clearRange first last ok signer ref s

/-- DAYBOOK_CLEAR (R407). -/
def execDaybookClear (p : Pkt) (first : BitVec 64) (last : ClearEnd) (s : State) : Host.Outcome State Fault Refusal :=
  .next (runPkt p 0x0902 (le 8 first.toNat ++ le 8 last.seq.toNat) true
    (daybookClearBody first.toNat last.seq.toNat last.ok p.keyIndex) s)

/-- The MRAM copy of the rate settings (R402). -/
def saveRates (s : State) : State :=
  mramWrite 9 2 <| s.modNvs fun n => { n with rates :=
    (s.db.buckets.filter fun e => decide (e.2.burst ≠ 16) || decide (e.2.refill ≠ 4)).map fun e => (e.1, e.2.burst, e.2.refill) }

/-- DAYBOOK_RATE_SET: at once; only the MRAM copy waits under the write inhibit (R377, R402). -/
def rateSetBody (code : BitVec 16) (burst refill : BitVec 8) (ref : PktRef) (s : State) : State :=
  let s1 := s.modDb fun d => { d with buckets := tmod {} d.buckets code.toNat fun b =>
    { b with burst := burst.toNat, refill := refill.toNat, tokens := min b.tokens burst.toNat } }
  reply ref stSuccess [] (if s.pwr.nvInhibit then inhibitNote (s1.modNvw fun n => { n with setRate := true }) else saveRates s1)

/-- DAYBOOK_RATE_SET (R402). -/
def execDaybookRateSet (p : Pkt) (code : BitVec 16) (burst refill : BitVec 8) (s : State) : Host.Outcome State Fault Refusal :=
  .next (runPkt p 0x0903 (le 2 code.toNat ++ le 1 burst.toNat ++ le 1 refill.toNat)
    (codeListed code.toNat && decide (refill ≠ 0)) (rateSetBody code burst refill) s)

end Sys2Proof.Machine
end

