-- ==== Sys2Proof/Machine/HostLife.lean ====
section
/-!
DEFINITION. Lifetime records and the calendar (R413 to R416).
-/

namespace Sys2Proof.Machine

/-- The greatest ring-step count, with its ring; the lowest ring wins (R413). -/
def heaterMax : List (Nat × Nat) → Nat × Nat → Nat × Nat
  | [], b => b
  | (r, n) :: t, b => heaterMax t (if b.2 < n then (r, n) else b)

/-- `LT.COMB` of one source (R415). -/
def combLife (s : State) (k : Nat) : Bytes :=
  le 4 (tget 0 s.life.combS k).toNat ++ le 8 (tget 0 s.life.combUah k).toNat ++ le 4 (tget 0xFFFFFFFF s.life.combEol k).toNat

/-- The lifetime structure of 11,456 bytes (R413). -/
def lifetimeBytes (s : State) : Bytes :=
  let l := s.life
  let hm := heaterMax s.sw.ringSteps (0, 0)
  le 8 l.cal.toNat ++ le 1 (b2n l.calNotSet) ++ zeros 7 ++ le 8 l.powerOnS.toNat ++ le 8 l.runningS.toNat ++
    le 4 l.coldStarts.toNat ++ le 4 l.warmStarts.toNat ++ le 4 l.safeMode.toNat ++ le 4 l.pfxSwitch.toNat ++
    ((List.range 10).map fun i => le 4 (tget 0 l.thermal i).toNat).flatten ++
    le 8 l.heaterTotal.toNat ++ leSat 4 hm.2 ++ le 2 hm.1 ++
    leSat 2 (s.sw.ringSteps.filter fun e => decide (160000000 < e.2)).length ++
    ((List.range 5).map (combLife s)).flatten ++ zeros 8 ++
    ((List.range 256).map fun c => le 8 (tget 0 l.eccCor c).toNat ++ le 4 (tget 0 l.eccUnc c).toNat).flatten ++
    ((List.range 1024).map fun i => le 8 (tget 0 l.mramWr i).toNat).flatten

/-- Store the lifetime counts and the calendar in the older copy (R413, R416). -/
def lifetimeStore (s : State) : State :=
  mramWrite 4 (s.life.stores % 2) <| s.modLife fun l => { l with calStored := l.cal, stores := l.stores + 1 }

/-- LIFETIME_STORE, hourly; deferred under the write inhibit (R377, R413). -/
def execLifetimeStore (s : State) : Host.Outcome State Fault Refusal :=
  if !svOn s then .next s
  else if s.pwr.nvInhibit then .next (inhibitNote (s.modNvw fun n => { n with lifetime := true }))
  else .next (lifetimeStore s)

/-- LIFETIME_READ (R413). -/
def execLifetimeRead (p : Pkt) (buf : Buf) (s : State) : Host.Outcome State Fault Refusal :=
  .next (runPkt p 0x0B01 buf.bytes true (fun ref t => replyBuf ref buf (lifetimeBytes t) [] t) s)

/-- CALENDAR_SET: writes the calendar, clears time-not-set, raises CALENDAR_CHANGED (R416). -/
def calendarBody (t : BitVec 64) (ref : PktRef) (s : State) : State :=
  reply ref stSuccess []
    (raise evCalendarChanged srcFw (leSat 4 s.life.cal.toNat ++ leSat 4 t.toNat ++ le 1 (b2n s.life.calNotSet))
      (s.modLife fun l => { l with cal := t, calFrac := 0, calNotSet := false }))

/-- CALENDAR_SET (R416). -/
def execCalendarSet (p : Pkt) (t : BitVec 64) (s : State) : Host.Outcome State Fault Refusal :=
  .next (runPkt p 0x0B02 (le 8 t.toNat) true (calendarBody t) s)

/-- CALENDAR_READ: TAI seconds and time-not-set (R355, R416). -/
def execCalendarRead (p : Pkt) (s : State) : Host.Outcome State Fault Refusal :=
  .next (runPkt p 0x0B03 [] true (fun ref t => reply ref stSuccess (le 8 t.life.cal.toNat ++ le 1 (b2n t.life.calNotSet)) t) s)

end Sys2Proof.Machine
end

