-- ==== Sys2Proof/Machine/Calibration.lean ====
section
/-!
DEFINITION. Recess calibration (R280 to R302): rotations and lane steps, runs and their judgement, temperature sets and the
journal, the privileged volatile registers, and the Recess windows (R67, R130, R293).
-/

namespace Sys2Proof.Machine

/-! ### The journal (R297 to R300) -/

/-- The key of a journal record. -/
def JourRec.key (r : JourRec) : Nat := calKey (r.kind - 1) r.fibre r.lane

/-- The 128 bytes of a journal record (R297). -/
def JourRec.bytes (r : JourRec) : Bytes :=
  let b := le 4 0x524A4C43 ++ le 8 r.seq.toNat ++ le 1 r.kind ++ le 1 r.fibre ++ le 1 r.lane ++ le 1 r.validMap.toNat ++ leInt 2 r.temp ++ zeros 6 ++
    (((List.range 40).map fun i => leInt 2 (r.pts.getD i 0)).flatten) ++ zeros 20
  b ++ le 4 (crc32c b)

/-- The newest valid record of a key, with its slot (R298, R299). -/
def newestRec (j : List (Nat × JourRec)) (key : Nat) : Option (Nat × JourRec) :=
  j.foldl (fun b e =>
    if e.2.good && decide (e.2.key = key) then (match b with
      | none => some e
      | some x => if x.2.seq.toNat < e.2.seq.toNat then some e else some x) else b) none

/-- A slot holds the newest valid record of its key. -/
def holdsNewest (j : List (Nat × JourRec)) (slot : Nat) : Bool :=
  match j.find? fun e => decide (e.1 = slot) with
  | none => false
  | some e => e.2.good && decide ((newestRec j e.2.key).map (·.1) = some slot)

/-- The next slot at or after a place in the ring that holds no newest record. -/
def nextFree (j : List (Nat × JourRec)) : Nat → Nat → Nat
  | 0, i => i
  | n + 1, i => if holdsNewest j i then nextFree j n ((i + 1) % 16384) else i

/-- Write a record into a slot of MRAM, with the next sequence number. -/
def putRec (slot : Nat) (r : JourRec) (s : State) : State :=
  mramWrite 11 slot (s.modCal fun c =>
    { c with journal := (c.journal.filter fun e => decide (e.1 ≠ slot)) ++ [(slot, { r with seq := c.nextSeq })], nextSeq := c.nextSeq + 1 })

/-- JOURNAL_WRITE: the record that has waited longest goes to the head of the ring; a newest record that stands there is
rewritten at the next free slot first (R298). -/
def journalWrite (s : State) : State :=
  match s.cal.queue with
  | [] => s
  | r :: t =>
    let h := s.cal.head
    let s1 := if holdsNewest s.cal.journal h then (match s.cal.journal.find? fun e => decide (e.1 = h) with
      | some e => putRec (nextFree s.cal.journal 16384 ((h + 1) % 16384)) e.2 s
      | none => s) else s
    (putRec h r s1).modCal fun c => { c with head := (h + 1) % 16384, queue := t }

/-- JOURNAL_WRITE (R298): not while MRAM writes are inhibited (R300). -/
def execJournalWrite (s : State) : Host.Outcome State Fault Refusal := if svOn s && !s.pwr.nvInhibit then .next (journalWrite s) else .next s

/-- A set goes to the journal; CAL_JOURNAL_INHIBITED, once in an inhibit, where the write must wait (R298, R300). -/
def journalSet (key : Nat) (s : State) : State :=
  let c := calSet s key
  let r : JourRec := { seq := 0, kind := keyKind key + 1, fibre := keyFibre key, lane := keyLane key, validMap := c.validMap, temp := c.temp, pts := calPoints key c, good := true }
  let s1 := s.modCal fun x => { x with queue := x.queue ++ [r] }
  if s.pwr.nvInhibit && !s.cal.inhRaised then
    raise evCalJournalInhibited srcSv (le 2 s.pins.vin.toNat ++ leSat 4 s1.cal.queue.length) (s1.modCal fun x => { x with inhRaised := true })
  else s1

/-- The scan at a cold start (R299): the newest valid record of each key gives its set; CAL_FACTORY_SET and
CAL_JOURNAL_RECORD_BAD with their numbers; failed attempts count from 0 (R288). -/
def journalScan (s : State) : State :=
  let j := s.cal.journal
  let found := (List.range 1056).filterMap fun key => (newestRec j key).map fun e => (key, e.2)
  let top := (j.filter fun e => e.2.good).foldl (fun m e => max m e.2.seq.toNat) 0
  let bad := (j.filter fun e => !e.2.good).length
  let s1 := s.modCal fun c =>
    { c with sets := found.foldl (fun t e => tset {} t e.1 { pts := e.2.pts, validMap := e.2.validMap, temp := e.2.temp }) [], fails := [],
             nextSeq := if j.any (fun e => e.2.good) then BitVec.ofNat 64 (top + 1) else c.nextSeq, queue := [] }
  let s2 := if found.length < 1056 then raise evCalFactorySet srcSv (leSat 4 (1056 - found.length)) s1 else s1
  if 0 < bad then raise evCalJournalRecordBad srcSv (leSat 4 bad) s2 else s2

/-! ### Judgement of an attempt (R285 to R288) -/

/-- The items of a kind (R280). -/
def itemCount (kind : Nat) : Nat := if kind = 0 then 8 else 5

/-- The agree limit of an item in its unit (R280). -/
def agreeLimit (kind item : Nat) : Nat :=
  if kind = 0 then [40, 40, 40, 40, 80, 80, 100, 80].getD item 0 else [40, 40, 25, 25, 80].getD item 0

/-- The range of an item in its unit (R140, R456). -/
def itemRange (kind item : Nat) : Int × Int :=
  if kind = 0 then [(-2500, 2500), (-2500, 2500), (-2500, 2500), (-2500, 2500), (-1500, 1500), (-1500, 1500), (900, 1500), (-3000, 3000)].getD item (0, 0)
  else [(-2000, 2000), (-2000, 2000), (-800, 800), (-800, 800), (-3000, 3000)].getD item (0, 0)

/-- The number of an item in CAL_DISAGREE: in the order of R280, from 1. -/
def itemNo (kind item : Nat) : Nat := if kind = 0 then item + 1 else item + 9

/-- A result updates its set and is due (R292). -/
def takeResult (key item : Nat) (r : Int) (s : State) : State :=
  let t := fibreTemp s (keyFibre key)
  let c := calSet s key
  let pts := calPoints key c
  let d := evenDiv (1000 * r - calAt pts item t) 1000
  let ps := calNeighbours t
  let due := (List.range 8).map fun i => if i = item then r else c.next.getD i 0
  modSet key (fun x => { x with pts := calAdd pts item ps d, validMap := x.validMap ||| BitVec.ofNat 8 (ofBits ps), temp := t, due := due }) s

/-- Judge one item: its mean is taken, or CAL_DISAGREE with its cause, 1 agree or 2 range (R287). -/
def judgeItem (kind f x item : Nat) (a b : Int) (s : State) : Bool × State :=
  let m := evenDiv (a + b) 2
  let bad := fun (cause : Nat) => (false, raise evCalDisagree (srcFibre f) (le 1 f ++ le 1 x ++ le 1 (itemNo kind item) ++ leInt 4 a ++ leInt 4 b ++ le 1 cause) s)
  if agreeLimit kind item < (a - b).natAbs then bad 1
  else if m < (itemRange kind item).1 ∨ (itemRange kind item).2 < m then bad 2
  else (true, takeResult (calKey kind f x) item m s)

/-- Set or clear the mark of a lane's side (R288). -/
def markSuspect (kind f x : Nat) (v : Bool) (s : State) : State :=
  modLane f x (fun l => if kind = 0 then { l with suspect := v } else { l with suspectRx := v }) s

/-- An attempt has failed by a counting cause: CAL_SUSPECT when the count reaches 3 (R288). -/
def attemptFails (kind f x : Nat) (s : State) : State :=
  let key := calKey kind f x
  let n := tget 0 s.cal.fails key + 1
  let s1 := s.modCal fun c => { c with fails := tset 0 c.fails key n }
  if n = 3 then raise evCalSuspect (srcFibre f) (le 1 f ++ le 1 x ++ le 1 (kind + 1) ++ leSat 4 n) (markSuspect kind f x true s1) else s1

/-- An attempt has passed: the count is 0 and the mark is cleared (R288). -/
def attemptPasses (kind f x : Nat) (s : State) : State :=
  markSuspect kind f x false (s.modCal fun c => { c with fails := tset 0 c.fails (calKey kind f x) 0 })

/-- Judge an attempt, item by item; the ring heater offset is left out in slot mode (R287, R293). Answers the items updated. -/
def judge (kind f x : Nat) (a b : List Int) (ring : Bool) (s : State) : Nat × State :=
  let items := (List.range (itemCount kind)).filter fun i => ring || !decide (i = itemCount kind - 1)
  let r := items.foldl (fun (p : Nat × State) i =>
    let q := judgeItem kind f x i (a.getD i 0) (b.getD i 0) p.2
    (p.1 + b2n q.1, q.2)) (0, s)
  let s1 := if r.1 = items.length then attemptPasses kind f x r.2 else attemptFails kind f x r.2
  let s2 := raise evCalStepDone (srcFibre f) (le 1 f ++ le 1 x ++ le 1 (kind + 1) ++ leSat 4 r.1) s1
  (r.1, if 0 < r.1 then journalSet (calKey kind f x) s2 else s2)

/-- Test 5 of a component over n samples: its mean, its variance and its mark density (R285). -/
def ArmStats.moments (n : Nat) (a : ArmStats) : Bool :=
  decide (10000 * a.s1.natAbs ^ 2 ≤ 9 * n * a.s2) && decide (a.s1.natAbs ^ 2 < n * a.s2) && decide (495 * n ≤ 1000 * a.marks) && decide (1000 * a.marks ≤ 505 * n)

/-- Test 6 of a component over n samples: its normalised fourth moment, about zero (R285; log entry 103, DESIGN CHOICE). -/
def ArmStats.kurtosis (n : Nat) (a : ArmStats) : Bool := decide (100 * a.s2 ^ 2 ≤ 100 * n * a.s4) && decide (100 * n * a.s4 ≤ 160 * a.s2 ^ 2)

/-- The sample count of test 4 (R285). -/
def sampleNeed (rx : Bool) : Nat := if rx then 1048576 else 65536

/-- The tests of R285 that a capture passes, in their order, at the terminus or at the origin, with the sample count of test 4. -/
def RunStats.tests (rx : Bool) (need : Nat) (m : RunStats) : List Bool :=
  [!m.lost && (if rx then decide (-3000 ≤ m.light) else decide (m.light.natAbs ≤ 300)), !rx || m.role, m.tag,
   decide (need ≤ m.samples), m.arms.all (ArmStats.moments m.samples), m.arms.all (ArmStats.kurtosis m.samples),
   decide (m.tempHi - m.tempLo ≤ 100)]

/-- The first test that a capture fails, 1 to 7, or 0 where it passes them all (R285). -/
def RunStats.failed (rx : Bool) (need : Nat) (m : RunStats) : Nat := if (m.tests rx need).all id then 0 else (m.tests rx need).idxOf false + 1

/-- CAL_INPUT_UNQUALIFIED: fibre, lane, phase, run, test, cause, statistic; the causes are numbered as the tests (R285,
R286). -/
def unqualified (f x kind : Nat) (second : Bool) (test : Nat) (stat : Int) (s : State) : State :=
  raise evCalInputUnqualified (srcFibre f) (le 1 f ++ le 1 x ++ le 1 (kind + 1) ++ le 1 (if second then 2 else 1) ++ le 1 test ++ le 1 test ++ leInt 4 stat) s

/-- The kind of a phase: 0 transmit, 1 receive. -/
def phaseKind : CalPhase → Nat
  | .tx => 0 | .rx => 1

/-- A run of a step ends: refused by a test, or kept as run A, or judged with run A (R286, R287). Answers the step after it. -/
def runStep (f : Nat) (st : LaneStep) (means : List Int) (m : RunStats) (stat : Int) (ring : Bool) (s : State) : LaneStep × State :=
  let test := RunStats.failed (decide (st.phase = .rx)) (sampleNeed (decide (st.phase = .rx))) { m with lost := m.lost || (fibreOf s f).apr }
  let kind := phaseKind st.phase
  let second := decide (st.runs % 2 = 1)
  let st1 := { st with runs := st.runs + 1 }
  if test ≠ 0 then
    let s1 := unqualified f st.lane kind second test stat s
    let s2 := if 3 ≤ test ∧ test ≤ 6 ∧ !(second && st.dead) then attemptFails kind f st.lane s1 else s1
    ({ st1 with hasA := false, dead := !second, runA := [], pkt := none }, replyOpt st.pkt stCalInputUnqualified [] s2)
  else if !second then ({ st1 with hasA := true, dead := false, runA := means }, s)
  else if st.dead || !st.hasA then ({ st1 with dead := false, hasA := false, runA := [] }, s)
  else
    let r := judge kind f st.lane st.runA means ring s
    ({ st1 with hasA := false, runA := [], items := st.items + r.1 }, r.2)

/-! ### Rotations (R282 to R284) -/

/-- How a fibre calibrates: 0 not at all, 1 by bridge and roll, 2 in slot mode, 3 in XN5 mode (R283). -/
def calMode (s : State) (f : Nat) : Nat :=
  match modeOf s f with
  | .faceplate => 0
  | .xn5 => 3
  | .native => if fixedLanes s f then 2 else 1

/-- The interval and the enable let a fibre rotate (R282). -/
def rotates (s : State) (f : Nat) : Bool := decide (s.cal.interval ≠ 0) && s.cal.mask.getLsbD f && decide (calMode s f ≠ 0)

/-- A step begins on a lane that needs no relief (R283, R293). -/
def directStep (f x : Nat) (pkt : Option PktRef) (s : State) : State :=
  modRot f (fun r => { r with step := some { lane := x, phase := .tx, s0 := (fibreOf s f).sfc, pkt := pkt, rolled := true } }) s

/-- Try a lane: 0 its step has begun, 1 it is skipped, 2 its line is not free (R159, R282, R283). -/
def tryLane (f x : Nat) (pkt : Option PktRef) (s : State) : Nat × State :=
  if (laneOf s f x).failed then (1, s)
  else match calMode s f with
    | 1 =>
      match txLinkOf s f x, spareOf s f with
      | some l, some k =>
        if !l.inService || !(laneOf s f x).inService then (1, s)
        else
          let c := lineFree s f k l
          if c.1 then (0, modRot f (fun r => { r with step := some { lane := x, phase := .tx, pkt := pkt } }) (beginRelief f k x l false none c.2)) else (2, c.2)
      | _, _ => (1, s)
    | 2 => if (txLinkOf s f x).isSome then (0, directStep f x pkt s) else (1, s)
    | 3 => if tget 0 s.net.xaLines (laneKey f x) = 0 then (0, directStep f x pkt (modLane f x (fun l => { l with cal := true, role := .unassigned }) s)) else (1, s)
    | _ => (1, s)

/-- CAL_ROTATION_DONE: fibre, steps, skipped, seconds (R302); the next rotation starts at once when its time has passed
(R282). -/
def rotationDone (f : Nat) (s : State) : State :=
  let r := rotOf s f
  let sec := (s.sc - r.startSc) / 400000000
  let s1 := raise evCalRotationDone (srcFibre f) (le 1 f ++ leSat 4 r.steps ++ leSat 4 r.skipped ++ leSat 4 sec) (modRot f (fun x => { x with running := false }) s)
  if rotates s f && decide (s.cal.interval.toNat ≤ sec) then modRot f (fun x => { x with running := true, steps := 0, skipped := 0, startSc := s.sc }) s1 else s1

/-- A lane is skipped in a rotation: CAL_DEFERRED and SPARE_BLOCKED where its line is not free (R159, R282). -/
def skipLane (f x : Nat) (blocked : Bool) (s : State) : State :=
  let s1 := modRot f (fun r => { r with line := x, skipped := r.skipped + 1 }) s
  if blocked then spareBlocked f x 1 (raise evCalDeferred (srcFibre f) (le 1 f ++ le 1 x) s1) else s1

/-- Take the next lane of a rotation, past those that are skipped. -/
def takeNext : Nat → Nat → State → State
  | 0, _, s => s
  | n + 1, f, s =>
    let r := rotOf s f
    if !r.running then s
    else if 33 ≤ r.steps + r.skipped then rotationDone f s
    else
      let x := (r.line + 1) % 33
      let t := tryLane f x none s
      if t.1 = 0 then t.2 else takeNext n f (skipLane f x (decide (t.1 = 2)) t.2)

/-- The host's requested lane: its step, or 0x0571 where it has come to be skipped (R284). -/
def takeWanted (f x : Nat) (ref : PktRef) (s : State) : State :=
  let s1 := modRot f (fun r => { r with want := r.want.drop 1 }) s
  let t := tryLane f x (some ref) s1
  if t.1 = 0 then t.2 else reply ref stCalLaneUnavailable [] t.2

/-- A fibre is ready for its next lane: no step or relief in progress, no plan at work on its links, its comb source locked
(R163, R301). -/
def calReady (s : State) (f : Nat) : Bool :=
  litUp s && ceReach s 0 && decide (calMode s f ≠ 0) && (rotOf s f).step.isNone && (reliefOn s f).isNone && !(s.opt.announce.any fun a => decide (a.fibre = f)) &&
    (decide (calMode s f ≠ 1) || (!(s.opt.links.any fun l => decide (l.fibre = f) && l.tx && !l.inService) && (spareOf s f).isSome)) &&
    ((combOf s (f / 4)).locked || decide (s.opt.k4For = some (f / 4)))

/-- The next step of a fibre, where there is one to take; a rotation pauses in automatic power reduction (R163, R283). -/
def rotateNext (f : Nat) (s : State) : State :=
  let r := rotOf s f
  if !r.running && r.want.isEmpty || !calReady s f then s
  else if (fibreOf s f).apr then (if r.paused then s else modRot f (fun x => { x with paused := true }) s)
  else
    let s1 := if r.paused then modRot f (fun x => { x with paused := false }) s else s
    match r.want with
    | (x, ref) :: _ => takeWanted f x ref s1
    | [] => takeNext 68 f s1

/-- CAL_ROTATION_DUE: a rotation starts, unless one runs on the fibre (R282). -/
def execCalRotationDue (fibre : Nat) (s : State) : Host.Outcome State Fault Refusal :=
  if litUp s && decide (fibre < 16) && rotates s fibre && !(rotOf s fibre).running then
    .next (rotateNext fibre (modRot fibre (fun r => { r with running := true, steps := 0, skipped := 0, startSc := s.sc }) s))
  else .next s

/-- A step has ended with its results in force: its lane is the last one calibrated, and its packet is answered (R282,
R355). -/
def stepDone (f : Nat) (st : LaneStep) (s : State) : State :=
  replyOpt st.pkt 0 (le 2 st.items)
    (modRot f (fun r => { r with step := none, line := st.lane, steps := if r.running then r.steps + 1 else r.steps }) s)

/-- LANE_READY_TIMEOUT: the bridge ends, the lane stays in service, SPARE_BLOCKED is raised; a rotation skips the lane (R160). -/
def laneReadyTimeout (f : Nat) (s : State) : State :=
  match reliefOn s f with
  | none => s
  | some r =>
    if r.step ≠ 2 then s
    else
      let s1 := spareBlocked f r.lane 2 (replyOpt r.pkt stStateInvalid [] (spareBack f r.spare (dropRelief f s)))
      match (rotOf s f).step with
      | none => s1
      | some st => replyOpt st.pkt stCalLaneUnavailable [] (modRot f (fun x => { x with step := none, line := st.lane, skipped := if x.running then x.skipped + 1 else x.skipped }) s1)

/-- LANE_READY_TIMEOUT (R160). -/
def execLaneReadyTimeout (fibre : Nat) (s : State) : Host.Outcome State Fault Refusal := if litUp s then .next (laneReadyTimeout fibre s) else .next s

/-- Rotations end when the optics go down: requested steps are cancelled (R14, R283). -/
def rotationsStop (s : State) : State :=
  (List.range 16).foldl (fun t f =>
    ((rotOf s f).want.foldl (fun u w => reply w.2 stCancelled [] u) t) |> modRot f (fun r => { r with want := [], running := false, paused := false, rx := none })) s

/-! ### Runs (R281, R287, R293) -/

/-- A run of this module's own step, as origin; in slot mode the phases follow from the completed runs (R281, R293). -/
def originRun (f : Nat) (rx : Bool) (means : List Int) (test : RunStats) (stat : Int) (s : State) : State :=
  match (rotOf s f).step with
  | none => s
  | some st =>
    if st.rolled = false ∨ decide (st.phase = .rx) ≠ rx then s
    else
      let slot := decide (calMode s f = 2)
      let r := runStep f st means test stat (!slot) s
      if !slot then modRot f (fun x => { x with step := some r.1 }) r.2
      else if r.1.runs = 2 then modRot f (fun x => { x with step := some { r.1 with phase := .rx } }) r.2
      else if 4 ≤ r.1.runs then rotateNext f (stepDone f r.1 r.2)
      else modRot f (fun x => { x with step := some r.1 }) r.2

/-- A run of a received lane in role 3, as terminus (R281). -/
def terminusRun (f : Nat) (means : List Int) (test : RunStats) (stat : Int) (s : State) : State :=
  match (rotOf s f).rx with
  | none => s
  | some st =>
    if st.phase = .tx then s
    else
      let r := runStep f st means test stat true s
      modRot f (fun x => { x with rx := some r.1 }) r.2

/-- CAL_RUN_COMPLETE: capture and compute of a run have ended; `test` is what its capture measured,
`stat` the statistic that a failed test reports, and `means` are the results of its items (R285 to R287). -/
def execCalRunComplete (fibre : Nat) (rx : Bool) (means : List Int) (test : RunStats) (stat : Int) (s : State) : Host.Outcome State Fault Refusal :=
  if !litUp s ∨ 16 ≤ fibre then .next s
  else if rx ∧ calMode s fibre ≠ 2 then .next (terminusRun fibre means test stat s)
  else .next (originRun fibre rx means test stat s)

/-- The step in progress at a superframe boundary of its fibre (R281): the receive phase, the announcement of role 1, the
end. -/
def stepBoundary (f : Nat) (s : State) : State :=
  match (rotOf s f).step with
  | none => s
  | some st =>
    let n := ((fibreOf s f).sfc - st.s0).toNat
    if st.rolled = false ∨ calMode s f = 2 then s
    else if calMode s f = 3 then
      if 22936 ≤ n then stepDone f st (modLane f st.lane (fun l => { l with cal := false }) s) else s
    else if n = 22936 then modRot f (fun x => { x with step := some { st with phase := .rx, runs := 0, hasA := false, dead := false, runA := [] } }) s
    else if n = 45869 then announceRole f st.lane .spare s
    else if 45872 ≤ n ∧ (laneOf s f st.lane).spare then
      let s1 := match substOf s f st.lane with
        | some k => modLane f k (fun l => { l with subst := false, substFor := 0 }) s
        | none => s
      stepDone f st s1
    else s

/-! ### Temperature sets (R291) -/

/-- A set at its die's temperature: what differs from the values in force or due is due (R290, R291). -/
def evalSet (s : State) (key : Nat) : State :=
  let c := calSet s key
  let t := fibreTemp s (keyFibre key)
  let pts := calPoints key c
  let vs := (List.range 8).map fun i => if i < itemCount (keyKind key) then calRound pts i t else 0
  if vs = (List.range 8).map (fun i => c.next.getD i 0) then s else calDue key vs s

/-- TEMPERATURE_SET_EVAL (R291): the temperatures of P0 to P3 and SW in 0.01 °C. -/
def execTemperatureSetEval (temps : List Int) (s : State) : Host.Outcome State Fault Refusal :=
  if litUp s then
    .next ((List.range 1056).foldl evalSet (s.modCal fun c => { c with dieTemp := tsets 0 [] 0 (temps.take 5) }))
  else .next s

/-! ### Privileged volatile values (R294 to R296) -/

/-- The 128 bits of an operating-point register (R294). -/
def kopBits (c : Comb) : Nat :=
  b2n c.valid + 2 ^ 64 * c.temp.toNat + 2 ^ 80 * c.tune.toNat + 2 ^ 96 * c.cavity.toNat + 2 ^ 112 * c.drive.toNat

/-- The fields that a write of an operating-point register sets; `KOP.TEMP` is read-only (R294). -/
def kopWrite (v : BitVec 128) (c : Comb) : Comb :=
  { c with drive := BitVec.ofNat 16 (v.toNat >>> 112), cavity := BitVec.ofNat 16 (v.toNat >>> 96), tune := BitVec.ofNat 16 (v.toNat >>> 80), valid := v.getLsbD 0 }

/-- KOP_REFRESH: every 1 s each lit source's register takes the state that its loops have reached (R294). -/
def execKopRefresh (kop : List (BitVec 128)) (s : State) : Host.Outcome State Fault Refusal :=
  if litUp s then
    .next ((List.range 5).foldl (fun t k => modComb k (fun c => if c.lit then
      { kopWrite (kop.getD k 0) c with temp := BitVec.ofNat 16 ((kop.getD k 0).toNat >>> 64), valid := true } else c) t) s)
  else .next s

/-- The registers are lost: on entry to Asleep, at a cold start and on loss of power (R296). -/
def privLost (s : State) : State :=
  let s1 := (List.range 5).foldl (fun t k => modComb k (fun c => { c with drive := 0, cavity := 0, tune := 0, temp := 0, valid := false }) t) s
  s1.modCal fun c => { c with eob := [], eoDue := [], eoForce := [], eoRun := none }

/-- PRIV_READ: K0 to K4, then the 825 EO bias registers (R355). -/
def execPrivRead (p : Pkt) (buf : Buf) (s : State) : Host.Outcome State Fault Refusal :=
  .next (runPkt p 0x0704 buf.bytes true (fun ref t =>
    replyBuf ref buf (((List.range 5).map fun k => le 16 (kopBits (combOf t k))).flatten ++ ((List.range 825).map fun e => le 4 (eobOf t e).toNat).flatten) [] t) s)

/-- PRIV_WRITE of a comb source's register: only while the source is dark (R296). -/
def execPrivWriteComb (p : Pkt) (index : BitVec 16) (value : BitVec 128) (s : State) : Host.Outcome State Fault Refusal :=
  .next (runPkt p 0x0705 (le 1 0 ++ le 2 index.toNat ++ le 16 value.toNat) (decide (index.toNat < 5)) (fun ref t =>
    if (combOf t index.toNat).lit || !ceReach t 0 then reply ref stStateInvalid [] t
    else gateIssue (5 + index.toNat) 10 [index.toNat, value.toNat] (reply ref 0 [] (modComb index.toNat (kopWrite value) t))) s)

/-- An EO bias is written: it is due at its boundary, and it takes the place of the element's calibration in progress (R290,
R296). -/
def eoWrite (e : Nat) (v : BitVec 128) (s : State) : State :=
  s.modCal fun c =>
    { c with eob := tset 0 c.eob e (BitVec.ofNat 32 (v.toNat % 2 + 256 * ((tget 0 c.eob e).toNat / 256 % 256) + 65536 * (v.toNat / 65536 % 65536))),
             eoDue := (c.eoDue.filter fun x => decide (x ≠ e)) ++ [e],
             eoRun := if c.eoNext = e then none else c.eoRun, eoNext := if c.eoNext = e && c.eoRun.isSome then (e + 1) % 825 else c.eoNext }

/-- PRIV_WRITE of an EO bias register (R296). -/
def execPrivWriteEoBias (p : Pkt) (index : BitVec 16) (value : BitVec 128) (s : State) : Host.Outcome State Fault Refusal :=
  .next (runPkt p 0x0705 (le 1 1 ++ le 2 index.toNat ++ le 16 value.toNat) (decide (index.toNat < 825)) (fun ref t => gateIssue 4 11 [index.toNat, value.toNat] (reply ref 0 [] (eoWrite index.toNat value t))) s)

/-! ### Recess windows (R67, R130, R293) -/

/-- The fibre and lane that an element's records name: its output's fibre, or its input's where the output is local. -/
def eoFibre (e : Nat) : Nat := 12 + (if e % 5 < 4 then e % 5 else if e / 5 % 5 < 4 then e / 5 % 5 else 0)

/-- A bias of an element is calibrated (R287, R293, R295, R456): `EOB.TEMP` in 0.5 °C. -/
def eoTake (e : Nat) (m : Int) (s : State) : State :=
  let t := evenDiv (tget 0 s.cal.dieTemp 4) 50
  s.modCal fun c =>
    { c with eob := tset 0 c.eob e (BitVec.ofNat 32 (1 + 256 * (t % 256).toNat + 65536 * (m % 65536).toNat)), eoDue := (c.eoDue.filter fun x => decide (x ≠ e)) ++ [e],
             eoRun := none, eoNext := (e + 1) % 825 }

/-- The EO capture of a kind 2 window: two windows make an attempt on an element, in ascending order, each a run by
itself, so that test 4 asks no count of it (R287, R293; log entry 102, DEDUCED). -/
def eoWindow (v : Int) (m : RunStats) (stat : Int) (s : State) : State :=
  let e := s.cal.eoNext
  let f := eoFibre e
  let k := e / 25
  let skip := fun (t : State) => t.modCal fun c => { c with eoRun := none, eoNext := (e + 1) % 825 }
  if m.failed false 0 ≠ 0 then skip (unqualified f k 0 s.cal.eoRun.isSome (m.failed false 0) stat s)
  else match s.cal.eoRun with
    | none => s.modCal fun c => { c with eoRun := some v }
    | some a =>
      let m := evenDiv (a + v) 2
      let bad := fun (cause : Nat) => skip (raise evCalDisagree (srcFibre f) (le 1 f ++ le 1 k ++ le 1 14 ++ leInt 4 a ++ leInt 4 v ++ le 1 cause) s)
      if Config.eoAgree < (a - v).natAbs then bad 1 else if m < -32000 ∨ 32000 < m then bad 2 else eoTake e m s

/-- A Recess window begins (R67): patrol scrub of an MM, fast-plane calibration, or tile-store scrub of a die. A window at or
beyond the period's length runs only in a stretched period. -/
def recessWindow (w : RecessWin) (eo : Int) (test : RunStats) (stat : Int) (err : ReadErr) (s : State) : State :=
  match w.kind.toNat with
  | 1 => scrubMm err (mmPkg w.stn) (mmT s w.stn) w.len s
  | 2 => eoWindow eo test stat s
  | 3 => scrubTiles err w.die w.stn s
  | _ => s

/-- RECESS_WINDOW_START: the window of the image's table with its number (R67, R72). `eo` is the bias that SW measures in a
kind 2 window, `test` what its capture measured, `stat` the statistic that a failed test reports. -/
def execRecessWindowStart (window : Nat) (eo : Int) (test : RunStats) (stat : Int) (err : ReadErr) (s : State) : Host.Outcome State Fault Refusal :=
  match s.job.image with
  | none => .next s
  | some i =>
    match i.recess[window]? with
    | none => .next s
    | some w => if litUp s && s.job.gridOn && (s.job.stretched || decide (w.start < i.pcc)) then .next (recessWindow w eo test stat err s) else .next s

/-! ### Commands (R355) -/

/-- CAL_CONFIG: an interval of 0, or a fibre that is not enabled, stops its rotation; the step in progress ends as it would
(R282). -/
def calConfig (interval : BitVec 32) (mask : BitVec 16) (ref : PktRef) (s : State) : State :=
  reply ref 0 [] (s.modCal fun c =>
    { c with interval := interval, mask := mask,
             rot := c.rot.map fun e => if interval = 0 || !mask.getLsbD e.1 then (e.1, { e.2 with running := false }) else e })

/-- CAL_CONFIG: 0, or 60 to 86,400 s (R282). -/
def execCalConfig (p : Pkt) (interval : BitVec 32) (mask : BitVec 16) (s : State) : Host.Outcome State Fault Refusal :=
  .next (runPkt p 0x0701 (le 4 interval.toNat ++ le 2 mask.toNat)
    (decide (interval = 0) || (decide (60 ≤ interval.toNat) && decide (interval.toNat ≤ 86400))) (calConfig interval mask) s)

/-- R282 would skip a lane, or its fibre does not calibrate (R283). While a step is in progress, the spare that would relieve
the lane is the one which that step leaves. -/
def laneSkipped (s : State) (f x : Nat) : Bool × State :=
  match calMode s f, (rotOf s f).step with
  | 1, some st =>
    if (laneOf s f x).failed then (true, s)
    else if st.lane = x then (false, s)
    else match txLinkOf s f x with
      | some l =>
        let c := lineFree s f st.lane l
        (!c.1, c.2)
      | none => (true, s)
  | _, _ =>
    let t := tryLane f x none s
    (decide (t.1 ≠ 0), { s with free := t.2.free })

/-- CAL_LANE_STEP: the next step on its fibre (R284). -/
def calLaneStep (f x : Nat) (ref : PktRef) (s : State) : State :=
  if !litUp s then reply ref stStateInvalid [] s
  else
    let k := laneSkipped s f x
    if k.1 then reply ref stCalLaneUnavailable [] k.2
    else rotateNext f (replyPending ref (modRot f (fun r => { r with want := r.want ++ [(x, ref)] }) k.2))

/-- CAL_LANE_STEP (R284). -/
def execCalLaneStep (p : Pkt) (fibre lane : BitVec 8) (s : State) : Host.Outcome State Fault Refusal :=
  .next (runPkt p 0x0702 (le 1 fibre.toNat ++ le 1 lane.toNat) (decide (fibre.toNat < 16) && decide (lane.toNat < 33)) (calLaneStep fibre.toNat lane.toNat) s)

/-- CAL_READ: the newest valid journal record of a key; a key that has none is a state error (R297, R299). -/
def execCalRead (p : Pkt) (kind fibre lane : BitVec 8) (buf : Buf) (s : State) : Host.Outcome State Fault Refusal :=
  .next (runPkt p 0x0703 (le 1 kind.toNat ++ le 1 fibre.toNat ++ le 1 lane.toNat ++ buf.bytes)
    (decide (1 ≤ kind.toNat) && decide (kind.toNat ≤ 2) && decide (fibre.toNat < 16) && decide (lane.toNat < 33))
    (fun ref t => match newestRec t.cal.journal (calKey (kind.toNat - 1) fibre.toNat lane.toNat) with
      | some e => replyBuf ref buf e.2.bytes [] t
      | none => reply ref stStateInvalid [] t) s)

/-- CAL_SUSPECT_CLEAR: side 0 transmitting, 1 receiving (R288, R355). -/
def execCalSuspectClear (p : Pkt) (fibre lane side : BitVec 8) (s : State) : Host.Outcome State Fault Refusal :=
  .next (runPkt p 0x0706 (le 1 fibre.toNat ++ le 1 lane.toNat ++ le 1 side.toNat)
    (decide (fibre.toNat < 16) && decide (lane.toNat < 33) && decide (side.toNat < 2))
    (fun ref t => reply ref 0 [] (markSuspect side.toNat fibre.toNat lane.toNat false t)) s)

end Sys2Proof.Machine
end

