-- ==== Sys2Proof/Machine/Superframe.lean ====
section
/-!
DEFINITION. SUPERFRAME_BOUNDARY: what was announced applies, calibration values come into force, lane steps and reliefs move
on, and links that are verified enter service (R153 to R157, R160, R190, R281, R290).
-/

namespace Sys2Proof.Machine

/-! ### The received lanes (R153, R154) -/

/-- The data lane that a frame header names. -/
def fhLane (h : BitVec 256) : Nat := fld h.toNat 240 6

/-- Its path tag. -/
def fhTag (h : BitVec 256) : Nat := fld h.toNat 246 10

/-- `FH.POS`. -/
def fhPos (h : BitVec 256) : Nat := fld h.toNat 194 5

/-- `FH.ROLE`. -/
def fhRole (h : BitVec 256) : Nat := fld h.toNat 186 3

/-- `FH.SFC`. -/
def fhSfc (h : BitVec 256) : Nat := fld h.toNat 202 32

/-- The announced change of a received lane has come: superframe `FH.NEXT_SFC` arrives on it (R154). -/
def nextCome (fb : Fibre) (h : BitVec 256) : Option (BitVec 256) :=
  (fb.rxNext.find? fun e => decide (e.1 = fhLane h)).bind fun e => if fld e.2.toNat 137 32 = fhSfc h then some e.2 else none

/-- The role of a received lane in the superframe that a header opens: the announced one where its time has come (R154). -/
def rxRole (fb : Fibre) (h : BitVec 256) : Nat := ((nextCome fb h).map fun n => fld n.toNat 182 3).getD (fhRole h)

/-- Its position. -/
def rxPos (fb : Fibre) (h : BitVec 256) : Nat := ((nextCome fb h).map fun n => fld n.toNat 174 5).getD (fhPos h)

/-- The lanes that headers put in service on a received link, by position. -/
def rxLanes (fb : Fibre) (hdrs : List (BitVec 256)) (l : PhysLink) : List Nat :=
  (List.range 32).filterMap fun p =>
    (hdrs.find? fun h => decide (rxRole fb h = 0) && decide (fhTag h = l.tag.toNat) && decide (rxPos fb h = p) && decide (fhLane h < 33)).map fhLane

/-- A received link takes the lanes that its headers show (R154, R155); with a skew above 64 ns a new line is not taken into service and
raises DESKEW_FAIL (R157), and else it is FEC-locked (R158). -/
def rxRebuild (hdrs : List (BitVec 256)) (skew : Nat) (s : State) (l : PhysLink) : State :=
  let ls := rxLanes (fibreOf s l.fibre) hdrs l
  let new := ls.filter fun k => !decide (k ∈ l.lanes)
  if l.tx || !l.inService || ls.isEmpty || decide (ls = l.lanes) then s
  else if !new.isEmpty && decide (64 < skew) then
    raise evDeskewFail (srcFibre l.fibre) (le 1 l.fibre ++ le 1 l.link.toNat ++ le 1 (new.headD 0) ++ leSat 4 skew) s
  else modLanes l.fibre new (fun y => { y with fecLock := true }) (modLink l (fun x => { x with lanes := ls }) s)

/-- The headers that announce a change are kept, the newest of each lane (R153, R154). -/
def keepNext (f : Nat) (hdrs : List (BitVec 256)) (s : State) : State :=
  modFibre f (fun x => { x with rxNext := (hdrs.filter fun h => bit h.toNat 185 && decide (fhLane h < 33)).foldl (fun t h => tset 0 t (fhLane h) h) x.rxNext }) s

/-- The received link whose path tag a header shows. -/
def rxLinkTag (s : State) (f tag : Nat) : Option PhysLink :=
  s.opt.links.find? fun l => !l.tx && decide (l.fibre = f) && decide (l.tag.toNat = tag) && l.inService

/-- A received lane in role 2: at its eleventh superframe the lane is locked, and with the right tag and skew lane-ready goes to
its transmitter; DESKEW_FAIL where the skew is above 64 ns (R157, R160). -/
def bridged (f skew : Nat) (s : State) (h : BitVec 256) : State :=
  let k := fhLane h
  if fhRole h ≠ 2 ∨ 33 ≤ k then s
  else
    let n := tget 0 (fibreOf s f).bridges k + 1
    let s1 := modFibre f (fun x => { x with bridges := tset 0 x.bridges k n }) s
    if n ≠ 11 then s1
    else match rxLinkTag s f (fhTag h) with
      | none => s1
      | some l =>
        let s2 := modLane f k (fun y => { y with fecLock := true }) s1
        if 64 < skew then raise evDeskewFail (srcFibre f) (le 1 f ++ le 1 l.link.toNat ++ le 1 k ++ leSat 4 skew) s2
        else laneMessage true (l.far s2) (farFibre s2 l) k s2

/-- The received lane in role 3: its superframes are counted, and its receive phase begins at the 22,936th; when the role ends
the step is over, and a phase that had not ended keeps no results (R281, R301). -/
def rxStep (f : Nat) (hdrs : List (BitVec 256)) (s : State) : State :=
  match hdrs.find? fun h => decide (fhRole h = 3) && decide (fhLane h < 33) with
  | none => if (rotOf s f).rx.isSome then modRot f (fun r => { r with rx := none }) s else s
  | some h =>
    let k := fhLane h
    match (rotOf s f).rx with
    | none => modRot f (fun r => { r with rx := some { lane := k, phase := .tx, rolled := true } }) s
    | some st =>
      if st.lane ≠ k then modRot f (fun r => { r with rx := some { lane := k, phase := .tx, rolled := true } }) s
      else modRot f (fun r => { r with rx := some { st with s0 := st.s0 + 1, phase := if st.s0.toNat + 1 < 22936 then .tx else .rx } }) s

/-- What the headers of a fibre's received lanes say (R153, R154). -/
def rxHeaders (f : Nat) (hdrs : List (BitVec 256)) (skew : Nat) (s : State) : State :=
  let roles := hdrs.filterMap fun h => if fhLane h < 33 then some (fhLane h, fhRole h) else none
  let s1 := modFibre f (fun x =>
    { x with roles := roles, bridges := x.bridges.filter fun e => hdrs.any fun h => decide (fhLane h = e.1) && decide (fhRole h = 2) }) s
  let s2 := (s1.opt.links.filter fun l => decide (l.fibre = f)).foldl (rxRebuild hdrs skew) s1
  rxStep f hdrs (hdrs.foldl (bridged f skew) (keepNext f hdrs s2))

/-! ### The boundary -/

/-- The superframe counter of a fibre moves on; in slot mode it follows the slot grid (R153, R204). -/
def sfcNext (f : Nat) (s : State) : State :=
  modFibre f (fun x =>
    { x with sfc := if slotFibre s f && s.job.gridOn then BitVec.ofNat 32 (s.job.bell * 1024 + (s.tm.ft - s.job.tb).toNat / 65536 / 64) else x.sfc + 1 }) s

/-- Lane items that are due come into force, unless they wait for the period Bell; EO biases with no slot table (R290). -/
def calBoundary (f : Nat) (s : State) : State :=
  if fixedLanes s f then s
  else
    let s1 := calFibre f s
    if 12 ≤ f ∧ !slotTable s1 then eoApply (fun e => decide (eoFibre e = f)) s1 else s1

/-- Links of a fibre that have been verified enter service (R190). -/
def enterAll (f : Nat) (err : ReadErr) (s : State) : State :=
  (s.opt.links.filter fun l => decide (l.fibre = f) && decide (l.verified = some true) && !l.inService).foldl (fun t l => enterVerified err l t) s

/-- What a fibre's lanes and links do at a boundary: `hdrs` are the frame headers of its received lanes, `skew` the largest skew
among them in ns. -/
def lanesBoundary (f : Nat) (hdrs : List (BitVec 256)) (skew : Nat) (err : ReadErr) (s : State) : State :=
  let s2 := stepBoundary f (calBoundary f (narrowFault f (waitingRelief f (applyDue err f s))))
  let s3 := if modeOf s2 f = .native then enterAll f err (if (fibreOf s2 f).los then s2 else rxHeaders f hdrs skew s2) else s2
  rotateNext f s3

/-- A superframe boundary on a fibre: the frames of the superframe that ends have been sent; the counter, the lanes and links, and the streams that stall. -/
def boundary (f : Nat) (hdrs : List (BitVec 256)) (skew : Nat) (err : ReadErr) (s : State) : State :=
  stallCheck f (lanesBoundary f hdrs skew err (sfcNext f (framesOut f s)))

/-- SUPERFRAME_BOUNDARY (R154, R281, R290). -/
def execSuperframeBoundary (fibre : Nat) (hdrs : List (BitVec 256)) (skew : Nat) (err : ReadErr) (s : State) : Host.Outcome State Fault Refusal :=
  if litUp s && decide (fibre < 16) then .next (boundary fibre hdrs skew err s) else .next s

end Sys2Proof.Machine
end

