-- ==== Sys2Proof/Machine/Boot.lean ====
section
/-!
DEFINITION. Starting and stopping: cold starts, warm starts, failed starts and safe mode (R356 to R373), POWER_FAIL and
its recovery (R374 to R376), and changes of power state (R17, R380, R381).
-/

namespace Sys2Proof.Machine

/-! ### Replies that must leave before the module restarts -/

/-- Write replies while there is room. -/
def writeReplies : Nat → State → State
  | 0, s => s
  | n + 1, s => writeReplies n (replyWrite s)

/-- Queue a reply and write what waits before something stops the host interface. -/
def replyNow (ref : PktRef) (status : Nat) (data : Bytes) (s : State) : State :=
  let t := reply ref status data s
  if hostUp t && t.hi.ringEn then writeReplies t.hi.replies.length t else t

/-! ### Cold start -/

/-- The Daybook at a cold start (R402, R403, R405, R411): the ring begins empty and takes the bank's records; bursts and
refills come from MRAM, buckets are full and pending counts discarded; narrow mode ends. -/
def daybookCold (s : State) : State :=
  let kept := sortRecs s.db.bank
  s.modDb fun d =>
    { d with
      ring := kept, ringDrop := 0, bank := [], bankDrop := 0, narrow := false, ringFailed := false, mirrorOut := false,
      mirrorQ := kept.filter fun r => decide (2 ≤ r.sev.toNat) && !d.mirror.any fun x => decide (x.seq = r.seq),
      buckets := s.nvs.rates.foldl (fun b e => tset {} b e.1 { tokens := e.2.1, burst := e.2.1, refill := e.2.2, supp := 0 }) [],
      srcHeld := [], svDown := false }

/-- The highest era among the mirror's records. -/
def highEra (l : List DbRec) : Nat := l.foldl (fun m r => max m r.era.toNat) 0

/-- Where numbering goes on after the always-on domain lost power (R403): at the newer valid checkpoint, or in a new
era. -/
def daybookNumber (s : State) : State :=
  let d := s.db
  let a := if d.ckptNewerB then d.ckptB else d.ckptA
  let b := if d.ckptNewerB then d.ckptA else d.ckptB
  if a.valid || b.valid then
    let c := if a.valid then a else b
    s.modDb fun d => { d with era := c.era, count := c.count }
  else
    let e := highEra d.mirror
    raise evDaybookNewEra srcSv (le 2 (e + 1) ++ le 2 e) (s.modDb fun d => { d with era := BitVec.ofNat 16 (e + 1), count := 0 })

/-- The state in which a cold start begins: what R368 does not keep is at its reset value (R362 step 1, R368). -/
def coldState (cause kind : Nat) (s : State) : State :=
  { s with
    pins := { s.pins with tjMax := 0x8000, alert := s.pins.alert ||| (if s.pwr.failSeen then 32 else 0),
                          wake := false, pwrGood := true, pinsDriven := false }
    pwr := { aon := true, ps := .off, sag := s.pwr.sag, nvInhibit := s.pwr.nvInhibit, intOsc := false,
             capW := s.pwr.nvCapW, capA := s.pwr.nvCapA, stageMs := s.sc, nvCapW := s.pwr.nvCapW, nvCapA := s.pwr.nvCapA,
             oppOff := s.pwr.oppOff, dieOut := s.pwr.dieOut }
    boot := { kind := BitVec.ofNat 2 kind, coldFails := s.boot.coldFails, warmFails := s.boot.warmFails,
              cause := BitVec.ofNat 6 cause, lastFail := s.boot.lastFail, startSc := s.sc, starting := true }
    ident := { s.ident with idField := s.ident.nvId, assigned := s.ident.nvAssigned, stored := true, active := s.ident.nvId }
    prof := {}
    hi := {}
    sec := { s.sec with mr := [], log := [], logOver := false, fuseRead := s.sec.fuse }
    job := {}
    stn := {}
    strm := {}
    sync := []
    mem := { cells := s.mem.cells, remaps := s.mem.remaps, retired := s.mem.retired, soft := s.mem.soft, fuses := s.mem.fuses,
             hostSeqs := s.mem.hostSeqs, mergeSeq := s.mem.mergeSeq, trained := s.mem.trained }
    ts := {}
    opt := {}
    sw := { ringSteps := s.sw.ringSteps }
    tm := {}
    bells := {}
    ce := {}
    cal := { journal := s.cal.journal, head := s.cal.head, nextSeq := s.cal.nextSeq }
    pfx := { home := s.nvs.home, holdOff := s.nvs.holdOff, pairLimit := s.nvs.pairLimit, hot := decide (s.nvs.pairLimit ≠ 0) }
    net := {}
    nvw := {} }

/-- The identity key at a start (R418, R420): generated at the first cold start, then checked. -/
def identityStep (s : State) : State :=
  let s1 := if s.sec.keyPair then s else
    raise evIdentityKeyGenerated srcSec (le 8 Config.identityKeyTag.toNat) (s.modSec fun c => { c with keyPair := true, keyOk := true })
  if s1.sec.keyOk then s1 else raise evIdentityKeyLost srcSec (le 1 1) s1

/-- The digest that MR3 is extended with (R421): fuse maps, field fuses, soft maps as applied, SV fuse word 0. -/
def repairDigest (s : State) : BitVec 384 :=
  digest (((List.range 4).map Config.factoryFuses).flatten ++
    ((List.range 128).map fun i => le 4 (tget 0 s.mem.fuses i).toNat).flatten ++
    (s.mem.applied.map fun a => le 1 a.2 ++ le 4 a.1.toNat).flatten ++ le 4 (b2n s.sec.fuseRead))

/-- Step 4 of a start: configuration requests are answered once PERST# is released; safe mode ends here in stage 12
(R362, R370). -/
def pcieStep (s : State) : State :=
  if s.pins.perst then s.modBoot fun b => { b with stage := 3 }
  else
    let s1 := s.modHi fun h => { h with pcieUp := s.pins.refclk }
    if s.boot.kind = 2 then
      raise evSafeModeEntered srcSv (le 1 s.boot.coldFails.toNat ++ le 1 s.boot.lastFail.toNat)
        ((s1.modBoot fun b => { b with stage := 12, starting := false }).modLife fun l => { l with safeMode := l.safeMode + 1 })
    else s1.modBoot fun b => { b with stage := 4 }

/-- Steps 2 to 4 of a cold start, in Awake (R362): MR0, the repair load with MR3, and PCIe. MR6 is extended with the key set. -/
def coldSteps (s : State) : State :=
  let s0 := s.modPwr fun p => { p with ps := .awake }
  let s1 := s0.modLife fun l => { l with coldStarts := addSat l.coldStarts 1 }
  let s2 := raise evStartCold srcSv (le 1 s.boot.cause.toNat ++ le 1 s.boot.coldFails.toNat) (s1.modBoot fun b => { b with stage := 1 })
  let s3 := identityStep (mrExtend 0 1 Config.bootRomDigest s2)
  let s4 := repairLoad (s3.modBoot fun b => { b with stage := 2 })
  pcieStep (mrExtend 6 7 (keySetDigest s4) (mrExtend 3 4 (repairDigest s4) s4))

/-- A cold start begins (R356, R362); an absent reference holds it in step 1 (R383). -/
def beginCold (cause kind : Nat) (s : State) : State :=
  let s1 := daybookCold (coldState cause kind s)
  if s1.pins.refclk then coldSteps s1 else s1

/-- The cold start that FORCE_COLD_N or COLD_START begins: in safe mode it clears `COLD_FAILS` and has cause 9
(R370). -/
def hostCold (cause : Nat) (s : State) : State :=
  if s.boot.stage = 12 then beginCold 9 0 (s.modBoot fun b => { b with coldFails := 0 }) else beginCold cause 0 s

/-- POWER_APPLIED: the always-on domain comes up, the counters of failed starts begin at 0, the calendar resumes from its
stored value with time-not-set, and a cold start begins with cause 1 (R356, R374, R372, R416). -/
def powerApplied (vin : BitVec 16) (s : State) : State :=
  let s1 := { s with
    pins := { s.pins with vin := vin }
    boot := { s.boot with coldFails := 0, warmFails := 0, lastFail := 0 }
    life := { s.life with cal := s.life.calStored, calFrac := 0, calNotSet := true }
    pwr := { s.pwr with aon := true, holdUp := false, sag := false, nvInhibit := decide (vin.toNat ≤ 355) } }
  beginCold 1 0 (daybookNumber (s1.modDb fun d => { d with ring := [], bank := [], bankDrop := 0, buckets := [], narrow := false, svDown := false }))

/-- POWER_APPLIED (R374). -/
def execPowerApplied (vin : BitVec 16) (s : State) : Host.Outcome State Fault Refusal :=
  if s.pwr.aon || decide (vin.toNat ≤ 340) then .next s else .next (powerApplied vin s)

/-- FORCE_COLD: a low pulse under 2 µs never starts the module, one of 10 µs or longer always does, and between them
either may happen (R437). -/
def execForceCold (lowNs : Nat) (s : State) : Host.Outcome State Fault Refusal :=
  if !s.pwr.aon || s.pwr.holdUp || decide (lowNs < 2000) then .next s
  else if lowNs < 10000 then
    if (freeVal 1 s) = 1 then .next (hostCold 2 (useFree s)) else .next (useFree s)
  else .next (hostCold 2 s)

/-- COLD_START: the reply is written before the reset (R356, R355). -/
def execColdStart (p : Pkt) (s : State) : Host.Outcome State Fault Refusal :=
  .next (runPkt p 0x0106 [] true (fun ref t => hostCold 3 (replyNow ref 0 [] t)) s)

/-! ### Failed starts -/

/-- A start fails (R369): START_FAILED with both counters, after the failed kind's counter has risen. -/
def failStart (cause : Nat) (s : State) : State :=
  let warm := decide (s.boot.kind = 1)
  let s1 := s.modBoot fun b =>
    { b with lastFail := BitVec.ofNat 8 cause, failedKind := some b.kind, starting := false, fwRunning := false, fetching := false,
             warmFails := if warm then addSat b.warmFails 1 else b.warmFails,
             coldFails := if warm then b.coldFails else addSat b.coldFails 1 }
  raise evStartFailed srcSv (le 1 s.boot.kind.toNat ++ le 1 s.boot.stage.toNat ++ le 1 cause ++ le 1 s1.boot.coldFails.toNat ++
    le 1 s1.boot.warmFails.toNat) s1

/-- START_STEP_TIMEOUT: the step in progress exceeds its maximum (cause 1); the SV self-test fails (2); the firmware has
been measured and does not report within 2 s (3). Host waits have no limit (R362, R369). -/
def execStartStepTimeout (selfTest : Bool) (s : State) : Host.Outcome State Fault Refusal :=
  let b := s.boot
  if !s.pwr.aon || s.pwr.holdUp || !b.starting || (selfTest && (decide (4 < b.stage.toNat) || b.fetching)) || (!selfTest && (decide (b.stage = 3) || (decide (b.stage = 4) && !b.fetching) ||
      (decide (b.stage = 8) && (b.combHold || !s.ident.assigned)) || decide (b.stage = 9))) then .next s
  else .next (if selfTest then failStart 2 (s.modBoot fun x => { x with stage := 1 }) else failStart (if b.stage = 5 then 3 else 1) s)

/-- An SV fetch meets an uncorrectable code word: the fetching unit stops until the host resets SV, and FETCH_UNCORRECTABLE is raised
(R131). The unit is the one that runs the firmware (log entry 78, DEDUCED); the syndrome is a free value. -/
def fetchStop (addr : BitVec 32) (s : State) : State :=
  let syn := freeVal 15 s
  raise evFetchUncorrectable srcFw (le 2 srcFw ++ le 4 addr.toNat ++ le 4 syn.toNat) ((useFree s).modBoot fun b => { b with fwFatal := true })

/-- FIRMWARE_FATAL: before the end of a start this is a failed start with cause 5; after it the firmware has stopped
(R369, R400); a fetch that meets an uncorrectable code word stops it as R131 says. -/
def execFirmwareFatal (cause : FwFault) (addr : BitVec 32) (s : State) : Host.Outcome State Fault Refusal :=
  if !fwUp s then .next s
  else
    match cause with
    | .fetch => .next (fetchStop addr s)
    | .fatal code =>
      let s1 := raise evFirmwareFatal srcFw (le 1 code.toNat ++ le 4 addr.toNat) s
      if s.boot.starting then .next (failStart 5 s1)
      else .next (s1.modBoot fun b => { b with fwFatal := true })

/-! ### Firmware -/

/-- The firmware image is laid out as R360 says: magic, lengths, flags and zero bytes. The code and configuration
lengths, the header and the signature add up to the pushed length; a signed image may carry up to 63 bytes of padding
before its signature (log entry 9, DEDUCED). -/
def imageFormatOk (img : Bytes) (len : Nat) : Bool :=
  let code := rd img 4 4
  let conf := rd img 8 4
  let sg := bit (rd img 12 4) 0
  let sum := 64 + code + conf + (if sg then 96 else 0)
  decide (img.length = len) && decide (len % 4096 = 0) && decide (4096 ≤ len) && decide (len ≤ 33554432) &&
    decide (rd img 0 4 = 0x38465758) && decide (code % 64 = 0) && decide (conf % 64 = 0) &&
    decide (sum ≤ len) && decide (len < sum + (if sg then 64 else 1))

/-- The image's signature: 0 unsigned, 1 valid, 2 invalid (R358, R360). -/
def imageSig (img : Bytes) : Nat :=
  if bit (rd img 12 4) 0 then
    let n := img.length - 96
    if ecdsaVerify (sha384 (img.take n)) (rd img n 48) (rd img (n + 48) 48) Config.firmwareKeyX Config.firmwareKeyY then 1 else 2
  else 0

/-- The image is refused: back to stage 4, and not a failed start (R361). -/
def refuseImage (cause : Nat) (s : State) : State :=
  raise evFirmwareRefused srcSv (le 1 cause ++ le 4 s.boot.fwLen.toNat)
    (s.modBoot fun b => { b with fwRefuse := BitVec.ofNat 4 cause, fetching := false, stage := 4 })

/-- Measure the image (R361, R421): MR1 with header and code, MR2 with the configuration; FIRMWARE_MEASURED. -/
def measureImage (img : Bytes) (sg : Nat) (s : State) : State :=
  let code := rd img 4 4
  let s1 := mrExtend 2 3 (digest (part img (64 + code) (rd img 8 4))) (mrExtend 1 2 (digest (img.take (64 + code))) s)
  raise evFirmwareMeasured srcSv (le 1 sg ++ le 16 (tget 0 s1.sec.mr 1).toNat) s1

/-- FIRMWARE_FETCH_DONE: the pushed image is measured, and run or refused (R359 to R361). -/
def fetchDone (ok : Bool) (img : Bytes) (s : State) : State :=
  if !ok then refuseImage 2 s
  else if !imageFormatOk img s.boot.fwLen.toNat then refuseImage 1 s
  else
    let sg := imageSig img
    let s1 := measureImage img sg s
    if s.sec.fuseRead && decide (sg = 0) then refuseImage 3 s1
    else if s.sec.fuseRead && decide (sg = 2) then refuseImage 4 s1
    else s1.modBoot fun b => { b with sig := BitVec.ofNat 2 sg, fwRefuse := 0, fetching := false, stage := 5 }

/-- FIRMWARE_FETCH_DONE (R361). -/
def execFirmwareFetchDone (ok : Bool) (image : Bytes) (s : State) : Host.Outcome State Fault Refusal :=
  if svOn s && s.boot.fetching && decide (s.boot.stage = 4) then .next (fetchDone ok image s) else .next s

/-! ### Warm start -/

/-- The checkpoint is closed and the lifetime records are stored, or wait under the write inhibit (R377, R403, R413). -/
def closeStores (s : State) : State :=
  if s.pwr.nvInhibit then inhibitNote (s.modNvw fun n => { n with lifetime := true, ckpt := true }) else lifetimeStore (ckptWrite true s.db.count s)

/-- Calibration and lane steps at a warm start: each is abandoned with cause 4, and the fibre's next step takes the same
lane (R160, R300). -/
def stepsAbandoned (s : State) : State :=
  (List.range 16).foldl (fun t f => modRot f (fun r => { r with want := [] }) (abandonStep f 4 true t)) s

/-- Steps 1 and 2 of a warm start (R367): quiesce, then SV restarts; records are held by their sources until step 7
(R412). The host interface is cleared (R368), and packets not yet begun are abandoned. -/
def warmSteps (cause : Nat) (s : State) : State :=
  let s0 := if s.job.st = .strict ∨ s.job.st = .loose ∨ s.job.st = .catchup then
      enterHeld 16 true srcNone s else s
  let s1 := s0.hi.held.foldl (fun t h => if h.begun then t else reply h.ref stAbandoned [] t) (stepsAbandoned s0)
  let s2 := if hostUp s1 && s1.hi.ringEn then writeReplies s1.hi.replies.length s1 else s1
  let s3 := mergeFlush {} s2
  let s4 := closeStores s3
  let s5 := (flrReset s4).modHi fun h => { h with held := [], lists := none, msix := [], pba := 0 }
  let s6 := { s5 with
    boot := { s5.boot with kind := 1, cause := BitVec.ofNat 6 cause, stage := 13, starting := true, startSc := s5.sc, endMs := none,
                           fwRunning := false, fwFatal := false, fetching := false, perstWarm := false, perstIntent := false, sig := 0, fwRefuse := 0,
                           failedKind := none, warmPerst := decide (cause = 6), trainFailed := 0, fullTrained := 0 }
    mem := { s5.mem with selfRef := true }
    tm := { s5.tm with ppsCnt := 0 }
    sec := { s5.sec with mr := [], log := [], logOver := false, fuseRead := s5.sec.fuse }
    sw := { s5.sw with plan := none, fbRun := none, rcPkt := none }
    db := { s5.db with svDown := true }
    life := { s5.life with warmStarts := addSat s5.life.warmStarts 1 } }
  let s7 := raise evStartWarm srcSv (le 1 cause ++ le 1 s6.boot.warmFails.toNat) s6
  let s8 := identityStep (mrExtend 0 1 Config.bootRomDigest s7)
  pcieStep (mrExtend 3 4 (repairDigest s8) s8)

/-- The records that their sources held are numbered, in ascending source order (R401, R412). -/
def releaseHeld (s : State) : State :=
  s.db.srcHeld.foldl (fun t r => raise r.code.toNat r.src.toNat r.payload t) (s.modDb fun d => { d with svDown := false, srcHeld := [] })

/-- Narrow mode ends at a warm start (R410): the ring begins empty when it had failed, the bank's records enter it, and
DAYBOOK_NARROW_EXIT is raised. -/
def narrowExit (s : State) : State :=
  if s.db.narrow then
    let kept := sortRecs s.db.bank
    let s1 := s.modDb fun d =>
      { kept.foldl (fun x r => ringPut r x) { d with ring := if d.ringFailed then [] else d.ring } with
        bank := [], narrow := false, ringFailed := false, mirrorOut := false }
    raise evDaybookNarrowExit srcSv (leSat 4 kept.length ++ leSat 4 16384) s1
  else s

/-- The end of a start (R358, R362, R367): stage 11, the kind's counter cleared, LIT_REACHED. -/
def endStart (s : State) : State :=
  let ms := msSince s s.boot.startSc
  let s1 := s.modBoot fun b =>
    { b with stage := 11, starting := false, endMs := some ms, coldFails := if b.kind = 0 then 0 else b.coldFails,
             warmFails := if b.kind = 1 then 0 else b.warmFails }
  raise evLitReached srcSv (le 1 s.boot.kind.toNat ++ leSat 4 ms ++ leSat 4 s.boot.fullTrained.toNat ++
    leSat 4 s.boot.trainFailed.toNat) s1

/-- Steps 5 to 7 of a warm start (R367): the Prefects claim, CE5 restarts, refresh resumes, the measurement registers
take the image, the profile and the key set, the Daybook resumes, and the start ends. -/
def warmRestore (s : State) : State :=
  let s1 := (s.modBoot fun b => { b with fwRunning := true, stage := 14 }).modPins fun p => { p with pinsDriven := true }
  let s2 := ce5Restart (pfxWarmStart s1)
  let s3 := s2.modMem fun m => { m with selfRef := decide (s.pwr.ps = .awake) }
  let s4 := match s3.job.image with
    | some i => mrExtend 4 5 i.digest s3
    | none => s3
  let s5 := if s4.prof.fab.isSome then mrExtend 5 6 s4.prof.fabId s4 else s4
  let s6 := mrExtend 6 7 (keySetDigest s5) s5
  let s7 := releaseHeld (narrowExit (s6.modDb fun d => { d with svDown := false }))
  let s8 := s7.boot.elapsedPkt.foldl (fun t b => bellSvAction b t) (s7.modBoot fun b => { b with elapsedPkt := [] })
  endStart (s8.sw.faults.foldl (fun t x => fault x t) (s8.modSw fun w => { w with faults := [] }))

/-- FIRMWARE_RUNNING: every opcode is served from now on; a cold start goes on with LPDDR training, and a warm start
with its last steps (R362, R363, R367, R443). -/
def execFirmwareRunning (s : State) : Host.Outcome State Fault Refusal :=
  if svOn s && decide (s.boot.stage = 5) then
    if s.boot.kind = 1 then .next (warmRestore s)
    else .next (pfxColdStart (journalScan ((s.modBoot fun b => { b with fwRunning := true, stage := 6 }).modPins fun p => { p with pinsDriven := true })))
  else .next s

/-- WARM_START: refused while a job runs or a path plan lies between acceptance and completion; the reply is written
first (R367). -/
def warmStartBody (ref : PktRef) (s : State) : State :=
  if s.job.st = .strict ∨ s.job.st = .loose ∨ s.job.st = .catchup ∨ s.sw.plan.isSome = true ∨ s.sw.fbRun.isSome = true ∨ s.boot.starting = true ∨ s.pwr.target.isSome = true then
    reply ref stStateInvalid [] s
  else warmSteps 5 (replyNow ref 0 [] s)

/-- WARM_START (R367). -/
def execWarmStart (p : Pkt) (s : State) : Host.Outcome State Fault Refusal :=
  .next (runPkt p 0x0105 [] true warmStartBody s)

/-- START_RETRY: one second after a failure (R369). -/
def startRetry (k : BitVec 2) (s : State) : State :=
  let s1 := s.modBoot fun b => { b with failedKind := none }
  if k = 1 then
    if s.boot.warmFails.toNat < 3 then warmSteps 7 s1 else beginCold 8 0 (s1.modBoot fun b => { b with warmFails := 0 })
  else if s.boot.coldFails.toNat < 3 then beginCold 7 0 s1 else beginCold 7 2 s1

/-- START_RETRY (R369). -/
def execStartRetry (s : State) : Host.Outcome State Fault Refusal :=
  match s.boot.failedKind with
  | some k => if s.pwr.aon && !s.pwr.holdUp then .next (startRetry k s) else .next s
  | none => .next s

/-! ### The later steps of a cold start -/

/-- MRAM holds training values for a channel, saved with the identity of its package (R364). -/
def hasTrained (s : State) (c : Nat) : Bool := (s.mem.trained.find? fun e => decide (e.1 = c)).any fun e => decide (e.2 = Config.packageId (c / 4))

/-- The training values of a channel are saved with its package's identity (R364). -/
def saveTrained (c : Nat) (s : State) : State := mramWrite 12 c (s.modMem fun m => { m with trained := (m.trained.filter fun e => decide (e.1 ≠ c)) ++ [(c, Config.packageId (c / 4))] })

/-- Save the training values of channels, or let them wait under the write inhibit (R364, R377). -/
def saveTrainings (l : List Nat) (s : State) : State :=
  if s.pwr.nvInhibit && !l.isEmpty then inhibitNote (s.modNvw fun n => { n with train := l }) else l.foldl (fun t c => saveTrained c t) s

/-- LPDDR_TRAINING_DONE: a channel whose saved values failed verification, and one held out, raise LPDDR_TRAINING; a channel with no saved
values is trained in full too; the new values are saved; more than 16 channels held out fail the start; the fill begins (R138, R364, R369,
R372; log entry 105, DESIGN CHOICE). -/
def trainingDone (listed failed : List Nat) (s0 : State) : State :=
  let full := (List.range 256).filter fun c => decide (c ∉ s0.mem.retired) && decide (c ∉ failed) && (decide (c ∈ listed) || !hasTrained s0 c)
  let bad := (List.range 256).filter fun c => hasTrained s0 c && (decide (c ∈ full) || decide (c ∈ failed))
  let s := saveTrainings full s0
  let s1 := bad.foldl (fun t c => raise evLpddrTraining srcSv (le 1 c ++ le 1 1) t) s
  let s2 := failed.foldl (fun t c => raise evLpddrTraining srcSv (le 1 c ++ le 1 2) t) s1
  let s3 := (s2.modMem fun m => { m with heldOut := failed, selfRef := false, fillAt := s.sc }).modBoot fun b =>
    { b with trainFailed := BitVec.ofNat 16 failed.length, fullTrained := BitVec.ofNat 16 full.length }
  if 16 < failed.length then failStart 4 s3 else s3.modBoot fun b => { b with stage := 7 }

/-- LPDDR_TRAINING_DONE (R364). -/
def execLpddrTrainingDone (full failed : List Nat) (s : State) : Host.Outcome State Fault Refusal :=
  if fwUp s && s.boot.starting && decide (s.boot.stage = 6) then .next (trainingDone full failed s) else .next s

/-- ZERO_FILL_DONE: every burst in service holds the zero code word (R138). -/
def zeroFillDone (s : State) : State :=
  raise evZeroFillDone srcSv (leSat 4 (msSince s s.mem.fillAt) ++ leSat 4 (256 - s.mem.retired.length - s.mem.heldOut.length))
    ((s.modMem fun m => { m with cells := [], filled := true }).modBoot fun b => { b with stage := 8 })

/-- ZERO_FILL_DONE (R138, R362). -/
def execZeroFillDone (s : State) : Host.Outcome State Fault Refusal :=
  if fwUp s && s.boot.starting && decide (s.boot.stage = 7) then .next (zeroFillDone s) else .next s

/-- The module is on its way to Lit: in stage st of a start, or in a transition to Lit (R362, R380). -/
def toLit (st : Nat) (s : State) : Bool :=
  fwUp s && ((s.boot.starting && decide (s.boot.stage.toNat = st)) || (!s.boot.starting && decide (s.pwr.target = some .lit) && decide (s.pwr.ps = .awake)))

/-- COMB_BRING_UP: no host hold remains, and the module has its identifier (R362 step 9, R365, R450). -/
def execCombBringUp (s : State) : Host.Outcome State Fault Refusal :=
  if toLit 8 s && !(s.boot.starting && s.boot.combHold) && s.ident.assigned then
    let s1 := combsUp (s.modIdent fun i => { i with active := i.idField })
    .next (if s.boot.starting then s1.modBoot fun b => { b with stage := 9 } else s1)
  else .next s

/-- FREQUENCY_LOCK_ACQUIRED: on a parent's beacon of rank 0 to 7, or on the internal reference as designated root
(R241, R365). -/
def execFrequencyLockAcquired (fibre : Option Nat) (s : State) : Host.Outcome State Fault Refusal :=
  if toLit 9 s && combsLit s then
    match freqLock fibre s with
    | some s1 => .next (if s.boot.starting then s1.modBoot fun b => { b with stage := 10 } else s1)
    | none => .next s
  else .next s

/-- One point of one die at an evaluation of the frequency margins: a failing point is withdrawn, and one that has passed three
times in a row is offered again; a die that fails at 1.60 GHz is listed as unavailable (R385). -/
def evalPoint (fails : List Nat) (k : Nat) (s : State) : State :=
  let die := k / 4
  let point := k % 4
  let found := s.pwr.oppOff.find? fun e => decide (e.1 = k)
  if point = 3 then s
  else if point = 2 then
    if k ∈ fails ∧ die ∉ s.pwr.dieOut then s.modPwr fun p => { p with dieOut := (List.range 4).filter fun d => decide (d = die) || decide (d ∈ p.dieOut) } else s
  else if k ∈ fails then
    match found with
    | some _ => s.modPwr fun p => { p with oppOff := p.oppOff.map fun e => if e.1 = k then (k, 0) else e }
    | none =>
      raise evOppointWithdrawn srcSv (le 1 die ++ le 1 point ++ leInt 4 (29 - (freeVal 15 s).toNat))
        (useFree (s.modPwr fun p => { p with oppOff := (List.range 16).filterMap fun d => if d = k then some (k, 0) else p.oppOff.find? fun e => decide (e.1 = d) }))
  else match found with
    | none => s
    | some e =>
      if e.2 + 1 < 3 then s.modPwr fun p => { p with oppOff := p.oppOff.map fun x => if x.1 = k then (k, e.2 + 1) else x }
      else raise evOppointRestored srcSv (le 1 die ++ le 1 point) (s.modPwr fun p => { p with oppOff := p.oppOff.filter fun x => !decide (x.1 = k) })

/-- The points of every die are evaluated: at reaching Lit and at each unload (R385). `fails` lists die × 4 + point. -/
def evalPoints (fails : List Nat) (s : State) : State := (List.range 16).foldl (fun t k => evalPoint fails k t) s

/-- LANES_UP: calibration sets, the home configuration, transmitters and beacons; the start ends in Lit, where the MMs refresh by
themselves (R128, R362 steps 10 and 11, R366, R385); `fails` lists the points whose margin is below 3 %. -/
def execLanesUp (fails : List Nat) (s : State) : Host.Outcome State Fault Refusal :=
  if fwUp s && s.boot.starting && decide (s.boot.stage = 10) then .next (endStart (evalPoints fails (enterState .lit (homeUp (s.modMem fun m => { m with idleRef := true }))))) else .next s

/-! ### POWER_FAIL -/

/-- What the hold-up sequence does (R375): optics, compute, LPDDR and PCIe go off and their contents are lost; a write in
progress completes; POWER_FAIL goes to the last-gasp bank and to MRAM with the waiting mirror records; the checkpoint
is closed; lifetime counters and the calendar are stored. -/
def powerFail (cause : Nat) (vin : BitVec 16) (s : State) : State :=
  let pl := le 1 cause ++ le 1 (bmState s) ++ le 1 (jobCode s.job.st)
  let s1 := { s with
    pins := { s.pins with vin := vin, tjMax := 0x8000, pwrGood := false, pinsDriven := false, alert := s.pins.alert ||| 4 }
    hi := {}
    job := {}
    stn := {}
    strm := {}
    sync := []
    mem := { cells := [], remaps := s.mem.remaps, retired := s.mem.retired, soft := s.mem.soft, fuses := s.mem.fuses,
             hostSeqs := s.mem.hostSeqs, mergeSeq := s.mem.mergeSeq, trained := s.mem.trained }
    ts := {}
    opt := {}
    sw := { ringSteps := s.sw.ringSteps }
    tm := {}
    bells := {}
    ce := {}
    prof := {}
    net := {}
    cal := { journal := s.cal.journal, head := s.cal.head, nextSeq := s.cal.nextSeq }
    nvw := {}
    boot := { coldFails := s.boot.coldFails, warmFails := s.boot.warmFails, lastFail := s.boot.lastFail }
    pwr := { s.pwr with ps := .off, holdUp := true, target := none, targetPkt := none, throttle := false, coreOff := false, intOsc := false,
                        failCause := BitVec.ofNat 8 cause, failSeen := true } }
  let s2 := if s.pwr.nvInhibit then s1 else storeId { s1 with nvw := { setId := s.nvw.setId } }
  let r := { mkRec evPowerFail srcAon pl s2 with lastGasp := true }
  let s3 := s2.modDb fun d => bankPut r { d with count := d.count + 1, svDown := false, srcHeld := [] }
  let s4 := if s3.db.mirrorOut then s3 else mirrorPut r (mirrorFlush s3)
  (lifetimeStore (ckptWrite true s4.db.count s4)).modNvw fun _ => {}

/-- POWER_FAIL (R374, R375). -/
def execPowerFail (vin : BitVec 16) (s : State) : Host.Outcome State Fault Refusal :=
  if s.pwr.aon && !s.pwr.holdUp && decide (vin.toNat < 330) then .next (powerFail 1 vin s) else .next s

/-- INPUT_OVERVOLTAGE: handled as POWER_FAIL with cause overvoltage (R374). -/
def execInputOvervoltage (vin : BitVec 16) (s : State) : Host.Outcome State Fault Refusal :=
  if s.pwr.aon && !s.pwr.holdUp && decide (480 < vin.toNat) then
    .next (powerFail 2 vin (raise evInputOvervoltage srcAon (le 2 vin.toNat) s))
  else .next s

/-- POWER_FAIL_RECOVERY: a cold start with cause 4; the counters of failed starts are kept (R376). -/
def execPowerFailRecovery (vin : BitVec 16) (s : State) : Host.Outcome State Fault Refusal :=
  if s.pwr.aon && s.pwr.holdUp && decide (340 < vin.toNat) then
    .next (beginCold 4 0 ((s.modPins fun p => { p with vin := vin }).modPwr fun p => { p with nvInhibit := decide (vin.toNat ≤ 355) }))
  else .next s

/-- ALWAYS_ON_STORE_EXPIRED: the always-on domain loses power with all that it holds (R376). -/
def execAlwaysOnStoreExpired (s : State) : Host.Outcome State Fault Refusal :=
  if s.pwr.aon && s.pwr.holdUp then
    .next { s with
      pwr := { s.pwr with aon := false, holdUp := false }
      pins := { s.pins with alert := 0, thermtrip := false, wake := false }
      db := { s.db with bank := [], bankDrop := 0, ring := [], ringDrop := 0, mirrorQ := [] }
      boot := {} }
  else .next s

/-! ### PERST# and the reference -/

/-- PERST_ASSERT: after Lit without warm intent the endpoint and the host interface reset as by FLR; before Lit it only
holds step 4 (R357); in Asleep it has no effect of its own (R381); after Lit with warm intent a warm start begins at its release (R356). -/
def execPerstAssert (s : State) : Host.Outcome State Fault Refusal :=
  let s1 := (s.modPins fun p => { p with perst := true }).modHi fun h => { h with pcieUp := false }
  if svOn s && (decide (s.boot.stage = 11) || decide (s.boot.stage = 12)) && !(s.boot.perstWarm && decide (s.boot.stage = 11)) then
    .next (flrReset s1)
  else .next (s1.modBoot fun b => { b with perstIntent := svOn s && b.perstWarm && decide (b.stage = 11) })

/-- PERST_RELEASE: wakes the module from Asleep after at least 100 µs; begins the warm start that `PERST_WARM` asked for;
or lets step 4 of a start go on (R356, R357, R362, R381). -/
def execPerstRelease (lowUs : Nat) (s : State) : Host.Outcome State Fault Refusal :=
  if !s.pins.perst then .next s
  else
    let s1 := s.modPins fun p => { p with perst := false }
    if inAsleep s then
      if decide (100 ≤ lowUs) && decide (s.pwr.target = none) then
        .next (s1.modPwr fun p => { p with target := some .awake, stageMs := s.sc })
      else .next s1
    else if !svOn s then .next s1
    else if s.boot.stage = 3 then .next (pcieStep s1)
    else if s.boot.perstIntent then .next (warmSteps 6 (s1.modHi fun h => { h with pcieUp := true }))
    else .next (s1.modHi fun h => { h with pcieUp := s.pins.refclk })

/-- REFCLK_LOST: SV goes on with its internal oscillator, and the PCIe link goes down (R383). -/
def execRefclkLost (s : State) : Host.Outcome State Fault Refusal :=
  if !s.pins.refclk then .next s
  else
    let s1 := s.modPins fun p => { p with refclk := false }
    if svOn s then
      .next (raise evRefclkLost srcSv (le 1 (bmState s)) ((s1.modPwr fun p => { p with intOsc := true }).modHi fun h => { h with pcieUp := false }))
    else .next s1

/-- REFCLK_RETURN: the service clock switches back and the link retrains; a cold start held in step 1 goes on (R383). -/
def execRefclkReturn (s : State) : Host.Outcome State Fault Refusal :=
  if s.pins.refclk then .next s
  else
    let s1 := (s.modPins fun p => { p with refclk := true }).modPwr fun p => { p with intOsc := false }
    if svOn s && s.boot.starting && decide (s.boot.stage = 0) then .next (coldSteps s1)
    else if svOn s then .next (s1.modHi fun h => { h with pcieUp := !s.pins.perst && decide (4 ≤ s.boot.stage.toNat) })
    else .next s1

/-! ### Power states -/

/-- A transition toward a state begins, and its packet waits (R380). -/
def beginTransition (t : PState) (ref : PktRef) (s : State) : State :=
  replyPending ref (s.modPwr fun p => { p with target := some t, targetPkt := some ref, stageMs := s.sc })

/-- The express crosspoints that are set. -/
def expressSet (s : State) : Bool := s.sw.xps.any fun x => decide (x.inp < 16) && decide (x.out < 16)

/-- Leaving Lit is refused while an image is loaded, an express crosspoint is set, or a path plan is pending or
activating (R380). -/
def leaveLitRefused (s : State) : Bool := imageLoaded s || expressSet s || s.sw.plan.isSome || s.sw.fbRun.isSome

/-- SET_POWER_STATE (R17, R380, R450): a request in the state it names is done at once; one during a start or another
transition is refused. -/
def setStateBody (t : PState) (ref : PktRef) (s : State) : State :=
  if s.boot.starting || s.pwr.target.isSome then reply ref stStateInvalid [] s
  else if s.pwr.ps = t then reply ref 0 (le 1 (psCode t) ++ le 4 0) s
  else match t with
    | .lit => if s.pwr.ps = .awake ∧ s.ident.assigned then beginTransition .lit ref s else reply ref stStateInvalid [] s
    | _ =>
      if s.pwr.ps = .awake then beginTransition t ref s
      else if s.pwr.ps = .lit ∧ leaveLitRefused s = false then beginTransition t ref s
      else reply ref stStateInvalid [] s

/-- SET_POWER_STATE 0 (R380). -/
def execSetPowerStateAsleep (p : Pkt) (s : State) : Host.Outcome State Fault Refusal :=
  .next (runPkt p 0x0104 (le 1 0) true (setStateBody .asleep) s)

/-- SET_POWER_STATE 1 (R380). -/
def execSetPowerStateAwake (p : Pkt) (s : State) : Host.Outcome State Fault Refusal :=
  .next (runPkt p 0x0104 (le 1 1) true (setStateBody .awake) s)

/-- SET_POWER_STATE 2 (R380). -/
def execSetPowerStateLit (p : Pkt) (s : State) : Host.Outcome State Fault Refusal :=
  .next (runPkt p 0x0104 (le 1 2) true (setStateBody .lit) s)

/-- The transition has reached its end: the packet that waits is answered with the state and the ms taken (R355). -/
def finishTransition (s : State) : State :=
  match s.pwr.targetPkt with
  | some ref => reply ref 0 (le 1 (psCode s.pwr.ps) ++ leSat 4 (msSince s s.pwr.stageMs))
      (s.modPwr fun p => { p with target := none, targetPkt := none })
  | none => s.modPwr fun p => { p with target := none }

/-- Leaving Lit (R380): lanes off, fibres dark, combs down, crosspoints cleared, fabric time invalid; LPDDR in
self-refresh (R128). -/
def leaveLit (s : State) : State :=
  enterState .awake ((rotationsStop (opticsDark (mergeFlush {} (portDrain s)))).modMem fun m => { m with selfRef := true, idleRef := false })

/-- Waking from Asleep (R381, R411): the bank's records enter the ring and, for WARN and above, the mirror. -/
def wakeUp (s : State) : State :=
  let kept := sortRecs s.db.bank
  let s1 := s.modDb fun d =>
    if d.narrow then d else
      { kept.foldl (fun x r => if 2 ≤ r.sev.toNat then mirrorQueue r (ringPut r x) else ringPut r x) d with bank := [] }
  finishTransition (enterState .awake ((s1.modPins fun p => { p with wake := false, pwrGood := true, pinsDriven := s1.boot.fwRunning }).modHi fun h => { h with pcieUp := !s.pins.perst && s.pins.refclk }))

/-- Going to sleep (R381, R296, R403, R413): the final reply, then the link goes down; the checkpoint is closed, the
lifetime records are stored, and the `KOP` and EO bias registers are lost. -/
def goAsleep (s : State) : State :=
  let s1 := match s.pwr.targetPkt with
    | some ref => replyNow ref 0 (le 1 0 ++ leSat 4 (msSince s s.pwr.stageMs)) s
    | none => s
  let s2 := enterState .asleep (s1.modPwr fun p => { p with target := none, targetPkt := none })
  let s3 := closeStores s2
  (privLost s3).modHi (fun h => { h with pcieUp := false }) |>.modPins fun p => { p with pwrGood := false, pinsDriven := false }

/-- POWER_STATE_REACHED: the next adjacent step of the transition completes (R17, R380). -/
def stateReached (fails : List Nat) (s : State) : State :=
  match s.pwr.target, s.pwr.ps with
  | some .awake, .asleep => wakeUp s
  | some .awake, .lit => finishTransition (leaveLit s)
  | some .asleep, .lit => leaveLit s
  | some .asleep, .awake => goAsleep s
  | some .lit, .awake => if combsLocked s then finishTransition (evalPoints fails (enterState .lit (homeUp (s.modMem fun m => { m with selfRef := false, idleRef := true })))) else s
  | some .running, .lit => jobRunning (finishTransition (enterState .running s))
  | some .lit, .running => jobGone (finishTransition (evalPoints fails (enterState .lit s)))
  | _, _ => s

/-- POWER_STATE_REACHED (R380). -/
def execPowerStateReached (fails : List Nat) (s : State) : Host.Outcome State Fault Refusal :=
  if s.pwr.aon && !s.pwr.holdUp && s.pwr.target.isSome then .next (stateReached fails s) else .next s

/-- BM_WAKE: 0xA5 in Asleep is the wake command; any other value or state is ignored (R381, R438). -/
def execBmWake (v : BitVec 8) (s : State) : Host.Outcome State Fault Refusal :=
  if s.pwr.aon && inAsleep s && decide (v = 0xA5) && decide (s.pwr.target = none) then
    .next (s.modPwr fun p => { p with target := some .awake, stageMs := s.sc })
  else .next s

end Sys2Proof.Machine
end

