-- ==== Sys2Proof/Machine/EngineCmds.lean ====
section
/-!
DEFINITION. The commands of the control engines (R257, R355) and the sample of a loop (R258): descriptors, set-points, coefficient sets, flags
and Rote tables.
-/

namespace Sys2Proof.Machine

/-- The engine that `PK.TARGET` names. -/
def Pkt.eng (p : Pkt) : Nat := p.target.toNat

/-- The 160 bytes of a coefficient set (R261). -/
def coefBytes (c : CoefSet) : Bytes :=
  ((List.range 20).map fun i => le 4 (c.f.getD i 0).toNat).flatten ++ le 4 c.xf.toNat ++ le 4 c.xo.toNat ++
    ([c.kp, c.ki, c.kd, c.ad, c.imin, c.imax, c.omin, c.omax, c.slew, c.margin, c.roteL, c.roteQ, c.kff, c.aff, c.cff].map fun m => le 4 m.toNat).flatten ++ zeros 12

/-- Read a coefficient set (R261). -/
def readCoef (b : Bytes) : CoefSet :=
  let m := fun o => BitVec.ofNat 18 (rd b o 4)
  { f := (List.range 20).map fun i => m (4 * i), xf := BitVec.ofNat 32 (rd b 80 4 % 2 ^ 30), xo := BitVec.ofNat 32 (rd b 84 4 % 2 ^ 18), kp := m 88,
    ki := m 92, kd := m 96, ad := m 100, imin := m 104, imax := m 108, omin := m 112, omax := m 116, slew := m 120, margin := m 124,
    roteL := m 128, roteQ := m 132, kff := m 136, aff := m 140, cff := m 144 }

/-- Slew and margin of a set are not negative (R261); reserved bits are ignored (R6). -/
def coefOk (b : Bytes) : Bool := decide (0 ≤ mant (readCoef b).slew) && decide (0 ≤ mant (readCoef b).margin)

/-- The 24 bytes of a loop's state (R263). -/
def loopState (l : Loop) : Bytes :=
  le 24 (2 ^ 32 * l.samples.toNat + 2 ^ 64 * l.roteAge.toNat + 2 ^ 85 * b2n l.stale + 2 ^ 86 * b2n l.win + 2 ^ 87 * l.region +
    2 ^ 90 * l.int.toNat + 2 ^ 138 * l.out.toNat + 2 ^ 156 * l.meas.toNat + 2 ^ 174 * l.sp.toNat)

/-- LOOP_READ (R257, R355): descriptor, state and eight sets. -/
def execLoopRead (p : Pkt) (loop : BitVec 16) (buf : Buf) (s : State) : Host.Outcome State Fault Refusal :=
  .next (runPkt p 0x0601 (le 2 loop.toNat ++ buf.bytes) (decide (loop.toNat < 512))
    (fun r t =>
      let l := loopOf t p.eng loop.toNat
      replyBuf r buf (le 32 l.desc.toNat ++ loopState l ++ ((List.range 8).map fun j => coefBytes (tget {} l.accepted.sets j)).flatten) [] t) s)

/-- A write for an engine: CE0 to CE4 take it from a Prefect, as a command to their die's gate; without an accepted Prefect it is refused (R13,
R257). -/
def toEngine (eng what : Nat) (args : List Nat) (f : PktRef → State → State) (r : PktRef) (s : State) : State :=
  if !ceReach s eng then reply r stStateInvalid [] s
  else if eng < 5 then gateIssue eng what (eng :: args) (f r s)
  else f r s

/-- Change a loop, and the states of a CE4 slot's other crosspoint with it (R256). -/
def modLoopBoth (eng n : Nat) (f : Loop → Loop) (s : State) : State :=
  let s1 := modLoop eng n f s
  if isSlot eng (loopOf s1 eng n).desc then s1.modCe fun c => { c with alt := tmod {} c.alt n f } else s1

/-- A set-point within the range that its loop allows: 70 °C to 95 °C for group J (R386). -/
def spOk (l : Loop) (sp : BitVec 18) : Bool :=
  if ldAct l.desc = 0xD000 then
    let x := l.set.firstX (ldNstage l.desc) - 17
    let k := (2 : Int) ^ x.natAbs
    if 0 ≤ x then decide (70 ≤ mant sp * k) && decide (mant sp * k ≤ 95) else decide (70 * k ≤ mant sp) && decide (mant sp ≤ 95 * k)
  else true

/-- LOOP_SET_POINT (R267, R386): it takes effect at the loop's next sample. -/
def execLoopSetPoint (p : Pkt) (loop : BitVec 16) (sp : BitVec 32) (s : State) : Host.Outcome State Fault Refusal :=
  .next (runPkt p 0x0602 (le 2 loop.toNat ++ le 4 sp.toNat)
    (decide (loop.toNat < 512) && decide (sp.toNat < 2 ^ 18) && spOk (loopOf s p.eng loop.toNat) (sp.setWidth 18))
    (toEngine p.eng 6 [loop.toNat, sp.toNat] fun r t => reply r 0 [] (modLoopBoth p.eng loop.toNat (fun l => { l with spNew := some (sp.setWidth 18) }) t)) s)

/-- LOOP_FLAGS_READ (R264): the flags are read and cleared in one action. -/
def execLoopFlagsRead (p : Pkt) (first : BitVec 16) (count : BitVec 8) (s : State) : Host.Outcome State Fault Refusal :=
  let ns := (List.range count.toNat).map fun i => first.toNat + i
  .next (runPkt p 0x0603 (le 2 first.toNat ++ le 1 count.toNat)
    (decide (1 ≤ count.toNat) && decide (count.toNat ≤ 32) && decide (first.toNat + count.toNat ≤ 512))
    (fun r t => reply r 0 (ns.map fun n => (loopOf t p.eng n).flags) (ns.foldl (fun u n => modLoop p.eng n (fun l => { l with flags := 0 }) u) t)) s)

/-- The bytes of one saved Rote table, laid out as a seed entry (R460; the layout of a saved table is log entry 11, DEDUCED). -/
def roteBytes (e : Nat × Rote) (n : Nat) : Bytes :=
  le 1 (e.1 / 64) ++ le 1 (e.1 % 64) ++ le 2 n ++ zeros 4 ++ ((tgets 0 e.2.bins 0 n).map fun m => le 4 (m % 262144).toNat).flatten

/-- The bins of a table, from the loop that uses it. -/
def roteN (s : State) (key : Nat) : Nat :=
  (((enabledLoops s (key / 64)).find? fun e => ldRote e.2.desc && decide (ldSlot e.2.desc = key % 64)).map fun e => ldBins e.2.desc).getD 1

/-- ROTE_SAVE (R273): the tables of the engines that the mask names, with the digest, while an image is loaded. -/
def execRoteSave (p : Pkt) (mask : BitVec 8) (buf : Buf) (s : State) : Host.Outcome State Fault Refusal :=
  .next (runPkt p 0x0604 (le 1 mask.toNat ++ buf.bytes) (decide (mask.toNat < 64) && decide (mask ≠ 0))
    (fun r t => match t.job.image with
      | none => reply r stStateInvalid [] t
      | some i =>
        let tabs := t.ce.rote.filter fun e => bit mask.toNat (e.1 / 64) && decide (e.2.src ≠ .empty)
        let d := le 48 i.digest.toNat
        replyBuf r buf (d ++ (tabs.map fun e => roteBytes e (roteN t e.1)).flatten) (d.take 16) t) s)

/-- ROTE_LOAD while the image is LOADED (R273): tables saved under another image are refused. -/
def roteLoadBody (data : Bytes) (r : PktRef) (s : State) : State :=
  match s.job.image with
  | none => reply r stStateInvalid [] s
  | some i =>
    if s.job.st ≠ .loaded then reply r stStateInvalid [] s
    else
      let seeds := roteSeedList (data.length) (data.drop 48)
      if rd data 0 48 ≠ i.digest.toNat then
        let f := seeds.headD {}
        reply r stRoteImageMismatch [] (raise evRoteLoadRefused srcSv (le 1 f.engine ++ le 2 f.slot ++ part data 0 8) s)
      else
        let use := seeds.filter fun x => roteUser s x.engine x.slot x.bins.length
        reply r 0 (le 2 use.length) (use.foldl (fun t x => modRote x.engine x.slot (fun _ => roteFill .preload i.digest x) t) s)
where
  /-- The tables of a saved file. -/
  roteSeedList : Nat → Bytes → List RoteSeed
    | 0, _ => []
    | f + 1, b =>
      if b.length < 8 then []
      else
        let n := rd b 2 2
        { engine := rd b 0 1, slot := rd b 1 1, bins := (List.range n).map fun i => BitVec.ofNat 18 (rd b (8 + 4 * i) 4) } ::
          roteSeedList f (b.drop (8 + 4 * n))

/-- ROTE_LOAD (R273, R355). -/
def execRoteLoad (p : Pkt) (addr : BitVec 64) (len : BitVec 32) (data : Bytes) (s : State) : Host.Outcome State Fault Refusal :=
  .next (runPkt p 0x0605 (le 8 addr.toNat ++ le 4 len.toNat) (decide (48 ≤ len.toNat)) (roteLoadBody (data.take len.toNat)) s)

/-- Descriptors of the other loops of an engine. -/
def otherDescs (s : State) (eng n : Nat) : List (BitVec 256) :=
  (s.ce.loops.filter fun e => decide (e.1 / 512 = eng) && decide (e.1 % 512 ≠ n)).map fun e => e.2.desc

/-- The status of a descriptor for a loop, enabled or not (R259, R262). -/
def descStatus (s : State) (eng n : Nat) (d : BitVec 256) : Nat :=
  if !descIds eng d || !descFits (otherDescs s eng n) d then stCeLoopConfig
  else if ldEn d && !budgetOk (d :: (otherDescs s eng n).filter ldEn) then stCeLoopBudget
  else 0

/-- LOOP_WRITE_DESC (R262): only while the loop is disabled. -/
def execLoopWriteDesc (p : Pkt) (loop : BitVec 16) (desc : BitVec 256) (s : State) : Host.Outcome State Fault Refusal :=
  .next (runPkt p 0x0606 (le 2 loop.toNat ++ le 32 desc.toNat) (decide (loop.toNat < 512) && descRange desc)
    (fun r t =>
      if ldEn (loopOf t p.eng loop.toNat).desc then reply r stStateInvalid [] t
      else
        let c := descStatus t p.eng loop.toNat desc
        if c ≠ 0 then reply r c [] t
        else toEngine p.eng 7 [loop.toNat, desc.toNat]
          (fun r u => reply r 0 [] (modLoopBoth p.eng loop.toNat (fun l => { l with desc := desc, fresh := true, inst := none }) u)) r t) s)

/-- LOOP_WRITE_COEFFS (R257, R261, R269): the set is stored, and comes into force at the next sample where its region is in force then. -/
def execLoopWriteCoeffs (p : Pkt) (loop : BitVec 16) (region : BitVec 8) (coefs : Bytes) (s : State) : Host.Outcome State Fault Refusal :=
  let b := padTo 160 coefs
  .next (runPkt p 0x0607 (le 2 loop.toNat ++ le 1 region.toNat ++ b) (decide (loop.toNat < 512) && decide (region.toNat < 8) && coefOk b)
    (toEngine p.eng 8 ([loop.toNat, region.toNat] ++ b.map BitVec.toNat) fun r t =>
      reply r 0 [] (modLoopBoth p.eng loop.toNat
        (fun l => { l with setsNew := (region.toNat, readCoef b) :: l.setsNew.filter fun e => decide (e.1 ≠ region.toNat) }) t)) s)

/-- Enable or disable a loop (R259, R262, R268). -/
def loopEnable (eng n : Nat) (en : Bool) (r : PktRef) (s : State) : State :=
  let d := (loopOf s eng n).desc
  let d1 : BitVec 256 := if en then d ||| ((1 : BitVec 256) <<< 255) else d &&& ~~~((1 : BitVec 256) <<< 255)
  let c := if en then descStatus s eng n d1 else 0
  if c ≠ 0 then reply r c [] s
  else toEngine eng 9 [n, b2n en] (fun r t => reply r 0 [] (modLoopBoth eng n (fun l =>
    { l with desc := d1, fresh := l.fresh || (en && !ldEn d), win := l.win && en, inst := if en && !ldEn d then none else l.inst }) t)) r s

/-- LOOP_ENABLE with enable 1 (R259). -/
def execLoopEnable (p : Pkt) (loop : BitVec 16) (s : State) : Host.Outcome State Fault Refusal :=
  .next (runPkt p 0x0608 (le 2 loop.toNat ++ le 1 1) (decide (loop.toNat < 512)) (loopEnable p.eng loop.toNat true) s)

/-- LOOP_ENABLE with enable 0 (R259). -/
def execLoopDisable (p : Pkt) (loop : BitVec 16) (s : State) : Host.Outcome State Fault Refusal :=
  .next (runPkt p 0x0608 (le 2 loop.toNat ++ le 1 0) (decide (loop.toNat < 512)) (loopEnable p.eng loop.toNat false) s)

/-! ### Samples (R258, R265) -/

/-- LOOP_SAMPLE (R258, R265): at the loop's instant and in its turn. A sample of CE4 may let ring steps be admitted (R193). -/
def execLoopSample (eng loop : Nat) (vs scheds : List Int) (bads : List Nat) (missed : Bool) (s : State) :
    Host.Outcome State Fault Refusal :=
  if decide (eng < 6) && decide (loop < 512) && ldEn (loopOf s eng loop).desc && (if eng < 5 then litUp s else svOn s) && sampleTurn s eng loop then
    .next (if eng = 4 then admitNow (loopSample eng loop vs scheds bads missed s) else loopSample eng loop vs scheds bads missed s)
  else .next s

end Sys2Proof.Machine
end

