-- ==== Sys2Proof/Machine/Power.lean ====
section
/-!
DEFINITION. The supply and the limits: sag, the MRAM write inhibit, the power cap, the issue throttle, thermal trips and
temperature limits (R374, R377, R387, R392 to R394), and the small System opcodes (R355).
-/

namespace Sys2Proof.Machine

/-- The always-on domain compares the input. -/
def supplyOn (s : State) : Bool := s.pwr.aon && !s.pwr.holdUp

/-- SUPPLY_SAG (R374). -/
def execSupplySag (vin : BitVec 16) (s : State) : Host.Outcome State Fault Refusal :=
  if supplyOn s && !s.pwr.sag && decide (vin.toNat < 360) then
    .next (raise evSupplySag srcAon (le 2 vin.toNat) ((s.modPwr fun p => { p with sag := true }).modPins fun p => { p with vin := vin }))
  else .next s

/-- SUPPLY_RESTORED (R374): with the ms below the threshold. -/
def execSupplyRestored (vin : BitVec 16) (ms : Nat) (s : State) : Host.Outcome State Fault Refusal :=
  if supplyOn s && s.pwr.sag && decide (365 < vin.toNat) then
    .next (raise evSupplyRestored srcAon (le 2 vin.toNat ++ leSat 4 ms) ((s.modPwr fun p => { p with sag := false }).modPins fun p => { p with vin := vin }))
  else .next s

/-- NV_WRITE_INHIBIT_ENTER: no new MRAM write starts; NV_WRITE_INHIBIT is raised at the first that waits (R377). -/
def execNvWriteInhibitEnter (vin : BitVec 16) (s : State) : Host.Outcome State Fault Refusal :=
  if supplyOn s && !s.pwr.nvInhibit && decide (vin.toNat < 350) then
    .next (inhibitNote ((s.modPwr fun p => { p with nvInhibit := true, nvRaised := false }).modPins fun p => { p with vin := vin }))
  else .next s

/-- The MRAM copy of the cap and the limit is written (R387). -/
def saveCap (s : State) : State :=
  mramWrite 9 0 (s.modPwr fun p => { p with nvCapW := p.capW, nvCapA := p.capA })

/-- The MRAM copies of settings that waited are written (R377). -/
def settleNv (s : State) : State :=
  let s1 := if s.nvw.ckpt then ckptRaise s else s
  let s2 := if s1.nvw.setCap then saveCap s1 else s1
  let s3 := if s2.nvw.setPfx then savePfx s2 else s2
  let s4 := if s3.nvw.setRate then saveRates s3 else s3
  let s5 := storeId s4
  let s6 := if s5.nvw.lifetime then lifetimeStore s5 else s5
  (s6.nvw.train.foldl (fun t c => saveTrained c t) s6).modNvw fun n => { n with train := [], ckpt := false, setCap := false, setPfx := false, setRate := false, lifetime := false }

/-- A host command that waited is applied (R377). -/
def applyNv (c : PktRef × NvCmd) (s : State) : State :=
  match c.2 with
  | .retire ch => if imageLoaded s then reply c.1 stStateInvalid [] s else retireApply ch c.1 s
  | .remap rm ch sub bank row => remapApply rm ch sub bank row c.1 s
  | .soft die i e => softApply die i e c.1 s
  | .fuse die w e => fuseApply die w e c.1 s
  | .restore ch => if imageLoaded s then reply c.1 stStateInvalid [] s else restoreApply ch c.1 s
  | .key i rm k sg => keyApply i rm k sg c.1 s
  | .clear a b ok sg => clearRange a b ok sg c.1 s

/-- NV_WRITE_INHIBIT_EXIT: the queued writes and commands start in order (R377); mirror and journal records follow by
their own commands. -/
def execNvWriteInhibitExit (vin : BitVec 16) (s : State) : Host.Outcome State Fault Refusal :=
  if supplyOn s && s.pwr.nvInhibit && decide (355 < vin.toNat) then
    let s1 := ((s.modPwr fun p => { p with nvInhibit := false, nvRaised := false }).modPins fun p => { p with vin := vin }).modCal fun c => { c with inhRaised := false }
    if svOn s then
      let s2 := settleNv s1
      .next (s2.nvw.cmds.foldl (fun t c => applyNv c t) (s2.modNvw fun n => { n with cmds := [] }))
    else .next s1
  else .next s

/-- NV_COMMAND_WAIT_TIMEOUT: the command that has waited longest, 1 s, is refused with 0x0201 (R377). -/
def execNvCommandWaitTimeout (s : State) : Host.Outcome State Fault Refusal :=
  match s.nvw.cmds with
  | c :: t => if s.pwr.nvInhibit then .next (reply c.1 stStateInvalid [] (s.modNvw fun n => { n with cmds := t })) else .next s
  | [] => .next s

/-! ### Limits -/

/-- ISSUE_THROTTLE_START: a junction at 105 °C, or the input current over its limit + 5 %, for 100 µs (R392, R393). -/
def throttleStart (current : Bool) (die : BitVec 8) (s : State) : State :=
  let why := if current then 2 else 1
  let s1 := s.modPwr fun p => { p with throttle := true, throttleWhy := BitVec.ofNat 8 why, throttleDie := die }
  let s2 := raise evIssueThrottle srcSv (le 1 why ++ le 1 die.toNat ++ le 1 0) s1
  if current then s2 else raise evJunctionLimit srcSv (le 1 die.toNat ++ leInt 2 1050) s2

/-- ISSUE_THROTTLE_START (R393). -/
def execIssueThrottleStart (current : Bool) (die : BitVec 8) (s : State) : Host.Outcome State Fault Refusal :=
  if svOn s && !s.pwr.throttle then .next (throttleStart current die s) else .next s

/-- ISSUE_THROTTLE_END: the cause has been below its limit for 1 ms (R393). -/
def execIssueThrottleEnd (s : State) : Host.Outcome State Fault Refusal :=
  if svOn s && s.pwr.throttle then
    .next (raise evIssueThrottle srcSv (le 1 s.pwr.throttleWhy.toNat ++ le 1 s.pwr.throttleDie.toNat ++ le 1 1)
      (s.modPwr fun p => { p with throttle := false }))
  else .next s

/-- THERMAL_TRIP: a junction at 115 °C or a package at 110 °C; THERMTRIP_N is asserted, the compute cores go off, and the
job enters HELD at the next Bell (R394). -/
def execThermalTrip (unit : BitVec 8) (temp : Int) (s : State) : Host.Outcome State Fault Refusal :=
  if litUp s then
    .next (raise evThermalTrip srcAon (le 1 unit.toNat ++ leInt 2 temp)
      (((s.modPins fun p => { p with thermtrip := true }).modPwr fun p => { p with coreOff := true }).modJob fun j => { j with tripped := j.tripped || decide (j.st ≠ .noJob) }))
  else .next s

/-- THERMTRIP_RELEASE: every die below 90 °C and every package below 95 °C (R394). -/
def execThermtripRelease (s : State) : Host.Outcome State Fault Refusal :=
  if s.pwr.aon then .next ((s.modPins fun p => { p with thermtrip := false }).modPwr fun p => { p with coreOff := false }) else .next s

/-- THERMTRIP_ALERT_REPEAT: `BM_ALERT` bit 0 is set again every 1 s while THERMTRIP_N is low (R438). -/
def execThermtripAlertRepeat (s : State) : Host.Outcome State Fault Refusal :=
  if s.pwr.aon && s.pins.thermtrip then .next (s.modPins fun p => { p with alert := p.alert ||| 1 }) else .next s

/-- COOLANT_LIMIT: inlet at 40 °C or outlet at 62 °C (R392). -/
def execCoolantLimit (inlet outlet : BitVec 16) (s : State) : Host.Outcome State Fault Refusal :=
  if svOn s && (decide (400 ≤ inlet.toInt) || decide (620 ≤ outlet.toInt)) then
    .next (raise evCoolantLimit srcSv (le 2 inlet.toNat ++ le 2 outlet.toNat) (s.modPins fun p => { p with coolIn := inlet, coolOut := outlet }))
  else .next s

/-- PHOTONIC_TEMP_LIMIT: a photonic or switch die above 85 °C for 10 ms (R392). -/
def execPhotonicTempLimit (die : BitVec 8) (temp : Int) (s : State) : Host.Outcome State Fault Refusal :=
  if litUp s && decide (850 < temp) then .next (raise evPhotonicTempLimit srcSv (le 1 die.toNat ++ leInt 2 temp) s) else .next s

/-! ### System opcodes -/

/-- NOP: no effect (R355). -/
def execNop (p : Pkt) (s : State) : Host.Outcome State Fault Refusal :=
  .next (runPkt p 0x0100 [] true (fun ref t => reply ref 0 [] t) s)

/-- IDENTIFY (R355). -/
def identifyBody (ref : PktRef) (s : State) : State :=
  reply ref 0 (le 2 (moduleId s).toNat ++ le 1 stepping ++ le 1 (bmState s) ++ le 1 (jobCode s.job.st) ++ le 1 (b2n (owned s)) ++
    le 16 Config.serial.toNat) s

/-- IDENTIFY (R355). -/
def execIdentify (p : Pkt) (s : State) : Host.Outcome State Fault Refusal := .next (runPkt p 0x0101 [] true identifyBody s)

/-- EXPERT_LATCH: sets the latches of the mask for the seconds given; 0 seconds clear every latch (R349). -/
def expertLatchBody (mask secs : BitVec 16) (ref : PktRef) (s : State) : State :=
  let s1 := s.modHi fun h => { h with latchGroups := if secs = 0 then 0 else BitVec.ofNat 12 mask.toNat, latchRemain := secs }
  reply ref 0 (le 2 s1.hi.latchGroups.toNat ++ le 2 secs.toNat)
    (raise evExpertLatchSet srcSv (le 2 mask.toNat ++ le 4 secs.toNat) s1)

/-- EXPERT_LATCH: groups 1 to 11, 0 to 3,600 s (R355). -/
def execExpertLatch (p : Pkt) (mask secs : BitVec 16) (s : State) : Host.Outcome State Fault Refusal :=
  .next (runPkt p 0x0103 (le 2 mask.toNat ++ le 2 secs.toNat)
    (decide (mask.toNat < 4096) && decide (mask.toNat % 2 = 0) && decide (secs.toNat ≤ 3600)) (expertLatchBody mask secs) s)

/-- SET_POWER_CAP: at once; only the MRAM copy waits under the write inhibit (R377, R387). -/
def powerCapBody (watts : BitVec 16) (amps : BitVec 8) (ref : PktRef) (s : State) : State :=
  let s1 := capPoints watts.toNat amps.toNat (s.modPwr fun p => { p with capW := watts, capA := amps })
  reply ref 0 (le 2 watts.toNat ++ le 1 amps.toNat)
    (if s.pwr.nvInhibit then inhibitNote (s1.modNvw fun n => { n with setCap := true }) else saveCap s1)

/-- SET_POWER_CAP: 500 to 3,400 W, 20 to 100 A (R387). -/
def execSetPowerCap (p : Pkt) (watts : BitVec 16) (amps : BitVec 8) (s : State) : Host.Outcome State Fault Refusal :=
  .next (runPkt p 0x0107 (le 2 watts.toNat ++ le 1 amps.toNat)
    (decide (500 ≤ watts.toNat) && decide (watts.toNat ≤ 3400) && decide (20 ≤ amps.toNat) && decide (amps.toNat ≤ 100)) (powerCapBody watts amps) s)

/-- MODULE_PROFILE_READ: the profile goes to the buffer; the reply holds bytes 0 to 23 of its identifier (R44, R355). -/
def execModuleProfileRead (p : Pkt) (buf : Buf) (s : State) : Host.Outcome State Fault Refusal :=
  .next (runPkt p 0x0201 buf.bytes true (fun ref t => replyBuf ref buf (profileBytes t) (le 24 (profileId t).toNat) t) s)

end Sys2Proof.Machine
end

