-- ==== Sys2Proof/Machine/Dispatch.lean ====
section
/-!
DEFINITION. One arm per command: a direct call of its meaning.
-/

namespace Sys2Proof.Machine

/-- The effect of a command on everything but the queue of waiting commands. -/
def exec (i : Instr) (s : State) : Host.Outcome State Fault Refusal :=
  match i with
  | .powerApplied vin => Sys2Proof.Machine.execPowerApplied vin s
  | .supplySag vin => Sys2Proof.Machine.execSupplySag vin s
  | .supplyRestored vin ms => Sys2Proof.Machine.execSupplyRestored vin ms s
  | .nvWriteInhibitEnter vin => Sys2Proof.Machine.execNvWriteInhibitEnter vin s
  | .nvWriteInhibitExit vin => Sys2Proof.Machine.execNvWriteInhibitExit vin s
  | .powerFail vin => Sys2Proof.Machine.execPowerFail vin s
  | .inputOvervoltage vin => Sys2Proof.Machine.execInputOvervoltage vin s
  | .powerFailRecovery vin => Sys2Proof.Machine.execPowerFailRecovery vin s
  | .alwaysOnStoreExpired => Sys2Proof.Machine.execAlwaysOnStoreExpired s
  | .forceCold lowNs => Sys2Proof.Machine.execForceCold lowNs s
  | .perstAssert => Sys2Proof.Machine.execPerstAssert s
  | .perstRelease lowUs => Sys2Proof.Machine.execPerstRelease lowUs s
  | .flr => Sys2Proof.Machine.execFlr s
  | .refclkLost => Sys2Proof.Machine.execRefclkLost s
  | .refclkReturn => Sys2Proof.Machine.execRefclkReturn s
  | .ppsInEdge => Sys2Proof.Machine.execPpsInEdge s
  | .ppsInLost => Sys2Proof.Machine.execPpsInLost s
  | .ppsOutPulse => Sys2Proof.Machine.execPpsOutPulse s
  | .firmwareFetchDone ok image => Sys2Proof.Machine.execFirmwareFetchDone ok image s
  | .firmwareRunning => Sys2Proof.Machine.execFirmwareRunning s
  | .lpddrTrainingDone full failed => Sys2Proof.Machine.execLpddrTrainingDone full failed s
  | .zeroFillDone => Sys2Proof.Machine.execZeroFillDone s
  | .combBringUp => Sys2Proof.Machine.execCombBringUp s
  | .frequencyLockAcquired fibre => Sys2Proof.Machine.execFrequencyLockAcquired fibre s
  | .lanesUp fails => Sys2Proof.Machine.execLanesUp fails s
  | .startStepTimeout selfTest => Sys2Proof.Machine.execStartStepTimeout selfTest s
  | .startRetry => Sys2Proof.Machine.execStartRetry s
  | .firmwareFatal cause addr => Sys2Proof.Machine.execFirmwareFatal cause addr s
  | .powerStateReached fails => Sys2Proof.Machine.execPowerStateReached fails s
  | .issueThrottleStart current die => Sys2Proof.Machine.execIssueThrottleStart current die s
  | .issueThrottleEnd => Sys2Proof.Machine.execIssueThrottleEnd s
  | .thermalTrip unit temp => Sys2Proof.Machine.execThermalTrip unit temp s
  | .thermtripRelease => Sys2Proof.Machine.execThermtripRelease s
  | .coolantLimit inlet outlet => Sys2Proof.Machine.execCoolantLimit inlet outlet s
  | .photonicTempLimit die temp => Sys2Proof.Machine.execPhotonicTempLimit die temp s
  | .periodBell pm px => Sys2Proof.Machine.execPeriodBell pm px s
  | .internalBellRing bell => Sys2Proof.Machine.execInternalBellRing bell s
  | .pinBellRing bell => Sys2Proof.Machine.execPinBellRing bell s
  | .planActivation => Sys2Proof.Machine.execPlanActivation s
  | .stationNop stn err => Sys2Proof.Machine.execStationNop stn err s
  | .signal stn err => Sys2Proof.Machine.execSignal stn err s
  | .signalRemote stn err => Sys2Proof.Machine.execSignalRemote stn err s
  | .wait stn err => Sys2Proof.Machine.execWait stn err s
  | .take stn err => Sys2Proof.Machine.execTake stn err s
  | .release stn err => Sys2Proof.Machine.execRelease stn err s
  | .mma stn err => Sys2Proof.Machine.execMma stn err s
  | .accFlush stn err => Sys2Proof.Machine.execAccFlush stn err s
  | .vew stn err => Sys2Proof.Machine.execVew stn err s
  | .vred stn err => Sys2Proof.Machine.execVred stn err s
  | .vcvt stn err => Sys2Proof.Machine.execVcvt stn err s
  | .vxpose stn err => Sys2Proof.Machine.execVxpose stn err s
  | .vgather stn err => Sys2Proof.Machine.execVgather stn err s
  | .vscatter stn err => Sys2Proof.Machine.execVscatter stn err s
  | .vfunc stn err => Sys2Proof.Machine.execVfunc stn err s
  | .sumOpen stn err => Sys2Proof.Machine.execSumOpen stn err s
  | .sumAdd stn err => Sys2Proof.Machine.execSumAdd stn err s
  | .sumClose stn err => Sys2Proof.Machine.execSumClose stn err s
  | .expmax stn err => Sys2Proof.Machine.execExpmax stn err s
  | .act stn err => Sys2Proof.Machine.execAct stn err s
  | .rdrun stn err => Sys2Proof.Machine.execRdrun stn err s
  | .wrrun stn err => Sys2Proof.Machine.execWrrun stn err s
  | .pre stn err => Sys2Proof.Machine.execPre stn err s
  | .prea stn err => Sys2Proof.Machine.execPrea stn err s
  | .refab word => Sys2Proof.Machine.execRefab word s
  | .refpb word => Sys2Proof.Machine.execRefpb word s
  | .send stn err => Sys2Proof.Machine.execSend stn err s
  | .sumpass stn err => Sys2Proof.Machine.execSumpass stn err s
  | .h2d stn err => Sys2Proof.Machine.execH2d stn err s
  | .d2h stn err => Sys2Proof.Machine.execD2h stn err s
  | .pphase stn err => Sys2Proof.Machine.execPphase stn err s
  | .outputComplete stn stream tseq => Sys2Proof.Machine.execOutputComplete stn stream tseq s
  | .kind1ForwardDone stream fwd err => Sys2Proof.Machine.execKind1ForwardDone stream fwd err s
  | .hxTransferEnd die chan data ok err => Sys2Proof.Machine.execHxTransferEnd die chan data ok err s
  | .recessWindowStart window eo test stat err => Sys2Proof.Machine.execRecessWindowStart window eo test stat err s
  | .idleRefresh die mm => Sys2Proof.Machine.execIdleRefresh die mm s
  | .idleScrub die mm err => Sys2Proof.Machine.execIdleScrub die mm err s
  | .sramBackgroundPass err => Sys2Proof.Machine.execSramBackgroundPass err s
  | .memTempReading pkg temp => Sys2Proof.Machine.execMemTempReading pkg temp s
  | .mergeEntryAged sram key err => Sys2Proof.Machine.execMergeEntryAged sram key err s
  | .hostPortAccess err => Sys2Proof.Machine.execHostPortAccess err s
  | .channelHotspot stn chan => Sys2Proof.Machine.execChannelHotspot stn chan s
  | .remoteSignalEntry fibre link entry => Sys2Proof.Machine.execRemoteSignalEntry fibre link entry s
  | .superframeBoundary fibre hdrs skew err => Sys2Proof.Machine.execSuperframeBoundary fibre hdrs skew err s
  | .streamHoldLimit stream err => Sys2Proof.Machine.execStreamHoldLimit stream err s
  | .dataCellArrival fibre link cell err => Sys2Proof.Machine.execDataCellArrival fibre link cell err s
  | .linkAckNotice port notice => Sys2Proof.Machine.execLinkAckNotice port notice s
  | .resendTimerExpiry stream fwd err => Sys2Proof.Machine.execResendTimerExpiry stream fwd err s
  | .streamBreakNotice port notice => Sys2Proof.Machine.execStreamBreakNotice port notice s
  | .streamTxStalled stream fwd => Sys2Proof.Machine.execStreamTxStalled stream fwd s
  | .stretchNotice port notice => Sys2Proof.Machine.execStretchNotice port notice s
  | .unstretchNotice port notice => Sys2Proof.Machine.execUnstretchNotice port notice s
  | .lineCheckNotice port notice => Sys2Proof.Machine.execLineCheckNotice port notice s
  | .noticeRepeat => Sys2Proof.Machine.execNoticeRepeat s
  | .laneFailure fibre lane cause found => Sys2Proof.Machine.execLaneFailure fibre lane cause found s
  | .laneFailureReport port msg fibre lane => Sys2Proof.Machine.execLaneFailureReport port msg fibre lane s
  | .spareRetargetDone fibre => Sys2Proof.Machine.execSpareRetargetDone fibre s
  | .laneReadyMessage port msg fibre lane => Sys2Proof.Machine.execLaneReadyMessage port msg fibre lane s
  | .laneReadyTimeout fibre => Sys2Proof.Machine.execLaneReadyTimeout fibre s
  | .berMeasurement fibre lane errors bits => Sys2Proof.Machine.execBerMeasurement fibre lane errors bits s
  | .fibreLos fibre power => Sys2Proof.Machine.execFibreLos fibre power s
  | .aprEntry fibre => Sys2Proof.Machine.execAprEntry fibre s
  | .fibreRestored fibre => Sys2Proof.Machine.execFibreRestored fibre s
  | .combSourceFault src cause offset => Sys2Proof.Machine.execCombSourceFault src cause offset s
  | .combSwapComplete ok => Sys2Proof.Machine.execCombSwapComplete ok s
  | .beaconFrame fibre frame power => Sys2Proof.Machine.execBeaconFrame fibre frame power s
  | .xn5QueueHigh fibre dst count => Sys2Proof.Machine.execXn5QueueHigh fibre dst count s
  | .xaRequest fibre msg => Sys2Proof.Machine.execXaRequest fibre msg s
  | .xaGrant fibre msg => Sys2Proof.Machine.execXaGrant fibre msg s
  | .xaDeny fibre msg => Sys2Proof.Machine.execXaDeny fibre msg s
  | .xaRelease fibre msg => Sys2Proof.Machine.execXaRelease fibre msg s
  | .xaAck fibre msg => Sys2Proof.Machine.execXaAck fibre msg s
  | .xn5Activation txn => Sys2Proof.Machine.execXn5Activation txn s
  | .xn5LineIdle fibre lane => Sys2Proof.Machine.execXn5LineIdle fibre lane s
  | .xn5TxnTimeout txn => Sys2Proof.Machine.execXn5TxnTimeout txn s
  | .cagePresencePoll group cage present flags answered => Sys2Proof.Machine.execCagePresencePoll group cage present flags answered s
  | .faceplateFrame port frame => Sys2Proof.Machine.execFaceplateFrame port frame s
  | .faceplatePortDown port => Sys2Proof.Machine.execFaceplatePortDown port s
  | .ringStepComplete line inp out count spaced => Sys2Proof.Machine.execRingStepComplete line inp out count spaced s
  | .linkDeskewComplete fibre link lane skew => Sys2Proof.Machine.execLinkDeskewComplete fibre link lane skew s
  | .linkVerificationDone fibre link tx tags => Sys2Proof.Machine.execLinkVerificationDone fibre link tx tags s
  | .pathPlanComplete => Sys2Proof.Machine.execPathPlanComplete s
  | .faultNotice port msg => Sys2Proof.Machine.execFaultNotice port msg s
  | .p2pAck port msg => Sys2Proof.Machine.execP2pAck port msg s
  | .p2pMessageRepeat mseq => Sys2Proof.Machine.execP2pMessageRepeat mseq s
  | .p2pUndelivered mseq => Sys2Proof.Machine.execP2pUndelivered mseq s
  | .rollCallAnswerTimer => Sys2Proof.Machine.execRollCallAnswerTimer s
  | .rollCallAnswer fibre link msg trx => Sys2Proof.Machine.execRollCallAnswer fibre link msg trx s
  | .rollCallDone => Sys2Proof.Machine.execRollCallDone s
  | .fastplaneSlotBoundary fibres offs => Sys2Proof.Machine.execFastplaneSlotBoundary fibres offs s
  | .ptpSyncSend port => Sys2Proof.Machine.execPtpSyncSend port s
  | .pdelayReqSend port => Sys2Proof.Machine.execPdelayReqSend port s
  | .announceSend port => Sys2Proof.Machine.execAnnounceSend port s
  | .ptpSync port msg t2 => Sys2Proof.Machine.execPtpSync port msg t2 s
  | .pdelayReq port msg t2 => Sys2Proof.Machine.execPdelayReq port msg t2 s
  | .pdelayResp port msg t4 => Sys2Proof.Machine.execPdelayResp port msg t4 s
  | .announce port msg => Sys2Proof.Machine.execAnnounce port msg s
  | .announceReceiptTimeout port => Sys2Proof.Machine.execAnnounceReceiptTimeout port s
  | .holdoverExpired => Sys2Proof.Machine.execHoldoverExpired s
  | .loopSample eng loop vs scheds bads missed => Sys2Proof.Machine.execLoopSample eng loop vs scheds bads missed s
  | .calRotationDue fibre => Sys2Proof.Machine.execCalRotationDue fibre s
  | .calRunComplete fibre rx means test stat => Sys2Proof.Machine.execCalRunComplete fibre rx means test stat s
  | .journalWrite => Sys2Proof.Machine.execJournalWrite s
  | .temperatureSetEval temps => Sys2Proof.Machine.execTemperatureSetEval temps s
  | .kopRefresh kop => Sys2Proof.Machine.execKopRefresh kop s
  | .heartbeatSend unit => Sys2Proof.Machine.execHeartbeatSend unit s
  | .heartbeat unit link frame => Sys2Proof.Machine.execHeartbeat unit link frame s
  | .heartbeatMiss unit => Sys2Proof.Machine.execHeartbeatMiss unit s
  | .gateClaim gate unit claim pair => Sys2Proof.Machine.execGateClaim gate unit claim pair s
  | .gateConfigCommand gate unit cmd => Sys2Proof.Machine.execGateConfigCommand gate unit cmd s
  | .gateReadbackRequest gate => Sys2Proof.Machine.execGateReadbackRequest gate s
  | .gateBroadcast gate unit claim pair => Sys2Proof.Machine.execGateBroadcast gate unit claim pair s
  | .gateResendTimeout gate unit => Sys2Proof.Machine.execGateResendTimeout gate unit s
  | .pairCopyWindowExpiry gate => Sys2Proof.Machine.execPairCopyWindowExpiry gate s
  | .claimSettleExpiry unit => Sys2Proof.Machine.execClaimSettleExpiry unit s
  | .claimRetryTimeout unit => Sys2Proof.Machine.execClaimRetryTimeout unit s
  | .pathPaceTimeout gate unit => Sys2Proof.Machine.execPathPaceTimeout gate unit s
  | .svHeartbeatWatch => Sys2Proof.Machine.execSvHeartbeatWatch s
  | .revertHoldoffExpiry => Sys2Proof.Machine.execRevertHoldoffExpiry s
  | .pairModeChangeTimeout => Sys2Proof.Machine.execPairModeChangeTimeout s
  | .apertureWrite off data => Sys2Proof.Machine.execApertureWrite off data s
  | .packetTaken => Sys2Proof.Machine.execPacketTaken s
  | .apertureReset v => Sys2Proof.Machine.execApertureReset v s
  | .replyWrite => Sys2Proof.Machine.execReplyWrite s
  | .replyRingFull => Sys2Proof.Machine.execReplyRingFull s
  | .eventPush => Sys2Proof.Machine.execEventPush s
  | .vector0TimeLimit => Sys2Proof.Machine.execVector0TimeLimit s
  | .replyRingEnable v => Sys2Proof.Machine.execReplyRingEnable v s
  | .replyRingDisable v => Sys2Proof.Machine.execReplyRingDisable v s
  | .replyRingConsume v => Sys2Proof.Machine.execReplyRingConsume v s
  | .registerWrite off data => Sys2Proof.Machine.execRegisterWrite off data s
  | .ftNowLowRead off len => Sys2Proof.Machine.execFtNowLowRead off len s
  | .bar2Read off len err => Sys2Proof.Machine.execBar2Read off len err s
  | .bar2Write off data => Sys2Proof.Machine.execBar2Write off data s
  | .bar2Timeout => Sys2Proof.Machine.execBar2Timeout s
  | .expertLatchExpiry => Sys2Proof.Machine.execExpertLatchExpiry s
  | .fwGo v => Sys2Proof.Machine.execFwGo v s
  | .combHoldRelease v => Sys2Proof.Machine.execCombHoldRelease v s
  | .idModuleWrite v => Sys2Proof.Machine.execIdModuleWrite v s
  | .bmWake v => Sys2Proof.Machine.execBmWake v s
  | .bmAlertRead => Sys2Proof.Machine.execBmAlertRead s
  | .mirrorWrite ok => Sys2Proof.Machine.execMirrorWrite ok s
  | .checkpointWrite => Sys2Proof.Machine.execCheckpointWrite s
  | .clearedRecordErase => Sys2Proof.Machine.execClearedRecordErase s
  | .tokenRefill code => Sys2Proof.Machine.execTokenRefill code s
  | .lifetimeStore => Sys2Proof.Machine.execLifetimeStore s
  | .nop p => Sys2Proof.Machine.execNop p s
  | .identify p => Sys2Proof.Machine.execIdentify p s
  | .executeList p addr len stop ok data => Sys2Proof.Machine.execExecuteList p addr len stop ok data s
  | .expertLatch p mask secs => Sys2Proof.Machine.execExpertLatch p mask secs s
  | .setPowerStateAsleep p => Sys2Proof.Machine.execSetPowerStateAsleep p s
  | .setPowerStateAwake p => Sys2Proof.Machine.execSetPowerStateAwake p s
  | .setPowerStateLit p => Sys2Proof.Machine.execSetPowerStateLit p s
  | .warmStart p => Sys2Proof.Machine.execWarmStart p s
  | .coldStart p => Sys2Proof.Machine.execColdStart p s
  | .setPowerCap p watts amps => Sys2Proof.Machine.execSetPowerCap p watts amps s
  | .moduleProfileRead p buf => Sys2Proof.Machine.execModuleProfileRead p buf s
  | .fabricProfileInstall p addr len image prof => Sys2Proof.Machine.execFabricProfileInstall p addr len image prof s
  | .fabricProfileRead p buf => Sys2Proof.Machine.execFabricProfileRead p buf s
  | .jobLoad p addr len number seed key image => Sys2Proof.Machine.execJobLoad p addr len number seed key image s
  | .jobStartStrict p t0 => Sys2Proof.Machine.execJobStartStrict p t0 s
  | .jobStartLoose p t0 => Sys2Proof.Machine.execJobStartLoose p t0 s
  | .jobHoldBell p v => Sys2Proof.Machine.execJobHoldBell p v s
  | .jobHoldPeriod p v => Sys2Proof.Machine.execJobHoldPeriod p v s
  | .jobResumeStrict p tr w => Sys2Proof.Machine.execJobResumeStrict p tr w s
  | .jobResumeLoose p tr w => Sys2Proof.Machine.execJobResumeLoose p tr w s
  | .jobUnload p => Sys2Proof.Machine.execJobUnload p s
  | .jobStatus p => Sys2Proof.Machine.execJobStatus p s
  | .trapRead p stn buf => Sys2Proof.Machine.execTrapRead p stn buf s
  | .syncSignal p obj n => Sys2Proof.Machine.execSyncSignal p obj n s
  | .syncArm p obj thresh vec => Sys2Proof.Machine.execSyncArm p obj thresh vec s
  | .syncRead p obj => Sys2Proof.Machine.execSyncRead p obj s
  | .syncReset p obj => Sys2Proof.Machine.execSyncReset p obj s
  | .contextRead p first count buf => Sys2Proof.Machine.execContextRead p first count buf s
  | .memRead p mpa len host err => Sys2Proof.Machine.execMemRead p mpa len host err s
  | .memWrite p mpa len host data => Sys2Proof.Machine.execMemWrite p mpa len host data s
  | .memFill p mpa len pattern => Sys2Proof.Machine.execMemFill p mpa len pattern s
  | .hxRestart p die chan => Sys2Proof.Machine.execHxRestart p die chan s
  | .channelRetire p chan => Sys2Proof.Machine.execChannelRetire p chan s
  | .rowRemapAdd p chan sub bank row err => Sys2Proof.Machine.execRowRemapAdd p chan sub bank row err s
  | .rowRemapRemove p chan sub bank row err => Sys2Proof.Machine.execRowRemapRemove p chan sub bank row err s
  | .memCountsRead p first count buf => Sys2Proof.Machine.execMemCountsRead p first count buf s
  | .pinMarkClear p chan sub => Sys2Proof.Machine.execPinMarkClear p chan sub s
  | .pprRequest p chan sub bank row => Sys2Proof.Machine.execPprRequest p chan sub bank row s
  | .softRepairWrite p die index entry => Sys2Proof.Machine.execSoftRepairWrite p die index entry s
  | .fieldFuseBurn p die word entry => Sys2Proof.Machine.execFieldFuseBurn p die word entry s
  | .channelRestore p chan => Sys2Proof.Machine.execChannelRestore p chan s
  | .setLightPaths p plan => Sys2Proof.Machine.execSetLightPaths p plan s
  | .pathPlanCancel p num => Sys2Proof.Machine.execPathPlanCancel p num s
  | .storeFallback p index sig plan => Sys2Proof.Machine.execStoreFallback p index sig plan s
  | .fallbackArm p mask => Sys2Proof.Machine.execFallbackArm p mask s
  | .fallbackDisarm p mask => Sys2Proof.Machine.execFallbackDisarm p mask s
  | .fallbackRead p index buf => Sys2Proof.Machine.execFallbackRead p index buf s
  | .rollCallOpen p ident => Sys2Proof.Machine.execRollCallOpen p ident s
  | .rollCallClose p ident => Sys2Proof.Machine.execRollCallClose p ident s
  | .rollCallRead p fibre => Sys2Proof.Machine.execRollCallRead p fibre s
  | .groupSetMode p group mode ether => Sys2Proof.Machine.execGroupSetMode p group mode ether s
  | .cageConfig p group cage ports egress ingress => Sys2Proof.Machine.execCageConfig p group cage ports egress ingress s
  | .cmisCdb p group cage buf msg answer ok => Sys2Proof.Machine.execCmisCdb p group cage buf msg answer ok s
  | .combSwapIn p src => Sys2Proof.Machine.execCombSwapIn p src s
  | .combSwapRestore p src => Sys2Proof.Machine.execCombSwapRestore p src s
  | .setCrosspoint p line inp out => Sys2Proof.Machine.execSetCrosspoint p line inp out s
  | .clearCrosspoint p line inp out => Sys2Proof.Machine.execClearCrosspoint p line inp out s
  | .laneForceSpare p fibre lane => Sys2Proof.Machine.execLaneForceSpare p fibre lane s
  | .laneFailedClear p fibre lane => Sys2Proof.Machine.execLaneFailedClear p fibre lane s
  | .timeSetNow p t => Sys2Proof.Machine.execTimeSetNow p t s
  | .timeSetAtPps p t => Sys2Proof.Machine.execTimeSetAtPps p t s
  | .timeAdjust p off => Sys2Proof.Machine.execTimeAdjust p off s
  | .timeSource p source port prio => Sys2Proof.Machine.execTimeSource p source port prio s
  | .ptpPortSet p port asym => Sys2Proof.Machine.execPtpPortSet p port asym s
  | .timeStatus p => Sys2Proof.Machine.execTimeStatus p s
  | .bellSet p index desc => Sys2Proof.Machine.execBellSet p index desc s
  | .bellCancel p index => Sys2Proof.Machine.execBellCancel p index s
  | .loopRead p loop buf => Sys2Proof.Machine.execLoopRead p loop buf s
  | .loopSetPoint p loop sp => Sys2Proof.Machine.execLoopSetPoint p loop sp s
  | .loopFlagsRead p first count => Sys2Proof.Machine.execLoopFlagsRead p first count s
  | .roteSave p mask buf => Sys2Proof.Machine.execRoteSave p mask buf s
  | .roteLoad p addr len data => Sys2Proof.Machine.execRoteLoad p addr len data s
  | .loopWriteDesc p loop desc => Sys2Proof.Machine.execLoopWriteDesc p loop desc s
  | .loopWriteCoeffs p loop region coefs => Sys2Proof.Machine.execLoopWriteCoeffs p loop region coefs s
  | .loopEnable p loop => Sys2Proof.Machine.execLoopEnable p loop s
  | .loopDisable p loop => Sys2Proof.Machine.execLoopDisable p loop s
  | .calConfig p interval mask => Sys2Proof.Machine.execCalConfig p interval mask s
  | .calLaneStep p fibre lane => Sys2Proof.Machine.execCalLaneStep p fibre lane s
  | .calRead p kind fibre lane buf => Sys2Proof.Machine.execCalRead p kind fibre lane buf s
  | .privRead p buf => Sys2Proof.Machine.execPrivRead p buf s
  | .privWriteComb p index value => Sys2Proof.Machine.execPrivWriteComb p index value s
  | .privWriteEoBias p index value => Sys2Proof.Machine.execPrivWriteEoBias p index value s
  | .calSuspectClear p fibre lane side => Sys2Proof.Machine.execCalSuspectClear p fibre lane side s
  | .prefectStatus p => Sys2Proof.Machine.execPrefectStatus p s
  | .prefectSetMode p limit => Sys2Proof.Machine.execPrefectSetMode p limit s
  | .prefectSetHome p unit hold => Sys2Proof.Machine.execPrefectSetHome p unit hold s
  | .prefectRevertEnable p => Sys2Proof.Machine.execPrefectRevertEnable p s
  | .prefectSwitchover p => Sys2Proof.Machine.execPrefectSwitchover p s
  | .daybookRead p store first count buf => Sys2Proof.Machine.execDaybookRead p store first count buf s
  | .daybookClear p first last => Sys2Proof.Machine.execDaybookClear p first last s
  | .daybookRateSet p code burst refill => Sys2Proof.Machine.execDaybookRateSet p code burst refill s
  | .nonceGet p => Sys2Proof.Machine.execNonceGet p s
  | .attest p nonce mask buf => Sys2Proof.Machine.execAttest p nonce mask buf s
  | .certRead p buf => Sys2Proof.Machine.execCertRead p buf s
  | .operatorKeyInstall p index key => Sys2Proof.Machine.execOperatorKeyInstall p index key s
  | .operatorKeyRemove p index key => Sys2Proof.Machine.execOperatorKeyRemove p index key s
  | .mr7Extend p d => Sys2Proof.Machine.execMr7Extend p d s
  | .lifetimeRead p buf => Sys2Proof.Machine.execLifetimeRead p buf s
  | .calendarSet p t => Sys2Proof.Machine.execCalendarSet p t s
  | .calendarRead p => Sys2Proof.Machine.execCalendarRead p s
  | .getVersion req => Sys2Proof.Machine.execGetVersion req s
  | .getCapabilities req => Sys2Proof.Machine.execGetCapabilities req s
  | .negotiateAlgorithms req => Sys2Proof.Machine.execNegotiateAlgorithms req s
  | .getDigests req => Sys2Proof.Machine.execGetDigests req s
  | .getCertificate req => Sys2Proof.Machine.execGetCertificate req s
  | .challenge req => Sys2Proof.Machine.execChallenge req s
  | .getMeasurements req => Sys2Proof.Machine.execGetMeasurements req s
  | .spdmUnsupportedRequest req => Sys2Proof.Machine.execSpdmUnsupportedRequest req s
  | .emergencyRefreshDue pkg => Sys2Proof.Machine.execEmergencyRefreshDue pkg s
  | .nvCommandWaitTimeout => Sys2Proof.Machine.execNvCommandWaitTimeout s
  | .mirrorQueueTimeout => Sys2Proof.Machine.execMirrorQueueTimeout s
  | .postPackageRepairDone ok => Sys2Proof.Machine.execPostPackageRepairDone ok s
  | .thermtripAlertRepeat => Sys2Proof.Machine.execThermtripAlertRepeat s
  | .serviceCellSlot fibre link => Sys2Proof.Machine.execServiceCellSlot fibre link s
  | .faceplatePortUp port => Sys2Proof.Machine.execFaceplatePortUp port s

end Sys2Proof.Machine
end

