-- ==== Sys2Proof/Machine/Tick.lean ====
section
/-!
DEFINITION. What time does by itself: one cycle of the 400 MHz service clock, which a step on an empty queue takes (log entry
20). Fabric time advances and slews (R235, R236, R245), the calendar counts (R416), seconds are counted (R349, R413, R415),
hold times run (R36), the 1 ms windows of the host channels turn over (R118), and the always-on domain refreshes its readings
(R414, R438). Everything else that time brings is a command of its own.
-/

namespace Sys2Proof.Machine

/-- Fabric time after one sc of 160 units: the grandmaster slews one unit every 6,250 sc, any other module one every 625 (R236, R245). -/
def timeTick (s : State) : State :=
  if !combsLocked s then s
  else
    let a := if s.sc % 625 = 0 ∧ s.tm.gm = false then s.tm.slew.sign else 0
    let b := if s.sc % 6250 = 0 ∧ s.tm.gm = true then s.tm.adjLeft.sign else 0
    s.modTm fun t => { t with ft := t.ft + BitVec.ofInt 64 (160 + a + b), slew := t.slew - a, adjLeft := t.adjLeft - b }

/-- The calendar: 1/32,768 s in 12,207.03125 sc (R416). -/
def calendarTick (s : State) : State :=
  let n := s.life.ticks + 1
  let step := decide (n * 32 / 390625 ≠ s.life.ticks * 32 / 390625)
  s.modLife fun l =>
    { l with ticks := n, calFrac := if step then l.calFrac + 1 else l.calFrac, cal := if step && decide (l.calFrac = 0x7FFF) then l.cal + 1 else l.cal }

/-- One temperature sample of a die, in 0.1 °C: its trough, its peak, and the cycle that a fall of 30 °C completes (R414). -/
def thermalSample (d : Nat) (temp : Int) (s : State) : State :=
  let lo := tget (-100000) s.life.trough d
  let hi := tget (-100000) s.life.peak d
  let set := fun (a b : Int) => s.modLife fun l => { l with trough := tset (-100000) l.trough d a, peak := tset (-100000) l.peak d b }
  if lo = -100000 then set temp temp
  else if hi < temp then set lo temp
  else if lo + 300 ≤ hi then
    if temp + 300 ≤ hi then (set temp temp).modLife fun l => { l with thermal := tmod 0 l.thermal d fun n => addSat n 1 } else s
  else if temp < lo then set temp temp
  else s

/-- A sensor's reading, which comes from outside the module: a free value. -/
def sensor (s : State) : BitVec 16 × State := (freeVal 16 s, useFree s)

/-- The 10 kHz sample of the powered dies, and `BM_TJMAX` (R414, R438). -/
def sampleDies (s : State) : State :=
  (List.range 10).foldl (fun t d =>
    if d = 4 ∨ litUp s = true then
      let r := sensor t
      let u := thermalSample d r.1.toInt r.2
      if d < 4 then u.modPins fun p => { p with tjMax := if p.tjMax.toInt < r.1.toInt then r.1 else p.tjMax } else u
    else t) (s.modPins fun p => { p with tjMax := 0x8000 })

/-- `BM_VIN`, `BM_IIN` and `BM_COOL` are refreshed (R438). -/
def refreshBm (s : State) : State :=
  let a := sensor s
  let b := sensor a.2
  let c := sensor b.2
  let d := sensor c.2
  d.2.modPins fun p => { p with iin := a.1, coolIn := b.1, coolOut := c.1, vin := d.1 }

/-- The end-of-life estimate of a comb source in hours: from its newest drive current, along its trend, to 1.25 times the current at its
first 100 hours; without end where the current does not rise (R415; log entry 20, DESIGN CHOICE). -/
def combEstimate (hist : List (Nat × Nat)) (ref : Nat) : BitVec 32 :=
  let a := Config.combTrend hist
  let gap : Int := 5 * ref - 4 * (hist.head?.map (·.2)).getD 0
  if gap ≤ 0 then 0
  else if a.1 ≤ 0 then 0xFFFFFFFF
  else BitVec.ofNat 32 (min 0xFFFFFFFE (gap * a.2 / (4 * a.1)).toNat)

/-- One laser-on second of a comb source; each hour its drive current is noted and its end of life is estimated (R415). -/
def combSecond (k : Nat) (s : State) : State :=
  let c := combOf s k
  if !c.lit then s
  else
    let n := addSat (tget 0 s.life.combS k) 1
    let q := tget 0 s.life.combUas k + 10 * c.drive.toNat
    let s1 := s.modLife fun l =>
      { l with combS := tset 0 l.combS k n, combUas := tset 0 l.combUas k (q % 3600), combUah := tmod 0 l.combUah k fun x => x + BitVec.ofNat 64 (q / 3600) }
    let h := n.toNat / 3600
    if n.toNat % 3600 ≠ 0 then s1
    else
      let s2 := s1.modLife fun l =>
        { l with combHist := (k, h, c.drive.toNat) :: l.combHist.filter fun e => decide (e.1 ≠ k) || decide (h < e.2.1 + 1000),
                 combRef := if h = 100 then tset 0 l.combRef k c.drive.toNat else l.combRef }
      if h < 500 then s2
      else
        let est := combEstimate ((s2.life.combHist.filter fun e => decide (e.1 = k)).map (·.2)) (tget 0 s2.life.combRef k)
        let s3 := s2.modLife fun l => { l with combEol := tset 0xFFFFFFFF l.combEol k est }
        if est.toNat < 4380 ∧ 4380 ≤ (tget 0xFFFFFFFF s.life.combEol k).toNat then
          raise evCombEolNear srcSv (le 1 (0x10 + k) ++ le 4 est.toNat ++ le 2 c.drive.toNat) s3
        else s3

/-- `HI_LATCH.REMAIN` counts down, and every latch clears when it reaches 0 (R349). -/
def latchSecond (s : State) : State :=
  if s.hi.latchRemain = 0 then s
  else if s.hi.latchRemain = 1 then clearLatches s
  else s.modHi fun h => { h with latchRemain := h.latchRemain - 1 }

/-- A second of the service clock (R320, R349, R413, R415). -/
def secondTick (s : State) : State :=
  let s1 := s.modLife fun l => { l with powerOnS := l.powerOnS + 1, runningS := if s.pwr.ps = .running then l.runningS + 1 else l.runningS }
  let s2 := (List.range 5).foldl (fun t k => combSecond k t) s1
  (latchSecond s2).modPfx fun p => { p with holdLeft := if p.holdLeft = 0 then 0 else p.holdLeft - 1 }

/-- A millisecond of the service clock: the channel windows turn over, stalled streams of a module in Running count their hold
time, readings are refreshed, and an identifier that waits is stored (R36, R118, R438, R450). -/
def msTick (s : State) : State :=
  let s1 := s.modMem fun m => { m with hot := [] }
  let s2 := if decide (s.pwr.ps = .running) && !s.boot.starting && holdRuns s then
      s1.modStrm fun x => { x with ctx := x.ctx.map fun e => if e.2.state = .stalled then (e.1, { e.2 with holdElapsed := addSat e.2.holdElapsed 1 }) else e }
    else s1
  let s3 := refreshBm s2
  if s3.pwr.nvInhibit then s3 else storeId s3

/-- One cycle of the service clock in Awake and above. -/
def svTick (s : State) : State :=
  let s1 := timeTick (s.modSc (· + 1))
  let s2 := if s1.sc % 40000 = 0 then sampleDies s1 else s1
  let s3 := if s2.sc % 400000 = 0 then msTick s2 else s2
  if s3.sc % 400000000 = 0 then secondTick s3 else s3

/-- What an empty queue lets happen: 2.5 ns pass. Without the always-on domain nothing happens. -/
def tick (s : State) : State :=
  if !s.pwr.aon then s
  else
    let s1 := calendarTick s
    if svOn s then svTick s1
    else if inAsleep s && decide (s1.life.ticks % 400000000 = 0) then refreshBm s1
    else s1

end Sys2Proof.Machine
end

