-- ==== Sys2Proof/Safety.lean ====
section
/-!
DEFINITION. The terms in which claims speak of a run: what a step answers, the state in which an opcode's packet has its effect,
and what leaves the module.
-/

namespace Sys2Proof.Machine

/-- A step goes on: it answers a next state, not a fault and not a refusal. -/
def State.goesOn (s : State) : Prop := ∃ t, step s = .next t

/-- The state in which the body of an opcode's packet runs, when the packet may begin (R340), is served (R363), and passes the
checks of its header (R338) and of its authority (R350); none otherwise. -/
def bodyState (p : Pkt) (op : Nat) (params : Bytes) (s : State) : Option State :=
  if !svOn s then none
  else (startPkt p op params s).bind fun s1 =>
    if headerCheck op p.expert p.sig.isSome p.target = 0 ∧ (fwUp s1 || bootServed op) = true ∧ authCheck op params p s1 = 0 then
      some (pfxInput op p.target.toNat (if opSigned op then spendNonce p s1 else s1))
    else none

/-- The word of an opcode that a station issues next, with the state in which it would: it is at hand (R56, R73), and the stream
contexts that it touches are valid (R36). -/
def wordDue (opc : Nat) (x : BitVec 16) (s : State) : Option (Ew × State) :=
  match wordAt opc x (advanceStn x s) with
  | some e =>
    if (wordStreams (advanceStn x s) x e.w).all fun st => decide ((ctxOf (advanceStn x s) st).state ≠ .invalid) then some (e, advanceStn x s) else none
  | none => none

/-- Every input tile of a word is complete (R29, R56). -/
def inputsReady (x : BitVec 16) (e : Ew) (s : State) : Bool := (usesOf s x e.w).all fun u => tileReady s u.stream u.tile

/-- The reads of a word meet no error in program memory, stream contexts and sync objects (R131). -/
def ReadErr.ctlClean (err : ReadErr) : Prop := err.prog = [] ∧ err.ctx = []

/-- The commands by which stations issue the words of their programs, with their opcodes (R55); NOP, PPHASE and the refresh words,
which the Bell grid also runs (R66, R72), are not among them. -/
def programWords : List (Nat × (BitVec 16 → ReadErr → Instr)) :=
  [(0x02, .signal), (0x03, .signalRemote), (0x04, .wait), (0x05, .take), (0x06, .release), (0x10, .mma), (0x11, .accFlush), (0x20, .vew),
   (0x21, .vred), (0x22, .vcvt), (0x23, .vxpose), (0x24, .vgather), (0x25, .vscatter), (0x26, .vfunc), (0x30, .sumOpen), (0x31, .sumAdd),
   (0x32, .sumClose), (0x33, .expmax), (0x40, .act), (0x41, .rdrun), (0x42, .wrrun), (0x43, .pre), (0x44, .prea), (0x50, .send),
   (0x51, .sumpass), (0x60, .h2d), (0x61, .d2h)]

/-- A word has put its output tile of binding entry b in flight: it is the newest in `outst`, with the number after those in
flight, and it completes when OUTPUT_COMPLETE comes (R53, R57). -/
def outputAdded (x : BitVec 16) (b : Nat) (v t : State) : Prop :=
  ∃ q : Outst, t.stn.outst = v.stn.outst ++ [q] ∧ q.stn = x ∧ q.stream = (bindAt v x b).stream ∧ q.tseq = nextOut v (bindAt v x b).stream ∧
    q.left = 0 ∧ q.noTile = false

/-- Each merge buffer holds at most one entry for a code word (R127). -/
def State.mergesDistinct (s : State) : Prop := (s.mem.merge.map (·.key)).Nodup ∧ (s.ts.merge.map (·.key)).Nodup

/-! ### What commands may change -/

/-- The commands that may change what LPDDR stores: accesses of the host port, which take those that wait before them with them, MM words,
HX transfers, merge buffers as they are written, repair, scrubs, channels that leave and return, the fill, and the loss of power (R119,
R122 to R138). -/
def writesLpddr : Instr → Bool
  | .bar2Read .. | .bar2Write .. | .channelRestore .. | .channelRetire .. | .hostPortAccess .. | .hxTransferEnd .. | .idleScrub ..
  | .inputOvervoltage .. | .jobLoad .. | .jobUnload .. | .memFill .. | .memRead .. | .memWrite .. | .mergeEntryAged ..
  | .nvWriteInhibitExit .. | .perstRelease .. | .postPackageRepairDone .. | .powerFail .. | .powerStateReached ..
  | .recessWindowStart .. | .rowRemapAdd .. | .rowRemapRemove .. | .startRetry .. | .warmStart .. | .wrrun .. | .zeroFillDone .. => true
  | _ => false

/-- The commands that may change what the tile stores hold: words and transfers that write tiles, arriving cells, accesses of the host
port, merge buffers as they are written, job loads, and starts (R42, R112, R119, R127). -/
def writesTiles : Instr → Bool
  | .accFlush .. | .bar2Read .. | .bar2Write .. | .coldStart .. | .dataCellArrival .. | .expmax .. | .faceplateFrame ..
  | .faceplatePortUp .. | .forceCold .. | .h2d .. | .hostPortAccess .. | .hxTransferEnd .. | .inputOvervoltage .. | .jobLoad ..
  | .jobUnload .. | .kind1ForwardDone .. | .memFill .. | .memRead .. | .memWrite .. | .mergeEntryAged .. | .mma ..
  | .perstRelease .. | .powerApplied .. | .powerFail .. | .powerFailRecovery .. | .powerStateReached .. | .rdrun ..
  | .startRetry .. | .streamHoldLimit .. | .sumClose .. | .sumpass .. | .superframeBoundary .. | .vcvt .. | .vew .. | .vfunc ..
  | .vgather .. | .vred .. | .vscatter .. | .vxpose .. | .warmStart .. | .xn5Activation .. => true
  | _ => false

/-- The commands that may extend a measurement register or append to its log: those of the start, of the loads and of the keys, and
MR7_EXTEND (R421). -/
def extendsMeasurements : Instr → Bool
  | .coldStart .. | .fabricProfileInstall .. | .firmwareFetchDone .. | .firmwareRunning .. | .forceCold .. | .jobLoad ..
  | .mr7Extend .. | .nvWriteInhibitExit .. | .operatorKeyInstall .. | .operatorKeyRemove .. | .perstRelease .. | .powerApplied ..
  | .powerFailRecovery .. | .refclkReturn .. | .startRetry .. | .warmStart .. => true
  | _ => false

/-- The commands that may change a gate: what reaches it as a claim or a command, the end of its window for second copies, the starts, and
every command whose effect on lanes, combs, crosspoints, groups, loops and EO biases goes through the gates of the dies as a gate command, a
fallback plan that a fault sets off among them (R13, R196, R304, R307 to R309, R316). -/
def commandsGates : Instr → Bool
  | .clearCrosspoint .. | .coldStart .. | .combBringUp .. | .combSourceFault .. | .combSwapComplete .. | .combSwapIn ..
  | .combSwapRestore .. | .dataCellArrival .. | .faceplateFrame .. | .faultNotice .. | .fibreLos .. | .firmwareRunning ..
  | .forceCold .. | .gateClaim .. | .gateConfigCommand .. | .groupSetMode .. | .laneFailedClear .. | .laneFailure ..
  | .laneFailureReport .. | .laneReadyMessage .. | .laneReadyTimeout .. | .lanesUp .. | .linkVerificationDone .. | .loopDisable ..
  | .loopEnable .. | .loopSetPoint .. | .loopWriteCoeffs .. | .loopWriteDesc .. | .pairCopyWindowExpiry .. | .pathPlanComplete ..
  | .perstRelease .. | .planActivation .. | .powerApplied .. | .powerFailRecovery .. | .powerStateReached .. | .ppsInEdge ..
  | .privWriteComb .. | .privWriteEoBias .. | .ptpSync .. | .ringStepComplete .. | .setCrosspoint .. | .spareRetargetDone ..
  | .startRetry .. | .superframeBoundary .. | .timeSetNow .. | .warmStart .. | .xn5Activation .. | .xn5LineIdle .. => true
  | _ => false

/-- The commands that may change the fabric time by other than its running: Sync messages, in a packet, a frame or a service cell,
TIME_SET and its pulse, and the loss of power and starts (R237, R244, R245). -/
def setsTime : Instr → Bool
  | .coldStart .. | .dataCellArrival .. | .faceplateFrame .. | .forceCold .. | .inputOvervoltage .. | .powerApplied ..
  | .powerFail .. | .powerFailRecovery .. | .ppsInEdge .. | .ptpSync .. | .startRetry .. | .timeSetNow .. => true
  | _ => false

/-- The commands that may load, change or drop the Timetable image (R42, R69, R70). -/
def loadsImages : Instr → Bool
  | .coldStart .. | .forceCold .. | .inputOvervoltage .. | .jobLoad .. | .jobUnload .. | .powerApplied .. | .powerFail ..
  | .powerFailRecovery .. | .startRetry .. => true
  | _ => false

end Sys2Proof.Machine
end

