-- ==== Sys2Proof/Certificates/Slice0/Obligations.lean ====
section
/-!
DEFINITION. The statements about the machine, for the provers. Those that say where a command completes give the next state that
`exec` answers, or what it holds, from hypotheses on the state and the operands.
-/

open Sys2Proof Sys2Proof.Machine


/-! ### The queue -/

/-- A command at the front of the queue runs on the rest of the queue; an empty queue lets one service cycle pass, and without the
always-on domain nothing happens (the model's own queue, log entry 2; the tick, log entry 20). -/
def Obligations.StepRunsTheFrontCommand : Prop :=
  (∀ (c : Instr) (s : State), step { s with pending := c :: s.pending } = exec c s) ∧
  (∀ s : State, s.pending = [] → step s = .next (tick s)) ∧
  (∀ s : State, s.pwr.aon = false → tick s = s)

/-! ### The host interface -/

/-- APERTURE_WRITE puts whole lines into free lines of the ring, each where its address says, and counts `FREE` down; a write
that covers part of a line, or reaches a line that is not free, stores nothing and halts the aperture. Behind a BAR2 write that
waits, the write waits too (R333, R334, R336). -/
def Obligations.ApertureWriteFillsFreeLines : Prop :=
  (∀ (line n : Nat) (data : Bytes) (s : State), hostUp s = true → writeWaits s = false → s.hi.halt = false → 0 < n → data.length = 64 * n → line + n ≤ 16384 →
    (∀ i, i < n → tget [] s.hi.apLines (line + i) = []) →
    ∃ t, exec (.apertureWrite (64 * line) data) s = .next t ∧ t.hi.halt = false ∧
      (∀ i, i < n → tget [] t.hi.apLines (line + i) = (data.drop (64 * i)).take 64) ∧
      (∀ j, j < line ∨ line + n ≤ j → tget [] t.hi.apLines j = tget [] s.hi.apLines j) ∧
      t.hi.free = BitVec.ofNat 15 (16384 - t.hi.apLines.length) ∧ t.hi.consume = s.hi.consume ∧ t.hi.held = s.hi.held) ∧
  (∀ (off : Nat) (data : Bytes) (s : State), hostUp s = true → writeWaits s = false → s.hi.halt = false → data ≠ [] →
    off % 64 ≠ 0 ∨ data.length % 64 ≠ 0 ∨ (∃ i, i < data.length / 64 ∧ tget [] s.hi.apLines (off / 64 + i) ≠ []) →
    ∃ t, exec (.apertureWrite off data) s = .next t ∧ t.hi.halt = true ∧ t.hi.apLines = s.hi.apLines ∧ t.hi.free = s.hi.free) ∧
  (∀ (off : Nat) (data : Bytes) (s : State), hostUp s = true → writeWaits s = true →
    exec (.apertureWrite off data) s = .next (s.modHi fun h => { h with heldWrites := h.heldWrites ++ [(0x100000 + off, data)] }))

/-- PACKET_TAKEN takes the packet at `CONSUME` whose lines have all been written, passes its checks in order, frees its lines
and holds it until its final reply; the expected `PK.SEQ` is one more (R335, R338). -/
def Obligations.PacketTakenHoldsThePacket : Prop :=
  ∀ (s : State) (first b : Bytes), svOn s = true → s.hi.held.length < 256 → s.hi.lists = none → s.hi.halt = false →
    tget [] s.hi.apLines s.hi.consume.toNat = first → first ≠ [] →
    2 ≤ (readHdr first).len → (readHdr first).len ≤ 8192 →
    takeLines s.hi.apLines s.hi.consume.toNat (ceilDiv (8 * (readHdr first).len) 64) = some b →
    takeCheck (readHdr first) s.hi.expectSeq.toNat false (b.take (8 * (readHdr first).len)) = 0 →
    ∃ t e, exec .packetTaken s = .next t ∧ t.hi.held = s.hi.held ++ [e] ∧ e.ref = (readHdr first).ref false ∧ e.begun = false ∧
      t.hi.consume = s.hi.consume + BitVec.ofNat 14 (ceilDiv (8 * (readHdr first).len) 64) ∧
      t.hi.credit = s.hi.credit + BitVec.ofNat 16 (ceilDiv (8 * (readHdr first).len) 64) ∧
      t.hi.expectSeq = BitVec.ofNat 32 ((readHdr first).seq + 1) ∧ t.hi.replies = s.hi.replies

/-- REPLY_WRITE writes the oldest waiting reply as a record of 64 bytes at `HI_RING_PROD` and advances it by one, modulo N; the
reply stays where it is while the ring is full (R344, R345). -/
def Obligations.ReplyWriteFillsTheRing : Prop :=
  (∀ (s : State) (r : Reply) (rest : List Reply), hostUp s = true → s.hi.ringEn = true → s.hi.replies = r :: rest → ringFull s.hi = false →
    ∃ (t : State) (b : Bytes), exec .replyWrite s = .next t ∧ b.length = 64 ∧
      ({ chan := .hostWrite, port := s.hi.ringBase.toNat + 64 * s.hi.prod.toNat, body := b } : Out) ∈ t.out ∧
      t.hi.prod = BitVec.ofNat 32 ((s.hi.prod.toNat + 1) % ringN s.hi) ∧ t.hi.credit = 0 ∧ (s.hi.lists = none → t.hi.replies = rest) ∧
      (r.interim = false → ∀ e ∈ t.hi.held, e ∈ s.hi.held)) ∧
  (∀ s : State, hostUp s = true → s.hi.ringEn = true → ringFull s.hi = true → exec .replyWrite s = .next s)

/-- A write of `HI_RING_CFG` with `EN` takes the size, with the index at 0 and the phase at 1; one without it discards the replies
and pushes that wait; `HI_RING_CONS` takes what is written. A ring that stays full raises REPLY_RING_FULL with both indices and the
replies that wait, and once only. The time limit raises vector 0 and begins its count again. A push becomes the next record of the ring,
with vector 1 at or above `URGENT`; while the ring is full it is dropped and counted, but for one that is sure (R345, R347,
R351, R352).
Writes and reads of BAR0: APERTURE_RESET empties the aperture; a 32-bit REGISTER_WRITE of `HI_EVENT_PUSH` sets both thresholds, and
a write of another width than 32 or 64 bits is discarded; behind a BAR2 write that waits, a register write waits too. A 32-bit read
of the low half of `FT_NOW` latches the high half, which the next read of the high half returns; reading `BM_ALERT` returns it and clears
it. FLR empties the aperture and the waiting replies, disables the ring, forgets the nonce and the latches, abandons the packets that have not
begun, mutes those that have, and changes nothing but the host interface; and the latches expire (R328, R330, R332, R333, R336,
R349, R438, R451). -/
def Obligations.RegistersRingAndPushes : Prop :=
  (∀ (v : BitVec 32) (s : State), hostUp s = true → writeWaits s = false → v.getLsbD 31 = true → s.hi.ringEn = false → 12 ≤ v.toNat % 32 → v.toNat % 32 ≤ 24 →
    exec (.replyRingEnable v) s = .next (s.modHi fun h => { h with ringEn := true, ringSize := BitVec.ofNat 5 (v.toNat % 32), prod := 0, phase := true, unsig := 0 })) ∧
  (∀ (v : BitVec 32) (s : State), hostUp s = true → writeWaits s = false → v.getLsbD 31 = false → s.hi.ringEn = true →
    ∃ t, exec (.replyRingDisable v) s = .next t ∧ t.hi.ringEn = false ∧ t.hi.replies = [] ∧ t.hi.pushes = [] ∧ t.hi.prod = s.hi.prod ∧ { t with hi := s.hi } = s) ∧
  (∀ (v : BitVec 32) (s : State), hostUp s = true → writeWaits s = false → exec (.replyRingConsume v) s = .next (s.modHi fun h => { h with cons := v })) ∧
  (∀ s : State, svOn s = true → s.hi.ringEn = true → ringFull s.hi = true → s.hi.fullRaised = false →
    exec .replyRingFull s = .next (raise evReplyRingFull srcSv (le 4 s.hi.prod.toNat ++ le 4 s.hi.cons.toNat ++ leSat 4 s.hi.replies.length)
      (s.modHi fun h => { h with fullRaised := true }))) ∧
  (∀ (s : State) (q : Push) (rest : List Push), hostUp s = true → s.hi.ringEn = true → s.hi.pushes = q :: rest → ringFull s.hi = false →
    ∃ (t : State) (b : Bytes), exec .eventPush s = .next t ∧ t.hi.pushes = rest ∧ t.hi.prod = BitVec.ofNat 32 ((s.hi.prod.toNat + 1) % ringN s.hi) ∧
      b.length = 64 ∧ ({ chan := .hostWrite, port := s.hi.ringBase.toNat + 64 * s.hi.prod.toNat, body := b } : Out) ∈ t.out ∧
      (s.hi.urgent ≠ 0 → s.hi.urgent.toNat ≤ q.record.sev.toNat → (tget {} s.hi.msix 1).ctl.getLsbD 0 = false →
        ({ chan := .msix, port := 1, body := le 8 (tget {} s.hi.msix 1).addr.toNat ++ le 4 (tget {} s.hi.msix 1).data.toNat } : Out) ∈ t.out)) ∧
  (∀ (s : State) (q : Push) (rest : List Push), hostUp s = true → s.hi.ringEn = true → s.hi.pushes = q :: rest → ringFull s.hi = true → q.sure = false →
    exec .eventPush s = .next (s.modHi fun h => { h with pushes := rest, dropped := addSat h.dropped 1 })) ∧
  (∀ s : State, hostUp s = true → s.hi.irqTime ≠ 0 → s.hi.unsig ≠ 0 →
    ∃ t, exec .vector0TimeLimit s = .next t ∧ t.hi.unsig = 0 ∧ t.hi.prod = s.hi.prod ∧
      ((tget {} s.hi.msix 0).ctl.getLsbD 0 = false →
        t.out = { chan := .msix, port := 0, body := le 8 (tget {} s.hi.msix 0).addr.toNat ++ le 4 (tget {} s.hi.msix 0).data.toNat } :: s.out) ∧
      ((tget {} s.hi.msix 0).ctl.getLsbD 0 = true → t.out = s.out ∧ t.hi.pba.getLsbD 0 = true)) ∧
  (∀ s : State, s.hi.fullRaised = true → exec .replyRingFull s = .next s) ∧
  (∀ (s : State) (q : Push) (rest : List Push), hostUp s = true → s.hi.ringEn = true → s.hi.pushes = q :: rest → ringFull s.hi = true → q.sure = true →
    exec .eventPush s = .next s) ∧
  (∀ (v : BitVec 32) (s : State), hostUp s = true → writeWaits s = false → v.getLsbD 0 = true →
    exec (.apertureReset v) s = .next (s.modHi fun h => { h with apLines := [], free := 16384, consume := 0, expectSeq := 0, halt := false })) ∧
  (∀ (b0 b1 b2 b3 : BitVec 8) (s : State), hostUp s = true → writeWaits s = false →
    exec (.registerWrite 0x1038 [b0, b1, b2, b3]) s =
      .next (s.modHi fun h => { h with push := BitVec.ofNat 3 b0.toNat, urgent := BitVec.ofNat 3 b1.toNat })) ∧
  (∀ (off : Nat) (data : Bytes) (s : State), hostUp s = true → writeWaits s = false → data.length ≠ 4 → data.length ≠ 8 →
    exec (.registerWrite off data) s = .next s) ∧
  (∀ s : State, hostUp s = true →
    ∃ t u, exec (.ftNowLowRead 0x2000 4) s = .next t ∧ t.hi.ftLatched = true ∧ t.hi.ftLatch = BitVec.ofNat 32 (s.tm.ft.toNat / 2 ^ 32) ∧
      exec (.ftNowLowRead 0x2004 4) t = .next u ∧ u.hi.ftLatched = false ∧
      u.out = { chan := .readReply, port := 0x2004, body := le 4 t.hi.ftLatch.toNat } :: t.out) ∧
  (∀ s : State, s.pwr.aon = true →
    ∃ t, exec .bmAlertRead s = .next t ∧ t.pins = { s.pins with alert := 0 } ∧
      t.out = { chan := .readReply, port := 5, body := le 1 s.pins.alert.toNat } :: s.out) ∧
  (∀ s : State, hostUp s = true →
    ∃ t, exec .flr s = .next t ∧ t.hi.ringEn = false ∧ t.hi.replies = [] ∧ t.hi.pushes = [] ∧ t.hi.apLines = [] ∧ t.hi.free = 16384 ∧ t.hi.halt = false ∧
      t.hi.nonce = none ∧ t.hi.latchGroups = 0 ∧ t.hi.latchRemain = 0 ∧
      (∀ e ∈ t.hi.held, e.begun = true ∧ e.mute = true) ∧ { t with hi := s.hi } = s) ∧
  (∀ s : State, exec .expertLatchExpiry s = .next (s.modHi fun h => { h with latchGroups := 0, latchRemain := 0 })) ∧
  (∀ (off : Nat) (data : Bytes) (s : State), hostUp s = true → writeWaits s = true →
    exec (.registerWrite off data) s = .next (s.modHi fun h => { h with heldWrites := h.heldWrites ++ [(off, data)] })) ∧
  (∀ (v : BitVec 32) (s : State), hostUp s = true → writeWaits s = true →
    (v.getLsbD 0 = true → exec (.apertureReset v) s = .next (s.modHi fun h => { h with heldWrites := h.heldWrites ++ [(0x1008, le 4 v.toNat)] })) ∧
    (v.getLsbD 31 = true → exec (.replyRingEnable v) s = .next (s.modHi fun h => { h with heldWrites := h.heldWrites ++ [(0x1018, le 4 v.toNat)] })) ∧
    (v.getLsbD 31 = false → exec (.replyRingDisable v) s = .next (s.modHi fun h => { h with heldWrites := h.heldWrites ++ [(0x1018, le 4 v.toNat)] })) ∧
    exec (.replyRingConsume v) s = .next (s.modHi fun h => { h with heldWrites := h.heldWrites ++ [(0x1028, le 4 v.toNat)] }))

/-- Writes of `BOOT_CTL` and `ID_MODULE`: FW_GO in stage 4 begins the fetch and reads 0 afterwards; COMB_HOLD clears when it is
written 0; an identifier is taken only in Awake and outside a transition, and sets `ASSIGNED` at once with `STORED` clear;
behind a BAR2 write that waits, each waits too (R333, R359, R450).
The triggers of a start and its pins: FORCE_COLD_N low for 10 µs or longer and COLD_START begin a cold start with causes 2 and
3, cause 9 with `COLD_FAILS` clear from safe mode; PERST# before Lit only holds step 4; PERST# from Asleep wakes; a lost
reference puts SV on its own oscillator and takes the link down, and its return brings both back (R356, R357, R370, R381,
R383). -/
def Obligations.BootRegistersTriggersAndPins : Prop :=
  (∀ (v : BitVec 32) (s : State), hostUp s = true → writeWaits s = false → v.getLsbD 30 = true → s.boot.stage = 4 →
    exec (.fwGo v) s = .next (s.modBoot fun b => { b with perstWarm := v.getLsbD 31, combHold := v.getLsbD 29, fetching := true })) ∧
  (∀ (v : BitVec 32) (s : State), hostUp s = true → writeWaits s = false → v.getLsbD 29 = false → v.getLsbD 30 = false →
    exec (.combHoldRelease v) s = .next (s.modBoot fun b => { b with perstWarm := v.getLsbD 31, combHold := false })) ∧
  (∀ (v : BitVec 32) (s : State), hostUp s = true → writeWaits s = false → s.pwr.ps = .awake → s.pwr.target = none →
    ∃ t, exec (.idModuleWrite v) s = .next t ∧ t.ident = { s.ident with idField := v.setWidth 12, assigned := true, stored := false } ∧ t.nvw.setId = true) ∧
  (∀ (v : BitVec 32) (s : State), writeWaits s = false → s.pwr.ps ≠ .awake ∨ s.pwr.target ≠ none → exec (.idModuleWrite v) s = .next s) ∧
  (∀ s : State, bootCtlReg s / 2 ^ 30 % 2 = 0) ∧
  (∀ (v : BitVec 32) (s : State), hostUp s = true → writeWaits s = true →
    (v.getLsbD 30 = true → exec (.fwGo v) s = .next (s.modHi fun h => { h with heldWrites := h.heldWrites ++ [(0x108, le 4 v.toNat)] })) ∧
    (v.getLsbD 29 = false → exec (.combHoldRelease v) s = .next (s.modHi fun h => { h with heldWrites := h.heldWrites ++ [(0x108, le 4 v.toNat)] })) ∧
    exec (.idModuleWrite v) s = .next (s.modHi fun h => { h with heldWrites := h.heldWrites ++ [(0x8, le 4 v.toNat)] })) ∧
  (∀ (ns : Nat) (s : State), s.pwr.aon = true → s.pwr.holdUp = false → 10000 ≤ ns →
    ∃ t, exec (.forceCold ns) s = .next t ∧ t.boot.kind = 0 ∧ t.boot.starting = true ∧ t.boot.cause = (if s.boot.stage = 12 then 9 else 2) ∧
      t.boot.coldFails = (if s.boot.stage = 12 then 0 else s.boot.coldFails) ∧ t.boot.warmFails = s.boot.warmFails ∧ t.life.cal = s.life.cal) ∧
  (∀ (ns : Nat) (s : State), ns < 2000 → exec (.forceCold ns) s = .next s) ∧
  (∀ (p : Pkt) (s u : State), bodyState p 0x0106 [] s = some u →
    ∃ t, exec (.coldStart p) s = .next t ∧ t.boot.kind = 0 ∧ t.boot.starting = true ∧ t.boot.cause = (if u.boot.stage = 12 then 9 else 3) ∧ t.hi.held = []) ∧
  (∀ s : State, svOn s = true → s.boot.stage.toNat < 11 →
    exec .perstAssert s = .next { s with pins := { s.pins with perst := true }, hi := { s.hi with pcieUp := false }, boot := { s.boot with perstIntent := false } }) ∧
  (∀ s : State, svOn s = true → s.boot.stage = 11 → s.boot.perstWarm = false →
    ∃ t, exec .perstAssert s = .next t ∧ t.hi.ringEn = false ∧ t.hi.pcieUp = false ∧ t.job = s.job ∧ t.opt = s.opt ∧ t.pwr = s.pwr) ∧
  (∀ (us : Nat) (s : State), s.pins.perst = true → inAsleep s = true → 100 ≤ us → s.pwr.target = none →
    exec (.perstRelease us) s = .next { s with pins := { s.pins with perst := false }, pwr := { s.pwr with target := some .awake, stageMs := s.sc } }) ∧
  (∀ (us : Nat) (s : State), s.pins.perst = true → svOn s = true → s.boot.stage = 11 → s.boot.perstIntent = true →
    ∃ t, exec (.perstRelease us) s = .next t ∧ t.boot.kind = 1 ∧ t.boot.cause = 6 ∧ t.boot.perstWarm = false) ∧
  (∀ s : State, svOn s = true → s.pins.refclk = true →
    ∃ t, exec .refclkLost s = .next t ∧ t.pins.refclk = false ∧ t.pwr.intOsc = true ∧ t.hi.pcieUp = false ∧ t.pwr.ps = s.pwr.ps ∧ t.job = s.job ∧ t.tm = s.tm) ∧
  (∀ s : State, svOn s = true → s.pins.refclk = false → s.boot.starting = false → s.pins.perst = false → 4 ≤ s.boot.stage.toNat →
    ∃ t, exec .refclkReturn s = .next t ∧ t.pins.refclk = true ∧ t.pwr.intOsc = false ∧ t.hi.pcieUp = true) ∧
  (∀ s : State, svOn s = true → s.boot.stage = 11 → s.boot.perstWarm = true →
    exec .perstAssert s = .next { s with pins := { s.pins with perst := true }, hi := { s.hi with pcieUp := false }, boot := { s.boot with perstIntent := true } })

/-! ### Identity, measurement and attestation -/

/-- An SPDM request on the mailbox is answered when its code is that of its row: GET_VERSION offers version 1.2 only;
GET_CAPABILITIES, NEGOTIATE_ALGORITHMS, GET_DIGESTS and GET_CERTIFICATE answer without a signature; CHALLENGE and
GET_MEASUREMENTS with a signature use the identity key once; and any request of another code is answered UnsupportedRequest with
that code (R424, R425). Nothing else of the module changes.
The security opcodes: NONCE_GET makes a new nonce and returns it; ATTEST writes a signed report to the host buffer; CERT_READ
writes the chain; an operator key is installed at a free index and removed where it stands, each extending MR6; MR7_EXTEND
extends MR7 alone, and is refused 0x0302 while the log is full (R348, R419, R421, R423, R427, R429, R430). -/
def Obligations.AttestationAndSecurityOpcodes : Prop :=
  (∀ (req : Bytes) (s : State), spdmServed s = true → rb req 1 = 0x84 →
    exec (.getVersion req) s = .next { s with out := { chan := .spdm, port := 0, body := [0x10, 0x04, 0, 0, 0, 1, 0x00, 0x12] } :: s.out }) ∧
  (∀ (req : Bytes) (s : State), spdmServed s = true → rb req 1 = 0xE1 →
    ∃ b : Bytes, exec (.getCapabilities req) s = .next { s with out := { chan := .spdm, port := 0, body := [0x12, 0x61, 0, 0, 0, 15] ++ b } :: s.out } ∧ b.length = 14) ∧
  (∀ (req : Bytes) (s : State), spdmServed s = true → rb req 1 = 0xE3 →
    ∃ b : Bytes, exec (.negotiateAlgorithms req) s = .next { s with out := { chan := .spdm, port := 0, body := [0x12, 0x63] ++ b } :: s.out } ∧ b.length = 34) ∧
  (∀ (req : Bytes) (s : State), spdmServed s = true → rb req 1 = 0x81 →
    exec (.getDigests req) s = .next { s with out := { chan := .spdm, port := 0, body := [0x12, 0x01, 0, 1] ++ sha384 Config.certChain } :: s.out }) ∧
  (∀ (req : Bytes) (s : State), spdmServed s = true → rb req 1 = 0x82 → rb req 2 % 16 = 0 → rd req 4 2 ≤ Config.certChain.length →
    ∃ h : Bytes, exec (.getCertificate req) s = .next { s with
      out := { chan := .spdm, port := 0, body := [0x12, 0x02] ++ h ++ part Config.certChain (rd req 4 2) (rd req 6 2) } :: s.out } ∧ h.length = 6) ∧
  (∀ (req : Bytes) (s : State), spdmServed s = true → rb req 1 = 0x83 → s.sec.keyOk = true → rb req 2 % 16 = 0 →
    rb req 3 = 0 ∨ rb req 3 = 1 ∨ rb req 3 = 0xFF →
    ∃ (t : State) (b : Bytes), exec (.challenge req) s = .next t ∧ t.sec = { s.sec with signs := s.sec.signs + 1 } ∧
      t.out = { chan := .spdm, port := 0, body := [0x12, 0x03, 0, 1] ++ sha384 Config.certChain ++ b } :: s.out) ∧
  (∀ (req : Bytes) (s : State), spdmServed s = true → rb req 1 = 0xE0 → rb req 3 ≤ 8 ∨ rb req 3 = 0xFF →
    s.sec.keyOk = true ∨ rb req 2 % 2 = 0 →
    ∃ (t : State) (b : Bytes), exec (.getMeasurements req) s = .next t ∧
      t.sec = { s.sec with signs := s.sec.signs + rb req 2 % 2 } ∧ t.out = { chan := .spdm, port := 0, body := [0x12, 0x60] ++ b } :: s.out) ∧
  (∀ (req : Bytes) (s : State), spdmServed s = true → rb req 1 ∉ spdmCodes →
    exec (.spdmUnsupportedRequest req) s =
      .next { s with out := { chan := .spdm, port := 0, body := [0x12, 0x7F, 0x07] ++ le 1 (rb req 1) } :: s.out }) ∧
  (∀ (p : Pkt) (s u : State), bodyState p 0x0A01 [] s = some u →
    ∃ t, exec (.nonceGet p) s = .next t ∧ t.hi.nonce = some (freeVal 256 u) ∧ t.hi.nonceAt = u.sc ∧ t.sec = u.sec) ∧
  (∀ (p : Pkt) (nonce : BitVec 256) (mask : BitVec 8) (buf : Buf) (s u : State),
    bodyState p 0x0A02 (le 32 nonce.toNat ++ le 1 mask.toNat ++ buf.bytes) s = some u → u.sec.keyOk = true →
    ∃ t, exec (.attest p nonce mask buf) s = .next t ∧ t.sec = { u.sec with signs := u.sec.signs + 1 } ∧
      ((attestReport nonce mask u).length + 96 ≤ buf.len.toNat →
        t.out = { chan := .hostWrite, port := buf.addr.toNat, body := attestReport nonce mask u ++ le 96 (freeVal 768 u).toNat } :: u.out)) ∧
  (∀ (p : Pkt) (buf : Buf) (s u : State), bodyState p 0x0A03 buf.bytes s = some u → Config.certChain.length ≤ buf.len.toNat →
    ∃ t, exec (.certRead p buf) s = .next t ∧ t.out = { chan := .hostWrite, port := buf.addr.toNat, body := Config.certChain } :: u.out) ∧
  (∀ (p : Pkt) (index : BitVec 8) (key : BitVec 768) (s u : State), index.toNat ≤ 3 →
    bodyState p 0x0A04 (le 1 index.toNat ++ le 1 0 ++ le 96 key.toNat) s = some u → u.pwr.nvInhibit = false →
    onCurve (key.toNat % 2 ^ 384) (key.toNat / 2 ^ 384) = true → (u.sec.keys.find? fun e => decide (e.1 = index.toNat)) = none →
    ∃ t, exec (.operatorKeyInstall p index key) s = .next t ∧ t.sec.keys = tset 0 u.sec.keys index.toNat key) ∧
  (∀ (p : Pkt) (index : BitVec 8) (key : BitVec 768) (s u : State), index.toNat ≤ 3 →
    bodyState p 0x0A04 (le 1 index.toNat ++ le 1 1 ++ le 96 key.toNat) s = some u → u.pwr.nvInhibit = false →
    onCurve (key.toNat % 2 ^ 384) (key.toNat / 2 ^ 384) = true → (u.sec.keys.find? fun e => decide (e.1 = index.toNat)) ≠ none →
    ∃ t, exec (.operatorKeyRemove p index key) s = .next t ∧ t.sec.keys = u.sec.keys.filter fun e => decide (e.1 ≠ index.toNat)) ∧
  (∀ (p : Pkt) (d : BitVec 384) (s u : State), bodyState p 0x0A05 (digestBytes d) s = some u → u.sec.log.length < 1024 → twf 0 u.sec.mr = true →
    ∃ t, exec (.mr7Extend p d) s = .next t ∧
      tget 0 t.sec.mr 7 = digest (digestBytes (tget 0 u.sec.mr 7) ++ digestBytes d) ∧ (∀ r, r ≠ 7 → tget 0 t.sec.mr r = tget 0 u.sec.mr r)) ∧
  (∀ (p : Pkt) (d : BitVec 384) (s u : State), bodyState p 0x0A05 (digestBytes d) s = some u → 1024 ≤ u.sec.log.length →
    exec (.mr7Extend p d) s = .next (reply (p.ref 0x0A05) 0x0302 [] u))

/-! ### The Daybook and the lifetime records -/

/-- An event that reaches the Daybook outside a restart of SV, and that its code's bucket does not suppress, takes the next number;
below Asleep's bank and outside narrow mode it stands at the end of a ring that has room, with its code, source and payload
(R398, R401, R404, R405).
What happens to the Daybook outside packets: a waiting record reaches the mirror, or a write that fails twice puts the Daybook
into narrow mode, as does a queue that could not be written within 1 s; a checkpoint that is due is written; the records of the
oldest clear are erased; a bucket gains one token up to its burst; and the lifetime records are stored with the calendar (R402
to R404, R407, R409, R413). -/
def Obligations.DaybookNumbersStoresAndTokens : Prop :=
  (∀ (code src : Nat) (pl : Bytes) (s : State), s.db.svDown = false → suppressed code s.db = false → s.db.narrow = false → inAsleep s = false →
    s.db.ring.length < 16384 → s.pwr.nvInhibit = false →
    ∃ r : DbRec, (raise code src pl s).db.ring = s.db.ring ++ [r] ∧ r.code = BitVec.ofNat 16 code ∧ r.src = BitVec.ofNat 16 src ∧
      r.payload = pl.take 40 ∧ r.count = s.db.count ∧ r.era = s.db.era ∧ (raise code src pl s).db.count = s.db.count + 1) ∧
  (∀ (s : State) (r : DbRec) (rest : List DbRec), svOn s = true → s.pwr.nvInhibit = false → s.db.mirrorOut = false → s.db.mirrorQ = r :: rest →
    s.db.mirror.length < 32768 → twf 0 s.life.mramWr = true → tget 0 s.life.mramWr (Config.mramSector 2 (r.count.toNat % 32768)) ≠ 800000000000 →
    ∃ t, exec (.mirrorWrite true) s = .next t ∧ t.db.mirrorQ = rest ∧ t.db.mirror = s.db.mirror ++ [{ r with mirrored := true }]) ∧
  (∀ (s : State) (r : DbRec) (rest : List DbRec), svOn s = true → s.pwr.nvInhibit = false → s.db.mirrorOut = false → s.db.mirrorQ = r :: rest →
    (∃ t, exec (.mirrorWrite false) s = .next t ∧ t.db.narrow = true ∧ t.db.mirrorOut = true) ∧
    (∃ t, exec .mirrorQueueTimeout s = .next t ∧ t.db.narrow = true ∧ t.db.mirrorOut = true)) ∧
  (∀ s : State, svOn s = true → s.pwr.nvInhibit = false → s.nvw.ckpt = true →
    ∃ t, exec .checkpointWrite s = .next t ∧ t.nvw.ckpt = false ∧
      ckptNow t.db = { valid := true, era := s.db.era, count := s.db.count + 65536, closed := false }) ∧
  (∀ (s : State) (a b : Nat) (rest : List (Nat × Nat)), svOn s = true → s.pwr.nvInhibit = false → s.db.erase = (a, b) :: rest →
    ∃ t, exec .clearedRecordErase s = .next t ∧ t.db.erase = rest ∧ (∀ r ∈ t.db.mirror, ¬ (a ≤ r.seq ∧ r.seq ≤ b)) ∧
      (∀ r ∈ s.db.mirror, ¬ (a ≤ r.seq ∧ r.seq ≤ b) → r ∈ t.db.mirror)) ∧
  (∀ (code : BitVec 16) (s : State), s.pwr.aon = true →
    exec (.tokenRefill code) s = .next (s.modDb fun d =>
      { d with buckets := tmod {} d.buckets code.toNat fun b => { b with tokens := min (b.tokens + 1) b.burst } })) ∧
  (∀ s : State, svOn s = true → s.pwr.nvInhibit = false →
    ∃ t, exec .lifetimeStore s = .next t ∧ t.life.calStored = s.life.cal ∧ t.life.stores = s.life.stores + 1)

/-- The Daybook and calendar opcodes: DAYBOOK_READ writes one snapshot to the buffer and changes nothing of the stores; a clear
whose range is below `DR.NEXT` empties it from the ring and has the mirror's records erased, and one whose record cannot be stored
erases nothing and puts the Daybook into narrow mode; DAYBOOK_RATE_SET sets a code's burst and refill at once; LIFETIME_READ
writes 11,456 bytes; and the calendar is set and read (R402, R406, R407, R412, R413, R416). -/
def Obligations.DaybookAndCalendarOpcodes : Prop :=
  (∀ (p : Pkt) (store : BitVec 8) (first : BitVec 64) (count : BitVec 16) (buf : Buf) (s u : State), store.toNat ≤ 1 →
    bodyState p 0x0901 (le 1 store.toNat ++ le 8 first.toNat ++ le 2 count.toNat ++ buf.bytes) s = some u →
    ∃ t, exec (.daybookRead p store first count buf) s = .next t ∧ t.db = u.db ∧
      (64 + 64 * 65535 ≤ buf.len.toNat → (∀ r ∈ u.db.ring ++ u.db.mirror ++ u.db.bank, r.payload.length ≤ 40) →
        ∃ b : Bytes, t.out = { chan := .hostWrite, port := buf.addr.toNat, body := b } :: u.out ∧ b.length ≤ 64 + 64 * count.toNat)) ∧
  (∀ (p : Pkt) (first last : BitVec 64) (s u : State), bodyState p 0x0902 (le 8 first.toNat ++ le 8 last.toNat) s = some u →
    first.toNat ≤ last.toNat → last.toNat < dbNext u → u.db.narrow = false → u.pwr.nvInhibit = false →
    ∃ t, exec (.daybookClear p first ⟨last, true⟩) s = .next t ∧ (∀ r ∈ t.db.ring, ¬ (first.toNat ≤ r.seq ∧ r.seq ≤ last.toNat)) ∧
      (first.toNat, last.toNat) ∈ t.db.erase) ∧
  (∀ (p : Pkt) (first last : BitVec 64) (ok : Bool) (s u : State), bodyState p 0x0902 (le 8 first.toNat ++ le 8 last.toNat) s = some u →
    last.toNat < first.toNat ∨ dbNext u ≤ last.toNat →
    exec (.daybookClear p first ⟨last, ok⟩) s = .next (reply (p.ref 0x0902) 0x0105 [] u)) ∧
  (∀ (p : Pkt) (code : BitVec 16) (burst refill : BitVec 8) (s u : State), codeListed code.toNat = true → refill ≠ 0 →
    bodyState p 0x0903 (le 2 code.toNat ++ le 1 burst.toNat ++ le 1 refill.toNat) s = some u → u.pwr.nvInhibit = false →
    twf {} u.db.buckets = true →
    ∃ t, exec (.daybookRateSet p code burst refill) s = .next t ∧
      (tget {} t.db.buckets code.toNat).burst = burst.toNat ∧ (tget {} t.db.buckets code.toNat).refill = refill.toNat) ∧
  (∀ (p : Pkt) (buf : Buf) (s u : State), bodyState p 0x0B01 buf.bytes s = some u →
    (lifetimeBytes u).length = 11456 ∧
    (11456 ≤ buf.len.toNat → ∃ t, exec (.lifetimeRead p buf) s = .next t ∧
      t.out = { chan := .hostWrite, port := buf.addr.toNat, body := lifetimeBytes u } :: u.out ∧ t.life = u.life)) ∧
  (∀ (p : Pkt) (v : BitVec 64) (s u : State), bodyState p 0x0B02 (le 8 v.toNat) s = some u →
    ∃ t, exec (.calendarSet p v) s = .next t ∧ t.life.cal = v ∧ t.life.calNotSet = false) ∧
  (∀ (p : Pkt) (s u : State), bodyState p 0x0B03 [] s = some u →
    exec (.calendarRead p) s = .next (reply (p.ref 0x0B03) 0 (le 8 u.life.cal.toNat ++ le 1 (b2n u.life.calNotSet)) u)) ∧
  (∀ (p : Pkt) (first last : BitVec 64) (s u : State), bodyState p 0x0902 (le 8 first.toNat ++ le 8 last.toNat) s = some u →
    first.toNat ≤ last.toNat → last.toNat < dbNext u → u.db.narrow = false → u.pwr.nvInhibit = false →
    ∃ t, exec (.daybookClear p first ⟨last, false⟩) s = .next t ∧ t.db.erase = u.db.erase ∧ t.db.narrow = true)

/-! ### Power and starts -/

/-- The input voltage: power applied begins a cold start with cause 1 and both counters of failed starts at 0; POWER_FAIL and the
overvoltage that is handled as one lose the job, the optics and LPDDR and store the calendar; a recovery within the store time is
a cold start with cause 4 that keeps the counters, and a store that runs out takes the always-on domain's records with it (R356,
R374 to R376).
Sag, the write inhibit and what waits for it: the input below 36.0 V is SUPPLY_SAG and nothing else; below 35.0 V no MRAM write
starts; above 35.5 V the cap that waited is in MRAM; and a command that has waited 1 s is refused 0x0201 (R374, R377). -/
def Obligations.InputVoltageAndWriteInhibit : Prop :=
  (∀ (vin : BitVec 16) (s : State), s.pwr.aon = false → 340 < vin.toNat →
    ∃ t, exec (.powerApplied vin) s = .next t ∧ t.pwr.aon = true ∧ t.boot.kind = 0 ∧ t.boot.cause = 1 ∧ t.boot.coldFails = 0 ∧ t.boot.warmFails = 0 ∧
      t.boot.starting = true ∧ t.life.cal = s.life.calStored ∧ t.life.calNotSet = true ∧ t.job = {} ∧ t.opt = {} ∧ t.bells = {}) ∧
  (∀ (vin : BitVec 16) (s : State), s.pwr.aon = true → s.pwr.holdUp = false → vin.toNat < 330 →
    ∃ t, exec (.powerFail vin) s = .next t ∧ t.pwr.holdUp = true ∧ t.pwr.failCause = 1 ∧ t.pins.pwrGood = false ∧ t.job = {} ∧ t.opt = {} ∧
      t.mem.cells = [] ∧ t.life.calStored = s.life.cal ∧ t.boot.coldFails = s.boot.coldFails ∧ t.boot.warmFails = s.boot.warmFails) ∧
  (∀ (vin : BitVec 16) (s : State), s.pwr.aon = true → s.pwr.holdUp = false → 480 < vin.toNat →
    ∃ t, exec (.inputOvervoltage vin) s = .next t ∧ t.pwr.holdUp = true ∧ t.pwr.failCause = 2 ∧ t.job = {} ∧ t.opt = {} ∧ t.mem.cells = []) ∧
  (∀ (vin : BitVec 16) (s : State), s.pwr.aon = true → s.pwr.holdUp = true → 340 < vin.toNat →
    ∃ t, exec (.powerFailRecovery vin) s = .next t ∧ t.pwr.holdUp = false ∧ t.boot.kind = 0 ∧ t.boot.cause = 4 ∧
      t.boot.coldFails = s.boot.coldFails ∧ t.boot.warmFails = s.boot.warmFails ∧ t.boot.starting = true) ∧
  (∀ s : State, s.pwr.aon = true → s.pwr.holdUp = true →
    ∃ t, exec .alwaysOnStoreExpired s = .next t ∧ t.pwr.aon = false ∧ t.db.bank = [] ∧ t.db.ring = [] ∧ t.boot = {} ∧ t.db.mirror = s.db.mirror) ∧
  (∀ (vin : BitVec 16) (s : State), s.pwr.aon = true → s.pwr.holdUp = false → s.pwr.sag = false → vin.toNat < 360 →
    exec (.supplySag vin) s = .next (raise evSupplySag srcAon (le 2 vin.toNat)
      { s with pwr := { s.pwr with sag := true }, pins := { s.pins with vin := vin } })) ∧
  (∀ (vin : BitVec 16) (ms : Nat) (s : State), s.pwr.aon = true → s.pwr.holdUp = false → s.pwr.sag = true → 365 < vin.toNat →
    exec (.supplyRestored vin ms) s = .next (raise evSupplyRestored srcAon (le 2 vin.toNat ++ leSat 4 ms)
      { s with pwr := { s.pwr with sag := false }, pins := { s.pins with vin := vin } })) ∧
  (∀ (vin : BitVec 16) (s : State), s.pwr.aon = true → s.pwr.holdUp = false → s.pwr.nvInhibit = false → vin.toNat < 350 →
    ∃ t, exec (.nvWriteInhibitEnter vin) s = .next t ∧ t.pwr.nvInhibit = true ∧ t.pins.vin = vin ∧ t.pwr.ps = s.pwr.ps) ∧
  (∀ (vin : BitVec 16) (s : State), svOn s = true → s.pwr.nvInhibit = true → 355 < vin.toNat → s.nvw.cmds = [] →
    ∃ t, exec (.nvWriteInhibitExit vin) s = .next t ∧ t.pwr.nvInhibit = false ∧ t.nvw.setCap = false ∧ t.nvw.setPfx = false ∧ t.nvw.setId = false ∧
      (s.nvw.setCap = true → t.pwr.nvCapW = s.pwr.capW ∧ t.pwr.nvCapA = s.pwr.capA)) ∧
  (∀ (s : State) (c : PktRef × NvCmd) (rest : List (PktRef × NvCmd)), s.pwr.nvInhibit = true → s.nvw.cmds = c :: rest →
    exec .nvCommandWaitTimeout s = .next (reply c.1 0x0201 [] (s.modNvw fun n => { n with cmds := rest })))

/-- Firmware: an image whose fetch failed or whose lengths do not add up is refused with cause 2 or 1, back in stage 4, and no start
fails; with the enforcement fuse clear any other image runs and its signature state is reported; with the fuse burned an
unsigned one is refused with cause 3; firmware that runs serves every opcode and goes on with training; a fatal fault before
step 11 is a failed start with cause 5, and later stops the firmware, as a fetch that meets an uncorrectable code word does (R131, R361 to
R363, R369, R400). -/
def Obligations.FirmwareIsMeasuredAndRun : Prop :=
  (∀ (img : Bytes) (s : State), svOn s = true → s.boot.fetching = true → s.boot.stage = 4 →
    ∃ t, exec (.firmwareFetchDone false img) s = .next t ∧ t.boot = { s.boot with fwRefuse := 2, fetching := false }) ∧
  (∀ (img : Bytes) (s : State), svOn s = true → s.boot.fetching = true → s.boot.stage = 4 → imageFormatOk img s.boot.fwLen.toNat = false →
    ∃ t, exec (.firmwareFetchDone true img) s = .next t ∧ t.boot = { s.boot with fwRefuse := 1, fetching := false } ∧ t.sec = s.sec) ∧
  (∀ (img : Bytes) (s : State), svOn s = true → s.boot.fetching = true → s.boot.stage = 4 → imageFormatOk img s.boot.fwLen.toNat = true →
    s.sec.fuseRead = false → twf 0 s.sec.mr = true →
    ∃ t, exec (.firmwareFetchDone true img) s = .next t ∧
      t.boot = { s.boot with fwRefuse := 0, fetching := false, stage := 5, sig := BitVec.ofNat 2 (imageSig img) } ∧
      tget 0 t.sec.mr 1 = digest (digestBytes (tget 0 s.sec.mr 1) ++ digestBytes (digest (img.take (64 + rd img 4 4)))) ∧
      tget 0 t.sec.mr 2 = digest (digestBytes (tget 0 s.sec.mr 2) ++ digestBytes (digest (part img (64 + rd img 4 4) (rd img 8 4))))) ∧
  (∀ (img : Bytes) (s : State), svOn s = true → s.boot.fetching = true → s.boot.stage = 4 → imageFormatOk img s.boot.fwLen.toNat = true →
    s.sec.fuseRead = true → bit (rd img 12 4) 0 = false →
    ∃ t, exec (.firmwareFetchDone true img) s = .next t ∧ t.boot = { s.boot with fwRefuse := 3, fetching := false }) ∧
  (∀ s : State, svOn s = true → s.boot.stage = 5 → s.boot.kind ≠ 1 →
    ∃ t, exec .firmwareRunning s = .next t ∧ t.boot = { s.boot with fwRunning := true, stage := 6 } ∧ t.pins.pinsDriven = true) ∧
  (∀ (code : BitVec 8) (addr : BitVec 32) (s : State), fwUp s = true → s.boot.starting = true →
    ∃ t, exec (.firmwareFatal (.fatal code) addr) s = .next t ∧ t.boot.lastFail = 5 ∧ t.boot.starting = false ∧ t.boot.failedKind = some s.boot.kind) ∧
  (∀ (code : BitVec 8) (addr : BitVec 32) (s : State), fwUp s = true → s.boot.starting = false →
    ∃ t, exec (.firmwareFatal (.fatal code) addr) s = .next t ∧ t.boot = { s.boot with fwFatal := true }) ∧
  (∀ (addr : BitVec 32) (s : State), fwUp s = true →
    ∃ t, exec (.firmwareFatal .fetch addr) s = .next t ∧ t.boot = { s.boot with fwFatal := true })

/-- The last steps of a cold start: training ends with at most 16 channels held out, and fails the start with cause 4 with more; zero-fill
leaves no burst that is not zero; the combs but those of faceplate groups come up once no hold remains and the module has its
identifier, which takes effect; a designated root without a beacon locks to its own reference
with rank 0; and the lanes end the start in Lit with `COLD_FAILS` clear (R138, R170, R362, R364 to R366, R369). -/
def Obligations.ColdStartReachesLit : Prop :=
  (∀ (full failed : List Nat) (s : State), fwUp s = true → s.boot.starting = true → s.boot.stage = 6 → failed.length ≤ 16 →
    ∃ t, exec (.lpddrTrainingDone full failed) s = .next t ∧ t.boot.stage = 7 ∧ t.boot.starting = true ∧ t.mem.heldOut = failed ∧ t.mem.retired = s.mem.retired) ∧
  (∀ (full failed : List Nat) (s : State), fwUp s = true → s.boot.starting = true → s.boot.stage = 6 → 16 < failed.length →
    ∃ t, exec (.lpddrTrainingDone full failed) s = .next t ∧ t.boot.lastFail = 4 ∧ t.boot.starting = false) ∧
  (∀ s : State, fwUp s = true → s.boot.starting = true → s.boot.stage = 7 →
    ∃ t, exec .zeroFillDone s = .next t ∧ t.boot.stage = 8 ∧ t.mem.cells = []) ∧
  (∀ s : State, fwUp s = true → s.boot.starting = true → s.boot.stage = 8 → s.boot.combHold = false → s.ident.assigned = true →
    ∃ t, exec .combBringUp s = .next t ∧ t.boot.stage = 9 ∧ t.ident.active = s.ident.idField ∧ ∀ k, k < 5 → combSpared s k = false → (combOf t k).lit = true) ∧
  (∀ s : State, s.boot.starting = true → s.boot.combHold = true ∨ s.ident.assigned = false → exec .combBringUp s = .next s) ∧
  (∀ s : State, fwUp s = true → s.boot.starting = true → s.boot.stage = 9 → combsLit s = true → bestFreq s = none → s.tm.priority1.toNat < 128 →
    ∃ t, exec (.frequencyLockAcquired none) s = .next t ∧ t.boot.stage = 10 ∧ t.tm.rank = 0 ∧ t.tm.gm = true) ∧
  (∀ (fails : List Nat) (s : State), fwUp s = true → s.boot.starting = true → s.boot.stage = 10 → s.boot.kind = 0 →
    ∃ t, exec (.lanesUp fails) s = .next t ∧ t.boot.stage = 11 ∧ t.boot.starting = false ∧ t.boot.coldFails = 0 ∧ t.pwr.ps = .lit)

/-- Failed starts and warm starts: a step that exceeds its maximum fails the start with cause 1, or 3 where firmware does not report,
and the counter of its kind rises; the host's waits and the frequency lock have no limit; a self-test that fails before the firmware is
fetched fails the start with cause 2. A failed start is tried again with cause 7 while its counter is below three; the third failed warm start
is followed by a cold start with cause 8, the third failed cold start by safe mode. A warm start, refused while a job runs or a plan is
under way, keeps the loaded image, the combs, the Bells and the time of day, and, with nothing left to merge, the tile store and LPDDR; it
ends at stage 11 with the firmware running and its counter clear (R362, R367 to R370). -/
def Obligations.FailedStartsAndWarmStarts : Prop :=
  (∀ s : State, s.pwr.aon = true → s.pwr.holdUp = false → s.boot.starting = true → s.boot.stage ≠ 3 → s.boot.stage ≠ 9 →
    (s.boot.stage = 4 → s.boot.fetching = true) → (s.boot.stage = 8 → s.boot.combHold = false ∧ s.ident.assigned = true) →
    ∃ t, exec (.startStepTimeout false) s = .next t ∧ t.boot.lastFail = (if s.boot.stage = 5 then 3 else 1) ∧ t.boot.starting = false ∧
      t.boot.failedKind = some s.boot.kind ∧ t.boot.coldFails = (if s.boot.kind = 1 then s.boot.coldFails else addSat s.boot.coldFails 1) ∧
      t.boot.warmFails = (if s.boot.kind = 1 then addSat s.boot.warmFails 1 else s.boot.warmFails)) ∧
  (∀ s : State, s.pwr.aon = true → s.pwr.holdUp = false → s.boot.starting = true → s.boot.stage.toNat ≤ 4 → s.boot.fetching = false →
    ∃ t, exec (.startStepTimeout true) s = .next t ∧ t.boot.lastFail = 2 ∧ t.boot.starting = false ∧ t.boot.failedKind = some s.boot.kind) ∧
  (∀ s : State, s.pwr.aon = true → s.pwr.holdUp = false → s.boot.failedKind = some 0 → s.boot.coldFails.toNat < 3 →
    ∃ t, exec .startRetry s = .next t ∧ t.boot.kind = 0 ∧ t.boot.cause = 7 ∧ t.boot.starting = true ∧ t.boot.coldFails = s.boot.coldFails) ∧
  (∀ s : State, s.pwr.aon = true → s.pwr.holdUp = false → s.boot.failedKind = some 0 → 3 ≤ s.boot.coldFails.toNat → s.pins.refclk = true → s.pins.perst = false →
    ∃ t, exec .startRetry s = .next t ∧ t.boot.kind = 2 ∧ t.boot.stage = 12 ∧ t.boot.starting = false ∧ t.boot.fwRunning = false ∧ t.opt = {} ∧ t.job = {}) ∧
  (∀ s : State, s.pwr.aon = true → s.pwr.holdUp = false → s.boot.failedKind = some 1 → 3 ≤ s.boot.warmFails.toNat →
    ∃ t, exec .startRetry s = .next t ∧ t.boot.kind = 0 ∧ t.boot.cause = 8 ∧ t.boot.starting = true ∧ t.boot.warmFails = 0) ∧
  (∀ s : State, s.pwr.aon = true → s.pwr.holdUp = false → s.boot.failedKind = some 1 → s.boot.warmFails.toNat < 3 →
    ∃ t, exec .startRetry s = .next t ∧ t.boot.kind = 1 ∧ t.boot.cause = 7 ∧ t.boot.starting = true ∧ t.job.image = s.job.image) ∧
  (∀ (p : Pkt) (s u : State), bodyState p 0x0105 [] s = some u → u.job.st = .loaded ∨ u.job.st = .held ∨ u.job.st = .noJob ∨ u.job.st = .complete →
    u.sw.plan = none → u.sw.fbRun = none → u.boot.starting = false → u.pwr.target = none → u.pins.perst = false →
    ∃ t, exec (.warmStart p) s = .next t ∧ t.boot.kind = 1 ∧ t.boot.cause = 5 ∧ t.boot.stage = 4 ∧ t.boot.starting = true ∧ t.boot.fwRunning = false ∧
      t.mem.selfRef = true ∧ t.job.image = u.job.image ∧ t.opt.combs = u.opt.combs ∧ t.bells = u.bells ∧ t.tm = { u.tm with ppsCnt := 0 } ∧
      (u.mem.merge = [] → t.ts = u.ts ∧ t.mem.cells = u.mem.cells)) ∧
  (∀ (p : Pkt) (s u : State), bodyState p 0x0105 [] s = some u → u.job.st = .strict ∨ u.job.st = .loose ∨ u.job.st = .catchup ∨ u.sw.plan.isSome = true →
    exec (.warmStart p) s = .next (reply (p.ref 0x0105) 0x0201 [] u)) ∧
  (∀ s : State, svOn s = true → s.boot.stage = 5 → s.boot.kind = 1 →
    ∃ t, exec .firmwareRunning s = .next t ∧ t.boot.stage = 11 ∧ t.boot.starting = false ∧ t.boot.warmFails = 0 ∧ t.boot.fwRunning = true ∧
      t.db.svDown = false ∧ t.job.image = s.job.image) ∧
  (∀ s : State, s.boot.stage = 3 ∨ s.boot.stage = 9 ∨ (s.boot.stage = 4 ∧ s.boot.fetching = false) ∨
      (s.boot.stage = 8 ∧ (s.boot.combHold = true ∨ s.ident.assigned = false)) →
    exec (.startStepTimeout false) s = .next s)

/-- Power states: a request in the state it names is done at once, another begins a transition, with the packet waiting; Lit is refused without
an assigned identifier, and leaving Lit while an image is loaded. A step of a transition ends in its state: leaving Lit clears every crosspoint,
puts LPDDR in self-refresh and makes fabric time invalid, Lit from Awake ends both once the combs are locked, Asleep takes the
link down, Awake from Asleep brings it up and empties the last-gasp bank. The last step ends the transition, and its packet, or that of the
load or the unload, has its final reply. Only 0xA5 in Asleep wakes the module (R17, R128, R380, R381, R411, R438, R450). -/
def Obligations.PowerStateTransitions : Prop :=
  (∀ (p : Pkt) (s u : State), bodyState p 0x0104 [1] s = some u → u.boot.starting = false → u.pwr.target = none → u.pwr.ps = .awake →
    exec (.setPowerStateAwake p) s = .next (reply (p.ref 0x0104) 0 [1, 0, 0, 0, 0] u)) ∧
  (∀ (p : Pkt) (s u : State), bodyState p 0x0104 [1] s = some u → u.boot.starting = false → u.pwr.target = none → u.pwr.ps = .lit → leaveLitRefused u = false →
    ∃ t, exec (.setPowerStateAwake p) s = .next t ∧ t.pwr = { u.pwr with target := some .awake, targetPkt := some (p.ref 0x0104), stageMs := u.sc }) ∧
  (∀ (p : Pkt) (s u : State), bodyState p 0x0104 [1] s = some u → u.boot.starting = false → u.pwr.target = none → u.pwr.ps = .lit → imageLoaded u = true →
    exec (.setPowerStateAwake p) s = .next (reply (p.ref 0x0104) 0x0201 [] u)) ∧
  (∀ (p : Pkt) (s u : State), bodyState p 0x0104 [0] s = some u → u.boot.starting = false → u.pwr.target = none → u.pwr.ps = .awake →
    ∃ t, exec (.setPowerStateAsleep p) s = .next t ∧ t.pwr = { u.pwr with target := some .asleep, targetPkt := some (p.ref 0x0104), stageMs := u.sc }) ∧
  (∀ (p : Pkt) (s u : State), bodyState p 0x0104 [2] s = some u → u.boot.starting = false → u.pwr.target = none → u.pwr.ps = .awake → u.ident.assigned = true →
    ∃ t, exec (.setPowerStateLit p) s = .next t ∧ t.pwr = { u.pwr with target := some .lit, targetPkt := some (p.ref 0x0104), stageMs := u.sc }) ∧
  (∀ (p : Pkt) (s u : State), bodyState p 0x0104 [2] s = some u → u.boot.starting = false → u.pwr.target = none → u.pwr.ps = .awake → u.ident.assigned = false →
    exec (.setPowerStateLit p) s = .next (reply (p.ref 0x0104) 0x0201 [] u)) ∧
  (∀ (fails : List Nat) (s : State), s.pwr.aon = true → s.pwr.holdUp = false → s.pwr.target = some .awake → s.pwr.ps = .lit →
    ∃ t, exec (.powerStateReached fails) s = .next t ∧ t.pwr.ps = .awake ∧ t.pwr.target = none ∧ t.sw.xps = [] ∧ t.mem.selfRef = true ∧ t.tm.valid = false ∧
      (∀ ref, s.pwr.targetPkt = some ref → s.hi.ringEn = true → muted ref s = false →
        ({ ref := ref, status := 0, data := [1] ++ leSat 4 (msSince s s.pwr.stageMs) } : Reply) ∈ t.hi.replies)) ∧
  (∀ (fails : List Nat) (s : State), s.pwr.aon = true → s.pwr.holdUp = false → s.pwr.target = some .asleep → s.pwr.ps = .awake →
    ∃ t, exec (.powerStateReached fails) s = .next t ∧ t.pwr.ps = .asleep ∧ t.pwr.target = none ∧ t.hi.pcieUp = false ∧ t.pins.pwrGood = false) ∧
  (∀ (fails : List Nat) (s : State), s.pwr.aon = true → s.pwr.holdUp = false → s.pwr.target = some .running → s.pwr.ps = .lit →
    ∃ t, exec (.powerStateReached fails) s = .next t ∧ t.pwr.ps = .running ∧ t.pwr.target = none ∧
      (∀ ref i, s.job.loadPkt = some ref → s.job.image = some i → s.pwr.targetPkt = none → s.hi.ringEn = true → muted ref s = false →
        t.job.loadPkt = none ∧ ({ ref := ref, status := 0, data := le 16 i.digest.toNat } : Reply) ∈ t.hi.replies)) ∧
  (∀ s : State, s.pwr.aon = true → inAsleep s = true → s.pwr.target = none →
    exec (.bmWake 0xA5) s = .next { s with pwr := { s.pwr with target := some .awake, stageMs := s.sc } }) ∧
  (∀ (v : BitVec 8) (s : State), v ≠ 0xA5 ∨ s.pwr.ps ≠ .asleep → exec (.bmWake v) s = .next s) ∧
  (∀ (fails : List Nat) (s : State), s.pwr.aon = true → s.pwr.holdUp = false → s.pwr.target = some .asleep → s.pwr.ps = .lit →
    ∃ t, exec (.powerStateReached fails) s = .next t ∧ t.pwr.ps = .awake ∧ t.pwr.target = some .asleep ∧ t.pwr.targetPkt = s.pwr.targetPkt ∧
      t.sw.xps = [] ∧ t.mem.selfRef = true ∧ t.tm.valid = false) ∧
  (∀ (fails : List Nat) (s : State), s.pwr.aon = true → s.pwr.holdUp = false → s.pwr.target = some .lit → s.pwr.ps = .awake → combsLocked s = true →
    ∃ t, exec (.powerStateReached fails) s = .next t ∧ t.pwr.ps = .lit ∧ t.pwr.target = none ∧ t.mem.selfRef = false ∧ t.mem.idleRef = true ∧
      (∀ ref, s.pwr.targetPkt = some ref → s.hi.ringEn = true → muted ref s = false →
        ({ ref := ref, status := 0, data := [2] ++ leSat 4 (msSince s s.pwr.stageMs) } : Reply) ∈ t.hi.replies)) ∧
  (∀ (fails : List Nat) (s : State), s.pwr.aon = true → s.pwr.holdUp = false → s.pwr.target = some .lit → s.pwr.ps = .running →
    ∃ t, exec (.powerStateReached fails) s = .next t ∧ t.pwr.ps = .lit ∧ t.pwr.target = none ∧
      (∀ ref, s.job.unloadPkt = some ref → s.pwr.targetPkt = none → s.hi.ringEn = true → muted ref s = false →
        t.job.unloadPkt = none ∧ ({ ref := ref, status := 0, data := le 8 s.job.number.toNat } : Reply) ∈ t.hi.replies)) ∧
  (∀ (fails : List Nat) (s : State), s.pwr.aon = true → s.pwr.holdUp = false → s.pwr.target = some .awake → s.pwr.ps = .asleep →
    ∃ t, exec (.powerStateReached fails) s = .next t ∧ t.pwr.ps = .awake ∧ t.pwr.target = none ∧ t.pins.pwrGood = true ∧
      t.hi.pcieUp = (!s.pins.perst && s.pins.refclk) ∧ (s.db.narrow = false → t.db.bank = [])) ∧
  (∀ (fails : List Nat) (s : State), s.pwr.target = some .lit → s.pwr.ps = .awake → combsLocked s = false →
    exec (.powerStateReached fails) s = .next s)

/-- Limits: the issue throttle begins with its cause and ends; at a thermal trip THERMTRIP_N is asserted, the compute cores are off
and a loaded job is to enter HELD; both are released together; bit 0 of `BM_ALERT` is set again while it lasts; and the coolant
and photonic limits raise their records alone (R392 to R394, R438). -/
def Obligations.HardLimits : Prop :=
  (∀ (die : BitVec 8) (s : State), svOn s = true → s.pwr.throttle = false →
    (∃ t, exec (.issueThrottleStart true die) s = .next t ∧ t.pwr.throttle = true ∧ t.pwr.throttleWhy = 2) ∧
    ∃ t, exec (.issueThrottleStart false die) s = .next t ∧ t.pwr.throttle = true ∧ t.pwr.throttleWhy = 1 ∧ t.job = s.job) ∧
  (∀ s : State, svOn s = true → s.pwr.throttle = true → ∃ t, exec .issueThrottleEnd s = .next t ∧ t.pwr.throttle = false) ∧
  (∀ (unit : BitVec 8) (temp : Int) (s : State), litUp s = true →
    ∃ t, exec (.thermalTrip unit temp) s = .next t ∧ t.pins.thermtrip = true ∧ t.pwr.coreOff = true ∧ t.pwr.ps = s.pwr.ps ∧
      (s.job.st ≠ .noJob → t.job = { s.job with tripped := true })) ∧
  (∀ s : State, s.pwr.aon = true →
    exec .thermtripRelease s = .next { s with pins := { s.pins with thermtrip := false }, pwr := { s.pwr with coreOff := false } }) ∧
  (∀ s : State, s.pwr.aon = true → s.pins.thermtrip = true →
    exec .thermtripAlertRepeat s = .next { s with pins := { s.pins with alert := s.pins.alert ||| 1 } }) ∧
  (∀ (inlet outlet : BitVec 16) (s : State), svOn s = true → 400 ≤ inlet.toInt ∨ 620 ≤ outlet.toInt →
    exec (.coolantLimit inlet outlet) s = .next (raise evCoolantLimit srcSv (le 2 inlet.toNat ++ le 2 outlet.toNat)
      { s with pins := { s.pins with coolIn := inlet, coolOut := outlet } })) ∧
  (∀ (die : BitVec 8) (temp : Int) (s : State), litUp s = true → 850 < temp →
    exec (.photonicTempLimit die temp) s = .next (raise evPhotonicTempLimit srcSv (le 1 die.toNat ++ leInt 2 temp) s))

/-- The System opcodes: NOP only replies; IDENTIFY returns identifier, stepping B1, states and serial number; EXECUTE_LIST begins
its list; EXPERT_LATCH sets its mask, or clears every latch with 0 seconds; SET_POWER_CAP takes effect at once and reaches MRAM
unless writes are inhibited; and the module profile goes to the buffer (R44, R342, R349, R355, R387). -/
def Obligations.SystemOpcodes : Prop :=
  (∀ (p : Pkt) (s u : State), bodyState p 0x0100 [] s = some u → exec (.nop p) s = .next (reply (p.ref 0x0100) 0 [] u)) ∧
  (∀ (p : Pkt) (s u : State), bodyState p 0x0101 [] s = some u →
    exec (.identify p) s = .next (reply (p.ref 0x0101) 0 (le 2 u.ident.active.toNat ++ [0xB1] ++ le 1 (bmState u) ++ le 1 (jobCode u.job.st) ++
      [if u.sec.keys = [] then 0 else 1] ++ le 16 Config.serial.toNat) u)) ∧
  (∀ (p : Pkt) (addr : BitVec 64) (len : BitVec 32) (stop : BitVec 8) (data : Bytes) (s u : State),
    bodyState p 0x0102 (le 8 addr.toNat ++ le 4 len.toNat ++ le 1 stop.toNat) s = some u → 64 ≤ len.toNat → len.toNat ≤ 16777216 →
    len.toNat % 64 = 0 → addr.toNat % 64 = 0 → stop.toNat ≤ 1 → p.list = false → s.hi.lists = none → data.length = len.toNat →
    ∃ t l, exec (.executeList p addr len stop true data) s = .next t ∧ t.hi.lists = some l ∧ l.left = data ∧ l.taken = 0 ∧ l.ref = p.ref 0x0102) ∧
  (∀ (p : Pkt) (mask secs : BitVec 16) (s u : State), bodyState p 0x0103 (le 2 mask.toNat ++ le 2 secs.toNat) s = some u →
    mask.toNat < 4096 → mask.toNat % 2 = 0 → secs.toNat ≤ 3600 →
    ∃ t, exec (.expertLatch p mask secs) s = .next t ∧ t.hi.latchRemain = secs ∧ t.hi.latchGroups.toNat = (if secs = 0 then 0 else mask.toNat)) ∧
  (∀ (p : Pkt) (watts : BitVec 16) (amps : BitVec 8) (s u : State), bodyState p 0x0107 (le 2 watts.toNat ++ le 1 amps.toNat) s = some u →
    500 ≤ watts.toNat → watts.toNat ≤ 3400 → 20 ≤ amps.toNat → amps.toNat ≤ 100 →
    ∃ t, exec (.setPowerCap p watts amps) s = .next t ∧ t.pwr.capW = watts ∧ t.pwr.capA = amps ∧
      (u.pwr.nvInhibit = false → t.pwr.nvCapW = watts ∧ t.pwr.nvCapA = amps) ∧ (u.pwr.nvInhibit = true → t.pwr.nvCapW = u.pwr.nvCapW ∧ t.nvw.setCap = true)) ∧
  (∀ (p : Pkt) (watts : BitVec 16) (amps : BitVec 8) (s u : State), bodyState p 0x0107 (le 2 watts.toNat ++ le 1 amps.toNat) s = some u →
    watts.toNat < 500 ∨ 3400 < watts.toNat ∨ amps.toNat < 20 ∨ 100 < amps.toNat →
    exec (.setPowerCap p watts amps) s = .next (reply (p.ref 0x0107) 0x0105 [] u)) ∧
  (∀ (p : Pkt) (buf : Buf) (s u : State), bodyState p 0x0201 buf.bytes s = some u →
    ∃ t, exec (.moduleProfileRead p buf) s = .next t ∧
      ((profileBytes u).length ≤ buf.len.toNat → t.out = { chan := .hostWrite, port := buf.addr.toNat, body := profileBytes u } :: u.out) ∧
      (buf.len.toNat < (profileBytes u).length → t.out = u.out))

/-! ### Profiles and the job -/

/-- FABRIC_PROFILE_INSTALL, with no image loaded, puts a profile in force whose logical links are unambiguous and whose notice bound
is at most 1,900 µs: MR5 is extended with its digest and every fallback plan is disarmed; it is refused while an image is
loaded, for links that clash and for the bound; FABRIC_PROFILE_READ writes the image in force to the buffer (R46, R194, R214,
R324, R421). -/
def Obligations.FabricProfileInstallAndRead : Prop :=
  (∀ (p : Pkt) (addr : BitVec 64) (len : BitVec 32) (image : Bytes) (prof : FabProf) (s u : State),
    bodyState p 0x0202 (le 8 addr.toNat ++ le 4 len.toNat) s = some u →
    (imageLoaded u = true → exec (.fabricProfileInstall p addr len image prof) s = .next (reply (p.ref 0x0202) 0x0201 [] u)) ∧
    (imageLoaded u = false → keyClash (logLinksOf (moduleId u) prof) = true →
      exec (.fabricProfileInstall p addr len image prof) s = .next (reply (p.ref 0x0202) stProfileLinkKey [] u)) ∧
    (imageLoaded u = false → keyClash (logLinksOf (moduleId u) prof) = false → 1900000 < prof.noticeBoundNs →
      exec (.fabricProfileInstall p addr len image prof) s = .next (reply (p.ref 0x0202) stProfileNoticeBound [] u)) ∧
    (imageLoaded u = false → keyClash (logLinksOf (moduleId u) prof) = false → prof.noticeBoundNs ≤ 1900000 →
      twf 0 u.sec.mr = true → twf {} u.sw.fallbacks = true →
      ∃ t, exec (.fabricProfileInstall p addr len image prof) s = .next t ∧ t.prof.fab = some prof ∧ t.prof.fabImage = image.take len.toNat ∧
        t.prof.fabId = digest (image.take len.toNat) ∧ t.prof.logLinks = logLinksOf (moduleId u) prof ∧
        tget 0 t.sec.mr 5 = digest (digestBytes (tget 0 u.sec.mr 5) ++ digestBytes (digest (image.take len.toNat))) ∧
        (∀ k, (tget {} t.sw.fallbacks k).armed = false) ∧ t.job = u.job ∧ t.mem = u.mem ∧ t.opt.links = u.opt.links)) ∧
  (∀ (p : Pkt) (buf : Buf) (s u : State), bodyState p 0x0203 buf.bytes s = some u → u.prof.fabImage.length ≤ buf.len.toNat →
    ∃ t, exec (.fabricProfileRead p buf) s = .next t ∧ t.out = { chan := .hostWrite, port := buf.addr.toNat, body := u.prof.fabImage } :: u.out ∧
      t.prof = u.prof)

/-- JOB_LOAD of an image that passes every check: the job is LOADED with its number and seed, the interleave key is set, the tile
store is empty, every station is at its first word, and the module is to enter Running; an image that a check refuses leaves
everything but the Daybook and the reply as it was; JOB_UNLOAD leaves no job and is to bring the module to Lit, and is refused
while the job runs (R42, R69, R70, R114, R380). -/
def Obligations.JobLoadAndUnload : Prop :=
  (∀ (p : Pkt) (addr : BitVec 64) (len : BitVec 32) (number seed key : BitVec 64) (image : Bytes) (s u : State),
    bodyState p 0x0204 (le 8 addr.toNat ++ le 4 len.toNat ++ le 8 number.toNat ++ le 8 seed.toNat ++ le 8 key.toNat) s = some u →
    keyOk key.toNat = true → u.pwr.ps = .lit → u.pwr.target = none → u.boot.starting = false → imageLoaded u = false → u.pins.thermtrip = false →
    (loadCheck u (image.take len.toNat) = none →
      ∃ t, exec (.jobLoad p addr len number seed key image) s = .next t ∧
        t.job = { st := .loaded, number := number, seed := seed, loadPkt := some (p.ref 0x0204),
                  image := some { readImage (image.take len.toNat) with digest := digest (image.take len.toNat) } } ∧
        t.mem.ikey = key ∧ t.ts = {} ∧ t.stn.st = [] ∧ t.stn.outst = [] ∧ t.pwr.target = some .running) ∧
    (∀ st f, loadCheck u (image.take len.toNat) = some (st, f) →
      exec (.jobLoad p addr len number seed key image) s =
        .next (reply (p.ref 0x0204) st (le 2 f.stn ++ le 2 f.idx) (raise evLoadRefused srcSv (le 2 st ++ le 2 f.stn ++ le 2 f.idx) u)))) ∧
  (∀ (p : Pkt) (addr : BitVec 64) (len : BitVec 32) (number seed key : BitVec 64) (image : Bytes) (s u : State),
    bodyState p 0x0204 (le 8 addr.toNat ++ le 4 len.toNat ++ le 8 number.toNat ++ le 8 seed.toNat ++ le 8 key.toNat) s = some u →
    keyOk key.toNat = false ∨ (keyOk key.toNat = true ∧ u.pwr.ps = .awake) →
    exec (.jobLoad p addr len number seed key image) s = .next (reply (p.ref 0x0204) (if keyOk key.toNat = true then 0x0201 else 0x0105) [] u)) ∧
  (∀ (p : Pkt) (s u : State), bodyState p 0x0208 [] s = some u → u.job.st = .loaded ∨ u.job.st = .held ∨ u.job.st = .complete → u.pwr.target = none →
    ∃ t, exec (.jobUnload p) s = .next t ∧ t.job = { number := u.job.number, unloadPkt := some (p.ref 0x0208) } ∧ t.pwr.target = some .lit ∧
      t.mem.idleRef = true ∧ t.mem.merge = [] ∧ t.mem.deferred = [] ∧ t.strm.ctx = u.strm.ctx ∧ t.sync = u.sync) ∧
  (∀ (p : Pkt) (s u : State), bodyState p 0x0208 [] s = some u → u.job.st = .strict ∨ u.job.st = .loose ∨ u.job.st = .catchup ∨ u.job.st = .noJob →
    exec (.jobUnload p) s = .next (reply (p.ref 0x0208) 0x0201 [] u))

/-- JOB_START and JOB_HOLD: a start names T0 on a 50 ns boundary at least 1 ms ahead and is answered PENDING; a hold is accepted in
STRICT by Bell count or work period, in LOOSE by work period only, and in no state without a running job; one whose boundary has passed is
marked to be answered so, and in LOOSE it names the period that the stations have reached, and acts at once where every station has (R51, R70, R71).
JOB_RESUME of a job that is HELD, not for a trap or a thermal trip: a strict resume names a Bell instant of the running grid at
least 1 ms ahead and a W that is not below the started work period, and enters CATCHUP; a loose resume enters LOOSE; both
discard the credits of every forward (R61, R70, R222). -/
def Obligations.JobStartHoldAndResume : Prop :=
  (∀ (p : Pkt) (t0 : BitVec 64) (s u : State), u.job.st = .loaded → u.job.startReq = none → u.pwr.ps = .running → u.pwr.target = none → u.tm.valid = true →
    t0.toNat % 3200 = 0 → reached (u.tm.ft + 63999999) t0 = false →
    (bodyState p 0x0205 (le 8 t0.toNat ++ le 1 0) s = some u →
      exec (.jobStartStrict p t0) s = .next (replyPending (p.ref 0x0205) (u.modJob fun j => { j with t0 := t0, startReq := some (false, p.ref 0x0205) }))) ∧
    (bodyState p 0x0205 (le 8 t0.toNat ++ le 1 1) s = some u →
      exec (.jobStartLoose p t0) s = .next (replyPending (p.ref 0x0205) (u.modJob fun j => { j with t0 := t0, startReq := some (true, p.ref 0x0205) })))) ∧
  (∀ (p : Pkt) (t0 : BitVec 64) (s u : State), bodyState p 0x0205 (le 8 t0.toNat ++ le 1 0) s = some u → u.job.st = .loaded → u.job.startReq = none →
    u.pwr.ps = .running → u.pwr.target = none → u.tm.valid = true → t0.toNat % 3200 ≠ 0 ∨ reached (u.tm.ft + 63999999) t0 = true →
    exec (.jobStartStrict p t0) s = .next (reply (p.ref 0x0205) 0x0105 [] u)) ∧
  (∀ (p : Pkt) (v : BitVec 64) (s u : State), u.job.st = .strict →
    (bodyState p 0x0206 (le 1 0 ++ le 8 v.toNat) s = some u →
      exec (.jobHoldBell p v) s = .next (replyPending (p.ref 0x0206)
        (u.modJob fun j => { j with holds := j.holds ++ [(false, v.toNat, decide (v.toNat ≤ u.job.bell), p.ref 0x0206)] }))) ∧
    (bodyState p 0x0206 (le 1 1 ++ le 8 v.toNat) s = some u →
      exec (.jobHoldPeriod p v) s = .next (replyPending (p.ref 0x0206)
        (u.modJob fun j => { j with holds := j.holds ++ [(true, v.toNat, decide (v.toNat < u.job.wper), p.ref 0x0206)] })))) ∧
  (∀ (p : Pkt) (v : BitVec 64) (s u : State), u.job.st = .loose → bodyState p 0x0206 (le 1 0 ++ le 8 v.toNat) s = some u →
    exec (.jobHoldBell p v) s = .next (reply (p.ref 0x0206) 0x0201 [] u)) ∧
  (∀ (p : Pkt) (v : BitVec 64) (s u : State), u.job.st = .loaded ∨ u.job.st = .held ∨ u.job.st = .complete ∨ u.job.st = .noJob →
    bodyState p 0x0206 (le 1 1 ++ le 8 v.toNat) s = some u → exec (.jobHoldPeriod p v) s = .next (reply (p.ref 0x0206) 0x0201 [] u)) ∧
  (∀ (p : Pkt) (v : BitVec 64) (s u : State), u.job.st = .loose → bodyState p 0x0206 (le 1 1 ++ le 8 v.toNat) s = some u →
    exec (.jobHoldPeriod p v) s = .next (looseCheck (replyPending (p.ref 0x0206)
      (u.modJob fun j => { j with holds := j.holds ++ [(true, max v.toNat (maxPeriod u), decide (v.toNat < maxPeriod u), p.ref 0x0206)] })))) ∧
  (∀ (p : Pkt) (tr w : BitVec 64) (s u : State), bodyState p 0x0207 (le 1 0 ++ le 8 tr.toNat ++ le 8 w.toNat) s = some u →
    canResume u = true → u.tm.valid = true → (tr - u.job.tb).toNat % max 1 (periodLen u) = 0 → reached (u.tm.ft + 63999999) tr = false → u.job.wper ≤ w.toNat →
    ∃ t, exec (.jobResumeStrict p tr w) s = .next t ∧ t.job.st = .catchup ∧ t.job.resumeReq = some (tr, w.toNat) ∧ t.job.image = u.job.image ∧
      t.job.bell = u.job.bell ∧ t.job.tb = u.job.tb ∧ (∀ k, (tget {} t.strm.ctx k).credits = 0) ∧ (∀ k, (tget {} t.strm.fwd k).credits = 0)) ∧
  (∀ (p : Pkt) (tr w : BitVec 64) (s u : State), bodyState p 0x0207 (le 1 1 ++ le 8 tr.toNat ++ le 8 w.toNat) s = some u →
    canResume u = true → lastPeriod u = none → u.job.holds = [] →
    ∃ t, exec (.jobResumeLoose p tr w) s = .next t ∧ t.job.st = .loose ∧ t.job.resumeReq = none ∧ t.job.image = u.job.image ∧ t.job.bell = u.job.bell ∧
      (∀ k, (tget {} t.strm.ctx k).credits = 0) ∧ (∀ k, (tget {} t.strm.fwd k).credits = 0)) ∧
  (∀ (p : Pkt) (tr w : BitVec 64) (s u : State), canResume u = false →
    (bodyState p 0x0207 (le 1 0 ++ le 8 tr.toNat ++ le 8 w.toNat) s = some u →
      exec (.jobResumeStrict p tr w) s = .next (reply (p.ref 0x0207) 0x0201 [] u)) ∧
    (bodyState p 0x0207 (le 1 1 ++ le 8 tr.toNat ++ le 8 w.toNat) s = some u →
      exec (.jobResumeLoose p tr w) s = .next (reply (p.ref 0x0207) 0x0201 [] u))) ∧
  (∀ u : State, u.job.noResume = true ∨ u.job.tripped = true ∨ u.job.st ≠ .held → canResume u = false)

/-- The period Bell: at T0 the job enters STRICT or LOOSE with Bell count 0; every later Bell counts one and begins a period, which
is stretched while a request is open; a STRICT period whose stations have all completed is followed by the next, or by
COMPLETE after the last; a station that is behind, a trap, a late stretch notice or a thermal trip make it HELD, each with its
reason bit, after a trap for good; and in HELD the count goes on (R51, R60, R61, R63 to R65, R70, R394).
A stretch notice of the loaded job opens its sender's request at the Bell count it names, and one that names a count that has
come opens it at the next, with the job to be held; an unstretch notice closes the sender's open request at the count it names; and a
stretch notice of another job opens nothing (R64, R65, R226). -/
def Obligations.PeriodBellAndStretchNotices : Prop :=
  (∀ (pm px : Nat) (s : State) (loose : Bool) (ref : PktRef), litUp s = true → s.pwr.ps = .running → imageLoaded s = true → s.job.gridOn = false →
    s.job.startReq = some (loose, ref) → reached s.tm.ft s.job.t0 = true →
    ∃ t, exec (.periodBell pm px) s = .next t ∧ t.job.gridOn = true ∧ t.job.bell = 0 ∧ t.job.tb = s.job.t0 ∧ t.job.startReq = none ∧
      t.job.st = (if loose then .loose else .strict) ∧ (loose = false → t.job.wper = 0)) ∧
  (∀ (pm px : Nat) (s : State), litUp s = true → s.pwr.ps = .running → imageLoaded s = true → s.job.gridOn = true → reached s.tm.ft (bellDue s) = true →
    ∃ t, exec (.periodBell pm px) s = .next t ∧ t.job.bell = s.job.bell + 1 ∧ t.job.tb = bellDue s ∧ t.job.gridOn = true ∧
      t.job.stretched = (s.job.reqs.any fun r => r.open_ (s.job.bell + 1)) ∧
      (s.job.st = .held ∨ s.job.st = .complete → t.job.st = s.job.st ∧ t.job.wper = s.job.wper) ∧
      (s.job.st = .strict → behind s s.job.wper (ccOf s (bellDue s).toNat) = none → s.job.newTraps = [] → s.job.holds = [] →
        s.job.late = false → s.job.tripped = false →
        (lastPeriod s ≠ some s.job.wper → t.job.st = .strict ∧ t.job.wper = s.job.wper + 1) ∧ (lastPeriod s = some s.job.wper → t.job.st = .complete)) ∧
      (s.job.st = .strict → (behind s s.job.wper (ccOf s (bellDue s).toNat)).isSome = true →
        t.job.st = .held ∧ t.job.reasons.getLsbD 0 = true ∧ t.job.wper = s.job.wper) ∧
      (s.job.st = .strict → s.job.newTraps ≠ [] → t.job.st = .held ∧ t.job.reasons.getLsbD 1 = true ∧ t.job.noResume = true ∧ t.job.newTraps = []) ∧
      (s.job.st = .strict → s.job.late = true → t.job.st = .held ∧ t.job.reasons.getLsbD 3 = true) ∧
      (s.job.st = .strict → s.job.tripped = true → t.job.st = .held ∧ t.job.reasons.getLsbD 5 = true ∧ t.job.noResume = true) ∧
      (s.job.st = .loose → s.job.tripped = true → t.job.st = .held ∧ t.job.reasons = 32)) ∧
  (∀ (pm px : Nat) (s : State), reached s.tm.ft (bellDue s) = false → exec (.periodBell pm px) s = .next s) ∧
  (∀ (port : Nat) (b : Bytes) (s u : State), litUp s = true → (readNotice b).kind = 1 → takeNotice (readNotice b) port s = some (true, u) →
    imageLoaded u = true → (readNotice b).jobTag = jobTag u →
    (u.job.gridOn = false ∨ u.job.bell < rd (readNotice b).body 0 8 →
      exec (.stretchNotice port b) s = .next (u.modJob fun j => { j with
        reqs := j.reqs ++ [{ module := (readNotice b).src, first := rd (readNotice b).body 0 8, close := none }] })) ∧
    (u.job.gridOn = true → rd (readNotice b).body 0 8 ≤ u.job.bell →
      ∃ t, exec (.stretchNotice port b) s = .next t ∧ t.job.late = true ∧
        t.job.reqs = u.job.reqs ++ [{ module := (readNotice b).src, first := u.job.bell + 1, close := none }])) ∧
  (∀ (port : Nat) (b : Bytes) (s u : State), litUp s = true → (readNotice b).kind = 2 → takeNotice (readNotice b) port s = some (true, u) →
    imageLoaded u = true → (readNotice b).jobTag = jobTag u → u.job.gridOn = false ∨ u.job.bell < rd (readNotice b).body 0 8 →
    (u.job.reqs.any fun r => decide (r.module = (readNotice b).src) && r.close.isNone) = true →
    exec (.unstretchNotice port b) s = .next (u.modJob fun j => { j with
      reqs := j.reqs.map fun r => if r.module = (readNotice b).src ∧ r.close = none then { r with close := some (rd (readNotice b).body 0 8) } else r })) ∧
  (∀ (port : Nat) (b : Bytes) (s u : State), litUp s = true → (readNotice b).kind = 1 → takeNotice (readNotice b) port s = some (true, u) →
    imageLoaded u = true → (readNotice b).jobTag ≠ jobTag u →
    ∃ t, exec (.stretchNotice port b) s = .next t ∧ t.job = u.job)

/-! ### Sync objects, contexts and traps for the host -/

/-- SYNC_SIGNAL adds n and saturates, SYNC_READ reads an object's 64 bits, SYNC_RESET clears `SO.COUNT` and `SO.SAT` of a job that
is held or gone, SYNC_ARM arms a condition that is met at once or later; in all of them another object keeps its value (R37,
R38, R41).
JOB_STATUS returns state, reasons, stretch, Bell count and work period; TRAP_READ the record of a station that has stopped at a
trap, and 0x0201 for one that has not; CONTEXT_READ 64 bytes for each context of a range (R32, R61, R355). None of them changes
anything but the reply. -/
def Obligations.SyncAndJobReadOpcodes : Prop :=
  (∀ (p : Pkt) (obj n : BitVec 16) (s u : State), bodyState p 0x020B (le 2 obj.toNat ++ le 2 n.toNat) s = some u → litUp u = true → 1 ≤ n.toNat →
    ∃ t, exec (.syncSignal p obj n) s = .next t ∧
      (syncOf t obj).count.toNat = min ((syncOf u obj).count.toNat + n.toNat) 0xFFFFFFFF ∧
      (syncOf t obj).sat = ((syncOf u obj).sat || decide (0xFFFFFFFF < (syncOf u obj).count.toNat + n.toNat)) ∧
      (syncOf t obj).thresh = (syncOf u obj).thresh ∧
      (syncOf t obj).notify = ((syncOf u obj).notify && !decide ((syncOf u obj).thresh.toNat ≤ (syncOf t obj).count.toNat)) ∧
      (∀ o, o ≠ obj → syncOf t o = syncOf u o) ∧ t.strm = u.strm ∧ t.job = u.job) ∧
  (∀ (p : Pkt) (obj : BitVec 16) (s u : State), bodyState p 0x020D (le 2 obj.toNat) s = some u → litUp u = true →
    exec (.syncRead p obj) s = .next (reply (p.ref 0x020D) 0 (le 8 (syncOf u obj).bits) u)) ∧
  (∀ (p : Pkt) (obj : BitVec 16) (s u : State), bodyState p 0x020E (le 2 obj.toNat) s = some u → litUp u = true → twf {} u.sync = true →
    (u.job.st = .held ∨ u.job.st = .noJob →
      ∃ t, exec (.syncReset p obj) s = .next t ∧ syncOf t obj = { syncOf u obj with count := 0, sat := false } ∧ ∀ o, o ≠ obj → syncOf t o = syncOf u o) ∧
    (u.job.st = .strict ∨ u.job.st = .loose ∨ u.job.st = .loaded →
      exec (.syncReset p obj) s = .next (reply (p.ref 0x020E) 0x0201 [] u))) ∧
  (∀ (p : Pkt) (obj thresh : BitVec 16) (vec : BitVec 8) (s u : State), bodyState p 0x020C (le 2 obj.toNat ++ le 2 thresh.toNat ++ le 1 vec.toNat) s = some u →
    litUp u = true → vec.toNat < 64 → twf {} u.sync = true →
    ∃ t, exec (.syncArm p obj thresh vec) s = .next t ∧ (syncOf t obj).count = (syncOf u obj).count ∧ (syncOf t obj).thresh = thresh ∧
      (syncOf t obj).vector.toNat = vec.toNat ∧ (syncOf t obj).notify = decide ((syncOf u obj).count.toNat < thresh.toNat) ∧
      ∀ o, o ≠ obj → syncOf t o = syncOf u o) ∧
  (∀ (p : Pkt) (s u : State), bodyState p 0x0209 [] s = some u →
    exec (.jobStatus p) s = .next (reply (p.ref 0x0209) 0 (le 1 (jobCode u.job.st) ++ le 1 u.job.reasons.toNat ++ le 1 (b2n u.job.stretched) ++
      le 8 u.job.bell ++ le 8 u.job.wper) u)) ∧
  (∀ (p : Pkt) (stn : BitVec 16) (buf : Buf) (s u : State), bodyState p 0x020A (le 2 stn.toNat ++ buf.bytes) s = some u → stnValid stn = true →
    ((stnOf u stn).trap = none → exec (.trapRead p stn buf) s = .next (reply (p.ref 0x020A) 0x0201 [] u)) ∧
    (∀ r, (stnOf u stn).trap = some r → 40 ≤ buf.len.toNat →
      ∃ t, exec (.trapRead p stn buf) s = .next t ∧ t.out = { chan := .hostWrite, port := buf.addr.toNat, body := le 40 (trapBits r) } :: u.out ∧ t.stn = u.stn)) ∧
  (∀ (p : Pkt) (first count : BitVec 32) (buf : Buf) (s u : State), bodyState p 0x020F (le 4 first.toNat ++ le 4 count.toNat ++ buf.bytes) s = some u →
    litUp u = true → 1 ≤ count.toNat → first.toNat + count.toNat ≤ 2 ^ 20 →
    (buf.len.toNat < 64 * count.toNat → exec (.contextRead p first count buf) s = .next (reply (p.ref 0x020F) 0x0303 (le 4 (64 * count.toNat)) u)) ∧
    (64 * count.toNat ≤ buf.len.toNat →
      ∃ t b, exec (.contextRead p first count buf) s = .next t ∧ t.out = { chan := .hostWrite, port := buf.addr.toNat, body := b } :: u.out ∧ t.strm = u.strm ∧
        b.length = 64 * count.toNat ∧ ∀ k, k < count.toNat → part b (64 * k) 64 = le 64 (ctxOf u (BitVec.ofNat 20 (first.toNat + k))).bits))

/-! ### Bells -/

/-- BELL_SET checks index, validity of time, the 10 µs lead, the period and the other fields, in that order, and arms the Bell: at
once, or, where the Bell is armed with its next ring less than 10 µs away, after that ring; BELL_CANCEL leaves it idle in the same way, and
neither touches another Bell. A ring of an internal Bell applies its SIGNAL, a ring of a pin Bell makes its pulse, and either raises its
vector; it moves the Bell's time by the period and lowers a count that is not 0, until the last ring leaves it done; and a descriptor that
waits then comes into force (R249 to R253, R352). -/
def Obligations.BellsAreSetAndRing : Prop :=
  (∀ (p : Pkt) (index : BitVec 8) (d : BitVec 256) (s u : State), bodyState p 0x0506 (le 1 index.toNat ++ le 32 d.toNat) s = some u →
    (hostBell index.toNat = false → exec (.bellSet p index d) s = .next (reply (p.ref 0x0506) stBellReserved [] u)) ∧
    (hostBell index.toNat = true → u.tm.valid = false → exec (.bellSet p index d) s = .next (reply (p.ref 0x0506) stTimeNotValid [] u)) ∧
    (hostBell index.toNat = true → u.tm.valid = true → ringFar u (readBell d) = false →
      exec (.bellSet p index d) s = .next (reply (p.ref 0x0506) stBellTimePast [] u)) ∧
    (hostBell index.toNat = true → u.tm.valid = true → ringFar u (readBell d) = true → bellPeriodOk index.toNat (readBell d) = false →
      exec (.bellSet p index d) s = .next (reply (p.ref 0x0506) stBellPeriodInvalid [] u)) ∧
    (hostBell index.toNat = true → u.tm.valid = true → ringFar u (readBell d) = true → bellPeriodOk index.toNat (readBell d) = true →
      bellFieldsOk index.toNat d = true → (bellOf u index.toNat).st ≠ .armed ∨ ringFar u (bellOf u index.toNat) = true →
      ∃ t, exec (.bellSet p index d) s = .next t ∧ bellOf t index.toNat = readBell d ∧ (∀ k, k ≠ index.toNat → bellOf t k = bellOf u k) ∧
        (readBell d).st = .armed) ∧
    (hostBell index.toNat = true → u.tm.valid = true → ringFar u (readBell d) = true → bellPeriodOk index.toNat (readBell d) = true →
      bellFieldsOk index.toNat d = false → exec (.bellSet p index d) s = .next (reply (p.ref 0x0506) 0x0105 [] u)) ∧
    (hostBell index.toNat = true → u.tm.valid = true → ringFar u (readBell d) = true → bellPeriodOk index.toNat (readBell d) = true →
      bellFieldsOk index.toNat d = true → (bellOf u index.toNat).st = .armed → ringFar u (bellOf u index.toNat) = false →
      ∃ t, exec (.bellSet p index d) s = .next t ∧ t.bells.bells = u.bells.bells ∧ tget none t.bells.next index.toNat = some (readBell d))) ∧
  (∀ (p : Pkt) (index : BitVec 8) (s u : State), bodyState p 0x0507 (le 1 index.toNat) s = some u → hostBell index.toNat = true →
    twf {} u.bells.bells = true → (bellOf u index.toNat).st ≠ .armed ∨ ringFar u (bellOf u index.toNat) = true →
    ∃ t, exec (.bellCancel p index) s = .next t ∧ bellOf t index.toNat = { bellOf u index.toNat with st := .idle } ∧
      ∀ k, k ≠ index.toNat → bellOf t k = bellOf u k) ∧
  (∀ (i : Nat) (s : State), svOn s = true → 8 ≤ i → i < 64 → (bellOf s i).st = .armed → tget none s.bells.next i = none → twf {} s.bells.bells = true →
    ∃ t, exec (.internalBellRing i) s = .next t ∧ bellOf t i = (bellOf s i).rung ∧ (∀ k, k ≠ i → bellOf t k = bellOf s k) ∧
      ((bellOf s i).syncEn = true → litUp s = true → (bellOf s i).syncN ≠ 0 →
        (syncOf t (bellOf s i).syncObj).count.toNat = min ((syncOf s (bellOf s i).syncObj).count.toNat + (bellOf s i).syncN.toNat) 0xFFFFFFFF) ∧
      ((bellOf s i).irq = true → s.db.svDown = false → (tget {} s.hi.msix (bellOf s i).vector.toNat).ctl.getLsbD 0 = false →
        ({ chan := .msix, port := (bellOf s i).vector.toNat,
           body := le 8 (tget {} s.hi.msix (bellOf s i).vector.toNat).addr.toNat ++ le 4 (tget {} s.hi.msix (bellOf s i).vector.toNat).data.toNat } : Out) ∈ t.out)) ∧
  (∀ (i : Nat) (s : State), svOn s = true → i < 8 → (bellOf s (64 + i)).st = .armed → tget none s.bells.next (64 + i) = none → s.pins.pinsDriven = true →
    twf {} s.bells.bells = true →
    ∃ t, exec (.pinBellRing i) s = .next t ∧ bellOf t (64 + i) = (bellOf s (64 + i)).rung ∧ (∀ k, k ≠ 64 + i → bellOf t k = bellOf s k) ∧
      tget 0 t.pins.bellPulses i = tget 0 s.pins.bellPulses i + 1 ∧
      ({ chan := .pin, port := i, body := le 1 (b2n (bellOf s (64 + i)).pol) ++ le 4 (bellOf s (64 + i)).width.toNat } : Out) ∈ t.out ∧
      ((bellOf s (64 + i)).irq = true → s.db.svDown = false → (tget {} s.hi.msix (bellOf s (64 + i)).vector.toNat).ctl.getLsbD 0 = false →
        ({ chan := .msix, port := (bellOf s (64 + i)).vector.toNat,
           body := le 8 (tget {} s.hi.msix (bellOf s (64 + i)).vector.toNat).addr.toNat ++ le 4 (tget {} s.hi.msix (bellOf s (64 + i)).vector.toNat).data.toNat } : Out) ∈ t.out)) ∧
  (∀ b : Bell, (b.rung.st = .done ↔ (b.period = 0 ∨ b.count = 1)) ∧ b.rung.time = b.time + b.period.setWidth 64 ∧
    b.rung.count = (if b.count = 0 then 0 else b.count - 1)) ∧
  (∀ (i : Nat) (s : State) (b : Bell), svOn s = true → 8 ≤ i → i < 64 → (bellOf s i).st = .armed → tget none s.bells.next i = some b → twf {} s.bells.bells = true →
    twf none s.bells.next = true → ∃ t, exec (.internalBellRing i) s = .next t ∧ bellOf t i = b ∧ tget none t.bells.next i = none) ∧
  (∀ (i : Nat) (s : State) (b : Bell), svOn s = true → i < 8 → (bellOf s (64 + i)).st = .armed → tget none s.bells.next (64 + i) = some b → twf {} s.bells.bells = true →
    twf none s.bells.next = true → ∃ t, exec (.pinBellRing i) s = .next t ∧ bellOf t (64 + i) = b ∧ tget none t.bells.next (64 + i) = none) ∧
  (∀ (p : Pkt) (index : BitVec 8) (s u : State), bodyState p 0x0507 (le 1 index.toNat) s = some u → hostBell index.toNat = true →
    (bellOf u index.toNat).st = .armed → ringFar u (bellOf u index.toNat) = false →
    ∃ t, exec (.bellCancel p index) s = .next t ∧ t.bells.bells = u.bells.bells ∧
      tget none t.bells.next index.toNat = some { bellOf u index.toNat with st := .idle })

/-! ### Stations -/

/-- The sync words, NOP, RELEASE and PPHASE: each issues at its station when it is due, SIGNAL adds to its object and saturates,
SIGNAL_REMOTE reaches an object of this module or the remote signals of the link that starts the route, WAIT and TAKE hold until
the count has come, TAKE takes it in its turn among the stations, RELEASE moves the consumer's oldest unreleased tile on by one, and
PPHASE applies its phase (R29, R38, R39, R40, R55, R72, R228).
When words wait and when they trap: a command for a word of a program that is not at hand changes nothing, and so does one to a
station that has stopped at a trap; a word that touches an invalid stream context, or whose fetch meets an uncorrectable code word,
stops its station with the trap's record, which in STRICT leaves the job to the next Bell and in loose mode holds it at once; a word
of a Bell grid likewise. An issued word moves its own station on by one and no other; in STRICT an issue starts nothing more (R36,
R56, R61, R70, R131). -/
def Obligations.SyncWordsWaitsAndTraps : Prop :=
  (∀ (x : BitVec 16) (err : ReadErr) (s u : State) (e : Ew), err.ctlClean → gridWordAt 0x00 x s = none → stnKind x ≠ 7 → wordDue 0x00 x s = some (e, u) →
    exec (.stationNop x err) s = .next (progress x (issued x e u))) ∧
  (∀ (x : BitVec 16) (err : ReadErr) (s : State) (e : Ew), err.ctlClean → gridWordAt 0x00 x s = some e → exec (.stationNop x err) s = .next (gridIssued x s)) ∧
  (∀ (x : BitVec 16) (err : ReadErr) (s u : State) (e : Ew), err.ctlClean → wordDue 0x02 x s = some (e, u) →
    ∃ t, exec (.signal x err) s = .next (progress x t) ∧ (stnOf t x).pc = (stnOf u x).pc + 1 ∧
      (1 ≤ iwArg e.w 1 → (syncOf t (BitVec.ofNat 16 (iwArg e.w 0))).count.toNat =
        min ((syncOf u (BitVec.ofNat 16 (iwArg e.w 0))).count.toNat + iwArg e.w 1) 0xFFFFFFFF) ∧ t.strm = u.strm ∧ t.ts = u.ts ∧ t.mem = u.mem) ∧
  (∀ (x : BitVec 16) (err : ReadErr) (s u : State) (e : Ew), err.ctlClean → wordDue 0x03 x s = some (e, u) →
    ∃ t, exec (.signalRemote x err) s = .next (progress x t) ∧ (stnOf t x).pc = (stnOf u x).pc + 1 ∧
      (BitVec.ofNat 12 (iwArg e.w 0) = moduleId u → imageLoaded u = true → 1 ≤ iwArg e.w 2 →
        (syncOf t (BitVec.ofNat 16 (iwArg e.w 1))).count.toNat = min ((syncOf u (BitVec.ofNat 16 (iwArg e.w 1))).count.toNat + iwArg e.w 2) 0xFFFFFFFF) ∧
      (BitVec.ofNat 12 (iwArg e.w 0) ≠ moduleId u → t.sync = u.sync ∧
        ∀ l, routeLink u (BitVec.ofNat 12 (iwArg e.w 0)) = some l → t.net.rsOut = u.net.rsOut ++
          [(l.name, { module := BitVec.ofNat 12 (iwArg e.w 0), object := BitVec.ofNat 16 (iwArg e.w 1), n := BitVec.ofNat 16 (iwArg e.w 2) })])) ∧
  (∀ (x : BitVec 16) (err : ReadErr) (s u : State) (e : Ew), err.ctlClean → wordDue 0x04 x s = some (e, u) →
    exec (.wait x err) s = .next (if iwArg e.w 1 ≤ (syncOf u (BitVec.ofNat 16 (iwArg e.w 0))).count.toNat then progress x (issued x e u) else s)) ∧
  (∀ (x : BitVec 16) (err : ReadErr) (s u : State) (e : Ew), err.ctlClean → wordDue 0x05 x s = some (e, u) → twf {} u.sync = true →
    (iwArg e.w 1 ≤ (syncOf u (BitVec.ofNat 16 (iwArg e.w 0))).count.toNat → takeTurn x (BitVec.ofNat 16 (iwArg e.w 0)) u = true →
      ∃ t, exec (.take x err) s = .next (progress x t) ∧ (stnOf t x).pc = (stnOf u x).pc + 1 ∧
        (syncOf t (BitVec.ofNat 16 (iwArg e.w 0))).count.toNat = (syncOf u (BitVec.ofNat 16 (iwArg e.w 0))).count.toNat - iwArg e.w 1 ∧
        t.strm = u.strm ∧ t.ts = u.ts ∧ t.mem = u.mem) ∧
    ((syncOf u (BitVec.ofNat 16 (iwArg e.w 0))).count.toNat < iwArg e.w 1 ∨ takeTurn x (BitVec.ofNat 16 (iwArg e.w 0)) u = false →
      exec (.take x err) s = .next s)) ∧
  (∀ (x : BitVec 16) (err : ReadErr) (s u : State) (e : Ew) (k : Nat), err.ctlClean → wordDue 0x06 x s = some (e, u) → consBit x = some k →
    twf 0 u.strm.rel = true →
    (tileReady u (bindAt u x (iwArg e.w 0)).stream (relOf u (bindAt u x (iwArg e.w 0)).stream k) = true →
      ∃ t, exec (.release x err) s = .next (progress x t) ∧ (stnOf t x).pc = (stnOf u x).pc + 1 ∧
        relOf t (bindAt u x (iwArg e.w 0)).stream k = relOf u (bindAt u x (iwArg e.w 0)).stream k + 1 ∧ t.ts = u.ts ∧ t.mem = u.mem) ∧
    (tileReady u (bindAt u x (iwArg e.w 0)).stream (relOf u (bindAt u x (iwArg e.w 0)).stream k) = false → exec (.release x err) s = .next s)) ∧
  (∀ (x : BitVec 16) (err : ReadErr) (s : State) (e : Ew), err.ctlClean → gridWordAt 0x70 x s = some e →
    ∃ t, exec (.pphase x err) s = .next t ∧ tget 0 t.job.pphase (stnIndex x) = iwArg e.w 0 + 1 ∧
      tget 0 t.job.hkPc x.toNat = tget 0 s.job.hkPc x.toNat + 1 ∧ (stnKind x ≠ 4 → t.stn = s.stn)) ∧
  (∀ (q : Nat × (BitVec 16 → ReadErr → Instr)) (x : BitVec 16) (err : ReadErr) (s : State), q ∈ programWords →
    (wordAt q.1 x (advanceStn x s) = none → exec (q.2 x err) s = .next s) ∧
    ((stnOf s x).trap.isSome = true → exec (q.2 x err) s = .next s)) ∧
  (∀ (q : Nat × (BitVec 16 → ReadErr → Instr)) (x : BitVec 16) (err : ReadErr) (s : State) (e : Ew) (st : BitVec 20), q ∈ programWords →
    wordAt q.1 x (advanceStn x s) = some e → err.ctlClean → st ∈ wordStreams (advanceStn x s) x e.w → (ctxOf (advanceStn x s) st).state = .invalid →
    ∃ t r, exec (q.2 x err) s = .next t ∧ (stnOf t x).trap = some r ∧ r.cause = BitVec.ofNat 16 evStreamContextInvalid ∧ r.stn = x ∧
      r.index = BitVec.ofNat 16 e.idx ∧ (stnOf t x).pc = (stnOf (advanceStn x s) x).pc ∧
      (s.job.st = .strict → t.job.st = .strict ∧ t.job.newTraps = s.job.newTraps ++ [x]) ∧
      (looseMode s = true → t.job.st = .held ∧ t.job.noResume = true ∧ t.job.reasons = 2)) ∧
  (∀ (q : Nat × (BitVec 16 → ReadErr → Instr)) (x : BitVec 16) (err : ReadErr) (s : State) (e : Ew), q ∈ programWords →
    wordAt q.1 x (advanceStn x s) = some e → err.prog = [(x.toNat * 65536 + e.idx, .uncorrectable)] →
    ∃ t r, exec (q.2 x err) s = .next t ∧ (stnOf t x).trap = some r ∧ r.cause = BitVec.ofNat 16 evFetchUncorrectable ∧ r.stn = x ∧
      r.index = BitVec.ofNat 16 e.idx ∧ (stnOf t x).pc = (stnOf (advanceStn x s) x).pc ∧
      (s.job.st = .strict → t.job.st = .strict ∧ t.job.newTraps = s.job.newTraps ++ [x]) ∧
      (looseMode s = true → t.job.st = .held ∧ t.job.noResume = true ∧ t.job.reasons = 2)) ∧
  (∀ (x : BitVec 16) (e : Ew) (s : State), (stnOf (issued x e s) x).pc = (stnOf s x).pc + 1 ∧ (stnOf (issued x e s) x).last = nowCc s + 1 ∧
    (∀ y, y ≠ x → stnOf (issued x e s) y = stnOf s y) ∧ (issued x e s).job.st = s.job.st ∧ (issued x e s).stn.outst = s.stn.outst) ∧
  (∀ (x : BitVec 16) (s : State), s.job.st = .strict → progress x s = s) ∧
  (∀ (q : Nat × (BitVec 16 → ReadErr → Instr)) (x : BitVec 16) (err : ReadErr) (s : State) (e : Ew),
    q ∈ [(0x00, Instr.stationNop), (0x45, fun y d => .refab ⟨y, d⟩), (0x46, fun y d => .refpb ⟨y, d⟩), (0x70, .pphase)] →
    gridWordAt q.1 x s = some e → s.mem.selfRef = false → (stnOf s x).trap = none → err.prog = [(x.toNat * 65536 + e.idx, .uncorrectable)] →
    ∃ t r, exec (q.2 x err) s = .next t ∧ (stnOf t x).trap = some r ∧ r.cause = BitVec.ofNat 16 evFetchUncorrectable ∧ r.stn = x ∧
      t.job.hkPc = s.job.hkPc)

/-- MMA and ACC_FLUSH: a word without END leaves its window, opened by START and closed to START while it is open, with A × B and C
added; END and ACC_FLUSH put the output tile in flight and close the accumulator, an XS output where the window was placed for one; a
pair of formats that R85 does not allow, an accumulator in the other state, and an XS output of any other window are traps (R55, R85 to
R92). -/
def Obligations.MatrixWords : Prop :=
  (∀ (x : BitVec 16) (err : ReadErr) (s u v : State) (e : Ew) (a b : TileIn) (cs : List TileIn), err.ctlClean → wordDue 0x10 x s = some (e, u) →
    inputsReady x e u = true → outFree x e u = true → readTiles err x e (usesOf u x e.w) u = (none, a :: b :: cs, v) →
    (∀ p, pairOf a.shape.format b.shape.format = some p → bit (iwMod e.w) 0 = !(mxOf v x (iwArg e.w 4)).isOpen → bit (iwMod e.w) 1 = false →
      ∃ t, exec (.mma x err) s = .next (progress x t) ∧ (stnOf t x).pc = (stnOf v x).pc + 1 ∧
        mxOf t x (iwArg e.w 4) = addMx p a b cs.head?
          (if bit (iwMod e.w) 0 then openMx (isXs (iwArg e.w 5)) p a b cs.head? else mxOf v x (iwArg e.w 4)) ∧
        t.strm = v.strm ∧ t.ts = v.ts ∧ t.mem = v.mem) ∧
    (∀ p, pairOf a.shape.format b.shape.format = some p → bit (iwMod e.w) 0 = !(mxOf v x (iwArg e.w 4)).isOpen → bit (iwMod e.w) 1 = true →
      (isXs (bindAt v x (iwArg e.w 3)).shape.format = true →
        (if bit (iwMod e.w) 0 then isXs (iwArg e.w 5) else (mxOf v x (iwArg e.w 4)).xs) = true) → twf {} v.stn.mx = true →
      ∃ t, exec (.mma x err) s = .next (progress x t) ∧ (stnOf t x).pc = (stnOf v x).pc + 1 ∧ mxOf t x (iwArg e.w 4) = {} ∧
        outputAdded x (iwArg e.w 3) v t ∧ t.strm = v.strm ∧ t.mem.cells = v.mem.cells) ∧
    (pairOf a.shape.format b.shape.format = none →
      ∃ t r, exec (.mma x err) s = .next t ∧ (stnOf t x).trap = some r ∧ r.cause = BitVec.ofNat 16 evFormatPairInvalid ∧ t.stn.mx = v.stn.mx) ∧
    (∀ p, pairOf a.shape.format b.shape.format = some p → bit (iwMod e.w) 0 = (mxOf v x (iwArg e.w 4)).isOpen →
      ∃ t r, exec (.mma x err) s = .next t ∧ (stnOf t x).trap = some r ∧ r.cause = BitVec.ofNat 16 evAccState ∧ t.stn.mx = v.stn.mx)) ∧
  (∀ (x : BitVec 16) (err : ReadErr) (s u : State) (e : Ew), err.ctlClean → wordDue 0x11 x s = some (e, u) → outFree x e u = true →
    ((mxOf u x (iwArg e.w 0)).isOpen = true →
      (isXs (bindAt u x (iwArg e.w 1)).shape.format = true → (mxOf u x (iwArg e.w 0)).xs = true) → twf {} u.stn.mx = true →
      ∃ t, exec (.accFlush x err) s = .next (progress x t) ∧ (stnOf t x).pc = (stnOf u x).pc + 1 ∧ mxOf t x (iwArg e.w 0) = {} ∧
        outputAdded x (iwArg e.w 1) u t ∧ t.strm = u.strm ∧ t.mem.cells = u.mem.cells) ∧
    ((mxOf u x (iwArg e.w 0)).isOpen = false →
      ∃ t r, exec (.accFlush x err) s = .next t ∧ (stnOf t x).trap = some r ∧ r.cause = BitVec.ofNat 16 evAccState) ∧
    ((mxOf u x (iwArg e.w 0)).isOpen = true → isXs (bindAt u x (iwArg e.w 1)).shape.format = true → (mxOf u x (iwArg e.w 0)).xs = false →
      ∃ t r, exec (.accFlush x err) s = .next t ∧ (stnOf t x).trap = some r ∧ r.cause = BitVec.ofNat 16 evGridAbsent ∧ t.stn.mx = u.stn.mx))

/-- The vector words: with their tiles read and their output slot free, VEW, VRED, VCVT, VFUNC, VXPOSE, VGATHER and VSCATTER each put
one output tile in flight, whose elements are those of the word's rule, and issue; the tile lies in its slot under a header that
names its stream and number, its own binding goes on by one tile, and no stream, sync object, LPDDR byte or other byte of tile store
changes (R21, R25, R53, R93 to R96, R461 to R463). -/
def Obligations.VectorWords : Prop :=
  (∀ (x : BitVec 16) (err : ReadErr) (s u v : State) (e : Ew) (us : List InUse) (a : TileIn) (r : List TileIn), err.ctlClean →
    inputsReady x e u = true → outFree x e u = true → us = usesOf u x e.w → readTiles err x e us u = (none, a :: r, v) →
    (wordDue 0x20 x s = some (e, u) → iwArg e.w 0 ≠ 0x10 → exec (.vew x err) s = .next (progress x (vxDone x e (iwArg e.w 4) us
      (vxOut x e (iwArg e.w 4) (a :: r) ((bindAt v x (iwArg e.w 4)).shape.cells.map fun q =>
        toFp32 (vewOp (iwArg e.w 0) (toFp32 (a.at_ q.1 q.2)) (toFp32 ((r.headD a).at_ q.1 q.2)) (toFp32 (((r.drop 1).headD a).at_ q.1 q.2)))) v) v))) ∧
    (wordDue 0x20 x s = some (e, u) → iwArg e.w 0 = 0x10 → exec (.vew x err) s = .next (progress x (vxDone x e (iwArg e.w 4) us
      (xaddOut (bindAt v x (iwArg e.w 4)).shape a (r.headD a)) v))) ∧
    (wordDue 0x21 x s = some (e, u) → exec (.vred x err) s = .next (progress x (vxDone x e (iwArg e.w 2) us
      (vxOut x e (iwArg e.w 2) (a :: r) ((bindAt v x (iwArg e.w 2)).shape.cells.map fun q => vredLine (iwArg e.w 0)
        ((if iwArg e.w 3 = 0 then (List.range a.shape.cols).map fun c => (q.1, c) else (List.range a.shape.rows).map fun k => (k, q.2)).map
          fun p => toFp32 (a.at_ p.1 p.2))) v) v))) ∧
    (wordDue 0x22 x s = some (e, u) → exec (.vcvt x err) s = .next (progress x (vxDone x e (iwArg e.w 1) us
      (vxOut x e (iwArg e.w 1) (a :: r) ((bindAt v x (iwArg e.w 1)).shape.cells.map fun q => toFp32 (a.at_ q.1 q.2)) v) v))) ∧
    (∀ f, wordDue 0x26 x s = some (e, u) → vfOf (iwArg e.w 0) = some f → exec (.vfunc x err) s = .next (progress x (vxDone x e (iwArg e.w 2) us
      (vxOut x e (iwArg e.w 2) (a :: r) ((bindAt v x (iwArg e.w 2)).shape.cells.map fun q => vfunc f (toFp32 (a.at_ q.1 q.2))) v) v))) ∧
    (wordDue 0x23 x s = some (e, u) → exec (.vxpose x err) s = .next (progress x (vxDone x e (iwArg e.w 1) us
      (xposeOut (bindAt v x (iwArg e.w 1)).shape a) v))) ∧
    (∀ b r', r = b :: r' → wordDue 0x24 x s = some (e, u) → exec (.vgather x err) s = .next (progress x (vxDone x e (iwArg e.w 2) us
      (moveOut gatherMoves x e a b v) v))) ∧
    (∀ b r', r = b :: r' → wordDue 0x25 x s = some (e, u) → fmtMx (bindAt v x (iwArg e.w 2)).shape.format = true →
      exec (.vscatter x err) s = .next (progress x (vxDone x e (iwArg e.w 2) us (moveOut scatterMoves x e a b v) v))) ∧
    (∀ (b : TileIn) (r' : List TileIn) (to_ : Nat), r = b :: r' → wordDue 0x25 x s = some (e, u) → fmtMx (bindAt v x (iwArg e.w 2)).shape.format = false →
      (bindAt v x (iwArg e.w 2)).gridMode ≠ 2 → Memory.wf v.ts.cells = true → (v.ts.merge.map (·.key)).Nodup →
      to_ = slotAddr (bindAt v x (iwArg e.w 2)).stream (ctxOf v (bindAt v x (iwArg e.w 2)).stream) (nextOut v (bindAt v x (iwArg e.w 2)).stream) + 32 →
      ∃ t, exec (.vscatter x err) s = .next (progress x t) ∧ (stnOf t x).pc = (stnOf v x).pc + 1 ∧ outputAdded x (iwArg e.w 2) v t ∧
        t.strm = v.strm ∧ t.sync = v.sync ∧ t.mem.cells = v.mem.cells ∧
        (∀ i, i < (bindAt v x (iwArg e.w 2)).shape.plen → tsByte t (to_ + i) = (moveOut scatterMoves x e a b v).body.getD i 0) ∧
        (a.shape.count = (bindAt v x (iwArg e.w 2)).shape.count → a.shape.format = (bindAt v x (iwArg e.w 2)).shape.format →
          ∀ c, c + 32 < to_ ∨ to_ + (bindAt v x (iwArg e.w 2)).shape.plen ≤ c → tsByte t c = tsByte v c))) ∧
  (∀ (x : BitVec 16) (e : Ew) (bi : Nat) (us : List InUse) (o : TileOut) (v : State), Memory.wf v.ts.cells = true → (v.ts.merge.map (·.key)).Nodup →
    let t := vxDone x e bi us o v
    let a := slotAddr (bindAt v x bi).stream (ctxOf v (bindAt v x bi).stream) (nextOut v (bindAt v x bi).stream)
    outputAdded x bi v t ∧ (stnOf t x).pc = (stnOf v x).pc + 1 ∧ t.strm = v.strm ∧ t.mem.cells = v.mem.cells ∧ t.sync = v.sync ∧
    (∃ h : TileHdr, h.stream = (bindAt v x bi).stream ∧ h.tseq = nextOut v (bindAt v x bi).stream ∧ h.prodStn = x ∧ h.format = (bindAt v x bi).format ∧
      ∀ i, i < 32 → tsByte t (a + i) = h.bytes.getD i 0) ∧
    (∀ i, (bindAt v x bi).gridMode ≠ 2 → i < (bindAt v x bi).shape.plen → tsByte t (a + 32 + i) = o.body.getD i 0) ∧
    (∀ c, c < a ∨ a + 32 + (bindAt v x bi).shape.elemLen + (bindAt v x bi).shape.scaleLen ≤ c → tsByte t c = tsByte v c) ∧
    (∀ w, us = [w] → twf {} v.stn.bind = true → (posOf t x w.bind).inNext = w.tile + 1))

/-- The exact-sum words: SUM_OPEN opens an accumulation, SUM_ADD takes over the first tile's grids and adds each tile's elements on
them, SUM_CLOSE puts the sums in flight as one output tile and closes, and EXPMAX keeps the bytewise maximum in the station's
register, for whose output a SUM_OPEN that takes its grids there waits; an accumulation in the other state, a first tile without a grid,
another shape, and under MATCH another grid are traps (R99 to R104). -/
def Obligations.ExactSumWords : Prop :=
  (∀ (x : BitVec 16) (err : ReadErr) (s u : State) (e : Ew), err.ctlClean → wordDue 0x30 x s = some (e, u) → iwArg e.w 1 ≠ 2 ∨ expmaxDone x u = true →
    ((sxOf u x (iwArg e.w 0)).isOpen = false →
      ∃ t, exec (.sumOpen x err) s = .next (progress x t) ∧ (stnOf t x).pc = (stnOf u x).pc + 1 ∧ sxOf t x (iwArg e.w 0) =
        { isOpen := true, src := BitVec.ofNat 2 (iwArg e.w 1), perBlock := iwArg e.w 1 = 2 ∧ bit (iwMod e.w) 1, h40 := iwArg e.w 1 = 2 ∧ bit (iwMod e.w) 0,
          reg := if iwArg e.w 1 = 2 then expReg u x else [] }) ∧
    ((sxOf u x (iwArg e.w 0)).isOpen = true →
      ∃ t r, exec (.sumOpen x err) s = .next t ∧ (stnOf t x).trap = some r ∧ r.cause = BitVec.ofNat 16 evAccState)) ∧
  (∀ (x : BitVec 16) (err : ReadErr) (s u v : State) (e : Ew) (a : TileIn) (r : List TileIn), err.ctlClean → wordDue 0x31 x s = some (e, u) →
    inputsReady x e u = true → usesOf u x e.w ≠ [] → readTiles err x e (usesOf u x e.w) u = (none, a :: r, v) →
    (∀ mode g, (sxOf v x (iwArg e.w 0)).isOpen = true → (sxOf v x (iwArg e.w 0)).added = false → firstGrids (sxOf v x (iwArg e.w 0)) a = some (mode, g) →
      ∃ t, exec (.sumAdd x err) s = .next (progress x t) ∧ (stnOf t x).pc = (stnOf v x).pc + 1 ∧ t.ts = v.ts ∧ t.strm = v.strm ∧
        sxOf t x (iwArg e.w 0) = addSx { sxOf v x (iwArg e.w 0) with
          rows := a.shape.rows, cols := a.shape.cols, layout := BitVec.ofNat 2 a.shape.layout, place := BitVec.ofNat 2 (blockPlace a.shape),
          gridMode := BitVec.ofNat 2 mode, grids := g } a) ∧
    ((sxOf v x (iwArg e.w 0)).isOpen = true → (sxOf v x (iwArg e.w 0)).added = true →
      ((sxOf v x (iwArg e.w 0)).src = 1 → gridDiff (sxOf v x (iwArg e.w 0)) a = none) →
      a.shape.rows = (sxOf v x (iwArg e.w 0)).rows → a.shape.cols = (sxOf v x (iwArg e.w 0)).cols →
      ∃ t, exec (.sumAdd x err) s = .next (progress x t) ∧ (stnOf t x).pc = (stnOf v x).pc + 1 ∧
        sxOf t x (iwArg e.w 0) = addSx (sxOf v x (iwArg e.w 0)) a ∧ t.ts = v.ts ∧ t.strm = v.strm) ∧
    ((sxOf v x (iwArg e.w 0)).isOpen = false →
      ∃ t q, exec (.sumAdd x err) s = .next t ∧ (stnOf t x).trap = some q ∧ q.cause = BitVec.ofNat 16 evAccState) ∧
    ((sxOf v x (iwArg e.w 0)).isOpen = true → (sxOf v x (iwArg e.w 0)).added = false → firstGrids (sxOf v x (iwArg e.w 0)) a = none →
      ∃ t q, exec (.sumAdd x err) s = .next t ∧ (stnOf t x).trap = some q ∧ q.cause = BitVec.ofNat 16 evGridAbsent) ∧
    ((sxOf v x (iwArg e.w 0)).isOpen = true → (sxOf v x (iwArg e.w 0)).added = true →
      a.shape.rows ≠ (sxOf v x (iwArg e.w 0)).rows ∨ a.shape.cols ≠ (sxOf v x (iwArg e.w 0)).cols →
      ∃ t q, exec (.sumAdd x err) s = .next t ∧ (stnOf t x).trap = some q ∧ q.cause = BitVec.ofNat 16 evTileHeaderMismatch ∧ t.stn.sx = v.stn.sx) ∧
    (∀ d, (sxOf v x (iwArg e.w 0)).isOpen = true → (sxOf v x (iwArg e.w 0)).added = true → (sxOf v x (iwArg e.w 0)).src = 1 →
      a.shape.rows = (sxOf v x (iwArg e.w 0)).rows → a.shape.cols = (sxOf v x (iwArg e.w 0)).cols → gridDiff (sxOf v x (iwArg e.w 0)) a = some d →
      ∃ t q, exec (.sumAdd x err) s = .next t ∧ (stnOf t x).trap = some q ∧ q.cause = BitVec.ofNat 16 evGridMismatch ∧ t.stn.sx = v.stn.sx)) ∧
  (∀ (x : BitVec 16) (err : ReadErr) (s u : State) (e : Ew), err.ctlClean → wordDue 0x32 x s = some (e, u) → outFree x e u = true →
    ((sxOf u x (iwArg e.w 0)).isOpen = true → (sxOf u x (iwArg e.w 0)).added = true → twf {} u.stn.sx = true →
      ∃ t, exec (.sumClose x err) s = .next (progress x t) ∧ (stnOf t x).pc = (stnOf u x).pc + 1 ∧ sxOf t x (iwArg e.w 0) = {} ∧
        outputAdded x (iwArg e.w 1) u t ∧ t.strm = u.strm) ∧
    ((sxOf u x (iwArg e.w 0)).isOpen = false ∨ (sxOf u x (iwArg e.w 0)).added = false →
      ∃ t r, exec (.sumClose x err) s = .next t ∧ (stnOf t x).trap = some r ∧ r.cause = BitVec.ofNat 16 evAccState)) ∧
  (∀ (x : BitVec 16) (err : ReadErr) (s u v : State) (e : Ew) (a : TileIn) (r : List TileIn), err.ctlClean → wordDue 0x33 x s = some (e, u) →
    inputsReady x e u = true → outFree x e u = true → readTiles err x e (usesOf u x e.w) u = (none, a :: r, v) → twf [] v.stn.expmax = true →
    ∃ t, exec (.expmax x err) s = .next (progress x t) ∧ (stnOf t x).pc = (stnOf v x).pc + 1 ∧ outputAdded x (iwArg e.w 1) v t ∧
      expReg t x = maxBytes (if bit (iwMod e.w) 2 then zeros 2048 else expReg v x) (expBytes (iwMod e.w) a)) ∧
  (∀ (x : BitVec 16) (err : ReadErr) (s u : State) (e : Ew), err.ctlClean → wordDue 0x30 x s = some (e, u) → iwArg e.w 1 = 2 → expmaxDone x u = false →
    exec (.sumOpen x err) s = .next s)

/-- The memory words: ACT opens its row, unless an emergency refresh is due, which goes first while the word waits; PRE and PREA close
one bank or all; RDRUN puts the bytes that it reads at its place in the tile being built, which its first run puts in flight, and leaves
LPDDR as it was; WRRUN stores its bursts as code words, a poisoned tile as poisoned bursts, and no other burst; REFAB and REFPB of the
housekeeping track count a refresh as soon as timing allows one, and wait until then (R53, R55, R57, R66, R122, R124, R129). -/
def Obligations.MemoryWords : Prop :=
  (∀ (x : BitVec 16) (err : ReadErr) (s u : State) (e : Ew), err.ctlClean → wordDue 0x40 x s = some (e, u) → lpOk x e u = true →
    ((subOf u (chSub x e).1 (chSub x e).2).emDue = 0 →
      ∃ t, exec (.act x err) s = .next (progress x t) ∧ (stnOf t x).pc = (stnOf u x).pc + 1 ∧
        tget 0 (lpOf t x e).open_ e.actBank = e.actRow + 1 ∧ t.mem.cells = u.mem.cells) ∧
    (0 < (subOf u (chSub x e).1 (chSub x e).2).emDue →
      ∃ t, exec (.act x err) s = .next (progress x t) ∧ (stnOf t x).pc = (stnOf u x).pc ∧ (subOf t (chSub x e).1 (chSub x e).2).emDue = 0 ∧
        (subOf t (chSub x e).1 (chSub x e).2).refs = (subOf u (chSub x e).1 (chSub x e).2).refs + (subOf u (chSub x e).1 (chSub x e).2).emDue)) ∧
  (∀ (x : BitVec 16) (err : ReadErr) (s u : State) (e : Ew), err.ctlClean → lpOk x e u = true → twf {} u.mem.sub = true → twf 0 (lpOf u x e).open_ = true →
    (wordDue 0x43 x s = some (e, u) →
      ∃ t, exec (.pre x err) s = .next (progress x t) ∧ (stnOf t x).pc = (stnOf u x).pc + 1 ∧ tget 0 (lpOf t x e).open_ (iwArg e.w 2) = 0 ∧
        (∀ b, b ≠ iwArg e.w 2 → tget 0 (lpOf t x e).open_ b = tget 0 (lpOf u x e).open_ b) ∧ t.mem.cells = u.mem.cells) ∧
    (wordDue 0x44 x s = some (e, u) →
      ∃ t, exec (.prea x err) s = .next (progress x t) ∧ (stnOf t x).pc = (stnOf u x).pc + 1 ∧ (lpOf t x e).open_ = [] ∧ t.mem.cells = u.mem.cells)) ∧
  (∀ (x : BitVec 16) (err : ReadErr) (s u : State) (e : Ew), err.ctlClean → wordDue 0x41 x s = some (e, u) → lpOk x e u = true →
    iwArg e.w 6 ≠ 0 ∨ outFree x e u = true →
    ∃ t, exec (.rdrun x err) s = .next (progress x t) ∧ (stnOf t x).pc = (stnOf u x).pc + 1 ∧ t.mem.cells = u.mem.cells ∧ t.strm = u.strm ∧
      (iwArg e.w 6 = 0 → ∃ q : Outst, t.stn.outst.length = u.stn.outst.length + 1 ∧ q ∈ t.stn.outst ∧ q.stn = x ∧
        q.stream = (bindAt u x (iwArg e.w 5)).stream ∧ q.tseq = nextOut u (bindAt u x (iwArg e.w 5)).stream) ∧
      (∀ (p : BindPos) (n : BitVec 32) (b : Binding) (to_ : Nat), b = bindAt u x (iwArg e.w 5) → p = posOf (startBuild x e u) x (iwArg e.w 5) → p.building = some n →
        to_ = slotAddr b.stream (ctxOf u b.stream) n + 32 + 32 * iwArg e.w 6 → Memory.wf u.ts.cells = true → (u.ts.merge.map (·.key)).Nodup →
        ∀ i, i < 32 * iwArg e.w 4 → 32 * iwArg e.w 6 + i < b.shape.plen →
          tsByte t (to_ + i) = (readRun err x e { kind := 0, stn := x.toNat, index := e.idx, stream := some (b.stream.toNat, n.toNat) }
            (lpBefore (mmT u x) (lpOf u x e) (lpWord e)) p.zeroFrom (startBuild x e u)).1.getD i 0)) ∧
  (∀ (x : BitVec 16) (err : ReadErr) (s u v : State) (e : Ew) (a : TileIn) (r : List TileIn), err.ctlClean → wordDue 0x42 x s = some (e, u) →
    lpOk x e u = true → inputsReady x e u = true → readTiles err x e (usesOf u x e.w) u = (none, a :: r, v) → Memory.wf v.mem.cells = true →
    ∃ t, exec (.wrrun x err) s = .next (progress x t) ∧ (stnOf t x).pc = (stnOf v x).pc + 1 ∧ t.ts = v.ts ∧
      (∀ i, i < iwArg e.w 4 →
        rawBurst {} ((runCoord x e (lpBefore (mmT v x) (lpOf v x e) (lpWord e)) i).no v) t =
          (if a.flags &&& flPoison ≠ 0 then rsPoison (padTo 32 (part a.bytes (32 * (iwArg e.w 6 + i)) 32))
           else rsWord (padTo 32 (part a.bytes (32 * (iwArg e.w 6 + i)) 32)))) ∧
      (∀ c, (∀ i, i < iwArg e.w 4 → c / 36 ≠ (runCoord x e (lpBefore (mmT v x) (lpOf v x e) (lpWord e)) i).no v) →
        tget 0 t.mem.cells c = tget 0 v.mem.cells c)) ∧
  (∀ (x : BitVec 16) (err : ReadErr) (s : State) (e : Ew), err.ctlClean → s.mem.selfRef = false →
    ((lpEarliest (mmT s x) (lpCloseFor (mmT s x) (lpOf s x e) (nowCc s)) (lpWord e)).any (fun a => decide (a ≤ nowCc s)) = true →
      (gridWordAt 0x45 x s = some e → ∃ t, exec (.refab ⟨x, err⟩) s = .next t ∧
        (subOf t (chSub x e).1 (chSub x e).2).refs = (subOf s (chSub x e).1 (chSub x e).2).refs + 1 ∧
        tget 0 t.job.hkPc x.toNat = tget 0 s.job.hkPc x.toNat + 1 ∧ t.mem.cells = s.mem.cells) ∧
      (gridWordAt 0x46 x s = some e → ∃ t, exec (.refpb ⟨x, err⟩) s = .next t ∧
        (subOf t (chSub x e).1 (chSub x e).2).refs = (subOf s (chSub x e).1 (chSub x e).2).refs + 1 ∧
        tget 0 t.job.hkPc x.toNat = tget 0 s.job.hkPc x.toNat + 1 ∧ t.mem.cells = s.mem.cells)) ∧
    ((lpEarliest (mmT s x) (lpCloseFor (mmT s x) (lpOf s x e) (nowCc s)) (lpWord e)).any (fun a => decide (a ≤ nowCc s)) = false →
      (gridWordAt 0x45 x s = some e → ∃ t, exec (.refab ⟨x, err⟩) s = .next t ∧ t.job = s.job ∧
        (subOf t (chSub x e).1 (chSub x e).2).refs = (subOf s (chSub x e).1 (chSub x e).2).refs ∧ t.mem.cells = s.mem.cells) ∧
      (gridWordAt 0x46 x s = some e → ∃ t, exec (.refpb ⟨x, err⟩) s = .next t ∧ t.job = s.job ∧
        (subOf t (chSub x e).1 (chSub x e).2).refs = (subOf s (chSub x e).1 (chSub x e).2).refs ∧ t.mem.cells = s.mem.cells)))

/-- SEND, SUMPASS and the host's DMA: a SEND numbers the oldest unsent tile's cells after those before it and puts each in its place on the
link, where every lane that carries the place sends it, or an Ethernet port its frame; a SUMPASS takes the next number for the passing
tile; a tile whose header fails its check traps; H2D and D2H start a transfer on their channel, H2D with a tile in flight; and a transfer
that ends well frees its channel, D2H after its bytes have gone to the host (R27, R55, R57, R156, R172, R210, R211, R232). -/
def Obligations.TransportWords : Prop :=
  (∀ (x : BitVec 16) (err : ReadErr) (s u v : State) (e : Ew) (st : BitVec 20) (i : Nat) (n : BitVec 32) (h : TileHdr) (pay : Bytes), err.ctlClean →
    wordDue 0x50 x s = some (e, u) → fxReady u x (iwArg e.w 0) (iwArg e.w 1) = some (st, i, n) → slotTile err (wordSrc x e) st n u = (h, pay, v) →
    hdrCheck (bindAt v x (iwArg e.w 0)).shape h n = 0 →
    ∃ t, exec (.send x err) s = .next (progress x t) ∧ (stnOf t x).pc = (stnOf v x).pc + 1 ∧ (fwdOf t st i).nextTile = n + 1 ∧
      (fwdOf t st i).cseq = (fwdOf v st i).cseq + BitVec.ofNat 32 (cellCount h.plen.toNat) ∧ t.ts = v.ts ∧ t.mem = v.mem ∧
      ∀ l, ((ctxOf v st).fwd i).phys? v = some l →
        (nextPlaces l (tCellOf v) (cellCount h.plen.toNat) v).length = cellCount h.plen.toNat ∧
        ∃ l' os, ((ctxOf v st).fwd i).phys? t = some l' ∧ t.out = os ++ v.out ∧
          (l.ethernet = true → l'.queue = l.queue ∧ os.length = cellCount h.plen.toNat ∧ ∀ o ∈ os, o.chan = .frame ∧ o.port = portOfLink l) ∧
          (l.ethernet = false →
            l'.queue = l.queue ++ ((nextPlaces l (tCellOf v) (cellCount h.plen.toNat) v).zip (List.range (cellCount h.plen.toNat))).map (fun q =>
              { slot := slotBase v l + q.1.1, pos := q.1.2, body := part pay (1024 * q.2) 1024,
                hdr := cellHdr h ((ctxOf v st).fwd i).dstStream.toNat (fwdOf v st i).cseq q.2 (hopBits q.2 (cellCount h.plen.toNat) false (ctxOf v st).srcRemote) }) ∧
            ∀ c j, c ∈ l'.queue.drop l.queue.length → j ∈ carriers v l c.pos →
              { chan := .cell, port := linkKey l.fibre l.link.toNat, body := cellBytes (c.hdr + 2 ^ 202 * laneTag l.tag j) c.body } ∈ os)) ∧
  (∀ (x : BitVec 16) (err : ReadErr) (s u v : State) (e : Ew) (st : BitVec 20) (i : Nat) (n : BitVec 32) (h : TileHdr) (pay : Bytes), err.ctlClean →
    wordDue 0x51 x s = some (e, u) → fxReady u x (iwArg e.w 1) (iwArg e.w 2) = some (st, i, n) →
    (iwRel e.w = true → inputsReady x e u = true) → slotTile err (wordSrc x e) st n u = (h, pay, v) → hdrCheck (bindAt v x (iwArg e.w 1)).shape h n = 0 →
    ∃ t, exec (.sumpass x err) s = .next (progress x t) ∧ (stnOf t x).pc = (stnOf v x).pc + 1 ∧ (fwdOf t st i).nextTile = n + 1 ∧
      (fwdOf t st i).cseq = (fwdOf v st i).cseq + BitVec.ofNat 32 (cellCount h.plen.toNat)) ∧
  (∀ (x : BitVec 16) (err : ReadErr) (s u v : State) (e : Ew) (d : TileIn) (r : List TileIn), err.ctlClean → wordDue 0x60 x s = some (e, u) →
    inputsReady x e u = true → hxFree u x e = true → outFree x e u = true → readTiles err x e (usesOf u x e.w) u = (none, d :: r, v) →
    ∃ t q, exec (.h2d x err) s = .next (progress x t) ∧ (stnOf t x).pc = (stnOf v x).pc + 1 ∧ t.stn.outst = v.stn.outst ++ [q] ∧ q.stn = x ∧
      q.stream = (bindAt v x (iwArg e.w 2)).stream ∧ q.tseq = nextOut v q.stream ∧ q.left = 1 ∧
      (hxOf t (hxKey x (iwArg e.w 0))).busy = true ∧ (hxOf t (hxKey x (iwArg e.w 0))).toTile = true ∧
      (hxOf t (hxKey x (iwArg e.w 0))).host = Config.hxHost d.bytes ∧ (hxOf t (hxKey x (iwArg e.w 0))).tseq = q.tseq) ∧
  (∀ (x : BitVec 16) (err : ReadErr) (s u v : State) (e : Ew) (w : InUse) (ws : List InUse) (a d : TileIn) (r : List TileIn), err.ctlClean →
    wordDue 0x61 x s = some (e, u) → inputsReady x e u = true → hxFree u x e = true → usesOf u x e.w = w :: ws →
    readTiles err x e (w :: ws) u = (none, a :: d :: r, v) →
    ∃ t, exec (.d2h x err) s = .next (progress x t) ∧ (stnOf t x).pc = (stnOf v x).pc + 1 ∧
      (hxOf t (hxKey x (iwArg e.w 0))).busy = true ∧ (hxOf t (hxKey x (iwArg e.w 0))).toTile = false ∧
      (hxOf t (hxKey x (iwArg e.w 0))).stream = w.stream ∧ (hxOf t (hxKey x (iwArg e.w 0))).tseq = w.tile ∧
      (hxOf t (hxKey x (iwArg e.w 0))).host = Config.hxHost d.bytes) ∧
  (∀ (die ch : Nat) (data : Bytes) (ok : Bool) (err : ReadErr) (s : State), litUp s = true → die < 2 → ch < 16 → twf {} s.stn.hx = true →
    (hxOf s (hxKey (mkStn die 6 0) ch)).busy = true →
    ∃ t, exec (.hxTransferEnd die ch data ok err) s = .next (progress (mkStn die 6 0) t) ∧ (hxOf t (hxKey (mkStn die 6 0) ch)).busy = false ∧
      ((hxOf s (hxKey (mkStn die 6 0) ch)).toTile = true →
        (hxOf t (hxKey (mkStn die 6 0) ch)).halted = !(ok && !(hxOf s (hxKey (mkStn die 6 0) ch)).bad &&
          (hxOf s (hxKey (mkStn die 6 0) ch)).mpa.all fun m => mapped m.toNat (data.take (hxOf s (hxKey (mkStn die 6 0) ch)).len.toNat).length)) ∧
      (∀ c n, c = hxOf s (hxKey (mkStn die 6 0) ch) → c.toTile = false → c.mpa = none → c.bad = false → ok = true → err.sr = [] → s.ts.marks = [] →
        n = min c.len.toNat (readTileHdr (ofLe (tsPeek s (slotAddr c.stream (ctxOf s c.stream) c.tseq) 32))).plen.toNat → 0 < n →
        (hxOf t (hxKey (mkStn die 6 0) ch)).halted = false ∧
        t.out = { chan := .hostWrite, port := c.host.toNat, body := tsPeek s (slotAddr c.stream (ctxOf s c.stream) c.tseq + 32) n } :: s.out) ∧
      (∀ c m d v, c = hxOf s (hxKey (mkStn die 6 0) ch) → c.toTile = false → c.mpa = some m → c.bad = false → ok = true → mapped m.toNat c.len.toNat = true →
        mpaRead err (hxSrc (mkStn die 6 0) (hxKey (mkStn die 6 0) ch)) (some (hxKey (mkStn die 6 0) ch)) m.toNat c.len.toNat s = ({ data := d }, v) → d ≠ [] →
        (hxOf t (hxKey (mkStn die 6 0) ch)).halted = false ∧ t.out = { chan := .hostWrite, port := c.host.toNat, body := d } :: v.out)) ∧
  (∀ (x : BitVec 16) (err : ReadErr) (s u v : State) (e : Ew) (st : BitVec 20) (i : Nat) (n : BitVec 32) (h : TileHdr) (pay : Bytes), err.ctlClean →
    slotTile err (wordSrc x e) st n u = (h, pay, v) →
    (wordDue 0x50 x s = some (e, u) → fxReady u x (iwArg e.w 0) (iwArg e.w 1) = some (st, i, n) → hdrCheck (bindAt v x (iwArg e.w 0)).shape h n ≠ 0 →
      ∃ t r, exec (.send x err) s = .next t ∧ (stnOf t x).trap = some r ∧ r.cause = BitVec.ofNat 16 evTileHeaderMismatch ∧ t.out = v.out) ∧
    (wordDue 0x51 x s = some (e, u) → fxReady u x (iwArg e.w 1) (iwArg e.w 2) = some (st, i, n) → (iwRel e.w = true → inputsReady x e u = true) →
      hdrCheck (bindAt v x (iwArg e.w 1)).shape h n ≠ 0 →
      ∃ t r, exec (.sumpass x err) s = .next t ∧ (stnOf t x).trap = some r ∧ r.cause = BitVec.ofNat 16 evTileHeaderMismatch))

/-- Completion: OUTPUT_COMPLETE makes the next tile of its stream readable, in sequence, keeps its flags, signals the stream's sync
object, takes the word's output from those in flight and releases what the word releases; before the word's completion, or out of the
stream's sequence, it changes nothing; KIND1_FORWARD_DONE completes the copy in the destination's ring and moves the forward on (R21,
R29, R33, R38, R52, R57, R213). -/
def Obligations.TilesComplete : Prop :=
  (∀ (x : BitVec 16) (st : BitVec 20) (n : BitVec 32) (s : State) (o : Outst), litUp s = true → s.job.st = .strict ∨ looseMode s = true → stnKind x ≠ 6 →
    (s.stn.outst.find? fun q => decide (q.stn = x) && decide (q.stream = st) && decide (q.tseq = n)) = some o → o.doneCc ≤ nowCc s → o.left = 0 →
    (o.noTile = false → n = (ctxOf s st).tseqHead → (ctxOf s st).state ≠ .invalid →
      ∃ t, exec (.outputComplete x st n) s = .next (progress x t) ∧ (ctxOf t st).tseqHead = (ctxOf s st).tseqHead + 1 ∧
        (ctxOf t st).sticky = (ctxOf s st).sticky ||| o.sf ∧ t.stn.outst = dropFirst (fun q => decide (q = o)) s.stn.outst ∧
        ((ctxOf s st).syncEn = true →
          (syncOf t (ctxOf s st).syncId).count.toNat = min ((syncOf s (ctxOf s st).syncId).count.toNat + 1) 0xFFFFFFFF) ∧
        ((ctxOf s st).syncEn = false → t.sync = s.sync) ∧ t.ts = s.ts ∧ t.mem = s.mem ∧
        (∀ k st' n', o.rel = [(k, st', n')] → twf 0 s.strm.rel = true → relOf t st' k = if later (n' + 1) (relOf s st' k) then n' + 1 else relOf s st' k)) ∧
    (o.noTile = true →
      ∃ t, exec (.outputComplete x st n) s = .next (progress x t) ∧ t.stn.outst = dropFirst (fun q => decide (q = o)) s.stn.outst ∧
        (∀ y, (ctxOf t y).tseqHead = (ctxOf s y).tseqHead) ∧ t.sync = s.sync ∧ t.ts = s.ts ∧ t.mem = s.mem ∧
        (∀ k st' n', o.rel = [(k, st', n')] → twf 0 s.strm.rel = true → relOf t st' k = if later (n' + 1) (relOf s st' k) then n' + 1 else relOf s st' k)) ∧
    (o.noTile = false → n ≠ (ctxOf s st).tseqHead → exec (.outputComplete x st n) s = .next s)) ∧
  (∀ (x : BitVec 16) (st : BitVec 20) (n : BitVec 32) (s : State) (o : Outst),
    (s.stn.outst.find? fun q => decide (q.stn = x) && decide (q.stream = st) && decide (q.tseq = n)) = some o → nowCc s < o.doneCc →
    exec (.outputComplete x st n) s = .next s) ∧
  (∀ (st : BitVec 20) (i : Nat) (err : ReadErr) (s : State), litUp s = true → imageLoaded s = true → i < 2 → ((ctxOf s st).fwd i).kind = 1 →
    ((ctxOf s st).fwd i).dstStream ≠ st → tileReady s st (fwdOf s st i).doneTile = true → (ctxOf s ((ctxOf s st).fwd i).dstStream).state ≠ .invalid →
    slotFree s ((ctxOf s st).fwd i).dstStream (ctxOf s ((ctxOf s st).fwd i).dstStream).tseqHead = true → twf {} s.strm.fwd = true →
    ∃ t, exec (.kind1ForwardDone st i err) s = .next t ∧ (fwdOf t st i).doneTile = (fwdOf s st i).doneTile + 1 ∧
      (ctxOf t ((ctxOf s st).fwd i).dstStream).tseqHead = (ctxOf s ((ctxOf s st).fwd i).dstStream).tseqHead + 1 ∧
      (ctxOf t st).tseqHead = (ctxOf s st).tseqHead ∧ t.mem.cells = s.mem.cells)

/-- What happens to memory by itself: idle refresh of an MM, idle scrub, the background pass, package temperatures with their
emergency refreshes, merge entries that age, the host port, hot spots of a channel, and the windows of the Recess table (R67, R118,
R119, R126 to R130, R137, R287). -/
def Obligations.BackgroundMemory : Prop :=
  (∀ (die mm : Nat) (s : State), memUp s = true → s.mem.idleRef = true → die < 4 → mm < 16 →
    ∃ t, exec (.idleRefresh die mm) s = .next t ∧ t.mem.cells = s.mem.cells ∧
      (∀ q ∈ liveSubs s (16 * die + mm), (subOf t q.1 q.2).refs = (subOf s q.1 q.2).refs + 1) ∧
      ∀ q ∈ pkgSubs (16 * die + mm), q ∉ liveSubs s (16 * die + mm) → subOf t q.1 q.2 = subOf s q.1 q.2) ∧
  (∀ (die mm : Nat) (s : State), s.mem.idleRef = false → exec (.idleRefresh die mm) s = .next s) ∧
  (∀ (die mm : Nat) (err : ReadErr) (s : State), memUp s = true → imageLoaded s = false → die < 4 → mm < 16 →
    exec (.idleScrub die mm err) s = .next (scrubMm err (16 * die + mm) (lpCc (16 * die + mm) 160) 800 s)) ∧
  (∀ (err : ReadErr) (ch sub : Nat) (s : State), twf {} s.mem.sub = true →
    (subOf (scrubBlock err ch sub s) ch sub).scrub = ((subOf s ch sub).scrub + 1) % 100663296) ∧
  (∀ (s : State), litUp s = true → exec (.sramBackgroundPass {}) s = .next s) ∧
  (∀ (m : Nat) (k : SramKind) (s : State), litUp s = true → k = .correctable → s.db.svDown = false → suppressed evMemCorrected s.db = false → s.pwr.nvInhibit = false →
    ∃ t, exec (.sramBackgroundPass { ctx := [(m, k)] }) s = .next t ∧ t.db.count = s.db.count + 1 ∧ t.mem.corSince = 0 ∧ t.strm = s.strm ∧ t.sync = s.sync) ∧
  (∀ (pkg : Nat) (temp : Int) (s : State), memUp s = true → pkg < 64 → temp ≤ ceilTemp (ceilCode s) → twf {} s.mem.pkg = true →
    ∃ t, exec (.memTempReading pkg temp) s = .next t ∧ (pkgOf t pkg).temp = temp ∧ (pkgOf t pkg).hot = false ∧ t.mem.sub = s.mem.sub ∧ t.db = s.db) ∧
  (∀ (pkg : Nat) (temp : Int) (s : State), memUp s = true → pkg < 64 → ceilTemp (ceilCode s) < temp → (pkgOf s pkg).hot = false →
    ∃ t, exec (.memTempReading pkg temp) s = .next t ∧ (pkgOf t pkg).hot = true ∧ (pkgOf t pkg).temp = temp ∧
      (imageLoaded s = true → ∀ q ∈ liveSubs s pkg, (subOf t q.1 q.2).emDue = (subOf s q.1 q.2).emDue + 1) ∧
      (imageLoaded s = false → ∀ q ∈ liveSubs s pkg, (subOf t q.1 q.2).refs = (subOf s q.1 q.2).refs + 1)) ∧
  (∀ (pkg : Nat) (s : State), memUp s = true → pkg < 64 → (pkgOf s pkg).hot = true →
    (imageLoaded s = true → ∃ t, exec (.emergencyRefreshDue pkg) s = .next t ∧ (∀ q ∈ liveSubs s pkg, (subOf t q.1 q.2).emDue = (subOf s q.1 q.2).emDue + 1) ∧
      t.db = s.db) ∧
    (imageLoaded s = false → ∃ t, exec (.emergencyRefreshDue pkg) s = .next t ∧ ∀ q ∈ liveSubs s pkg, (subOf t q.1 q.2).refs = (subOf s q.1 q.2).refs + 1)) ∧
  (∀ (key : Nat) (err : ReadErr) (s : State) (m : MergeEnt), memUp s = true → mergeOf s.ts.merge key = some m → wordMark err s m.key = none →
    ∃ t, exec (.mergeEntryAged true key err) s = .next t ∧ t.ts.merge = mergeDrop s.ts.merge key ∧ (Memory.wf s.ts.cells = true →
      ∀ i, i < 8 → tget 0 t.ts.cells (8 * m.key + i) = if m.mask.getLsbD i then m.bytes.getD i 0 else tget 0 s.ts.cells (8 * m.key + i))) ∧
  (∀ (err : ReadErr) (s : State) (a : PortAcc), memUp s = true → portPick s [] s.hi.hostPort = some a → a.kind = 0 → a.len ≤ a.done + a.next s → writeWaits s = false →
    s.hi.heldWrites = [] →
    ∃ t o, exec (.hostPortAccess err) s = .next t ∧ t.hi.hostPort = dropFirst (fun y => decide (y = a)) s.hi.hostPort ∧ o ∈ t.out ∧
      (o.chan = .readReply ∨ o.chan = .readAbort) ∧ t.mem.cells = s.mem.cells) ∧
  (∀ (stn : BitVec 16) (chan src : Nat) (s : State), svOn s = true → src = (if stn = 0xFFFF then 32 else stnDie stn * 16 + chan) →
    4096 ≤ ((hotOf s src).map (·.2)).sum → 3 * ((hotOf s src).map (·.2)).sum < 4 * ((hotOf s src).foldl (fun m e => if m.2 < e.2 then e else m) (0, 0)).2 →
    tget 0 s.mem.hotAt src = 0 ∨ tget 0 s.mem.hotAt src + 4000000000 ≤ s.sc + 1 →
    s.db.svDown = false → suppressed evChannelHotspot s.db = false → s.pwr.nvInhibit = false →
    ∃ t, exec (.channelHotspot stn chan) s = .next t ∧ hotOf t src = [] ∧ t.db.count = s.db.count + 1 ∧ tget 0 t.mem.hotAt src = s.sc + 1) ∧
  (∀ (k : Nat) (eo stat : Int) (test : RunStats) (err : ReadErr) (s : State) (i : Image) (w : RecessWin), s.job.image = some i → i.recess[k]? = some w →
    litUp s = true → s.job.gridOn = true → s.job.stretched = true ∨ w.start < i.pcc →
    (w.kind = 1 → exec (.recessWindowStart k eo test stat err) s = .next (scrubMm err (mmPkg w.stn) (mmT s w.stn) w.len s)) ∧
    (w.kind = 3 → err.sr = [] → ∃ t, exec (.recessWindowStart k eo test stat err) s = .next t ∧ t.ts.cells = s.ts.cells ∧
      t.ts.marks = s.ts.marks.filter fun m => !decide ((m.1, SramKind.correctable) ∈ markedIn err s (w.die * 2 ^ 29) (2 ^ 29))) ∧
    (w.kind = 2 → s.cal.eoRun = none → test.failed false 0 = 0 → ∃ t, exec (.recessWindowStart k eo test stat err) s = .next t ∧ t.cal.eoRun = some eo ∧
      t.cal.eoNext = s.cal.eoNext)) ∧
  (∀ (stn : BitVec 16) (chan src : Nat) (s : State), svOn s = true → src = (if stn = 0xFFFF then 32 else stnDie stn * 16 + chan) →
    ((hotOf s src).map (·.2)).sum < 4096 ∨ 4 * ((hotOf s src).foldl (fun m e => if m.2 < e.2 then e else m) (0, 0)).2 ≤ 3 * ((hotOf s src).map (·.2)).sum →
    ∃ t, exec (.channelHotspot stn chan) s = .next t ∧ hotOf t src = [] ∧ t.db = s.db) ∧
  (∀ (key : Nat) (err : ReadErr) (s : State) (m : MergeEnt), memUp s = true → mergeOf s.mem.merge key = some m →
    (imageLoaded s = false → ∃ t, exec (.mergeEntryAged false key err) s = .next t ∧ t.mem.merge = mergeDrop s.mem.merge key ∧
      ∀ d, (rsDecode (subOf s (addressed s m.key).ch (addressed s m.key).sub).degraded (rawBurst err m.key s)).data = some d → Memory.wf s.mem.cells = true →
        rawBurst {} m.key t = rsWord (overlay m d)) ∧
    (imageLoaded s = true → ∃ t, exec (.mergeEntryAged false key err) s = .next t ∧ t.mem = s.mem ∧
      t.hi.hostPort = s.hi.hostPort ++ [{ kind := 4, mpa := key }])) ∧
  (∀ (err : ReadErr) (s : State), (portPick s [] s.hi.hostPort = none → exec (.hostPortAccess err) s = .next s) ∧
    ∀ a rest, s.hi.hostPort = a :: rest → a.room s = true → portPick s [] s.hi.hostPort = some a)

/-! ### Memory for the host -/

/-- MEM_READ answers the bytes of mapped addresses, to the host by DMA, and stops before a code word that cannot be used (0x0304);
MEM_WRITE and MEM_FILL write and answer the byte count; with an image loaded an access to LPDDR waits for its host ports; below Lit all of
them are refused 0x0201, for an address that is not mapped 0x0301, for a byte count out of range 0x0105; HX_RESTART ends the halt of its
channel alone (R112, R119, R131, R353, R355).
BAR2: its window and an offset name a module address; a read of LPDDR waits for the host port, and a write of it with an image
loaded; a read of tile store is answered at once, with Completer Abort where a code word cannot be used, and a write goes to memory at
once; neither passes a write of BAR2 that waits; an unmapped read is answered Unsupported Request and an unmapped write changes nothing; a
read that has waited too long aborts with BAR2_TIMEOUT (R112, R119, R131, R333). -/
def Obligations.MemoryOpcodesAndBar2 : Prop :=
  (∀ (p : Pkt) (mpa host : BitVec 64) (len : BitVec 32) (err : ReadErr) (s u : State),
    bodyState p 0x0301 (le 8 mpa.toNat ++ le 4 len.toNat ++ le 8 host.toNat) s = some u →
    (memLenOk len = false → exec (.memRead p mpa len host err) s = .next (reply (p.ref 0x0301) 0x0105 [] u)) ∧
    (memLenOk len = true → memUp u = false → exec (.memRead p mpa len host err) s = .next (reply (p.ref 0x0301) 0x0201 [] u)) ∧
    (memLenOk len = true → memUp u = true → mapped mpa.toNat len.toNat = false →
      exec (.memRead p mpa len host err) s = .next (reply (p.ref 0x0301) 0x0301 [] u)) ∧
    (memLenOk len = true → memUp u = true → mapped mpa.toNat len.toNat = true → imageLoaded u = false ∨ 0x60000000000 ≤ mpa.toNat →
      ∃ (d : Bytes) (bad : Bool) (v : State), mpaRead err { kind := 1 } none mpa.toNat len.toNat u = (⟨d, bad⟩, v) ∧ d.length ≤ len.toNat ∧
        exec (.memRead p mpa len host err) s =
          .next (reply (p.ref 0x0301) (if bad then 0x0304 else 0) (le 4 d.length) (emit .hostWrite host.toNat d v))) ∧
    (memLenOk len = true → memUp u = true → mapped mpa.toNat len.toNat = true → imageLoaded u = true → mpa.toNat < 0x60000000000 →
      exec (.memRead p mpa len host err) s = .next (u.modHi fun h =>
        { h with hostPort := h.hostPort ++ [{ kind := 2, mpa := mpa.toNat, len := len.toNat, ref := p.ref 0x0301, host := host.toNat }] }))) ∧
  (∀ (p : Pkt) (mpa host : BitVec 64) (len : BitVec 32) (data : Bytes) (s u : State),
    bodyState p 0x0302 (le 8 mpa.toNat ++ le 4 len.toNat ++ le 8 host.toNat) s = some u →
    (memLenOk len = true → memUp u = false → exec (.memWrite p mpa len host data) s = .next (reply (p.ref 0x0302) 0x0201 [] u)) ∧
    (memLenOk len = true → memUp u = true → mapped mpa.toNat len.toNat = false →
      exec (.memWrite p mpa len host data) s = .next (reply (p.ref 0x0302) 0x0301 [] u)) ∧
    (memLenOk len = true → memUp u = true → mapped mpa.toNat len.toNat = true → imageLoaded u = false ∨ 0x60000000000 ≤ mpa.toNat →
      exec (.memWrite p mpa len host data) s =
        .next (reply (p.ref 0x0302) 0 (le 4 len.toNat) (mpaWrite {} { kind := 1 } none mpa.toNat (padTo len.toNat data) u))) ∧
    (memLenOk len = true → memUp u = true → mapped mpa.toNat len.toNat = true → imageLoaded u = true → mpa.toNat < 0x60000000000 →
      exec (.memWrite p mpa len host data) s = .next (u.modHi fun h =>
        { h with hostPort := h.hostPort ++ [{ kind := 3, mpa := mpa.toNat, len := len.toNat, data := padTo len.toNat data, ref := p.ref 0x0302 }] })) ∧
    (memLenOk len = false → exec (.memWrite p mpa len host data) s = .next (reply (p.ref 0x0302) 0x0105 [] u))) ∧
  (∀ (p : Pkt) (mpa len pattern : BitVec 64) (s u : State),
    bodyState p 0x0303 (le 8 mpa.toNat ++ le 8 len.toNat ++ le 8 pattern.toNat) s = some u →
    (len = 0 → exec (.memFill p mpa len pattern) s = .next (reply (p.ref 0x0303) 0x0105 [] u)) ∧
    (len ≠ 0 → memUp u = true → mapped mpa.toNat len.toNat = false → exec (.memFill p mpa len pattern) s = .next (reply (p.ref 0x0303) 0x0301 [] u)) ∧
    (len ≠ 0 → memUp u = true → mapped mpa.toNat len.toNat = true → imageLoaded u = false ∨ 0x60000000000 ≤ mpa.toNat →
      exec (.memFill p mpa len pattern) s = .next (reply (p.ref 0x0303) 0 (le 8 len.toNat)
        (mpaWrite {} { kind := 1 } none mpa.toNat ((List.range len.toNat).map fun i => (le 8 pattern.toNat).getD (i % 8) 0) u))) ∧
    (len ≠ 0 → memUp u = true → mapped mpa.toNat len.toNat = true → imageLoaded u = true → mpa.toNat < 0x60000000000 →
      exec (.memFill p mpa len pattern) s = .next (u.modHi fun h =>
        { h with hostPort := h.hostPort ++ [{ kind := 3, mpa := mpa.toNat, len := len.toNat, data := le 8 pattern.toNat, ref := p.ref 0x0303, wide := true }] })) ∧
    (len ≠ 0 → memUp u = false → exec (.memFill p mpa len pattern) s = .next (reply (p.ref 0x0303) 0x0201 [] u))) ∧
  (∀ (p : Pkt) (die chan : BitVec 8) (s u : State), bodyState p 0x0304 (le 1 die.toNat ++ le 1 chan.toNat) s = some u →
    (die.toNat ≤ 1 → chan.toNat < 16 → twf {} u.stn.hx = true →
      ∃ t, exec (.hxRestart p die chan) s = .next t ∧
        tget {} t.stn.hx (die.toNat * 16 + chan.toNat) = { tget {} u.stn.hx (die.toNat * 16 + chan.toNat) with halted := false } ∧
        (∀ k, k ≠ die.toNat * 16 + chan.toNat → tget {} t.stn.hx k = tget {} u.stn.hx k) ∧ t.mem = u.mem ∧ t.ts = u.ts) ∧
    (1 < die.toNat ∨ 16 ≤ chan.toNat → exec (.hxRestart p die chan) s = .next (reply (p.ref 0x0304) 0x0105 [] u))) ∧
  (∀ (off len : Nat) (err : ReadErr) (s : State), hostUp s = true → 1 ≤ len → memUp s = true → mapped (bar2Mpa s off) len = true →
    (bar2Mpa s off < 0x60000000000 ∨ writeWaits s = true →
      exec (.bar2Read off len err) s = .next (s.modHi fun h => { h with hostPort := h.hostPort ++ [{ kind := 0, mpa := bar2Mpa s off, len := len }] })) ∧
    (∀ d bad v, 0x80000000000 ≤ bar2Mpa s off → writeWaits s = false → mpaRead err { kind := 1 } (some 32) (bar2Mpa s off) len s = (⟨d, bad⟩, v) →
      exec (.bar2Read off len err) s = .next (if bad then emit .readAbort 2 (le 8 (bar2Mpa s off)) v else emit .readReply (bar2Mpa s off) d v))) ∧
  (∀ (off len : Nat) (err : ReadErr) (s : State), hostUp s = true → 1 ≤ len → memUp s = false ∨ mapped (bar2Mpa s off) len = false →
    exec (.bar2Read off len err) s = .next (emit .readAbort 1 (le 8 (bar2Mpa s off)) s)) ∧
  (∀ (off : Nat) (data : Bytes) (s : State), hostUp s = true → memUp s = true → data ≠ [] →
    (mapped (bar2Mpa s off) data.length = true → writeWaits s = false → imageLoaded s = false ∨ 0x80000000000 ≤ bar2Mpa s off →
      exec (.bar2Write off data) s = .next (mpaWrite {} { kind := 1 } (some 32) (bar2Mpa s off) data s)) ∧
    (mapped (bar2Mpa s off) data.length = false → exec (.bar2Write off data) s = .next s) ∧
    (mapped (bar2Mpa s off) data.length = true → writeWaits s = true ∨ (imageLoaded s = true ∧ bar2Mpa s off < 0x60000000000) →
      exec (.bar2Write off data) s =
        .next (s.modHi fun h => { h with hostPort := h.hostPort ++ [{ kind := 1, mpa := bar2Mpa s off, len := data.length, data := data }] }))) ∧
  (∀ (s : State) (a : PortAcc), s.hi.hostPort.find? (fun x => decide (x.kind = 0)) = some a →
    ∃ t o, exec .bar2Timeout s = .next t ∧ t.hi.hostPort = dropFirst (fun y => decide (y = a)) s.hi.hostPort ∧ o ∈ t.out ∧ o.chan = .readAbort ∧ o.port = 0 ∧
      o.body = le 8 a.mpa ∧
      (s.db.svDown = false → suppressed evBar2Timeout s.db = false → s.pwr.nvInhibit = false → t.db.count = s.db.count + 1))

/-- Repair: soft entries and field fuses are written and burnt, which frees a soft entry of the same content (word 0 of die 4 closes the
debug port for good), PIN_MARK_CLEAR ends a degraded mark, a row remap takes the lowest free spare row of its bank and puts the row's sound
bursts there with the merge buffer's bytes over them, the entry is removed again, and both are deferred while an image is loaded;
PPR_REQUEST is answered when the repair is done, which frees the remap entry (R127, R133 to R136, R355, R431).
A channel retired with no image loaded loses its data and becomes a hole, its restoration returns it to service with memory at
zero, and both are refused while an image is loaded; MEM_COUNTS_READ writes 25 counts of each channel to the host (R121, R137,
R353, R355). -/
def Obligations.RepairAndChannels : Prop :=
  (∀ (p : Pkt) (die index : BitVec 8) (entry : BitVec 32) (s u : State),
    bodyState p 0x030A (le 1 die.toNat ++ le 1 index.toNat ++ le 4 entry.toNat) s = some u →
    (die.toNat ≤ 3 → srOk entry = true → u.pwr.nvInhibit = false → twf 0 u.mem.soft = true →
      ∃ t, exec (.softRepairWrite p die index entry) s = .next t ∧ tget 0 t.mem.soft (die.toNat * 256 + index.toNat) = entry ∧
        (∀ k, k ≠ die.toNat * 256 + index.toNat → tget 0 t.mem.soft k = tget 0 u.mem.soft k) ∧ t.mem.applied = u.mem.applied ∧ t.mem.fuses = u.mem.fuses) ∧
    (3 < die.toNat ∨ srOk entry = false → exec (.softRepairWrite p die index entry) s = .next (reply (p.ref 0x030A) 0x0105 [] u))) ∧
  (∀ (p : Pkt) (die word : BitVec 8) (entry : BitVec 32) (s u : State),
    bodyState p 0x030B (le 1 die.toNat ++ le 1 word.toNat ++ le 4 entry.toNat) s = some u → u.pwr.nvInhibit = false →
    (die = 4 → word = 0 → entry = 1 → ∃ t, exec (.fieldFuseBurn p die word entry) s = .next t ∧ t.sec.fuse = true ∧ t.mem = u.mem) ∧
    (die.toNat ≤ 3 → word.toNat < 32 → srOk entry = true → twf 0 u.mem.fuses = true →
      ∃ t, exec (.fieldFuseBurn p die word entry) s = .next t ∧ tget 0 t.mem.fuses (die.toNat * 32 + word.toNat) = tget 0 u.mem.fuses (die.toNat * 32 + word.toNat) ||| entry ∧
        (∀ k, k ≠ die.toNat * 32 + word.toNat → tget 0 t.mem.fuses k = tget 0 u.mem.fuses k) ∧ t.sec.fuse = u.sec.fuse ∧
        ∀ e, e ∈ t.mem.soft ↔ e ∈ u.mem.soft ∧ (e.1 / 256 ≠ die.toNat ∨ e.2 ≠ entry)) ∧
    (fuseOk die word entry = false → exec (.fieldFuseBurn p die word entry) s = .next (reply (p.ref 0x030B) 0x0105 [] u))) ∧
  (∀ (p : Pkt) (chan sub : BitVec 8) (s u : State), bodyState p 0x0308 (le 1 chan.toNat ++ le 1 sub.toNat) s = some u → sub.toNat ≤ 1 → twf {} u.mem.sub = true →
    ∃ t, exec (.pinMarkClear p chan sub) s = .next t ∧ subOf t chan.toNat sub.toNat = { subOf u chan.toNat sub.toNat with degraded := false } ∧
      t.mem.cells = u.mem.cells) ∧
  (∀ (p : Pkt) (chan sub bank : BitVec 8) (row : BitVec 32) (err : ReadErr) (s u : State), rowOk sub bank row = true → imageLoaded u = true →
    (bodyState p 0x0306 (le 1 0 ++ le 1 chan.toNat ++ le 1 sub.toNat ++ le 1 bank.toNat ++ le 4 row.toNat) s = some u →
      ∃ t, exec (.rowRemapAdd p chan sub bank row err) s = .next t ∧ t.mem.deferred = u.mem.deferred ++ [(false, bankKey chan.toNat sub.toNat bank.toNat, row.toNat)] ∧
        t.mem.remaps = u.mem.remaps) ∧
    (bodyState p 0x0306 (le 1 1 ++ le 1 chan.toNat ++ le 1 sub.toNat ++ le 1 bank.toNat ++ le 4 row.toNat) s = some u →
      ∃ t, exec (.rowRemapRemove p chan sub bank row err) s = .next t ∧ t.mem.deferred = u.mem.deferred ++ [(true, bankKey chan.toNat sub.toNat bank.toNat, row.toNat)] ∧
        t.mem.remaps = u.mem.remaps)) ∧
  (∀ (p : Pkt) (chan sub bank : BitVec 8) (row : BitVec 32) (s u : State) (i : Nat), rowOk sub bank row = true → imageLoaded u = false → memUp u = true →
    u.pwr.nvInhibit = false →
    bodyState p 0x0306 (le 1 0 ++ le 1 chan.toNat ++ le 1 sub.toNat ++ le 1 bank.toNat ++ le 4 row.toNat) s = some u →
    (bankRemaps u (bankKey chan.toNat sub.toNat bank.toNat)).any (fun r => decide (r.row = row.toNat)) = false →
    freeSpare u (bankKey chan.toNat sub.toNat bank.toNat) = some i → (mmRemaps u (bankKey chan.toNat sub.toNat bank.toNat / 128)).length < 2048 →
    ∃ t, exec (.rowRemapAdd p chan sub bank row {}) s = .next t ∧
      t.mem.remaps = u.mem.remaps ++ [{ bank := bankKey chan.toNat sub.toNat bank.toNat, row := row.toNat, spare := i }] ∧ t.mem.deferred = u.mem.deferred ∧
      (Memory.wf u.mem.cells = true → (u.mem.merge.map (·.key)).Nodup → ∀ b d, b < 256 →
        decodeAt {} ⟨chan.toNat, sub.toNat, bank.toNat, row.toNat, b⟩ u = .clean d →
        rawBurst {} (burstNo chan.toNat sub.toNat bank.toNat (98304 + i) b) t =
          rsWord (match mergeOf u.mem.merge (burstNo chan.toNat sub.toNat bank.toNat row.toNat b) with
            | some m => overlay m d
            | none => d))) ∧
  (∀ (p : Pkt) (chan sub bank : BitVec 8) (row : BitVec 32) (err : ReadErr) (s u : State) (r : RowRemap), rowOk sub bank row = true → imageLoaded u = false →
    memUp u = true → u.pwr.nvInhibit = false →
    bodyState p 0x0306 (le 1 1 ++ le 1 chan.toNat ++ le 1 sub.toNat ++ le 1 bank.toNat ++ le 4 row.toNat) s = some u →
    (bankRemaps u (bankKey chan.toNat sub.toNat bank.toNat)).find? (fun q => decide (q.row = row.toNat)) = some r →
    ∃ t, exec (.rowRemapRemove p chan sub bank row err) s = .next t ∧ t.mem.remaps = (u.mem.remaps.filter fun x => !decide (x = r)) ∧
      ((∀ m ∈ u.mem.merge, m.key / 256 ≠ bankKey chan.toNat sub.toNat bank.toNat * 98320 + 98304 + r.spare) → t.mem.cells = u.mem.cells)) ∧
  (∀ (p : Pkt) (chan sub bank : BitVec 8) (row : BitVec 32) (s u : State),
    bodyState p 0x0309 (le 1 chan.toNat ++ le 1 sub.toNat ++ le 1 bank.toNat ++ le 4 row.toNat) s = some u → rowOk sub bank row = true →
    (imageLoaded u = true ∨ memUp u = false → exec (.pprRequest p chan sub bank row) s = .next (reply (p.ref 0x0309) 0x0201 [] u)) ∧
    (imageLoaded u = false → memUp u = true →
      (bankRemaps u (bankKey chan.toNat sub.toNat bank.toNat)).find? (fun q => decide (q.row = row.toNat)) = none →
      exec (.pprRequest p chan sub bank row) s =
        .next (reply (p.ref 0x0309) (if Config.pprSupported (chan.toNat / 4) = true then 0x0105 else 0x0201) [] u)) ∧
    (∀ r, imageLoaded u = false → memUp u = true →
      (bankRemaps u (bankKey chan.toNat sub.toNat bank.toNat)).find? (fun q => decide (q.row = row.toNat)) = some r →
      exec (.pprRequest p chan sub bank row) s = .next (if Config.pprSupported (chan.toNat / 4) = true then
        replyPending (p.ref 0x0309) (u.modMem fun m => { m with ppr := m.ppr ++ [(r, p.ref 0x0309)] }) else reply (p.ref 0x0309) 0x0201 [] u))) ∧
  (∀ (s : State) (r : RowRemap) (ref : PktRef) (rest : List (RowRemap × PktRef)), svOn s = true → s.mem.ppr = (r, ref) :: rest →
    (∃ t, exec (.postPackageRepairDone true) s = .next t ∧ t.mem.ppr = rest ∧ t.mem.remaps = (s.mem.remaps.filter fun x => !decide (x = r)) ∧
      t.ident.pprDone = s.ident.pprDone ++ [r.bank * 98320 + r.row]) ∧
    (∃ t, exec (.postPackageRepairDone false) s = .next t ∧ t.mem.ppr = rest ∧ t.mem.remaps = s.mem.remaps ∧ t.ident.pprDone = s.ident.pprDone)) ∧
  (∀ (p : Pkt) (chan : BitVec 8) (s u : State), bodyState p 0x0305 (le 1 chan.toNat) s = some u →
    (imageLoaded u = true → exec (.channelRetire p chan) s = .next (reply (p.ref 0x0305) 0x0201 [] u)) ∧
    (imageLoaded u = false → u.pwr.nvInhibit = false → chan.toNat ∉ u.mem.retired →
      ∃ t, exec (.channelRetire p chan) s = .next t ∧ chan.toNat ∈ t.mem.retired ∧ (∀ c, c ≠ chan.toNat → (c ∈ t.mem.retired ↔ c ∈ u.mem.retired)) ∧
        chanUp t chan.toNat = false ∧ (∀ e ∈ t.mem.cells, burstCh (e.1 / 36) ≠ chan.toNat) ∧
        (∀ e, burstCh (e.1 / 36) ≠ chan.toNat → (e ∈ t.mem.cells ↔ e ∈ u.mem.cells)) ∧ t.ts = u.ts) ∧
    (imageLoaded u = false → chan.toNat ∈ u.mem.retired → exec (.channelRetire p chan) s = .next (reply (p.ref 0x0305) 0 (profileLow u) u))) ∧
  (∀ (p : Pkt) (chan : BitVec 8) (s u : State), bodyState p 0x030C (le 1 chan.toNat) s = some u →
    (imageLoaded u = true → exec (.channelRestore p chan) s = .next (reply (p.ref 0x030C) 0x0201 [] u)) ∧
    (imageLoaded u = false → u.pwr.nvInhibit = false → chan.toNat ∈ u.mem.retired →
      ∃ t, exec (.channelRestore p chan) s = .next t ∧ chan.toNat ∉ t.mem.retired ∧ (∀ c, c ≠ chan.toNat → (c ∈ t.mem.retired ↔ c ∈ u.mem.retired)) ∧
        (∀ e ∈ t.mem.cells, burstCh (e.1 / 36) ≠ chan.toNat) ∧ (∀ e, burstCh (e.1 / 36) ≠ chan.toNat → (e ∈ t.mem.cells ↔ e ∈ u.mem.cells)))) ∧
  (∀ (p : Pkt) (first : BitVec 8) (count : BitVec 16) (buf : Buf) (s u : State),
    bodyState p 0x0307 (le 1 first.toNat ++ le 2 count.toNat ++ buf.bytes) s = some u →
    (1 ≤ count.toNat → first.toNat + count.toNat ≤ 256 → 100 * count.toNat ≤ buf.len.toNat →
      ∃ t o, exec (.memCountsRead p first count buf) s = .next t ∧ t.out = o :: u.out ∧ o.chan = .hostWrite ∧ o.port = buf.addr.toNat ∧
        o.body = ((List.range count.toNat).map fun i => chanCounts u (first.toNat + i)).flatten ∧ o.body.length = 100 * count.toNat ∧ t.life = u.life) ∧
    (count = 0 ∨ 256 < first.toNat + count.toNat → exec (.memCountsRead p first count buf) s = .next (reply (p.ref 0x0307) 0x0105 [] u)))

/-! ### Streams between modules -/

/-- Cells that arrive: the one cell of a tile, in sequence and with a free slot, is placed in the slot and completes the tile, whose
header is rebuilt; a further cell of a tile in progress is placed at its index; a cell that has come before is discarded and draws an
acknowledgement; one with a bad CRC or a reserved type, or that an uncorrected outer code word touches, is counted; an idle cell and one
for a context that is not a remote one change nothing, and a service cell is taken apart (R25, R147, R149, R217, R218).
Acknowledgement and resending: a LINK_ACK entry moves the newest A of its forward, drops the tiles that it covers and ends the
count of expiries, and in loose mode a reset grant sets its credits; an expiry of the timer sends every unacknowledged cell again, and the third without progress is recorded; a
broken tile counts as acknowledged; a forward that stalls is recorded once (R212, R219, R221, R223, R230, R231). -/
def Obligations.CellsArriveAndAreAcknowledged : Prop :=
  (∀ (fibre link : Nat) (cell : CellIn) (err : ReadErr) (s : State) (st : BitVec 20) (c : StreamCtx) (h : TileHdr),
    litUp s = true → physUp s fibre link false = true → imageLoaded s = true → cell.bytes.length = 1056 →
    cellBad cell.place cell.words cell.bytes = false → cellType cell.bytes = 1 →
    st = BitVec.ofNat 20 (rd cell.bytes 0 28 >>> 182) → c = ctxOf s st → h = readCopy (rd cell.bytes 0 28) → c.srcRemote = true → c.state = .open →
    fld (rd cell.bytes 0 28) 144 6 = 0 → BitVec.ofNat 32 (rd cell.bytes 0 28 >>> 150) = c.cseq → cellCount h.plen.toNat = 1 →
    (rxOf s st).tiles = [] → (rxOf s st).resync = false → slotFree s st c.tseqHead = true → (s.strm.sums.all fun r => decide (r.inStream ≠ st)) = true →
    Memory.wf s.ts.cells = true →
    ∃ t, exec (.dataCellArrival fibre link cell err) s = .next t ∧ (ctxOf t st).tseqHead = c.tseqHead + 1 ∧ (ctxOf t st).cseq = c.cseq + 1 ∧
      (ctxOf t st).sticky = c.sticky ||| h.flags ∧ (ctxOf t st).state = .open ∧ (rxOf t st).tiles = [] ∧ st.toNat ∈ t.strm.ackQ ∧
      tsPeek t (slotAddr st c c.tseqHead) 32 = ({ h with stream := st, tseq := c.tseqHead, jobTag := jobTag s } : TileHdr).bytes ∧
      tsPeek t (slotAddr st c c.tseqHead + 32) h.plen.toNat = part cell.bytes 32 h.plen.toNat ∧ t.mem.cells = s.mem.cells) ∧
  (∀ (fibre link : Nat) (cell : CellIn) (err : ReadErr) (s : State) (st : BitVec 20),
    litUp s = true → physUp s fibre link false = true → imageLoaded s = true →
    cellBad cell.place cell.words cell.bytes = false → cellType cell.bytes = 1 →
    st = BitVec.ofNat 20 (rd cell.bytes 0 28 >>> 182) → (ctxOf s st).srcRemote = true → (ctxOf s st).state ≠ .invalid → (ctxOf s st).state ≠ .closed →
    later (ctxOf s st).cseq (BitVec.ofNat 32 (rd cell.bytes 0 28 >>> 150)) = true →
    ∃ t, exec (.dataCellArrival fibre link cell err) s = .next t ∧ t.ts = s.ts ∧ t.mem = s.mem ∧ t.strm.ctx = s.strm.ctx ∧
      (rxOf t st).tiles = (rxOf s st).tiles ∧ st.toNat ∈ t.strm.ackQ) ∧
  (∀ (fibre link : Nat) (cell : CellIn) (err : ReadErr) (s : State), litUp s = true → physUp s fibre link false = true →
    (cellCrcOk cell.bytes = false ∨ cellType cell.bytes = 3 ∨ (∃ w ∈ cell.words, touches w cell.place = true) →
      exec (.dataCellArrival fibre link cell err) s = .next (crcError fibre link s)) ∧
    (cellBad cell.place cell.words cell.bytes = false → cellType cell.bytes = 0 → exec (.dataCellArrival fibre link cell err) s = .next s) ∧
    (cellBad cell.place cell.words cell.bytes = false → cellType cell.bytes = 1 →
      imageLoaded s = false ∨ (ctxOf s (BitVec.ofNat 20 (rd cell.bytes 0 28 >>> 182))).srcRemote = false →
      exec (.dataCellArrival fibre link cell err) s = .next s)) ∧
  (∀ (fibre link : Nat) (cell : CellIn) (err : ReadErr) (s : State), litUp s = true → physUp s fibre link false = true →
    cellBad cell.place cell.words cell.bytes = false → cellType cell.bytes = 2 →
    exec (.dataCellArrival fibre link cell err) s = .next (serviceArrival fibre link cell.bytes s)) ∧
  (∀ (fibre link k : Nat) (cell : CellIn) (err : ReadErr) (s : State) (st : BitVec 20) (c : StreamCtx) (h : TileHdr) (q : RxTile),
    litUp s = true → physUp s fibre link false = true → imageLoaded s = true → cell.bytes.length = 1056 →
    cellBad cell.place cell.words cell.bytes = false → cellType cell.bytes = 1 →
    st = BitVec.ofNat 20 (rd cell.bytes 0 28 >>> 182) → c = ctxOf s st → h = readCopy (rd cell.bytes 0 28) → c.srcRemote = true → c.state = .open →
    k = fld (rd cell.bytes 0 28) 144 6 → BitVec.ofNat 32 (rd cell.bytes 0 28 >>> 150) = q.base + BitVec.ofNat 32 k →
    later c.cseq (BitVec.ofNat 32 (rd cell.bytes 0 28 >>> 150)) = false →
    (rxOf s st).tiles = [q] → k ∉ q.placed → k < q.cells → q.placed.length + 1 < q.cells → (s.strm.sums.all fun r => decide (r.inStream ≠ st)) = true →
    Memory.wf s.ts.cells = true →
    ∃ t, exec (.dataCellArrival fibre link cell err) s = .next t ∧ (ctxOf t st).tseqHead = c.tseqHead ∧ (ctxOf t st).cseq = c.cseq ∧
      (rxOf t st).tiles = [{ q with placed := q.placed ++ [k], cellFt := s.tm.ft, hdr := { q.hdr with flags := q.hdr.flags ||| h.flags } }] ∧
      (ctxOf t st).partCells = BitVec.ofNat 7 (q.placed.length + 1) ∧
      tsPeek t (slotAddr st c c.tseqHead + 32 + 1024 * k) (min 1024 (h.plen.toNat - 1024 * k)) = part cell.bytes 32 (min 1024 (h.plen.toNat - 1024 * k)) ∧
      t.mem.cells = s.mem.cells) ∧
  (∀ (port : Nat) (b : Bytes) (s u : State) (st : BitVec 20) (i : Nat) (a : BitVec 32), litUp s = true → (readNotice b).kind = 4 →
    takeNotice (readNotice b) port s = some (true, u) → imageLoaded u = true → (readNotice b).body.length = 12 →
    fwdTo u (readNotice b).src (BitVec.ofNat 20 (ofLe (readNotice b).body >>> 76)) = some (st, i) →
    a = BitVec.ofNat 32 (ofLe (readNotice b).body >>> 44) → later a (fwdOf u st i).ackA = true → later a (fwdOf u st i).cseq = false → twf {} u.strm.fwd = true →
    ∃ t, exec (.linkAckNotice port b) s = .next t ∧ (fwdOf t st i).ackA = a ∧ (fwdOf t st i).expiries = 0 ∧ (looseMode u = false → (fwdOf t st i).credits = (fwdOf u st i).credits) ∧
      (fwdOf t st i).sent = ((fwdOf u st i).sent.dropWhile fun q => !later (q.base + BitVec.ofNat 32 q.cells) a) ∧
      (fwdOf t st i).doneTile = (fwdOf u st i).doneTile + BitVec.ofNat 32 ((fwdOf u st i).sent.takeWhile fun q => !later (q.base + BitVec.ofNat 32 q.cells) a).length ∧
      (looseMode u = true → bit (ofLe (readNotice b).body) 20 = true → (fwdOf t st i).credits = BitVec.ofNat 16 (ofLe (readNotice b).body >>> 28)) ∧
      t.ts = u.ts ∧ t.mem = u.mem) ∧
  (∀ (st : BitVec 20) (i : Nat) (err : ReadErr) (s : State), litUp s = true → i < 2 → ((ctxOf s st).fwd i).kind = 2 → ((ctxOf s st).fwd i).up s = true →
    (fwdOf s st i).timerOn = true → (fwdOf s st i).unacked = true →
    ∃ v, exec (.resendTimerExpiry st i err) s = .next (resendAll err st i 1 v) ∧ (fwdOf v st i).expiries = (fwdOf s st i).expiries + 1 ∧
      (fwdOf v st i).sent = (fwdOf s st i).sent ∧ v.out = s.out ∧
      ((fwdOf s st i).expiries = 2 → s.db.svDown = false → suppressed evAckTimeout s.db = false → s.pwr.nvInhibit = false → v.db.count = s.db.count + 1) ∧
      ((fwdOf s st i).expiries ≠ 2 → v.db = s.db) ∧
      (((fwdOf s st i).sent.any fun q => !(unackedOf (fwdOf s st i).ackA q).isEmpty) = true → s.out.length < (resendAll err st i 1 v).out.length)) ∧
  (∀ (st : BitVec 20) (i : Nat) (err : ReadErr) (s : State), (fwdOf s st i).unacked = false → exec (.resendTimerExpiry st i err) s = .next s) ∧
  (∀ (port : Nat) (b : Bytes) (s u : State) (st : BitVec 20) (i : Nat), litUp s = true → (readNotice b).kind = 5 →
    takeNotice (readNotice b) port s = some (true, u) → imageLoaded u = true → (readNotice b).jobTag = jobTag u →
    fwdTo u (readNotice b).src (BitVec.ofNat 20 (rd (readNotice b).body 0 4)) = some (st, i) → twf {} u.strm.fwd = true →
    later (BitVec.ofNat 32 (rd (readNotice b).body 8 4)) (fwdOf u st i).ackA = true → later (BitVec.ofNat 32 (rd (readNotice b).body 8 4)) (fwdOf u st i).cseq = false →
    ∃ t, exec (.streamBreakNotice port b) s = .next t ∧ (fwdOf t st i).ackA = BitVec.ofNat 32 (rd (readNotice b).body 8 4)) ∧
  (∀ (st : BitVec 20) (i : Nat) (s : State), litUp s = true → imageLoaded s = true → i < 2 → ((ctxOf s st).fwd i).kind = 2 → (fwdOf s st i).unacked = true →
    (ctxOf s st).holdMs ≠ 0xFFFF →
    ((fwdOf s st i).stalledRaised = false →
      ∃ t, exec (.streamTxStalled st i) s = .next t ∧ (fwdOf t st i).stalledRaised = true ∧ t.strm.ctx = s.strm.ctx ∧
        (s.db.svDown = false → suppressed evStreamTxStalled s.db = false → s.pwr.nvInhibit = false → t.db.count = s.db.count + 1)) ∧
    ((fwdOf s st i).stalledRaised = true → exec (.streamTxStalled st i) s = .next s))

/-- Stalls and breaks: at a superframe boundary the frames of the superframe that ends have been sent on every lane that sends, and the
counter goes on; a stream whose tile is partly placed and got no cell at that boundary stalls, and no other; a stalled stream whose
hold limit runs out breaks: a placeholder with POISON and a payload of zeros completes, the next tile's base is expected, and the
break is acknowledged; a stream without a hold limit, and one that is not stalled, do not break (R36, R145, R153, R204, R229, R230).
Service cells, signals and notices: a service cell leaves on every lane that carries its place, or from an Ethernet port in its frame, with
its own number and the remote signals that its link owes, up to 24, and clears the acknowledgements that it carries; an entry of the
remote-signal area is applied once, at the module it names, or goes on by the route; a broadcast notice is sent three times in
all, on every logical link in service (R40, R150, R151, R172, R227, R228). -/
def Obligations.StreamsServiceCellsAndNotices : Prop :=
  (∀ (f : Nat) (hdrs : List (BitVec 256)) (skew : Nat) (err : ReadErr) (s : State), litUp s = true → f < 16 →
    exec (.superframeBoundary f hdrs skew err) s = .next (stallCheck f (lanesBoundary f hdrs skew err (sfcNext f (framesOut f s)))) ∧
    (slotFibre s f = false → twf {} s.opt.fibres = true → (fibreOf (sfcNext f s) f).sfc = (fibreOf s f).sfc + 1 ∧ ∀ g, g ≠ f → fibreOf (sfcNext f s) g = fibreOf s g) ∧
    (slotFibre s f = true → s.job.gridOn = true → twf {} s.opt.fibres = true →
      (fibreOf (sfcNext f s) f).sfc = BitVec.ofNat 32 (s.job.bell * 1024 + (s.tm.ft - s.job.tb).toNat / 65536 / 64)) ∧
    (∀ k n, fixedLanes s f = false → k < 33 → (laneOf s f k).txOn = true → n < 64 →
      { chan := .symbols, port := laneKey f k, body := symbols (laneFrameOf s f k n) } ∈ (framesOut f s).out)) ∧
  (∀ (f : Nat) (s : State) (st : BitVec 20), twf {} s.strm.rx = true → (s.strm.rx.all fun e => decide (e.1 < 2 ^ 20)) = true →
    ((rxOf s st).via = 0 ∧ 4 * stnDie (ctxOf s st).prodStn + stnIndex (ctxOf s st).prodStn = f) ∨
      ((rxOf s st).via ≠ 0 ∧ ∃ l, logLink s (((rxOf s st).via - 1) / 64) (((rxOf s st).via - 1) % 64) false = some l ∧ l.pFibre.toNat = f) →
    (ctxOf s st).srcRemote = true → (ctxOf s st).state = .open →
    ((rxOf s st).tiles.any (fun x => x.stalls s.tm.ft) = true → (ctxOf (stallCheck f s) st).state = .stalled ∧ (ctxOf (stallCheck f s) st).holdElapsed = 0) ∧
    ((rxOf s st).tiles.any (fun x => x.stalls s.tm.ft) = false → ctxOf (stallCheck f s) st = ctxOf s st)) ∧
  (∀ (st : BitVec 20) (err : ReadErr) (s : State) (c : StreamCtx) (q : RxTile) (rest : List RxTile), litUp s = true → holdRuns s = true →
    c = ctxOf s st → c.state = .stalled → c.holdMs ≠ 0xFFFF → (rxOf s st).tiles = q :: rest → (s.strm.sums.all fun r => decide (r.inStream ≠ st)) = true →
    Memory.wf s.ts.cells = true →
    ∃ t, exec (.streamHoldLimit st err) s = .next t ∧ (ctxOf t st).state = .broken ∧ (ctxOf t st).cseq = q.base + BitVec.ofNat 32 q.cells ∧
      (ctxOf t st).tseqHead = c.tseqHead + 1 ∧ (ctxOf t st).sticky = c.sticky ||| (q.hdr.flags ||| flPoison) ∧ (rxOf t st).tiles = [] ∧
      (rxOf t st).brokenBase = some q.base ∧ st.toNat ∈ t.strm.ackQ ∧ tsPeek t (slotAddr st c c.tseqHead + 32) q.hdr.plen.toNat = zeros q.hdr.plen.toNat ∧
      t.mem.cells = s.mem.cells) ∧
  (∀ (st : BitVec 20) (err : ReadErr) (s : State), (ctxOf s st).state ≠ .stalled ∨ (ctxOf s st).holdMs = 0xFFFF → exec (.streamHoldLimit st err) s = .next s) ∧
  (∀ (fibre link : Nat) (s : State) (l : PhysLink), litUp s = true → physLink s fibre link true = some l → l.inService = true →
    ∃ t m body, exec (.serviceCellSlot fibre link) s = .next t ∧ body.take 192 = padTo 192 (((List.range 24).zip (s.net.rsOut.filter fun e => decide (e.1 = nameOf s fibre link true))).map
        fun e => rsEntry e.2.2 ((tget 0 s.net.rsSeq (nameOf s fibre link true)).toNat + e.1)).flatten ∧
      (l.ethernet = false → ∀ k ∈ carriers s l 0, { chan := .service, port := linkKey fibre link, body := cellBytes (2 ^ 150 * l.svcSeq.toNat + 2 ^ 222 * 2 + 2 ^ 202 * laneTag l.tag k) body } ∈ t.out) ∧
      (l.ethernet = true → { chan := .frame, port := portOfLink l, body := portFrame s (portOfLink l) (cellBytes (2 ^ 150 * l.svcSeq.toNat + 2 ^ 222 * 2 + 2 ^ 202 * laneTag l.tag 63) body) } ∈ t.out) ∧
      physLink t fibre link true = some m ∧ m.svcSeq = l.svcSeq + 1 ∧ m.svcNo = l.svcNo + 1 ∧ m.svcAt = s.tm.ft ∧
      (∀ st ∈ ackDue s (linkKey fibre link), st ∉ t.strm.ackQ) ∧
      ((s.net.rsOut.filter fun e => decide (e.1 = nameOf s fibre link true)).length ≤ 24 →
        t.net.rsOut = s.net.rsOut.filter fun e => decide (e.1 ≠ nameOf s fibre link true)) ∧ t.ts = s.ts ∧ t.mem = s.mem) ∧
  (∀ (fibre link : Nat) (s : State), (∀ l, physLink s fibre link true = some l → l.inService = false) → exec (.serviceCellSlot fibre link) s = .next s) ∧
  (∀ (fibre link : Nat) (entry : Bytes) (s : State) (l : PhysLink), litUp s = true → physLink s fibre link false = some l → fld (rd entry 0 8) 20 16 ≠ 0 →
    (BitVec.ofNat 20 (rd entry 0 8) ∉ tget [] s.net.rsSeen (nameOf s fibre link false) →
      (BitVec.ofNat 12 (rd entry 0 8 >>> 52) = moduleId s → imageLoaded s = true →
        ∃ t, exec (.remoteSignalEntry fibre link entry) s = .next t ∧
          (syncOf t (BitVec.ofNat 16 (rd entry 0 8 >>> 36))).count.toNat =
            min ((syncOf s (BitVec.ofNat 16 (rd entry 0 8 >>> 36))).count.toNat + fld (rd entry 0 8) 20 16) 0xFFFFFFFF ∧
          BitVec.ofNat 20 (rd entry 0 8) ∈ tget [] t.net.rsSeen (nameOf s fibre link false)) ∧
      (∀ r, BitVec.ofNat 12 (rd entry 0 8 >>> 52) ≠ moduleId s → routeLink s (BitVec.ofNat 12 (rd entry 0 8 >>> 52)) = some r →
        ∃ t, exec (.remoteSignalEntry fibre link entry) s = .next t ∧ t.sync = s.sync ∧
          BitVec.ofNat 20 (rd entry 0 8) ∈ tget [] t.net.rsSeen (nameOf s fibre link false) ∧
          t.net.rsOut = s.net.rsOut ++ [(r.name, { module := BitVec.ofNat 12 (rd entry 0 8 >>> 52), object := BitVec.ofNat 16 (rd entry 0 8 >>> 36), n := BitVec.ofNat 16 (rd entry 0 8 >>> 20) })])) ∧
    (BitVec.ofNat 20 (rd entry 0 8) ∈ tget [] s.net.rsSeen (nameOf s fibre link false) → exec (.remoteSignalEntry fibre link entry) s = .next s)) ∧
  (∀ (s : State) (n : Notice) (k : Nat) (rest : List (Notice × Nat)), litUp s = true → s.net.repeats = (n, k) :: rest →
    ∃ t, exec .noticeRepeat s = .next t ∧ t.net.repeats = (if k ≤ 1 then rest else rest ++ [(n, k - 1)]) ∧
      t.net.msgs = s.net.msgs ++ (upLinks s).map fun l => { link := l.phys, ty := 3, body := n.bytes }) ∧
  (∀ (kind : Nat) (tag : BitVec 32) (body : Bytes) (s : State),
    ∃ n, (broadcast kind tag body s).net.repeats = s.net.repeats ++ [(n, 2)] ∧ n.bcast = true ∧ n.src = moduleId s ∧ n.nseq = s.net.nseq + 1 ∧ n.ttl = 64 ∧
      (broadcast kind tag body s).net.msgs = s.net.msgs ++ (upLinks s).map fun l => { link := l.phys, ty := 3, body := n.bytes })

/-! ### Lanes, fibres and comb sources -/

/-- Lanes that fail: a transmitted lane is marked failed and relieved by the spare where its line is free; where there is no spare its link
announces its positions to the lanes that are left and none to it; in XN5 compatibility mode its link goes; a received lane that loses
FEC lock reads so; a report reaches the transmitter, or is relayed; the mark clears by LANE_FAILED_CLEAR, under an accepted Prefect;
the BER readback is the greatest whole n with 10ⁿ × errors¹⁰⁰ ≤ bits¹⁰⁰ (R13, R158, R160 to R162, R167, R324).
The relief of a lane by the rotating spare: retargeted, the spare announces the bridge, or for a failed lane the position at
once; lane-ready announces the roll; without it the bridge ends and the lane stays in service; LANE_FORCE_SPARE begins a relief and
is answered later, or is refused 0x0201, with SPARE_BLOCKED where the spare's line is not free; an announcement applies three superframe boundaries on (R154, R159 to R161, R355). -/
def Obligations.LanesFailAndSparesRelieveThem : Prop :=
  (∀ (f x : Nat) (found : Nat) (s : State), litUp s = true → f < 16 → x < 33 →
    ((laneOf s f x).failed = false → exec (.laneFailure f x 3 found) s = .next (txLaneFails f x (laneFailed f x 3 s))) ∧
    ((laneOf s f x).failed = true → exec (.laneFailure f x 3 found) s = .next s) ∧
    (∀ l, rxLinkOf s f x = some l → l.inService = true → twf {} s.opt.lanes = true →
      ∃ t, exec (.laneFailure f x 1 found) s = .next t ∧ (laneOf t f x).fecLock = false ∧ (laneOf t f x).failed = (laneOf s f x).failed ∧ t.opt.links = s.opt.links)) ∧
  (∀ (f x k : Nat) (s : State) (l : PhysLink), f < 16 → x < 33 → (laneOf s f x).failed = false → modeOf s f ≠ .xn5 → (rotOf s f).step = none → reliefOn s f = none →
    txLinkOf s f x = some l → l.inService = true → ceReach s 0 = true → twf {} s.opt.lanes = true →
    (spareOf s f = some k → k ≠ x → fixedLanes s f = false →
      (lineFree (markFailed f x s) f k l).1 = true →
      ∃ t, laneFails f x s = (none, t) ∧ (laneOf t f x).failed = true ∧
        t.opt.reliefs = s.opt.reliefs ++ [{ fibre := f, spare := k, lane := x, link := l.link, pos := BitVec.ofNat 5 (posIn l x), forFail := true, step := 1 }]) ∧
    (spareOf s f = none ∨ spareOf s f = some x ∨ fixedLanes s f = true →
      ∃ t, laneFails f x s = (some l, t) ∧ (laneOf t f x).failed = true ∧ t.opt.reliefs = s.opt.reliefs ∧
        (twf 0 s.opt.degraded = true → tget 0 t.opt.degraded l.key = ((nextLanes s f l.link).filter fun y => decide (y ≠ x)).length) ∧
        (∀ i y, ((nextLanes s f l.link).filter fun y => decide (y ≠ x))[i]? = some y →
          { fibre := f, lane := y, role := .inService, link := l.link, pos := BitVec.ofNat 5 i,
            width := ((nextLanes s f l.link).filter fun y => decide (y ≠ x)).length, sfc := (fibreOf s f).sfc + 3 } ∈ t.opt.announce) ∧
        (x ∈ l.lanes → { fibre := f, lane := x, role := .unassigned, link := l.link, pos := 0, width := 1, sfc := (fibreOf s f).sfc + 3 } ∈ t.opt.announce))) ∧
  (∀ (port : Nat) (msg : Bytes) (f x : Nat) (s v : State), litUp s = true → port < 1024 → f < 16 → x < 33 →
    v = (if pmAckReq msg then p2pAck msg (prefectInput s) else prefectInput s) →
    (pmDst msg = moduleId s → p2pSeen msg s = false → exec (.laneFailureReport port msg f x) s = .next (txLaneFails f x (p2pNote msg v))) ∧
    (pmDst msg = moduleId s → p2pSeen msg s = true → exec (.laneFailureReport port msg f x) s = .next v) ∧
    (pmDst msg ≠ moduleId s → exec (.laneFailureReport port msg f x) s = .next (p2pRelay 6 msg (prefectInput s)))) ∧
  (∀ (p : Pkt) (fibre lane : BitVec 8) (s u : State), bodyState p 0x040E (le 1 fibre.toNat ++ le 1 lane.toNat) s = some u → fibre.toNat < 16 → lane.toNat < 33 →
    (ceReach u 0 = true → twf {} u.opt.lanes = true →
      ∃ t, exec (.laneFailedClear p fibre lane) s = .next t ∧ (laneOf t fibre.toNat lane.toNat).failed = false ∧
        (∀ k, k ≠ laneKey fibre.toNat lane.toNat → tget {} t.opt.lanes k = tget {} u.opt.lanes k) ∧ t.opt.links = u.opt.links) ∧
    (ceReach u 0 = false → exec (.laneFailedClear p fibre lane) s = .next (reply (p.ref 0x040E) 0x0201 [] u))) ∧
  (∀ (f k errors bits : Nat) (s : State), litUp s = true → f < 16 → k < 33 → 0 < bits → errors ≤ bits → twf {} s.opt.lanes = true →
    (rxCal s f k = false →
      ∃ t, exec (.berMeasurement f k errors bits) s = .next t ∧ (laneOf t f k).berLog = BitVec.ofNat 10 (berLogOf errors bits) ∧ t.opt.links = s.opt.links) ∧
    (rxCal s f k = true → ∃ t, exec (.berMeasurement f k errors bits) s = .next t ∧ t.opt = s.opt)) ∧
  (∀ errors bits : Nat, 0 < errors → errors ≤ bits → berLogOf errors bits ≤ 1023 ∧ 10 ^ berLogOf errors bits * errors ^ 100 ≤ bits ^ 100 ∧
    (berLogOf errors bits < 1023 → bits ^ 100 < 10 ^ (berLogOf errors bits + 1) * errors ^ 100)) ∧
  (∀ (f x : Nat) (s : State), x < 33 → (laneOf s f x).failed = false → modeOf s f = .xn5 →
    ∃ t, laneFails f x s = (none, t) ∧ (laneOf t f x).failed = true ∧ (∀ l ∈ t.opt.links, l.fibre = f → x ∉ l.lanes) ∧
      ∀ l, l.fibre ≠ f → (l ∈ t.opt.links ↔ l ∈ s.opt.links)) ∧
  (∀ (f : Nat) (s : State) (r : Relief) (l : PhysLink), litUp s = true → reliefOn s f = some r → r.step = 1 → txLinkOf s f r.lane = some l →
    (r.forFail = false → ∃ t, exec (.spareRetargetDone f) s = .next t ∧
      { fibre := f, lane := r.spare, role := .bridged, link := l.link, pos := r.pos, width := (nextLanes s f l.link).length, sfc := (fibreOf s f).sfc + 3 } ∈ t.opt.announce ∧
      reliefOn t f = some { r with step := 2 } ∧ t.opt.links = s.opt.links) ∧
    (r.forFail = true → r.spare ≠ r.lane → ∃ t, exec (.spareRetargetDone f) s = .next t ∧
      { fibre := f, lane := r.spare, role := .inService, link := l.link, pos := r.pos, width := (nextLanes s f l.link).length, sfc := (fibreOf s f).sfc + 3 } ∈ t.opt.announce ∧
      { fibre := f, lane := r.lane, role := .unassigned, link := l.link, pos := 0, width := 1, sfc := (fibreOf s f).sfc + 3 } ∈ t.opt.announce ∧
      reliefOn t f = some { r with step := 4 } ∧ t.opt.links = s.opt.links)) ∧
  (∀ (port : Nat) (msg : Bytes) (f k : Nat) (s : State) (r : Relief), litUp s = true → port < 1024 → pmDst msg = moduleId s →
    p2pSeen msg s = false → reliefOn s f = some r → r.spare = k → r.step = 2 → r.spare ≠ r.lane →
    ∃ t, exec (.laneReadyMessage port msg f k) s = .next t ∧
      { fibre := f, lane := k, role := .inService, link := r.link, pos := r.pos, width := (nextLanes s f r.link).length, sfc := (fibreOf s f).sfc + 3 } ∈ t.opt.announce ∧
      { fibre := f, lane := r.lane, role := .calibrating, link := r.link, pos := r.pos, width := (nextLanes s f r.link).length, sfc := (fibreOf s f).sfc + 3 } ∈ t.opt.announce ∧
      reliefOn t f = some { r with step := 4 }) ∧
  (∀ (f : Nat) (s : State) (r : Relief), litUp s = true → reliefOn s f = some r → r.step = 2 → (rotOf s f).step = none →
    ∃ t, exec (.laneReadyTimeout f) s = .next t ∧ reliefOn t f = none ∧ t.opt.lanes = s.opt.lanes ∧ t.opt.links = s.opt.links ∧
      (s.db.svDown = false → suppressed evSpareBlocked s.db = false → s.pwr.nvInhibit = false → s.db.count < t.db.count)) ∧
  (∀ (p : Pkt) (fibre lane : BitVec 8) (s u : State), bodyState p 0x040D (le 1 fibre.toNat ++ le 1 lane.toNat) s = some u → fibre.toNat < 16 → lane.toNat < 33 →
    (∀ l k, txLinkOf u fibre.toNat lane.toNat = some l → spareOf u fibre.toNat = some k → litUp u = true → ceReach u 0 = true → l.inService = true →
      reliefOn u fibre.toNat = none → (rotOf u fibre.toNat).step = none → fixedLanes u fibre.toNat = false → nativeFibre u fibre.toNat = true →
      (fibreOf u fibre.toNat).apr = false →
      ((lineFree u fibre.toNat k l).1 = false → exec (.laneForceSpare p fibre lane) s =
        .next (reply (p.ref 0x040D) 0x0201 [] (spareBlocked fibre.toNat lane.toNat 1 (lineFree u fibre.toNat k l).2))) ∧
      ((lineFree u fibre.toNat k l).1 = true →
        ∃ t, exec (.laneForceSpare p fibre lane) s = .next t ∧
          reliefOn t fibre.toNat = some { fibre := fibre.toNat, spare := k, lane := lane.toNat, link := l.link, pos := BitVec.ofNat 5 (posIn l lane.toNat), forFail := false, step := 1, pkt := some (p.ref 0x040D) } ∧
          t.opt.links = u.opt.links)) ∧
    (spareOf u fibre.toNat = none ∨ txLinkOf u fibre.toNat lane.toNat = none ∨ litUp u = false ∨ ceReach u 0 = false ∨ (reliefOn u fibre.toNat).isSome = true ∨
      (rotOf u fibre.toNat).step.isSome = true ∨ fixedLanes u fibre.toNat = true ∨ nativeFibre u fibre.toNat = false ∨ (fibreOf u fibre.toNat).apr = true →
      exec (.laneForceSpare p fibre lane) s = .next (reply (p.ref 0x040D) 0x0201 [] u))) ∧
  (∀ (a : Announce) (s : State), a.lane < 33 → (laneOf s a.fibre a.lane).failed = false → twf {} s.opt.lanes = true →
    (laneOf (applyAnnounce a s) a.fibre a.lane).role = a.role ∧ (laneOf (applyAnnounce a s) a.fibre a.lane).pos = a.pos ∧
      (laneOf (applyAnnounce a s) a.fibre a.lane).inService = decide (a.role = .inService) ∧
      ∀ k, k ≠ laneKey a.fibre a.lane → tget {} (applyAnnounce a s).opt.lanes k = tget {} s.opt.lanes k)

/-- A fibre that goes dark: FIBRE_LOS puts its received links out of service, automatic power reduction turns its lanes off and puts
its transmitted links out of service, and FIBRE_RESTORED ends both; a good beacon frame gives the neighbour's identity, port and
rank, and one with a bad CRC is discarded (R164 to R166).
Comb sources: a fault of K0 to K3 unlocks and fails the source, its group goes dark, and a free K4 is switched in; a fault of K4 makes the
group dark that it serves; the switch puts K4 in its place; the host swaps K4 in or restores the source while no image uses the group, and
is refused 0x0201 otherwise (R141, R355). -/
def Obligations.LightAndCombSources : Prop :=
  (∀ (f : Nat) (power : Int) (s : State), combsLit s = true → f < 16 → (fibreOf s f).los = false → modeOf s f ≠ .faceplate → twf {} s.opt.fibres = true →
    (s.sw.fallbacks.all fun e => decide (e.2.sig ≠ sigOf 1 f 0)) = true →
    ∃ t, exec (.fibreLos f power) s = .next t ∧ (fibreOf t f).los = true ∧ (fibreOf t f).losAt = s.sc ∧ (fibreOf t f).beaconOk = false ∧
      (∀ l ∈ t.opt.links, l.fibre = f → l.tx = false → l.inService = false) ∧ (twf {} s.opt.lanes = true → ∀ k, k < 33 → (laneOf t f k).fecLock = false) ∧
      (∀ l, l.fibre ≠ f ∨ l.tx = true → (l ∈ t.opt.links ↔ l ∈ s.opt.links))) ∧
  (∀ (f : Nat) (s : State), combsLit s = true → f < 16 → (fibreOf s f).los = true → (fibreOf s f).apr = false → modeOf s f ≠ .faceplate → twf {} s.opt.lanes = true →
    ∃ t, exec (.aprEntry f) s = .next t ∧ (fibreOf t f).apr = true ∧ (fibreOf t f).pilots = (fibreOf s f).pilots ∧ (∀ k, k < 33 → (laneOf t f k).txOn = false) ∧
      (∀ l ∈ t.opt.links, l.fibre = f → l.tx = true → l.inService = false) ∧ (rotOf t f).paused = true) ∧
  (∀ (f : Nat) (s : State), combsLit s = true → f < 16 → (fibreOf s f).los = true → (fibreOf s f).beaconOk = true → twf {} s.opt.fibres = true → twf {} s.opt.lanes = true →
    ∃ t, exec (.fibreRestored f) s = .next t ∧ (fibreOf t f).los = false ∧ (fibreOf t f).apr = false ∧ t.opt.links = s.opt.links ∧
      ((fibreOf s f).apr = true → litUp s = true → ∀ k, k < 33 → (laneOf t f k).txOn = !(laneOf s f k).failed) ∧
      ((fibreOf s f).apr = false → t.opt.lanes = s.opt.lanes)) ∧
  (∀ (f : Nat) (frame : Bytes) (power : Int) (s : State), combsLit s = true → f < 16 → modeOf s f ≠ .faceplate → s.sw.rcState ≠ 1 →
    (beaconGood frame = true →
      ∃ t, exec (.beaconFrame f frame power) s = .next t ∧ (fibreOf t f).rxModule = BitVec.ofNat 12 (rd frame 0 15 >>> 108) ∧
        (fibreOf t f).rxPort = BitVec.ofNat 4 (rd frame 0 15 >>> 104) ∧ (fibreOf t f).rxRank = BitVec.ofNat 4 (rd frame 0 15 >>> 100) ∧ (fibreOf t f).beaconOk = true ∧
        t.opt.links = s.opt.links ∧ t.opt.lanes = s.opt.lanes) ∧
    (beaconGood frame = false → exec (.beaconFrame f frame power) s = .next s)) ∧
  (∀ (s : State) (f : Nat), f < 16 → beaconGood (beaconFrame s f) = true ∧ BitVec.ofNat 12 (rd (beaconFrame s f) 0 15 >>> 108) = moduleId s ∧
    BitVec.ofNat 4 (rd (beaconFrame s f) 0 15 >>> 104) = BitVec.ofNat 4 f ∧ BitVec.ofNat 4 (rd (beaconFrame s f) 0 15 >>> 100) = s.tm.rank) ∧
  (∀ (k cause : Nat) (off : Int) (s : State), combsLit s = true → k < 4 → (combOf s k).lit = true → (combOf s k).failed = false → cause = 1 ∨ cause = 2 →
    s.opt.k4For = none → s.opt.k4Swap = none →
    ∃ t, exec (.combSourceFault k cause off) s = .next t ∧ (combOf t k).locked = false ∧ (combOf t k).failed = true ∧
      (∀ l ∈ t.opt.links, l.fibre / 4 = k → l.inService = false) ∧
      (k4Free s = true → t.opt.k4Swap = some { src := k, cause := cause, back := false }) ∧ (k4Free s = false → t.opt.k4Swap = none)) ∧
  (∀ (s : State) (w : K4Swap), combsLit s = true → s.opt.k4Swap = some w →
    w.cause = 3 ∨ (s.sw.fallbacks.all fun e => decide (e.2.sig ≠ sigOf 3 w.src 0)) = true →
    (w.back = false → ∃ t, exec (.combSwapComplete true) s = .next t ∧ t.opt.k4Swap = none ∧ t.opt.k4For = some w.src ∧ t.opt.links = s.opt.links) ∧
    (w.back = true → ∃ t, exec (.combSwapComplete true) s = .next t ∧ t.opt.k4Swap = none ∧ t.opt.k4For = none ∧ t.opt.links = s.opt.links) ∧
    (∃ t, exec (.combSwapComplete false) s = .next t ∧ t.opt.k4Swap = none ∧ t.opt.k4For = s.opt.k4For)) ∧
  (∀ (p : Pkt) (src : BitVec 8) (s u : State), src.toNat < 4 →
    (bodyState p 0x040B (le 1 src.toNat ++ le 1 0) s = some u →
      (litUp u = true → groupUsed u src.toNat = false → k4Free u = true →
        ∃ t, exec (.combSwapIn p src) s = .next t ∧ t.opt.k4Swap = some { src := src.toNat, cause := 3, back := false, pkt := some (p.ref 0x040B) } ∧
          (∀ l ∈ t.opt.links, l.fibre / 4 = src.toNat → l.inService = false)) ∧
      (litUp u = false ∨ groupUsed u src.toNat = true ∨ k4Free u = false → exec (.combSwapIn p src) s = .next (reply (p.ref 0x040B) 0x0201 [] u))) ∧
    (bodyState p 0x040B (le 1 src.toNat ++ le 1 1) s = some u →
      (litUp u = true → groupUsed u src.toNat = false → u.opt.k4For = some src.toNat → u.opt.k4Swap = none → ceReach u 0 = true →
        ∃ t, exec (.combSwapRestore p src) s = .next t ∧ t.opt.k4Swap = some { src := src.toNat, cause := 3, back := true, pkt := some (p.ref 0x040B) }) ∧
      (litUp u = false ∨ groupUsed u src.toNat = true ∨ u.opt.k4For ≠ some src.toNat ∨ u.opt.k4Swap ≠ none ∨ ceReach u 0 = false →
        exec (.combSwapRestore p src) s = .next (reply (p.ref 0x040B) 0x0201 [] u)))) ∧
  (∀ (cause j : Nat) (off : Int) (s : State), combsLit s = true → (combOf s 4).lit = true → (combOf s 4).failed = false → cause = 1 ∨ cause = 2 →
    s.opt.k4For = some j →
    ∃ t, exec (.combSourceFault 4 cause off) s = .next t ∧ (combOf t 4).locked = false ∧ (combOf t 4).failed = true ∧ t.opt.k4Swap = s.opt.k4Swap ∧
      ∀ l ∈ t.opt.links, l.fibre / 4 = j → l.inService = false)

/-! ### XN5 compatibility mode and faceplate mode -/

/-- The assignment exchange: a module that asks for lines keeps its transaction until it is answered; the assigner of the ring
grants the lowest lines that are free on every span of the arc, at most the count asked for, takes them from those spans, and answers
a repeat as it answered first; with no line it denies; every other module sends a request or a release on; a grant waits at each module of
the arc for its activation time, at which the lines are in use, and goes on round the ring; an answer ends the transaction at its source
alone; a transaction without an answer is repeated three times, and in XN5 mode only; a line that idles is released, and the
spans of its arc have it again (R2, R167 to R169). -/
def Obligations.LinesAreAssigned : Prop :=
  (∀ (f : Nat) (dst : BitVec 12) (n : Nat) (s : State), xnFibre s f = true → 1 ≤ n → n ≤ 8 → dst ∈ (ringOf s f).drop 1 →
    (isAssigner s f = false →
      ∃ t, exec (.xn5QueueHigh f dst n) s = .next t ∧ t.net.xaTxn = s.net.xaTxn + 1 ∧ t.net.xaFree = s.net.xaFree ∧
        t.net.xaTxns = s.net.xaTxns ++ [{ msg := { op := 1, txn := s.net.xaTxn, src := moduleId s, dst := dst, count := BitVec.ofNat 6 n }, repeats := 0, fibre := f }]) ∧
    (isAssigner s f = true →
      exec (.xn5QueueHigh f dst n) s = .next (beginTxn f { op := 1, dst := dst, count := BitVec.ofNat 6 n } s))) ∧
  (∀ (f : Nat) (b : Bytes) (s : State) (m : XaMsg), xnFibre s f = true → m = readXa b → m.op = 1 →
    (isAssigner s f = false → exec (.xaRequest f b) s = .next (xaSend f m s)) ∧
    (isAssigner s f = true → twf allLines s.net.xaFree = true →
    ((s.net.xaAnswers.any fun a => decide (a.src = m.src) && decide (a.txn = m.txn)) = false → m.src ∈ ringOf s f → m.dst ∈ ringOf s f →
      ((grantable s f (arcSpans s f m.src m.dst)).take m.count.toNat ≠ [] →
        ∃ t a, exec (.xaRequest f b) s = .next t ∧ a ∈ t.net.xaAnswers ∧ a.op = 2 ∧ a.src = m.src ∧ a.txn = m.txn ∧
          a.lines = BitVec.ofNat 33 (ofBits ((grantable s f (arcSpans s f m.src m.dst)).take m.count.toNat)) ∧
          (∀ x ∈ arcSpans s f m.src m.dst, spanFree t f x = spanFree s f x &&& ~~~a.lines) ∧
          (∀ x, x ∉ arcSpans s f m.src m.dst → spanFree t f x = spanFree s f x)) ∧
      ((grantable s f (arcSpans s f m.src m.dst)).take m.count.toNat = [] →
        ∃ t a, exec (.xaRequest f b) s = .next t ∧ a ∈ t.net.xaAnswers ∧ a.op = 3 ∧ a.src = m.src ∧ a.txn = m.txn ∧ t.net.xaFree = s.net.xaFree)) ∧
    (∀ a, (s.net.xaAnswers.find? fun a => decide (a.src = m.src) && decide (a.txn = m.txn) && decide (a.dst = m.dst)) = some a →
      exec (.xaRequest f b) s = .next (if a.op = 2 then takeGrant f a s else takeDeny f a s)))) ∧
  (∀ (f : Nat) (b : Bytes) (s : State), xnFibre s f = true → (readXa b).op = 2 → lineUse s f (readXa b) ≠ 0 →
    ∃ t, exec (.xaGrant f b) s = .next t ∧ (readXa b, f) ∈ t.net.xaPend ∧
      ((readXa b).src = moduleId s → t.net.xaTxns = s.net.xaTxns.filter fun x => decide (x.msg.txn ≠ (readXa b).txn)) ∧
      ((readXa b).src ≠ moduleId s → t.net.xaTxns = s.net.xaTxns) ∧ t.net.xaLines = s.net.xaLines ∧ t.opt.links = s.opt.links) ∧
  (∀ (f : Nat) (b : Bytes) (s : State), xnFibre s f = true → (readXa b).op = 2 → lineUse s f (readXa b) = 0 →
    exec (.xaGrant f b) s = .next (xaPass f (readXa b) s)) ∧
  (∀ (f : Nat) (b : Bytes) (s : State), xnFibre s f = true → (readXa b).op = 3 → (readXa b).src = moduleId s →
    ∃ t, exec (.xaDeny f b) s = .next t ∧ t.net.xaTxns = (s.net.xaTxns.filter fun x => decide (x.msg.txn ≠ (readXa b).txn)) ∧
      (s.db.svDown = false → suppressed evXn5AssignDenied s.db = false → s.pwr.nvInhibit = false → t.db.count = s.db.count + 1)) ∧
  (∀ (f : Nat) (b : Bytes) (s : State), xnFibre s f = true → (readXa b).src ≠ moduleId s →
    ((readXa b).op = 3 → exec (.xaDeny f b) s = .next (xaPass f (readXa b) s)) ∧
    ((readXa b).op = 5 → isAssigner s f = false → exec (.xaAck f b) s = .next (xaPass f (readXa b) s))) ∧
  (∀ (f : Nat) (b : Bytes) (s : State), xnFibre s f = true → (readXa b).op = 4 → isAssigner s f = false →
    exec (.xaRelease f b) s = .next (xaSend f (readXa b) s)) ∧
  (∀ (f : Nat) (b : Bytes) (s : State), xnFibre s f = true → (readXa b).op = 4 → isAssigner s f = true →
    (s.net.xaAnswers.any fun a => decide (a = (readXa b).ack)) = false → twf allLines s.net.xaFree = true →
    ∃ t, exec (.xaRelease f b) s = .next t ∧ (∀ x ∈ arcSpans s f (readXa b).src (readXa b).dst, spanFree t f x = spanFree s f x ||| (readXa b).lines) ∧
      (∀ x, x ∉ arcSpans s f (readXa b).src (readXa b).dst → spanFree t f x = spanFree s f x) ∧ (readXa b).ack ∈ t.net.xaAnswers) ∧
  (∀ (f : Nat) (b : Bytes) (s : State), xnFibre s f = true → (readXa b).op = 5 → (readXa b).src = moduleId s →
    ∃ t, exec (.xaAck f b) s = .next t ∧
      t.net.xaTxns = s.net.xaTxns.filter fun x => !(decide (x.msg.txn = (readXa b).txn) && decide (x.msg.op = 4))) ∧
  (∀ (txn : BitVec 16) (s : State) (x : XaTxn), (s.net.xaTxns.find? fun t => decide (t.msg.txn = txn)) = some x →
    (xnFibre s x.fibre = false → exec (.xn5TxnTimeout txn) s = .next s) ∧
    (xnFibre s x.fibre = true → x.repeats < 3 → ∃ t, exec (.xn5TxnTimeout txn) s = .next t ∧
      t.net.xaTxns = s.net.xaTxns.map fun y => if y.msg.txn = txn then { y with repeats := y.repeats + 1 } else y) ∧
    (xnFibre s x.fibre = true → 3 ≤ x.repeats → exec (.xn5TxnTimeout txn) s = .next (s.modNet fun n => { n with xaTxns := n.xaTxns.filter fun y => decide (y.msg.txn ≠ txn) }))) ∧
  (∀ (txn : BitVec 16) (s : State) (m : XaMsg) (f k : Nat), (s.net.xaPend.find? fun p => decide (p.1.txn = txn)) = some (m, f) → xnFibre s f = true →
    k ∈ setBits m.lines.toNat 33 → (laneOf s f k).failed = false → lineUse s f m ≠ 0 →
    ∃ t, exec (.xn5Activation txn) s = .next t ∧ t.net.xaPend = dropFirst (fun p => decide (p.1.txn = txn)) s.net.xaPend ∧
      tget 0 t.net.xaLines (laneKey f k) = lineUse s f m) ∧
  (∀ (f k : Nat) (s : State), xnFibre s f = true → k < 33 → tget 0 s.net.xaLines (laneKey f k) = 1 → pinned s f k = false → twf 0 s.net.xaLines = true →
    (isAssigner s f = false → ∃ t x, exec (.xn5LineIdle f k) s = .next t ∧ tget 0 t.net.xaLines (laneKey f k) = 0 ∧ (∀ l ∈ t.opt.links, l.fibre = f → k ∉ l.lanes) ∧
      t.net.xaTxns = s.net.xaTxns ++ [x] ∧ x.msg.op = 4 ∧ x.msg.lines = BitVec.ofNat 33 (2 ^ k) ∧ x.fibre = f) ∧
    (∀ l, isAssigner s f = true → (s.opt.links.find? fun l => decide (l.fibre = f) && l.tx && decide (k ∈ l.lanes)) = some l →
      (s.net.xaAnswers.all fun a => decide (a.src ≠ moduleId s)) = true → twf allLines s.net.xaFree = true →
      ∃ t, exec (.xn5LineIdle f k) s = .next t ∧ tget 0 t.net.xaLines (laneKey f k) = 0 ∧ (∀ l ∈ t.opt.links, l.fibre = f → k ∉ l.lanes) ∧
        ∀ x ∈ arcSpans s f (moduleId s) l.peer, (spanFree t f x).getLsbD k = true))

/-- Faceplate groups: a pluggable that is found leaves low power, takes the application of its ports and has its data path started; a bus
switch that stops answering is recorded once; a port that comes up has a link of one lane in service in each direction, and none once it
is down; a frame with a bad FCS, another EtherType, too few bytes or a bad cell is discarded and counted, as is a 1588 message on another
port than 0 or to another address, and a good cell is taken as from any link; CAGE_CONFIG sets ports and latencies, and with other ports
takes those that are up down and starts the pluggable again; CMIS_CDB passes its message on; GROUP_SET_MODE sets the mode of the four
fibres, with no image loaded and no light path on the group, and what that mode has not goes (R170 to R173, R237, R238, R240, R355, R439). -/
def Obligations.FaceplateGroups : Prop :=
  (∀ (g c : Nat) (s : State), litUp s = true → g < 4 → c < 2 → modeOf s (4 * g) = .faceplate →
    ((cageAt s (2 * g + c)).present = false →
      ∃ t, exec (.cagePresencePoll g c true [] true) s = .next t ∧ (cageAt t (2 * g + c)).present = true ∧ (cageAt t (2 * g + c)).dpStarted = true ∧
        (cageAt t (2 * g + c)).app = (cageAt s (2 * g + c)).eight ∧ (cageAt t (2 * g + c)).lowPower = false ∧ t.net.cmisDown = false ∧ t.db = s.db ∧ t.opt = s.opt) ∧
    (s.net.cmisDown = false →
      ∃ t, exec (.cagePresencePoll g c true [] false) s = .next t ∧ t.net.cmisDown = true ∧ t.net.cages = s.net.cages ∧
        (s.db.svDown = false → suppressed evCmisFault s.db = false → s.pwr.nvInhibit = false → t.db.count = s.db.count + 1)) ∧
    (s.net.cmisDown = true → exec (.cagePresencePoll g c true [] false) s = .next s)) ∧
  (∀ (p : Nat) (s : State), litUp s = true → facePort s p = true → (cageAt s (p / 8)).present = true → (cageAt s (p / 8)).dpStarted = true →
    (cageAt s (p / 8)).up.getLsbD (p % 8) = false →
    ∃ t, exec (.faceplatePortUp p) s = .next t ∧ (cageAt t (p / 8)).up.getLsbD (p % 8) = true ∧
      ∀ tx, ∃ l ∈ t.opt.links, l.fibre = portFibre p ∧ l.link.toNat = portLinkNo p ∧ l.tx = tx ∧ l.inService = true) ∧
  (∀ (p : Nat) (s : State), litUp s = true → facePort s p = true → (cageAt s (p / 8)).up.getLsbD (p % 8) = true → twf {} s.net.cages = true →
    ∃ t, exec (.faceplatePortDown p) s = .next t ∧ (cageAt t (p / 8)).up.getLsbD (p % 8) = false ∧
      ∀ l ∈ t.opt.links, l.fibre ≠ portFibre p ∨ l.link.toNat ≠ portLinkNo p) ∧
  (∀ (p : Nat) (frame : Bytes) (s : State), litUp s = true → facePort s p = true → (cageAt s (p / 8)).up.getLsbD (p % 8) = true →
    (fcsOk frame = false → exec (.faceplateFrame p frame) s = .next (frameDiscard p s)) ∧
    (fcsOk frame = true → etherType frame = 0x88F7 → p % 8 ≠ 0 ∨ frame.take 6 ≠ ptpMac →
      exec (.faceplateFrame p frame) s = .next (ptpDiscard (facePtpPort p) s)) ∧
    (fcsOk frame = true → etherType frame ≠ 0x88F7 → etherType frame ≠ (tget 0x88B5 s.net.etherType (p / 16)).toNat ∨ (frameBody frame).length < 1056 →
      exec (.faceplateFrame p frame) s = .next (frameDiscard p s)) ∧
    (fcsOk frame = true → etherType frame ≠ 0x88F7 → etherType frame = (tget 0x88B5 s.net.etherType (p / 16)).toNat → 1056 ≤ (frameBody frame).length →
      cellBad 0 [] ((frameBody frame).take 1056) = true → exec (.faceplateFrame p frame) s = .next (portCrcError p (frameDiscard p s))) ∧
    (fcsOk frame = true → etherType frame ≠ 0x88F7 → etherType frame = (tget 0x88B5 s.net.etherType (p / 16)).toNat → 1056 ≤ (frameBody frame).length →
      cellBad 0 [] ((frameBody frame).take 1056) = false → cellType ((frameBody frame).take 1056) ≠ 2 →
      exec (.faceplateFrame p frame) s = .next (cellArrival {} (portFibre p) (portLinkNo p) ((frameBody frame).take 1056) s)) ∧
    (fcsOk frame = true → etherType frame ≠ 0x88F7 → etherType frame = (tget 0x88B5 s.net.etherType (p / 16)).toNat → 1056 ≤ (frameBody frame).length →
      cellBad 0 [] ((frameBody frame).take 1056) = false → cellType ((frameBody frame).take 1056) = 2 → physUp s (portFibre p) (portLinkNo p) false = true →
      exec (.faceplateFrame p frame) s = .next (serviceArrival (portFibre p) (portLinkNo p) ((frameBody frame).take 1056) s))) ∧
  (∀ (p : Pkt) (group cage ports : BitVec 8) (eg ing : BitVec 32) (s u : State),
    bodyState p 0x0409 (le 1 group.toNat ++ le 1 cage.toNat ++ le 1 ports.toNat ++ le 4 eg.toNat ++ le 4 ing.toNat) s = some u →
    group.toNat < 4 → cage.toNat < 2 → ports.toNat < 2 → ceReach u 0 = true → twf {} u.net.cages = true →
    ∃ t, exec (.cageConfig p group cage ports eg ing) s = .next t ∧
      (cageAt t (2 * group.toNat + cage.toNat)).eight = decide (ports = 1) ∧ (cageAt t (2 * group.toNat + cage.toNat)).egress = eg ∧
      (cageAt t (2 * group.toNat + cage.toNat)).ingress = ing ∧
      ((cageAt u (2 * group.toNat + cage.toNat)).eight = decide (ports = 1) →
        cageAt t (2 * group.toNat + cage.toNat) = { cageAt u (2 * group.toNat + cage.toNat) with egress := eg, ingress := ing }) ∧
      ((cageAt u (2 * group.toNat + cage.toNat)).eight ≠ decide (ports = 1) →
        (litUp u = true → ∀ i, i < 8 → facePort u (8 * (2 * group.toNat + cage.toNat) + i) = true → (cageAt t (2 * group.toNat + cage.toNat)).up.getLsbD i = false) ∧
        ((cageAt u (2 * group.toNat + cage.toNat)).present = true →
          (cageAt t (2 * group.toNat + cage.toNat)).dpStarted = true ∧ (cageAt t (2 * group.toNat + cage.toNat)).app = decide (ports = 1)))) ∧
  (∀ (p : Pkt) (group cage : BitVec 8) (buf : Buf) (msg answer : Bytes) (s u : State),
    bodyState p 0x040A (le 1 group.toNat ++ le 1 cage.toNat ++ le 2 msg.length ++ buf.bytes ++ msg) s = some u → group.toNat < 4 → cage.toNat < 2 →
    (litUp u = true → modeOf u ((2 * group.toNat + cage.toNat) / 2 * 4) = .faceplate → (cageAt u (2 * group.toNat + cage.toNat)).present = true →
      u.net.cmisDown = false → ceReach u 0 = true →
      exec (.cmisCdb p group cage buf msg answer true) s =
        .next (replyBuf (p.ref 0x040A) buf answer [] (emit .cmis (2 * group.toNat + cage.toNat) msg u))) ∧
    (∀ ok, litUp u = false ∨ modeOf u ((2 * group.toNat + cage.toNat) / 2 * 4) ≠ .faceplate ∨ (cageAt u (2 * group.toNat + cage.toNat)).present = false ∨
        u.net.cmisDown = true ∨ ceReach u 0 = false →
      exec (.cmisCdb p group cage buf msg answer ok) s = .next (reply (p.ref 0x040A) 0x0201 [] u))) ∧
  (∀ (p : Pkt) (group mode : BitVec 8) (ether : BitVec 16) (s u : State), bodyState p 0x0408 (le 1 group.toNat ++ le 1 mode.toNat ++ le 2 ether.toNat) s = some u →
    group.toNat < 4 → mode.toNat < 3 →
    (imageLoaded u = true ∨ groupPaths u group.toNat = true ∨ ceReach u 0 = false ∨ (mode = 2 ∧ u.net.cmisDown = true) → exec (.groupSetMode p group mode ether) s = .next (reply (p.ref 0x0408) 0x0201 [] u)) ∧
    (imageLoaded u = false → groupPaths u group.toNat = false → ceReach u 0 = true → mode ≠ 2 ∨ u.net.cmisDown = false → twf {} u.opt.fibres = true →
      twf 0x88B5 u.net.etherType = true →
      ∃ t, exec (.groupSetMode p group mode ether) s = .next t ∧ (∀ c, c < 4 → (fibreOf t (4 * group.toNat + c)).mode = groupModes.getD mode.toNat .native ∨
          modeOf u (4 * group.toNat) = groupModes.getD mode.toNat .native) ∧
        modeOf t (4 * group.toNat) = groupModes.getD mode.toNat .native ∧ tget 0x88B5 t.net.etherType group.toNat = ether ∧
        (litUp u = true → modeOf u (4 * group.toNat) ≠ groupModes.getD mode.toNat .native →
          (mode.toNat ≠ 0 → ∀ l ∈ t.opt.links, l.fibre / 4 ≠ group.toNat) ∧
          (mode.toNat = 0 → ∀ f k, f / 4 = group.toNat → k < 33 → xpSet t.sw.xps k 16 f = true ∧ xpSet t.sw.xps k f 16 = true))))

/-! ### Light paths -/

/-- Path plans of the host: SET_LIGHT_PATHS answers PENDING and keeps a plan that passes the checks, answers the code of the check that
fails, and is refused while another plan is kept, below Lit, or without valid time; PATH_PLAN_CANCEL takes it back until 1 ms before
its time; at that time every crosspoint of the plan is set or being set, and what the plan removes is gone; when each of its links
has passed or failed, the packet has its reply (R184, R186 to R188, R190, R191, R355). -/
def Obligations.PlansOfTheHost : Prop :=
  (∀ (p : Pkt) (plan : Bytes) (s u : State), bodyState p 0x0401 plan s = some u →
    (u.sw.plan.isSome = true ∨ litUp u = false ∨ ceReach u 0 = false → exec (.setLightPaths p plan) s = .next (reply (p.ref 0x0401) 0x0201 [] u)) ∧
    (u.sw.plan = none → litUp u = true → ceReach u 0 = true → u.tm.valid = false →
      exec (.setLightPaths p plan) s = .next (reply (p.ref 0x0401) 0x0202 [] u)) ∧
    (u.sw.plan = none → litUp u = true → ceReach u 0 = true → u.tm.valid = true → planCheck false (readPlan plan) u ≠ 0 →
      exec (.setLightPaths p plan) s = .next (reply (p.ref 0x0401) (planCheck false (readPlan plan) u) [] u)) ∧
    (u.sw.plan = none → litUp u = true → ceReach u 0 = true → u.tm.valid = true → planCheck false (readPlan plan) u = 0 →
      exec (.setLightPaths p plan) s =
        .next (replyPending (p.ref 0x0401) (u.modSw fun w => { w with plan := some { plan := readPlan plan, pkt := some (p.ref 0x0401) } })))) ∧
  (∀ (p : Pkt) (num : BitVec 32) (s u : State), bodyState p 0x0402 (le 4 num.toNat) s = some u →
    (∀ r ref, u.sw.plan = some r → r.plan.planId = num → r.phase = .waiting → 64000000 < timeDiff r.plan.act u.tm.ft → r.pkt = some ref →
      exec (.pathPlanCancel p num) s = .next (reply (p.ref 0x0402) 0 [] (reply ref 0x0203 [] (u.modSw fun w => { w with plan := none })))) ∧
    (∀ r, u.sw.plan = some r → r.plan.planId ≠ num ∨ r.phase = .active ∨ timeDiff r.plan.act u.tm.ft ≤ 64000000 →
      exec (.pathPlanCancel p num) s = .next (reply (p.ref 0x0402) 0x0201 [] u)) ∧
    (u.sw.plan = none → exec (.pathPlanCancel p num) s = .next (reply (p.ref 0x0402) 0x0201 [] u))) ∧
  (∀ (s : State) (r : PlanRun), litUp s = true → ceReach s 0 = true → s.sw.plan = some r → r.phase = .waiting →
    ((planSets s r.plan.mode.toNat (liveEnts s r.plan false)).all fun a => (planSets s r.plan.mode.toNat (liveEnts s r.plan false)).all fun b => !a.clash b) = true →
    ∃ t q, exec .planActivation s = .next t ∧ t.sw.plan = some q ∧ q.phase = .active ∧ q.plan = r.plan ∧ q.pkt = r.pkt ∧ q.startSc = s.sc ∧
      (∀ x ∈ planSets s r.plan.mode.toNat (liveEnts s r.plan false), ∃ y ∈ t.sw.xps, y.same x = true) ∧
      (∀ y ∈ t.sw.xps, (∃ x ∈ planSets s r.plan.mode.toNat (liveEnts s r.plan false), y.same x = true) ∨
        ∃ z ∈ s.sw.xps, y.same z = true ∧ planDrops s r.plan.mode.toNat (liveEnts s r.plan false) z = false)) ∧
  (∀ (s : State), s.sw.plan = none → exec .planActivation s = .next s) ∧
  (∀ (s : State) (r : PlanRun) (ref : PktRef), litUp s = true → s.sw.fbRun = none → s.sw.plan = some r → r.phase = .active → r.pkt = some ref → s.sw.fbNext = [] →
    (s.opt.links.all fun l => !(decide ((l.fibre, l.link.toNat, l.tx) ∈ r.links) && !l.inService && decide (l.verified = none))) = true →
    ∃ v, exec .pathPlanComplete s = .next (reply ref 0 (leSat 2 r.okLinks ++ leSat 2 r.badLinks ++ leSat 4 (usSince s r.startSc)) v) ∧ v.sw.plan = none ∧
      v.opt = s.opt ∧ (s.db.svDown = false → suppressed evPathPlanComplete s.db = false → s.pwr.nvInhibit = false → v.db.count = s.db.count + 1))

/-- Rings and links: a ring that has counted its lines and found its spacing opens its gate; a wrong lock moves it and counts again, and
after the second the crosspoint has failed, as the lane of a photonic ring has; a link whose lanes deskew within 64 ns is locked, one that
shows every lane tag is verified, and one that shows a wrong tag is not, and its rings on that line step again; a line check sets the
rings of its path on that line and its neighbours on their step again; the slow plane's heater power stays within the allotment through
every admission; SET_CROSSPOINT is refused where two sources would meet (R157, R175, R190, R191, R193, R198 to R200, R277, R355). The
coding of photonic rings as outputs 14 and 15 is the model's (log entry 98). -/
def Obligations.RingsAndVerification : Prop :=
  (∀ (line inp out count : Nat) (spaced : Bool) (s : State) (x : Xp), litUp s = true → out ≠ 14 → out ≠ 15 →
    (s.sw.xps.find? fun x => decide (x.line = line) && decide (x.inp = inp) && decide (x.out = out) && decide (x.st = .stepping)) = some x →
    (count = lockCount line → spaced = true →
      ∃ t, exec (.ringStepComplete line inp out count spaced) s = .next t ∧ (∃ y ∈ t.sw.xps, y.same x = true ∧ y.st = .held ∧ y.relocks = 0) ∧
        t.life.heaterTotal = s.life.heaterTotal + 1) ∧
    (count ≠ lockCount line ∨ spaced = false → x.relocks < 2 →
      ∃ t, exec (.ringStepComplete line inp out count spaced) s = .next t ∧ (∃ y ∈ t.sw.xps, y.same x = true ∧ y.st = .stepping ∧ y.relocks = x.relocks + 1)) ∧
    (count ≠ lockCount line ∨ spaced = false → 2 ≤ x.relocks →
      ∃ t, exec (.ringStepComplete line inp out count spaced) s = .next t ∧ (∃ y ∈ t.sw.xps, y.same x = true ∧ y.st = .failed))) ∧
  (∀ (f x count : Nat) (spaced : Bool) (s : State), litUp s = true → f < 16 → x < 33 → twf 0 s.ce.rings = true →
    (count = lockCount x → spaced = true → ∃ t, exec (.ringStepComplete x f 14 count spaced) s = .next t ∧ tget 0 t.ce.rings (photonKey true f x) = 0 ∧ t.opt = s.opt ∧ t.db = s.db) ∧
    (count ≠ lockCount x ∨ spaced = false → tget 0 s.ce.rings (photonKey true f x) < 2 →
      ∃ t, exec (.ringStepComplete x f 14 count spaced) s = .next t ∧ tget 0 t.ce.rings (photonKey true f x) = tget 0 s.ce.rings (photonKey true f x) + 1 ∧ t.opt = s.opt ∧
        (s.db.svDown = false → suppressed evWrongLineLock s.db = false → s.pwr.nvInhibit = false → t.db.count = s.db.count + 1)) ∧
    (count ≠ lockCount x ∨ spaced = false → 2 ≤ tget 0 s.ce.rings (photonKey false f x) → (laneOf s f x).failed = false →
      exec (.ringStepComplete x f 15 count spaced) s = .next (txLaneFails f x (laneFailed f x 3 (photonDone false f x s))))) ∧
  (∀ (fibre link lane skew : Nat) (s : State) (l : PhysLink), litUp s = true → physLink s fibre link false = some l → l.inService = false → l.locked = false →
    linkLit s l = true → (fibreOf s fibre).los = false →
    (skew ≤ 64 → ∃ t m, exec (.linkDeskewComplete fibre link lane skew) s = .next t ∧ physLink t fibre link false = some m ∧ m.locked = true ∧ m.inService = false ∧
      ∀ k ∈ l.lanes, k < 33 → (laneOf t fibre k).fecLock = true) ∧
    (64 < skew → ∃ t, exec (.linkDeskewComplete fibre link lane skew) s = .next t ∧ t.opt = s.opt ∧
      (s.db.svDown = false → suppressed evDeskewFail s.db = false → s.pwr.nvInhibit = false → t.db.count = s.db.count + 1))) ∧
  (∀ (fibre link : Nat) (tx : Bool) (tags : List Nat) (s : State) (l : PhysLink), litUp s = true → physLink s fibre link tx = some l → l.inService = false →
    l.verified = none → (if tx then mayLight s fibre else l.locked) = true → linkLit s l = true →
    (wrongTags l tags = [] → ∃ t m, exec (.linkVerificationDone fibre link tx tags) s = .next t ∧ physLink t fibre link tx = some m ∧ m.verified = some true ∧ m.inService = false) ∧
    (wrongTags l tags ≠ [] → tx = true ∨ (s.sw.fallbacks.all fun e => decide (e.2.sig.toNat / 512 ≠ (sigOf 5 fibre link).toNat / 512)) = true →
      ∃ t m, exec (.linkVerificationDone fibre link tx tags) s = .next t ∧ physLink t fibre link tx = some m ∧ m.verified = some false ∧ m.inService = false ∧
        ∀ q ∈ wrongTags l tags, ∀ y ∈ t.sw.xps, y.fast = false → y.tag = l.tag → q.1 ≤ y.line + 1 → y.line ≤ q.1 + 1 → y.st ≠ .held)) ∧
  (∀ (port : Nat) (b : Bytes) (s u : State), litUp s = true → (readNotice b).kind = 3 → takeNotice (readNotice b) port s = some (true, u) →
    ∃ t, exec (.lineCheckNotice port b) s = .next t ∧ t.opt = u.opt ∧
      (∀ y ∈ t.sw.xps, y.fast = false → y.tag.toNat = rd (readNotice b).body 0 2 → rd (readNotice b).body 2 1 ≤ y.line + 1 → y.line ≤ rd (readNotice b).body 2 1 + 1 → y.st ≠ .held) ∧
      (∀ x ∈ u.sw.xps, x.st = .held → x.tag.toNat ≠ rd (readNotice b).body 0 2 → x ∈ t.sw.xps)) ∧
  (∀ (s : State), heaterPower s ≤ allotment s → heaterPower (admitNow s) ≤ allotment (admitNow s)) ∧
  (∀ (p : Pkt) (line inp out : BitVec 8) (s u : State) (x : Xp), x = { line := line.toNat, inp := inp.toNat, out := out.toNat, st := .waiting } →
    xpOk line.toNat inp.toNat out.toNat = true →
    (bodyState p 0x040C (le 1 line.toNat ++ le 1 inp.toNat ++ le 1 out.toNat ++ le 1 1) s = some u →
      (xpAllowed x u = false → exec (.setCrosspoint p line inp out) s = .next (reply (p.ref 0x040C) 0x0201 [] u)) ∧
      ((u.sw.xps.any fun y => y.clash x && decide (y.st ≠ .failed)) = true → exec (.setCrosspoint p line inp out) s = .next (reply (p.ref 0x040C) 0x0201 [] u)) ∧
      (xpAllowed x u = true → (u.sw.xps.any fun y => y.clash x && decide (y.st ≠ .failed)) = false →
        ∃ t, exec (.setCrosspoint p line inp out) s = .next t ∧ (∃ y ∈ t.sw.xps, y.same x = true) ∧ t.opt = u.opt)) ∧
    (bodyState p 0x040C (le 1 line.toNat ++ le 1 inp.toNat ++ le 1 out.toNat ++ le 1 0) s = some u → xpAllowed x u = true →
      ∃ t, exec (.clearCrosspoint p line inp out) s = .next t ∧ (∀ y ∈ t.sw.xps, y.same x = false) ∧
        (∀ y ∈ u.sw.xps, y.same x = false → ∃ z ∈ t.sw.xps, z.same y = true)))

/-! ### Fallback plans, messages between Prefects, roll call -/

/-- Fallback plans: stored and armed under the fabric profile in force, or answered with the check that fails; armed and disarmed by a
mask, a plan of another profile staying disarmed; read back; a fault whose kind, fibre and link match none is recorded, and one that matches
runs the armed plan of lowest index, which disarms, or queues it behind the plan that runs; with no accepted Prefect none runs, and while a
warm start restarts the Prefects the fault waits; a fault notice of another module, acknowledged where it asks for that, is
matched in the same way (R6, R14, R194 to R197, R319, R323, R324, R355, R371). -/
def Obligations.FallbackPlans : Prop :=
  (∀ (p : Pkt) (index : BitVec 8) (sig : BitVec 32) (plan : Bytes) (s u : State), bodyState p 0x0403 (le 1 index.toNat ++ le 4 sig.toNat ++ plan) s = some u →
    (index.toNat < 16 → 1 ≤ fld sig.toNat 28 4 → fld sig.toNat 28 4 ≤ 5 →
      (planCheck true (readPlan plan) u = 0 →
        ∃ t, exec (.storeFallback p index sig plan) s = .next t ∧ (tget {} t.sw.fallbacks index.toNat).plan = readPlan plan ∧
          (tget {} t.sw.fallbacks index.toNat).sig = sig ∧ (tget {} t.sw.fallbacks index.toNat).armed = true ∧ (tget {} t.sw.fallbacks index.toNat).profId = u.prof.fabId ∧
          (∀ k, k ≠ index.toNat → tget {} t.sw.fallbacks k = tget {} u.sw.fallbacks k) ∧ t.opt = u.opt ∧ t.sw.xps = u.sw.xps) ∧
      (planCheck true (readPlan plan) u ≠ 0 → exec (.storeFallback p index sig plan) s = .next (reply (p.ref 0x0403) (planCheck true (readPlan plan) u) [] u))) ∧
    (16 ≤ index.toNat ∨ fld sig.toNat 28 4 = 0 ∨ 5 < fld sig.toNat 28 4 →
      exec (.storeFallback p index sig plan) s = .next (reply (p.ref 0x0403) 0x0105 [] u))) ∧
  (∀ (p : Pkt) (mask : BitVec 16) (s u : State),
    (bodyState p 0x0404 (le 2 mask.toNat ++ le 1 1) s = some u →
      ∃ t, exec (.fallbackArm p mask) s = .next t ∧ t.sw.fallbacks.map (·.1) = u.sw.fallbacks.map (·.1) ∧ t.opt = u.opt ∧
        ∀ e ∈ t.sw.fallbacks, e.2.armed = true → (∃ d ∈ u.sw.fallbacks, d.1 = e.1 ∧ d.2.armed = true) ∨ (mask.getLsbD e.1 = true ∧ e.2.profId = u.prof.fabId)) ∧
    (bodyState p 0x0404 (le 2 mask.toNat ++ le 1 1) s = some u →
      ∃ t, exec (.fallbackArm p mask) s = .next t ∧ ∀ e ∈ u.sw.fallbacks, mask.getLsbD e.1 = true → e.2.profId = u.prof.fabId →
        (e.1, { e.2 with armed := true, used := false }) ∈ t.sw.fallbacks) ∧
    (bodyState p 0x0404 (le 2 mask.toNat ++ le 1 0) s = some u →
      ∃ t, exec (.fallbackDisarm p mask) s = .next t ∧ (∀ e ∈ t.sw.fallbacks, mask.getLsbD e.1 = true → e.2.armed = false) ∧
        (∀ e ∈ u.sw.fallbacks, mask.getLsbD e.1 = false → e ∈ t.sw.fallbacks))) ∧
  (∀ (p : Pkt) (index : BitVec 8) (buf : Buf) (s u : State), bodyState p 0x0405 (le 1 index.toNat ++ buf.bytes) s = some u → index.toNat < 16 →
    (∀ e, (u.sw.fallbacks.find? fun e => decide (e.1 = index.toNat)) = some e →
      exec (.fallbackRead p index buf) s = .next (replyBuf (p.ref 0x0405) buf (e.2.image ++ le 4 e.2.sig.toNat ++ le 1 (b2n e.2.armed)) [] u)) ∧
    ((u.sw.fallbacks.find? fun e => decide (e.1 = index.toNat)) = none → exec (.fallbackRead p index buf) s = .next (reply (p.ref 0x0405) 0x0201 [] u))) ∧
  (∀ (sig : BitVec 32) (s : State), prefectsDown s = false → ceReach s 0 = true →
    ((s.sw.fallbacks.all fun e => decide (e.2.sig.toNat / 512 ≠ sig.toNat / 512)) = true →
      fault sig s = raise evFallbackNoMatch (pfxSrc s) (le 4 sig.toNat) (prefectInput s)) ∧
    (∀ i f, ((s.sw.fallbacks.filter fun e => decide (e.2.sig.toNat / 512 = sig.toNat / 512) && decide (e.2.profId = s.prof.fabId) && !xnFault sig s).find? fun e => e.2.armed) = some (i, f) →
      twf {} s.sw.fallbacks = true →
      (tget {} (fault sig s).sw.fallbacks i).armed = false ∧ (tget {} (fault sig s).sw.fallbacks i).used = true ∧
        (∀ j g, j < i → (j, g) ∈ s.sw.fallbacks → g.sig.toNat / 512 = sig.toNat / 512 → g.profId = s.prof.fabId → g.armed = false) ∧
        (s.sw.plan = none → s.sw.fbRun = none → ∃ r, (fault sig s).sw.fbRun = some r ∧ r.fallback = some i ∧ r.plan = f.plan) ∧
        (s.sw.fbRun.isSome = true → (fault sig s).sw.fbNext = s.sw.fbNext ++ [(i, sig)]))) ∧
  (∀ (sig : BitVec 32) (s : State), prefectsDown s = true → fault sig s = s.modSw fun w => { w with faults := w.faults ++ [sig] }) ∧
  (∀ (sig : BitVec 32) (s : State), prefectsDown s = false → ceReach s 0 = false → fault sig s = prefectInput s) ∧
  (∀ (port : Nat) (msg : Bytes) (s : State), litUp s = true → pmKind msg = 1 → port < 1024 →
    (pmDst msg = moduleId s → p2pSeen msg s = false →
      exec (.faultNotice port msg) s =
        .next (fault (BitVec.ofNat 32 (rd msg 16 4)) (p2pNote msg (if pmAckReq msg then p2pAck msg (prefectInput s) else prefectInput s)))) ∧
    (pmDst msg = moduleId s → p2pSeen msg s = true →
      exec (.faultNotice port msg) s = .next (if pmAckReq msg then p2pAck msg (prefectInput s) else prefectInput s)) ∧
    (pmDst msg ≠ moduleId s → exec (.faultNotice port msg) s = .next (p2pRelay 2 msg (prefectInput s))))

/-- Messages between Prefects: an acknowledgement ends the repeats of its message, or is relayed to the module it is for with one hop less; a
message that is not acknowledged is sent, by each Prefect that sends, three times in all and then given up with P2P_UNDELIVERED, and one at its last hop is not relayed (R225, R323, R324).
Roll call and the fast plane: ROLL_CALL opens with its identifier and no results, each tick of the timer sends an answer on every
link without an express hop, an answer adds its one-way time, the end is answered, and closing shows `BC.RC_STATE` 3; a slot boundary
gives the fast plane the slot's configuration, or inside a calibration window the home configuration, and leaves the slow plane as it is (R182, R183, R202, R205, R206). -/
def Obligations.PrefectMessagesRollCallAndSlots : Prop :=
  (∀ (port : Nat) (msg : Bytes) (s : State), litUp s = true → pmKind msg = 2 → port < 1024 →
    (pmDst msg = moduleId s → ∃ t, exec (.p2pAck port msg) s = .next t ∧
      (∀ m, m ∈ t.pfx.outbox ↔ m ∈ s.pfx.outbox ∧ ¬(m.dst = pmSrc msg ∧ m.mseq = pmSeq msg)) ∧ t.net = s.net) ∧
    (pmDst msg ≠ moduleId s → pmTtl msg ≠ 0 → ∀ l, routeLink s (pmDst msg) = some l → l.up s = true →
      exec (.p2pAck port msg) s = .next (queueMsg l.phys 2 (le 16 (rd msg 0 16 - 2 ^ 87) ++ msg.drop 16) (prefectInput s))) ∧
    (pmDst msg ≠ moduleId s → pmTtl msg = 0 → ∃ t, exec (.p2pAck port msg) s = .next t ∧ t.net.msgs = s.net.msgs ∧
      (s.db.svDown = false → suppressed evNoticeTtlExpired s.db = false → s.pwr.nvInhibit = false → t.db.count = s.db.count + 1))) ∧
  (∀ (q : BitVec 24) (s : State) (m : P2pMsg), litUp s = true → (s.pfx.outbox.find? fun m => decide (m.mseq = q)) = some m →
    (m.copies < 3 →
      ∃ t, exec (.p2pMessageRepeat q) s = .next t ∧ (t.pfx.outbox.find? fun m => decide (m.mseq = q)) = some { m with copies := m.copies + 1 } ∧
        (∀ l, routeLink s m.dst = some l → l.up s = true →
          ∃ xs, t.net.msgs = s.net.msgs ++ xs ∧ xs.length = (sendingUnits s).length ∧
            ∀ x ∈ xs, x.link = l.phys ∧ x.ty = 2 ∧ pmSeq x.body = q ∧ pmKind x.body = m.kind.toNat ∧ pmDst x.body = m.dst)) ∧
    (m.copies < 3 → exec (.p2pUndelivered q) s = .next s) ∧
    (3 ≤ m.copies → exec (.p2pMessageRepeat q) s = .next s) ∧
    (3 ≤ m.copies →
      ∃ t, exec (.p2pUndelivered q) s = .next t ∧ t.pfx.outbox = dropFirst (fun x => decide (x.mseq = q)) s.pfx.outbox ∧ t.net = s.net ∧
        (s.db.svDown = false → suppressed evP2pUndelivered s.db = false → s.pwr.nvInhibit = false → t.db.count = s.db.count + 1))) ∧
  (∀ (p : Pkt) (ident : BitVec 32) (s u : State), bodyState p 0x0406 (le 1 0 ++ le 4 ident.toNat) s = some u →
    (litUp u = true →
      exec (.rollCallOpen p ident) s =
        .next (replyPending (p.ref 0x0406) ((replyOpt u.sw.rcPkt 0x0203 [] u).modSw fun w => { w with rcState := 1, rcId := ident, rcPkt := some (p.ref 0x0406), rc := [] }))) ∧
    (litUp u = false → exec (.rollCallOpen p ident) s = .next (reply (p.ref 0x0406) 0x0201 [] u))) ∧
  (∀ (p : Pkt) (ident : BitVec 32) (s u : State), bodyState p 0x0406 (le 1 1 ++ le 4 ident.toNat) s = some u →
    exec (.rollCallClose p ident) s = .next (reply (p.ref 0x0406) 0 [] ((replyOpt u.sw.rcPkt 0x0203 [] u).modSw fun w => { w with rcState := 3, rcPkt := none }))) ∧
  (∀ (s : State), litUp s = true → s.sw.rcState = 1 →
    ∃ t, exec .rollCallAnswerTimer s = .next t ∧
      (t.net.msgs.map fun m => (m.link, m.ty)) =
        (s.net.msgs.map fun m => (m.link, m.ty)) ++ (s.opt.links.filter fun l => l.tx && l.noHop && l.inService).map fun l => (l.key, 4)) ∧
  (∀ (s : State), s.sw.rcState ≠ 1 → exec .rollCallAnswerTimer s = .next s ∧ exec .rollCallDone s = .next s) ∧
  (∀ (fibre link : Nat) (msg : Bytes) (trx : BitVec 64) (s : State) (l : PhysLink), litUp s = true → physLink s fibre link false = some l → l.hops = 0 → s.sw.rcState = 1 →
    (rd msg 28 4 = s.sw.rcId.toNat →
      ∃ t, exec (.rollCallAnswer fibre link msg trx) s = .next t ∧ (rcOf t fibre).answers = (rcOf s fibre).answers + 1 ∧
        (rcOf t fibre).sumOne = (rcOf s fibre).sumOne + timeDiff trx (BitVec.ofNat 64 (rd msg 16 8)) ∧ ∀ g, g ≠ fibre → rcOf t g = rcOf s g) ∧
    (rd msg 28 4 ≠ s.sw.rcId.toNat → exec (.rollCallAnswer fibre link msg trx) s = .next s)) ∧
  (∀ (s : State) (ref : PktRef), litUp s = true → s.sw.rcState = 1 → s.sw.rcPkt = some ref →
    ∃ v, exec .rollCallDone s = .next (reply ref 0 [] v) ∧ v.sw.rcState = 2 ∧ v.sw.rcPkt = none ∧ v.sw.rc = s.sw.rc) ∧
  (∀ (p : Pkt) (fibre : BitVec 8) (s u : State), bodyState p 0x0407 (le 1 fibre.toNat) s = some u →
    (fibre.toNat < 16 → ∃ v lat two, exec (.rollCallRead p fibre) s =
        .next (reply (p.ref 0x0407) 0 (le 2 (rcOf u fibre.toNat).module.toNat ++ le 1 (rcOf u fibre.toNat).port.toNat ++ le 1 (rcOf u fibre.toNat).rank.toNat ++
          le 2 (rcOf u fibre.toNat).power.toNat ++ leSat 2 (rcOf u fibre.toNat).answers ++ leInt 8 lat ++ le 1 (b2n two)) v) ∧ v.sw = u.sw ∧
        ((rcOf u fibre.toNat).answers ≠ 0 → u.tm.valid = true → two = false ∧
          2 * (lat * (rcOf u fibre.toNat).answers - (rcOf u fibre.toNat).sumOne).natAbs ≤ (rcOf u fibre.toNat).answers)) ∧
    (16 ≤ fibre.toNat → exec (.rollCallRead p fibre) s = .next (reply (p.ref 0x0407) 0x0105 [] u))) ∧
  (∀ (fibres : List Nat) (offs : List Int) (s : State) (i : Image) (t : SlotTable), s.job.image = some i → i.slots = some t → litUp s = true →
    s.job.gridOn = true →
    ∃ u, exec (.fastplaneSlotBoundary fibres offs) s = .next u ∧ u.job.slot = s.job.slot + 1 ∧
      (s.job.slot ∉ calSlots (oppF i) i.recess →
        u.sw.xps = (s.sw.xps.filter fun x => !x.fast) ++ confXps (t.confs.getD (t.slots.getD s.job.slot 0) 0)) ∧
      (s.job.slot ∈ calSlots (oppF i) i.recess → u.sw.xps = (s.sw.xps.filter fun x => !x.fast) ++ fastHome)) ∧
  (∀ (fibres : List Nat) (offs : List Int) (s : State), slotMode s = false → exec (.fastplaneSlotBoundary fibres offs) s = .next s)

/-! ### Fabric time -/

/-- The 1588 messages: a MASTER port sends Sync, every port with a neighbour Pdelay_Req and Announce, each under its own count, and a
request is answered, on a fibre with the next service cell and on a faceplate port in an Ethernet frame; on the SLAVE port a Sync gives the
offset, which steps a time that was never valid once and else slews, and above 320 units ends valid time; the answer to the newest
request gives the mean path delay; a message of another profile is discarded and counted; Announce gives the neighbour's dataset until its
receipt times out; the module with the best dataset is grandmaster with rank 0, and no other is; holdover without a parent ends valid time
(R236 to R241, R243, R244, R246). -/
def Obligations.PtpMessages : Prop :=
  (∀ (port : Nat) (s : State) (l : PhysLink) (m : BitVec 12), ptpPort s port = true → port ≤ 16 → ptpLink s (port - 1) = some (l, m) → twf {} s.tm.ports = true →
    (portState s port = .master →
      ∃ t x, exec (.ptpSyncSend port) s = .next t ∧ t.net.msgs = s.net.msgs ++ [x] ∧ x.link = linkKey l.fibre l.link.toNat ∧ x.ty = 1 ∧ ptpType x.body = 0 ∧
        ptpOk x.body 0 = true ∧ (portAt t port).syncSeq = (portAt s port).syncSeq + 1) ∧
    (∃ t x, exec (.pdelayReqSend port) s = .next t ∧ t.net.msgs = s.net.msgs ++ [x] ∧ x.link = linkKey l.fibre l.link.toNat ∧ x.ty = 1 ∧ ptpOk x.body 2 = true ∧
        (portAt t port).reqSeq = (portAt s port).reqSeq + 1 ∧ (portAt t port).reqTx = none) ∧
    (∃ t x, exec (.announceSend port) s = .next t ∧ t.net.msgs = s.net.msgs ++ [x] ∧ x.link = linkKey l.fibre l.link.toNat ∧ x.ty = 1 ∧ ptpOk x.body 11 = true ∧
        ptpFld x.body 61 2 = s.tm.rank.toNat ∧ (portAt t port).annSeq = (portAt s port).annSeq + 1) ∧
    (∀ (msg : Bytes) (t2 : BitVec 64), ptpOk msg 2 = true →
      ∃ t x, exec (.pdelayReq port msg t2) s = .next t ∧ t.net.msgs = s.net.msgs ++ [x] ∧ x.link = linkKey l.fibre l.link.toNat ∧ x.ty = 1 ∧ ptpOk x.body 3 = true ∧
        x.t2 = rxTime port t2 s ∧ ptpFld x.body 30 2 = ptpFld msg 30 2 ∧ t.tm = s.tm)) ∧
  (∀ (port : Nat) (s : State), ptpPort s port = true → 17 ≤ port → twf {} s.tm.ports = true →
    (portState s port = .master →
      ∃ t o, exec (.ptpSyncSend port) s = .next t ∧ t.out = o :: s.out ∧ o.chan = .frame ∧ o.port = 8 * (port - 17) ∧ o.body.take 6 = ptpMac ∧
        etherType o.body = 0x88F7 ∧ ptpOk (frameBody o.body) 0 = true ∧ (portAt t port).syncSeq = (portAt s port).syncSeq + 1) ∧
    (∃ t o, exec (.pdelayReqSend port) s = .next t ∧ t.out = o :: s.out ∧ o.chan = .frame ∧ o.port = 8 * (port - 17) ∧ o.body.take 6 = ptpMac ∧
        etherType o.body = 0x88F7 ∧ ptpOk (frameBody o.body) 2 = true ∧ (portAt t port).reqSeq = (portAt s port).reqSeq + 1 ∧ (portAt t port).reqTx.isSome = true) ∧
    (∃ t o, exec (.announceSend port) s = .next t ∧ t.out = o :: s.out ∧ o.chan = .frame ∧ o.port = 8 * (port - 17) ∧ o.body.take 6 = ptpMac ∧
        etherType o.body = 0x88F7 ∧ ptpOk (frameBody o.body) 11 = true ∧ (portAt t port).annSeq = (portAt s port).annSeq + 1) ∧
    (∀ (msg : Bytes) (t2 : BitVec 64), ptpOk msg 2 = true →
      ∃ t o, exec (.pdelayReq port msg t2) s = .next t ∧ t.out = o :: s.out ∧ o.chan = .frame ∧ o.port = 8 * (port - 17) ∧ o.body.take 6 = ptpMac ∧
        etherType o.body = 0x88F7 ∧ ptpOk (frameBody o.body) 3 = true ∧ t.tm = s.tm)) ∧
  (∀ (port : Nat) (s : State), portState s port ≠ .master → exec (.ptpSyncSend port) s = .next s) ∧
  (∀ (port : Nat) (msg : Bytes) (t2 : BitVec 64) (s : State) (off : Int), ptpPort s port = true → ptpOk msg 0 = true → sx 64 (ptpFld msg 8 8) % 1024 = 0 →
    off = timeDiff (rxTime port t2 s) (stampOf msg 34) - sx 64 (ptpFld msg 8 8) / 1024 - (portAt s port).delay → portState s port = .slave → s.tm.gm = false →
    (s.tm.valid = false → s.tm.stepped = false →
      ∃ t, exec (.ptpSync port msg t2) s = .next t ∧ t.tm.ft = s.tm.ft - BitVec.ofInt 64 off ∧ t.tm.stepped = true ∧ t.tm.lastOff = off) ∧
    (s.tm.valid = false → s.tm.stepped = true →
      ∃ t, exec (.ptpSync port msg t2) s = .next t ∧ t.tm.ft = s.tm.ft ∧ t.tm.slew = -off ∧ t.tm.lastOff = off) ∧
    (s.tm.valid = true → off.natAbs ≤ 320 → s.tm.rank ≠ 15 → parentValid s = true ∨ combsLocked s = true →
      ∃ t, exec (.ptpSync port msg t2) s = .next t ∧ t.tm.ft = s.tm.ft ∧ t.tm.slew = -off ∧ t.tm.lastOff = off ∧ t.tm.valid = true) ∧
    (s.tm.valid = true → 320 < off.natAbs →
      ∃ t, exec (.ptpSync port msg t2) s = .next t ∧ t.tm.ft = s.tm.ft ∧ t.tm.lastOff = off ∧ t.tm.valid = false)) ∧
  (∀ (port : Nat) (msg : Bytes) (t2 : BitVec 64) (s : State), ptpPort s port = true →
    (ptpOk msg 0 = false → exec (.ptpSync port msg t2) s = .next (ptpDiscard port s)) ∧
    (ptpOk msg 2 = false → exec (.pdelayReq port msg t2) s = .next (ptpDiscard port s)) ∧
    (ptpOk msg 3 = false → exec (.pdelayResp port msg t2) s = .next (ptpDiscard port s)) ∧
    (ptpOk msg 11 = false ∨ msg.length < 64 → exec (.announce port msg) s = .next (ptpDiscard port s))) ∧
  (∀ (port : Nat) (msg : Bytes) (t1 t4 : BitVec 64) (s : State), ptpPort s port = true → ptpOk msg 3 = true → (portAt s port).reqTx = some t1 →
    ptpFld msg 30 2 = ((portAt s port).reqSeq - 1).toNat → ptpFld msg 44 8 = clockId (moduleId s) → ptpFld msg 52 2 = port →
    sx 64 (ptpFld msg 8 8) % 1024 = 0 → (timeDiff (rxTime port t4 s) t1 - sx 64 (ptpFld msg 8 8) / 1024) % 2 = 0 → twf {} s.tm.ports = true →
    ∃ t, exec (.pdelayResp port msg t4) s = .next t ∧ (portAt t port).reqTx = none ∧
      (portAt t port).delay = (timeDiff (rxTime port t4 s) t1 - sx 64 (ptpFld msg 8 8) / 1024) / 2 + (portAt s port).asym.toInt ∧ t.tm.ft = s.tm.ft) ∧
  (∀ (port : Nat) (msg : Bytes) (t4 : BitVec 64) (s : State), ptpOk msg 3 = true → (portAt s port).reqTx = none → exec (.pdelayResp port msg t4) s = .next s) ∧
  (∀ (port : Nat) (msg : Bytes) (s : State), ptpPort s port = true → ptpOk msg 11 = true → 64 ≤ msg.length →
    ∃ t, exec (.announce port msg) s = .next t ∧ (portAt t port).annSeen = true ∧ (portAt t port).annKey = ptpFld msg 47 14 ∧
      (portAt t port).annSteps = ptpFld msg 61 2 ∧ t.tm.ft = s.tm.ft) ∧
  (∀ (port : Nat) (s : State), litUp s = true → 1 ≤ port → port ≤ 24 → twf {} s.tm.ports = true →
    ∃ t, exec (.announceReceiptTimeout port) s = .next t ∧ (portAt t port).annSeen = false ∧ (portAt t port).annValid = false ∧ t.tm.ft = s.tm.ft) ∧
  (∀ (s : State), combsLocked s = true →
    (bestKey s = ownKey s → (gmUpdate s).tm.gm = true ∧ (gmUpdate s).tm.rank = 0 ∧ (gmUpdate s).tm.gmId = some (moduleId s) ∧ (gmUpdate s).tm.timeParent = none) ∧
    (bestKey s ≠ ownKey s → (gmUpdate s).tm.gm = false ∧ (gmUpdate s).tm.gmId = some (keyModule (bestKey s)))) ∧
  (∀ (s : State), (s.tm.valid = true → s.tm.holdover = true → ∃ t, exec .holdoverExpired s = .next t ∧ t.tm.valid = false ∧ t.tm.ft = s.tm.ft ∧
      (s.db.svDown = false → suppressed evTimeInvalid s.db = false → s.pwr.nvInhibit = false → t.db.count = s.db.count + 1)) ∧
    (s.tm.valid = false ∨ s.tm.holdover = false → exec .holdoverExpired s = .next s))

/-- Time for the host: only the grandmaster, Lit or Running, takes TIME_SET and TIME_ADJUST, and TIME_SET only while time is not
valid; it steps the time at once or at the next pulse; an adjustment joins what is left to slew, at 64 units in each ms; TIME_SOURCE,
PTP_PORT_SET and TIME_STATUS; a pulse in is stamped within its cycle and counted, its loss is recorded once, and pulses leave only
while time is valid (R237, R238, R245, R254, R355). -/
def Obligations.TimeForTheHost : Prop :=
  (∀ (p : Pkt) (t0 : BitVec 64) (s u : State), bodyState p 0x0501 (le 8 t0.toNat ++ le 1 0) s = some u →
    (litUp u = true → u.tm.gm = true → u.tm.valid = false →
      ∃ v, exec (.timeSetNow p t0) s = .next (reply (p.ref 0x0501) 0 [] v) ∧ v.tm.ft = t0 ∧ v.tm.valid = true) ∧
    (litUp u = false ∨ u.tm.gm = false ∨ u.tm.valid = true → exec (.timeSetNow p t0) s = .next (reply (p.ref 0x0501) 0x0201 [] u))) ∧
  (∀ (p : Pkt) (t0 : BitVec 64) (s u : State), bodyState p 0x0501 (le 8 t0.toNat ++ le 1 1) s = some u →
    (litUp u = true → u.tm.gm = true → u.tm.valid = false →
      exec (.timeSetAtPps p t0) s = .next (reply (p.ref 0x0501) 0 [] (u.modTm fun x => { x with atPps := some t0 }))) ∧
    (litUp u = false ∨ u.tm.gm = false ∨ u.tm.valid = true → exec (.timeSetAtPps p t0) s = .next (reply (p.ref 0x0501) 0x0201 [] u))) ∧
  (∀ (p : Pkt) (off : BitVec 64) (s u : State), bodyState p 0x0502 (le 8 off.toNat) s = some u →
    (litUp u = true → u.tm.gm = true →
      exec (.timeAdjust p off) s = .next (reply (p.ref 0x0502) 0 (leSat 4 (ceilDiv (u.tm.adjLeft + off.toInt).natAbs 64)) (u.modTm fun t => { t with adjLeft := u.tm.adjLeft + off.toInt }))) ∧
    (litUp u = false ∨ u.tm.gm = false → exec (.timeAdjust p off) s = .next (reply (p.ref 0x0502) 0x0201 [] u))) ∧
  (∀ (p : Pkt) (source port prio : BitVec 8) (s u : State), bodyState p 0x0503 (le 1 source.toNat ++ le 1 port.toNat ++ le 1 prio.toNat) s = some u →
    (source.toNat < 2 ∨ (source = 2 ∧ 17 ≤ port.toNat ∧ port.toNat ≤ 24) →
      ∃ t, exec (.timeSource p source port prio) s = .next t ∧ t.tm.source = source ∧ t.tm.srcPort = port ∧ t.tm.priority1 = prio ∧ t.tm.ft = u.tm.ft) ∧
    (2 < source.toNat ∨ (source = 2 ∧ (port.toNat < 17 ∨ 24 < port.toNat)) → exec (.timeSource p source port prio) s = .next (reply (p.ref 0x0503) 0x0105 [] u))) ∧
  (∀ (p : Pkt) (port : BitVec 8) (asym : BitVec 64) (s u : State), bodyState p 0x0504 (le 1 port.toNat ++ le 8 asym.toNat) s = some u →
    (1 ≤ port.toNat → port.toNat ≤ 24 → twf {} u.tm.ports = true →
      ∃ t, exec (.ptpPortSet p port asym) s = .next t ∧ portAt t port.toNat = { portAt u port.toNat with asym := asym } ∧ ∀ q, q ≠ port.toNat → portAt t q = portAt u q) ∧
    (port.toNat = 0 ∨ 24 < port.toNat → exec (.ptpPortSet p port asym) s = .next (reply (p.ref 0x0504) 0x0105 [] u))) ∧
  (∀ (p : Pkt) (s u : State), bodyState p 0x0505 [] s = some u →
    exec (.timeStatus p) s = .next (reply (p.ref 0x0505) 0
      (le 1 (b2n u.tm.valid) ++ le 1 u.tm.rank.toNat ++ le 2 (u.tm.gmId.getD 0).toNat ++ le 2 (u.tm.timeParent.getD 0).toNat ++ leInt 8 u.tm.lastOff) u)) ∧
  (∀ (s : State), svOn s = true →
    (∃ t, exec .ppsInEdge s = .next t ∧ t.tm.ppsTs = stampTime s ∧ t.tm.ppsCnt = s.tm.ppsCnt + 1 ∧ t.tm.ppsLost = false ∧
      (s.tm.gm = false → t.tm.ft = s.tm.ft) ∧
      (∀ t0, s.tm.gm = true → s.tm.source = 1 → s.tm.valid = false → s.tm.atPps = some t0 → t.tm.ft = t0 ∧ t.tm.valid = true ∧ t.tm.atPps = none)) ∧
    (s.tm.ppsLost = false → ∃ t, exec .ppsInLost s = .next t ∧ t.tm.ppsLost = true ∧
      (s.db.svDown = false → suppressed evPpsInLost s.db = false → s.pwr.nvInhibit = false → t.db.count = s.db.count + 1)) ∧
    (s.tm.ppsLost = true → exec .ppsInLost s = .next s) ∧
    (s.tm.valid = true → s.pins.pinsDriven = true →
      ∃ t o, exec .ppsOutPulse s = .next t ∧ t.out = o :: s.out ∧ o.chan = .pin ∧ o.port = 8 ∧ t.pins.ppsOutSecs = s.pins.ppsOutSecs + 1) ∧
    (s.tm.valid = false ∨ s.pins.pinsDriven = false → exec .ppsOutPulse s = .next s))

/-! ### Control engines -/

/-- Control loops: the sample of one enabled loop of an engine, at its instant and in its turn, computes its candidate, moves its output by
no more than the slew limit and drives its actuator, of a crosspoint slot for the crosspoint whose turn it is; of a group the
candidate of least value wins, the lowest loop number among equals; a missed sample holds every output; a set-point waits for the next
sample; flags clear as they are read; a descriptor is written only to a disabled loop, one that fails its checks is refused, and
enabling keeps the engine's budget; a set that is written is the one that comes into force at the loop's next sample and that is
read back (R256 to R269, R355).
Rote tables: ROTE_SAVE writes the tables of the named engines with the image's digest to the host, and is refused with no image;
ROTE_LOAD of tables saved under the loaded image fills the tables of loops that use them, and is refused for another image and once
the job has left LOADED (R273, R355). -/
def Obligations.ControlLoopsAndRoteTables : Prop :=
  (∀ (eng n : Nat) (vs scheds : List Int) (rails : List Nat) (s s0 : State) (l : Loop) (v : Int) (m : Member), (if eng < 5 then litUp s else svOn s) = true → eng < 6 →
    n < 512 → ldEn (loopOf s eng n).desc = true → sampleTurn s eng n = true → ldGroup (loopOf s eng n).desc = 0 →
    s0 = (if isSlot eng (loopOf s eng n).desc then otherCrosspoint n s else s) → l = loopOf s0 eng n →
    l.setsNew = [] →
    (if l.fresh then regionOf l.desc (schedOf s0 eng l.desc (scheds.getD 0 0)) else regionNext l.desc l.region (schedOf s0 eng l.desc (scheds.getD 0 0))) = l.region → l.stale = false → l.faulted = false →
    sensorStale s eng (ldInput l.desc) = false → v = reading s0 eng l (vs.getD 0 0) → implausible eng (ldInput l.desc) (l.set.firstX (ldNstage l.desc)) v = false →
    ldInput l.desc / 4096 = 5 ∨ (0 ∉ rails ∧ -131072 < v ∧ v < 131071) →
    m = member n { l with sp := l.spNew.getD l.sp } v (powerOf s eng (ldFf l.desc)) (roteTerm s eng l.desc) (ringShift (ringApply eng l.desc s) eng l.desc) →
    ∃ t, exec (.loopSample eng n vs scheds rails false) s = .next t ∧
      t.out.head? = some { chan := .actuator, port := eng * 65536 + ldAct l.desc, body := leInt 4 (slewOut m).1 ++ (if isSlot eng l.desc then le 1 (b2n l.bank) else []) } ∧
      (loopOf t eng n).out = BitVec.ofInt 18 (toStage (slewOut m).1 m.c.outX m.c.outX).1 ∧ (loopOf t eng n).samples = l.samples + 1 ∧
      (loopOf t eng n).sp = l.spNew.getD l.sp ∧ (loopOf t eng n).spNew = none ∧ t.mem = s.mem ∧ t.job = s.job ∧ t.opt = s.opt) ∧
  (∀ (w : Member), 0 ≤ mant w.c.slew → ((slewOut w).1 - mant w.l.out).natAbs ≤ (mant w.c.slew).natAbs ∧ (slewOut w).1 + (slewOut w).2 = w.u) ∧
  (∀ (ms : List Member) (w : Member), winner ms = some w →
    ∃ a b, ms = a ++ w :: b ∧ (∀ x ∈ a, x.noMore w = false) ∧ ∀ x ∈ b, w.noMore x = true) ∧
  (∀ (eng n : Nat) (vs scheds : List Int) (rails : List Nat) (s : State), (if eng < 5 then litUp s else svOn s) = true → eng < 6 → n < 512 →
    ldEn (loopOf s eng n).desc = true → sampleTurn s eng n = true →
    ∃ t, exec (.loopSample eng n vs scheds rails true) s = .next t ∧ t.out = s.out ∧
      ∀ k, k < 512 → isSlot eng (loopOf s eng k).desc = false → loopOf t eng k = { loopOf s eng k with inst := (loopOf t eng k).inst }) ∧
  (∀ (eng n : Nat) (vs scheds : List Int) (rails : List Nat) (missed : Bool) (s : State), ldEn (loopOf s eng n).desc = false ∨ sampleTurn s eng n = false →
    exec (.loopSample eng n vs scheds rails missed) s = .next s) ∧
  (∀ (p : Pkt) (loop : BitVec 16) (sp : BitVec 32) (s u : State), bodyState p 0x0602 (le 2 loop.toNat ++ le 4 sp.toNat) s = some u →
    loop.toNat < 512 → sp.toNat < 2 ^ 18 → spOk (loopOf s p.eng loop.toNat) (sp.setWidth 18) = true →
    (ceReach u p.eng = true → ∃ t, exec (.loopSetPoint p loop sp) s = .next t ∧
      loopOf t p.eng loop.toNat = { loopOf u p.eng loop.toNat with spNew := some (sp.setWidth 18) }) ∧
    (ceReach u p.eng = false → exec (.loopSetPoint p loop sp) s = .next (reply (p.ref 0x0602) 0x0201 [] u))) ∧
  (∀ (p : Pkt) (first : BitVec 16) (count : BitVec 8) (s u : State), bodyState p 0x0603 (le 2 first.toNat ++ le 1 count.toNat) s = some u →
    1 ≤ count.toNat → count.toNat ≤ 32 → first.toNat + count.toNat ≤ 512 → twf {} u.ce.loops = true →
    ∃ v, exec (.loopFlagsRead p first count) s =
        .next (reply (p.ref 0x0603) 0 ((List.range count.toNat).map fun i => (loopOf u p.eng (first.toNat + i)).flags) v) ∧
      (∀ i, i < count.toNat → loopOf v p.eng (first.toNat + i) = { loopOf u p.eng (first.toNat + i) with flags := 0 }) ∧
      (∀ k, k < p.eng * 512 + first.toNat ∨ p.eng * 512 + first.toNat + count.toNat ≤ k → tget {} v.ce.loops k = tget {} u.ce.loops k)) ∧
  (∀ (p : Pkt) (loop : BitVec 16) (buf : Buf) (s u : State), bodyState p 0x0601 (le 2 loop.toNat ++ buf.bytes) s = some u → loop.toNat < 512 →
    1336 ≤ buf.len.toNat →
    ∃ t o, exec (.loopRead p loop buf) s = .next t ∧ t.out = o :: u.out ∧ o.chan = .hostWrite ∧ o.port = buf.addr.toNat ∧ o.body.length = 1336 ∧
      o.body = le 32 (loopOf u p.eng loop.toNat).desc.toNat ++ loopState (loopOf u p.eng loop.toNat) ++
        ((List.range 8).map fun j => coefBytes (tget {} (loopOf u p.eng loop.toNat).accepted.sets j)).flatten ∧ t.ce = u.ce) ∧
  (∀ (p : Pkt) (loop : BitVec 16) (desc : BitVec 256) (s u : State), bodyState p 0x0606 (le 2 loop.toNat ++ le 32 desc.toNat) s = some u → loop.toNat < 512 →
    (descRange desc = false → exec (.loopWriteDesc p loop desc) s = .next (reply (p.ref 0x0606) 0x0105 [] u)) ∧
    (descRange desc = true → ldEn (loopOf u p.eng loop.toNat).desc = true → exec (.loopWriteDesc p loop desc) s = .next (reply (p.ref 0x0606) 0x0201 [] u)) ∧
    (descRange desc = true → ldEn (loopOf u p.eng loop.toNat).desc = false → descStatus u p.eng loop.toNat desc ≠ 0 →
      exec (.loopWriteDesc p loop desc) s = .next (reply (p.ref 0x0606) (descStatus u p.eng loop.toNat desc) [] u)) ∧
    (descRange desc = true → ldEn (loopOf u p.eng loop.toNat).desc = false → ceReach u p.eng = true → descStatus u p.eng loop.toNat desc = 0 →
      ∃ t, exec (.loopWriteDesc p loop desc) s = .next t ∧ loopOf t p.eng loop.toNat = { loopOf u p.eng loop.toNat with desc := desc, fresh := true, inst := none })) ∧
  (∀ (p : Pkt) (loop : BitVec 16) (region : BitVec 8) (coefs : Bytes) (s u : State),
    bodyState p 0x0607 (le 2 loop.toNat ++ le 1 region.toNat ++ padTo 160 coefs) s = some u → loop.toNat < 512 → region.toNat < 8 → coefOk (padTo 160 coefs) = true →
    ceReach u p.eng = true → twf {} (loopOf u p.eng loop.toNat).sets = true → twf {} u.ce.loops = true →
    ∃ t, exec (.loopWriteCoeffs p loop region coefs) s = .next t ∧ tget {} (loopOf t p.eng loop.toNat).accepted.sets region.toNat = readCoef (padTo 160 coefs) ∧
      (∀ k, k ≠ region.toNat → tget {} (loopOf t p.eng loop.toNat).accepted.sets k = tget {} (loopOf u p.eng loop.toNat).accepted.sets k) ∧
      (loopOf t p.eng loop.toNat).sets = (loopOf u p.eng loop.toNat).sets ∧ (loopOf t p.eng loop.toNat).region = (loopOf u p.eng loop.toNat).region) ∧
  (∀ (p : Pkt) (loop : BitVec 16) (region : BitVec 8) (coefs : Bytes) (s u : State),
    bodyState p 0x0607 (le 2 loop.toNat ++ le 1 region.toNat ++ padTo 160 coefs) s = some u → 512 ≤ loop.toNat ∨ 8 ≤ region.toNat ∨ coefOk (padTo 160 coefs) = false →
    exec (.loopWriteCoeffs p loop region coefs) s = .next (reply (p.ref 0x0607) 0x0105 [] u)) ∧
  (∀ (p : Pkt) (loop : BitVec 16) (s u : State), loop.toNat < 512 → ceReach u p.eng = true →
    (bodyState p 0x0608 (le 2 loop.toNat ++ le 1 1) s = some u →
      (descStatus u p.eng loop.toNat ((loopOf u p.eng loop.toNat).desc ||| ((1 : BitVec 256) <<< 255)) = 0 →
        ∃ t, exec (.loopEnable p loop) s = .next t ∧ ldEn (loopOf t p.eng loop.toNat).desc = true ∧
          (loopOf t p.eng loop.toNat).sets = (loopOf u p.eng loop.toNat).sets ∧
          budgetOk ((loopOf t p.eng loop.toNat).desc :: (otherDescs u p.eng loop.toNat).filter ldEn) = true) ∧
      (descStatus u p.eng loop.toNat ((loopOf u p.eng loop.toNat).desc ||| ((1 : BitVec 256) <<< 255)) ≠ 0 →
        exec (.loopEnable p loop) s =
          .next (reply (p.ref 0x0608) (descStatus u p.eng loop.toNat ((loopOf u p.eng loop.toNat).desc ||| ((1 : BitVec 256) <<< 255))) [] u))) ∧
    (bodyState p 0x0608 (le 2 loop.toNat ++ le 1 0) s = some u → twf {} u.ce.loops = true →
      ∃ t, exec (.loopDisable p loop) s = .next t ∧ ldEn (loopOf t p.eng loop.toNat).desc = false ∧ (loopOf t p.eng loop.toNat).win = false)) ∧
  (∀ (p : Pkt) (mask : BitVec 8) (buf : Buf) (s u : State), bodyState p 0x0604 (le 1 mask.toNat ++ buf.bytes) s = some u → mask.toNat < 64 → mask ≠ 0 →
    (u.job.image = none → exec (.roteSave p mask buf) s = .next (reply (p.ref 0x0604) 0x0201 [] u)) ∧
    (∀ i b, u.job.image = some i →
      b = le 48 i.digest.toNat ++ ((u.ce.rote.filter fun e => bit mask.toNat (e.1 / 64) && decide (e.2.src ≠ .empty)).map fun e => roteBytes e (roteN u e.1)).flatten →
      b.length ≤ buf.len.toNat →
      ∃ t o, exec (.roteSave p mask buf) s = .next t ∧ t.out = o :: u.out ∧ o.chan = .hostWrite ∧ o.port = buf.addr.toNat ∧ o.body = b ∧ t.ce = u.ce)) ∧
  (∀ (p : Pkt) (addr : BitVec 64) (len : BitVec 32) (data : Bytes) (s u : State), bodyState p 0x0605 (le 8 addr.toNat ++ le 4 len.toNat) s = some u → 48 ≤ len.toNat →
    data.length = len.toNat →
    (u.job.image = none ∨ u.job.st ≠ .loaded → exec (.roteLoad p addr len data) s = .next (reply (p.ref 0x0605) 0x0201 [] u)) ∧
    (∀ i, u.job.image = some i → u.job.st = .loaded → rd data 0 48 ≠ i.digest.toNat →
      ∃ v, exec (.roteLoad p addr len data) s = .next (reply (p.ref 0x0605) 0x0562 [] v) ∧ v.ce = u.ce) ∧
    (∀ i, u.job.image = some i → u.job.st = .loaded → rd data 0 48 = i.digest.toNat → len = 48 →
      exec (.roteLoad p addr len data) s = .next (reply (p.ref 0x0605) 0 (le 2 0) u)) ∧
    (∀ i eng slot n, u.job.image = some i → u.job.st = .loaded → rd data 0 48 = i.digest.toNat → len.toNat = 56 + 4 * n → rd data 48 1 = eng → rd data 49 1 = slot →
      rd data 50 2 = n → 0 < n → roteUser u eng slot n = true →
      ∃ t, exec (.roteLoad p addr len data) s = .next t ∧ (roteOf t eng slot).src = .preload ∧ (roteOf t eng slot).digest = i.digest ∧
        ∀ k, k < n → tget 0 (roteOf t eng slot).bins k = (BitVec.ofNat 18 (rd data (56 + 4 * k) 4)).toInt))

/-! ### Recess calibration -/

/-- Calibration: a rotation that is due starts once on an enabled fibre and takes the lane after the last one, in slot mode with no
relief, in native mode with the spare's relief begun, and in XN5 mode where no path has the lane; a run whose capture fails a test changes no
value and ends its attempt; a first run is kept, as origin and as terminus; a second one
that agrees with it within every limit and range updates all its items and queues a journal record, and an item outside them moves no
point; a record goes to the head of the ring with the next sequence number, not in a write inhibit; each temperature set is evaluated
at its die's temperature; and comb registers are refreshed while their sources are lit (R281 to R288, R291, R293, R294, R298, R300). -/
def Obligations.CalibrationRuns : Prop :=
  (∀ (f : Nat) (s : State), litUp s = false ∨ rotates s f = false ∨ (rotOf s f).running = true → exec (.calRotationDue f) s = .next s) ∧
  (∀ (f : Nat) (s : State), litUp s = true → f < 16 → rotates s f = true → (rotOf s f).running = false → calReady s f = false →
    exec (.calRotationDue f) s = .next (modRot f (fun r => { r with running := true, steps := 0, skipped := 0, startSc := s.sc }) s)) ∧
  (∀ (f x : Nat) (s : State), litUp s = true → f < 16 → rotates s f = true → (rotOf s f).running = false → calReady s f = true → (fibreOf s f).apr = false →
    (rotOf s f).paused = false → (rotOf s f).want = [] → x = ((rotOf s f).line + 1) % 33 → (laneOf s f x).failed = false →
    (calMode s f = 2 → (txLinkOf s f x).isSome = true →
      ∃ t, exec (.calRotationDue f) s = .next t ∧ (rotOf t f).running = true ∧ (rotOf t f).startSc = s.sc ∧
        (rotOf t f).step = some { lane := x, phase := .tx, s0 := (fibreOf s f).sfc, rolled := true } ∧ t.opt = s.opt ∧ t.cal.sets = s.cal.sets) ∧
    (∀ l k, calMode s f = 1 → txLinkOf s f x = some l → spareOf s f = some k → l.inService = true → (laneOf s f x).inService = true → (lineFree s f k l).1 = true →
      ∃ t r, exec (.calRotationDue f) s = .next t ∧ (rotOf t f).running = true ∧ (rotOf t f).step = some { lane := x, phase := .tx } ∧
        reliefOn t f = some r ∧ r.lane = x ∧ r.spare = k ∧ r.step = 1 ∧ t.opt.links = s.opt.links ∧ t.opt.lanes = s.opt.lanes ∧ t.cal.sets = s.cal.sets) ∧
    (calMode s f = 3 → tget 0 s.net.xaLines (laneKey f x) = 0 →
      ∃ t, exec (.calRotationDue f) s = .next t ∧ (rotOf t f).running = true ∧ (laneOf t f x).cal = true ∧
        (rotOf t f).step = some { lane := x, phase := .tx, s0 := (fibreOf s f).sfc, rolled := true } ∧ t.opt.links = s.opt.links ∧ t.cal.sets = s.cal.sets)) ∧
  (∀ (f : Nat) (test : RunStats) (rx : Bool) (means : List Int) (stat : Int) (s : State), (rx = false ∨ calMode s f = 2) → (rotOf s f).step = none →
    exec (.calRunComplete f rx means test stat) s = .next s) ∧
  (∀ (f : Nat) (test : RunStats) (means : List Int) (stat : Int) (s : State) (st : LaneStep) (k : Nat), litUp s = true → f < 16 → calMode s f ≠ 2 →
    (rotOf s f).step = some st → st.rolled = true → st.phase = .tx → k = RunStats.failed false 65536 { test with lost := test.lost || (fibreOf s f).apr } →
    (k = 0 → st.runs % 2 = 0 →
      exec (.calRunComplete f false means test stat) s =
        .next (modRot f (fun x => { x with step := some { st with runs := st.runs + 1, hasA := true, dead := false, runA := means } }) s)) ∧
    (k ≠ 0 →
      ∃ t, exec (.calRunComplete f false means test stat) s = .next t ∧ t.cal.sets = s.cal.sets ∧ t.cal.queue = s.cal.queue ∧
        (rotOf t f).step = some { st with runs := st.runs + 1, hasA := false, dead := decide (st.runs % 2 = 0), runA := [], pkt := none }) ∧
    (k = 0 → st.runs % 2 = 1 → st.dead = false → st.hasA = true →
      (∀ i, i < 8 → (st.runA.getD i 0 - means.getD i 0).natAbs ≤ agreeLimit 0 i ∧
        (itemRange 0 i).1 ≤ evenDiv (st.runA.getD i 0 + means.getD i 0) 2 ∧ evenDiv (st.runA.getD i 0 + means.getD i 0) 2 ≤ (itemRange 0 i).2) →
      ∃ t, exec (.calRunComplete f false means test stat) s = .next t ∧ t.cal.queue.length = s.cal.queue.length + 1 ∧
        (rotOf t f).step = some { st with runs := st.runs + 1, hasA := false, runA := [], items := st.items + 8 })) ∧
  (∀ (f : Nat) (test : RunStats) (means : List Int) (stat : Int) (s : State) (st : LaneStep), litUp s = true → f < 16 → calMode s f ≠ 2 → (rotOf s f).rx = some st →
    st.phase = .rx → RunStats.failed true 1048576 { test with lost := test.lost || (fibreOf s f).apr } = 0 → st.runs % 2 = 0 →
    exec (.calRunComplete f true means test stat) s =
      .next (modRot f (fun x => { x with rx := some { st with runs := st.runs + 1, hasA := true, dead := false, runA := means } }) s)) ∧
  (∀ (kind f x item : Nat) (a b : Int) (s : State),
    ((judgeItem kind f x item a b s).1 = true ↔ (a - b).natAbs ≤ agreeLimit kind item ∧ (itemRange kind item).1 ≤ evenDiv (a + b) 2 ∧
      evenDiv (a + b) 2 ≤ (itemRange kind item).2) ∧
    ((judgeItem kind f x item a b s).1 = false → (judgeItem kind f x item a b s).2.cal.sets = s.cal.sets)) ∧
  (∀ (s : State) (r : JourRec) (rest : List JourRec), svOn s = true → s.pwr.nvInhibit = false → s.cal.queue = r :: rest →
    holdsNewest s.cal.journal s.cal.head = false →
    ∃ t, exec .journalWrite s = .next t ∧
      t.cal.journal = (s.cal.journal.filter fun e => decide (e.1 ≠ s.cal.head)) ++ [(s.cal.head, { r with seq := s.cal.nextSeq })] ∧
      t.cal.nextSeq = s.cal.nextSeq + 1 ∧ t.cal.head = (s.cal.head + 1) % 16384 ∧ t.cal.queue = rest) ∧
  (∀ s : State, svOn s = false ∨ s.pwr.nvInhibit = true ∨ s.cal.queue = [] → exec .journalWrite s = .next s) ∧
  (∀ (temps : List Int) (s : State), litUp s = true → temps.length = 5 →
    ∃ t, exec (.temperatureSetEval temps) s = .next t ∧ (∀ d, d < 5 → tget 0 t.cal.dieTemp d = temps.getD d 0) ∧
      (∀ key i, key < 1056 → i < itemCount (keyKind key) →
        (calSet t key).next.getD i 0 = calRound (calPoints key (calSet s key)) i (temps.getD (keyFibre key / 4) 0)) ∧
      t.opt = s.opt ∧ t.mem = s.mem) ∧
  (∀ (kop : List (BitVec 128)) (s : State), litUp s = true → twf {} s.opt.combs = true →
    ∃ t, exec (.kopRefresh kop) s = .next t ∧ t.cal = s.cal ∧ ∀ k, k < 5 →
      ((combOf s k).lit = true → combOf t k = { kopWrite (kop.getD k 0) (combOf s k) with temp := BitVec.ofNat 16 ((kop.getD k 0).toNat >>> 64), valid := true }) ∧
      ((combOf s k).lit = false → combOf t k = combOf s k))

/-- The value of an item at a die temperature T: that of 35 °C at and below 35 °C, that of 75 °C at and above 75 °C, and between two
neighbouring points on the straight line through them; rounded to the nearest unit, a tie to the even one. Temperatures are in
0.01 °C (R291). -/
def Obligations.CalibratedValuesAreInterpolated : Prop :=
  (∀ (pts : List Int) (item : Nat) (t : Int), t ≤ 3500 → calAt pts item t = 1000 * pointOf pts 0 item) ∧
  (∀ (pts : List Int) (item : Nat) (t : Int), 7500 ≤ t → calAt pts item t = 1000 * pointOf pts 4 item) ∧
  (∀ (pts : List Int) (item i r : Nat), i < 4 → r < 1000 →
    calAt pts item (3500 + 1000 * i + r) = 1000 * pointOf pts i item + (pointOf pts (i + 1) item - pointOf pts i item) * r) ∧
  (∀ (pts : List Int) (item : Nat) (t : Int), 2 * (1000 * calRound pts item t - calAt pts item t).natAbs ≤ 1000 ∧
    (2 * (1000 * calRound pts item t - calAt pts item t).natAbs = 1000 → calRound pts item t % 2 = 0))

/-- The calibration opcodes: CAL_CONFIG takes an interval of 0 or 60 to 86,400 s and stops the rotations that are no longer enabled;
CAL_LANE_STEP waits for the step in progress, begins at once on a fibre that is ready in slot mode, and is refused while dark and for a lane
that has failed; CAL_READ returns the newest
valid record; PRIV_READ returns every register, and PRIV_WRITE writes an EO bias at once and a comb register only while its source is
dark and a Prefect is accepted; CAL_SUSPECT_CLEAR clears one mark of one lane (R282, R284, R288, R294 to R297, R355). -/
def Obligations.CalibrationOpcodes : Prop :=
  (∀ (p : Pkt) (interval : BitVec 32) (mask : BitVec 16) (s u : State), bodyState p 0x0701 (le 4 interval.toNat ++ le 2 mask.toNat) s = some u →
    (interval = 0 ∨ (60 ≤ interval.toNat ∧ interval.toNat ≤ 86400) →
      ∃ t, exec (.calConfig p interval mask) s = .next t ∧ t.cal.interval = interval ∧ t.cal.mask = mask ∧ t.cal.sets = u.cal.sets ∧
        ∀ f, f < 16 → (interval = 0 ∨ mask.getLsbD f = false → (rotOf t f).running = false) ∧
          (interval ≠ 0 → mask.getLsbD f = true → rotOf t f = rotOf u f)) ∧
    (interval ≠ 0 → interval.toNat < 60 ∨ 86400 < interval.toNat → exec (.calConfig p interval mask) s = .next (reply (p.ref 0x0701) 0x0105 [] u))) ∧
  (∀ (p : Pkt) (f x : BitVec 8) (s u : State), bodyState p 0x0702 (le 1 f.toNat ++ le 1 x.toNat) s = some u →
    (16 ≤ f.toNat ∨ 33 ≤ x.toNat → exec (.calLaneStep p f x) s = .next (reply (p.ref 0x0702) 0x0105 [] u)) ∧
    (f.toNat < 16 → x.toNat < 33 → litUp u = false → exec (.calLaneStep p f x) s = .next (reply (p.ref 0x0702) 0x0201 [] u)) ∧
    (f.toNat < 16 → x.toNat < 33 → litUp u = true → (laneOf u f.toNat x.toNat).failed = true →
      exec (.calLaneStep p f x) s = .next (reply (p.ref 0x0702) 0x0571 [] u)) ∧
    (f.toNat < 16 → x.toNat < 33 → litUp u = true → (rotOf u f.toNat).step ≠ none → (laneSkipped u f.toNat x.toNat).1 = false →
      ∃ t, exec (.calLaneStep p f x) s = .next t ∧ (rotOf t f.toNat).want = (rotOf u f.toNat).want ++ [(x.toNat, p.ref 0x0702)] ∧
        (rotOf t f.toNat).step = (rotOf u f.toNat).step) ∧
    (f.toNat < 16 → x.toNat < 33 → litUp u = true → calMode u f.toNat = 2 → (laneOf u f.toNat x.toNat).failed = false → (txLinkOf u f.toNat x.toNat).isSome = true →
      calReady u f.toNat = true → (fibreOf u f.toNat).apr = false → (rotOf u f.toNat).want = [] →
      ∃ t, exec (.calLaneStep p f x) s = .next t ∧ (rotOf t f.toNat).want = [] ∧
        (rotOf t f.toNat).step = some { lane := x.toNat, phase := .tx, s0 := (fibreOf u f.toNat).sfc, pkt := some (p.ref 0x0702), rolled := true })) ∧
  (∀ (p : Pkt) (kind f x : BitVec 8) (buf : Buf) (s u : State),
    bodyState p 0x0703 (le 1 kind.toNat ++ le 1 f.toNat ++ le 1 x.toNat ++ buf.bytes) s = some u →
    (kind.toNat = 0 ∨ 2 < kind.toNat ∨ 16 ≤ f.toNat ∨ 33 ≤ x.toNat → exec (.calRead p kind f x buf) s = .next (reply (p.ref 0x0703) 0x0105 [] u)) ∧
    (1 ≤ kind.toNat → kind.toNat ≤ 2 → f.toNat < 16 → x.toNat < 33 →
      (newestRec u.cal.journal (calKey (kind.toNat - 1) f.toNat x.toNat) = none → exec (.calRead p kind f x buf) s = .next (reply (p.ref 0x0703) 0x0201 [] u)) ∧
      (∀ e, newestRec u.cal.journal (calKey (kind.toNat - 1) f.toNat x.toNat) = some e → e.2.bytes.length ≤ buf.len.toNat →
        ∃ t, exec (.calRead p kind f x buf) s = .next t ∧ t.out = { chan := .hostWrite, port := buf.addr.toNat, body := e.2.bytes } :: u.out ∧ t.cal = u.cal))) ∧
  (∀ (j : List (Nat × JourRec)) (key : Nat) (e : Nat × JourRec), newestRec j key = some e →
    e ∈ j ∧ e.2.good = true ∧ e.2.key = key ∧ ∀ x ∈ j, x.2.good = true → x.2.key = key → x.2.seq.toNat ≤ e.2.seq.toNat) ∧
  (∀ (p : Pkt) (buf : Buf) (s u : State), bodyState p 0x0704 buf.bytes s = some u → 3380 ≤ buf.len.toNat →
    ∃ t, exec (.privRead p buf) s = .next t ∧ t.cal = u.cal ∧ t.opt = u.opt ∧
      t.out = { chan := .hostWrite, port := buf.addr.toNat,
                body := ((List.range 5).map fun k => le 16 (kopBits (combOf u k))).flatten ++ ((List.range 825).map fun e => le 4 (eobOf u e).toNat).flatten } :: u.out) ∧
  (∀ (p : Pkt) (index : BitVec 16) (value : BitVec 128) (s u : State), bodyState p 0x0705 (le 1 0 ++ le 2 index.toNat ++ le 16 value.toNat) s = some u →
    (5 ≤ index.toNat → exec (.privWriteComb p index value) s = .next (reply (p.ref 0x0705) 0x0105 [] u)) ∧
    (index.toNat < 5 → (combOf u index.toNat).lit = true ∨ ceReach u 0 = false → exec (.privWriteComb p index value) s = .next (reply (p.ref 0x0705) 0x0201 [] u)) ∧
    (index.toNat < 5 → (combOf u index.toNat).lit = false → ceReach u 0 = true → twf {} u.opt.combs = true →
      ∃ t, exec (.privWriteComb p index value) s = .next t ∧ combOf t index.toNat = kopWrite value (combOf u index.toNat) ∧
        (∀ k, k ≠ index.toNat → combOf t k = combOf u k) ∧ t.cal = u.cal)) ∧
  (∀ (p : Pkt) (index : BitVec 16) (value : BitVec 128) (s u : State), bodyState p 0x0705 (le 1 1 ++ le 2 index.toNat ++ le 16 value.toNat) s = some u →
    (825 ≤ index.toNat → exec (.privWriteEoBias p index value) s = .next (reply (p.ref 0x0705) 0x0105 [] u)) ∧
    (index.toNat < 825 → twf 0 u.cal.eob = true →
      ∃ t, exec (.privWriteEoBias p index value) s = .next t ∧ index.toNat ∈ t.cal.eoDue ∧
        (eobOf t index.toNat).toNat / 65536 = value.toNat / 65536 % 65536 ∧ (eobOf t index.toNat).toNat % 2 = value.toNat % 2 ∧
        (∀ k, k ≠ index.toNat → eobOf t k = eobOf u k) ∧ t.opt = u.opt)) ∧
  (∀ (p : Pkt) (f x side : BitVec 8) (s u : State), bodyState p 0x0706 (le 1 f.toNat ++ le 1 x.toNat ++ le 1 side.toNat) s = some u →
    (16 ≤ f.toNat ∨ 33 ≤ x.toNat ∨ 2 ≤ side.toNat → exec (.calSuspectClear p f x side) s = .next (reply (p.ref 0x0706) 0x0105 [] u)) ∧
    (f.toNat < 16 → x.toNat < 33 → twf {} u.opt.lanes = true →
      (side = 0 → ∃ t, exec (.calSuspectClear p f x side) s = .next t ∧ laneOf t f.toNat x.toNat = { laneOf u f.toNat x.toNat with suspect := false } ∧ t.cal = u.cal) ∧
      (side = 1 → ∃ t, exec (.calSuspectClear p f x side) s = .next t ∧ laneOf t f.toNat x.toNat = { laneOf u f.toNat x.toNat with suspectRx := false } ∧ t.cal = u.cal)))

/-! ### The Prefect pair -/

/-- Claims: a claim is 32 bits, its epoch in bits 31 to 1 and its unit in bit 0, PA 0 and PB 1; compared as unsigned integers, the
higher claim has the higher epoch, or at equal epochs is PB's (R305). -/
def Obligations.ClaimsAreOrdered : Prop :=
  (∀ c : BitVec 32, epochOf c = (c >>> 1).toNat ∧ claimUnit c = c.getLsbD 0 ∧ mkClaim (epochOf c) (claimUnit c) = c) ∧
  (∀ (e : Nat) (u : Bool), e < 2 ^ 31 → epochOf (mkClaim e u) = e ∧ claimUnit (mkClaim e u) = u) ∧
  (∀ s : State, unitOf s false = s.pfx.pa ∧ unitOf s true = s.pfx.pb) ∧
  (∀ a b : BitVec 32, b < a ↔ epochOf b < epochOf a ∨ (epochOf a = epochOf b ∧ claimUnit a = true ∧ claimUnit b = false)) ∧
  mkClaim 0x41 false = 0x00000082 ∧ mkClaim 0x41 true = 0x00000083

/-- A gate accepts a claim of the next epoch, and in an unpaired epoch a higher claim of the same one; it discards and counts the
claims of lower epochs and of epochs further ahead; a configuration command under another claim is discarded and counted, one in
sequence is executed, or in a paired epoch waits for the partner's copy and is executed when that comes or when its window ends; one that
is not new changes no configuration, one ahead is held; a readback changes nothing, and a sender repeats what is not acknowledged
(R304, R307 to R309, R316). -/
def Obligations.GatesObeyTheAcceptedClaim : Prop :=
  (∀ (g : Nat) (u pair : Bool) (c : BitVec 32) (s : State), svOn s = true → g < 10 → claimUnit c = u →
    (epochOf c = epochOf (gateOf s g).claim + 1 →
      ∃ t, exec (.gateClaim g u c pair) s = .next t ∧ (gateOf t g).claim = c ∧ (gateOf t g).paired = pair ∧ (gateOf t g).ack = (gateOf s g).ack ∧
        (gateOf t g).config = (gateOf s g).config ∧ (∀ h, h ≠ g → gateOf t h = gateOf s h) ∧ t.db = s.db) ∧
    (epochOf (gateOf s g).claim + 1 < epochOf c ∨ epochOf c < epochOf (gateOf s g).claim ∨
        (epochOf c = epochOf (gateOf s g).claim ∧ (gateOf s g).paired = false ∧ c < (gateOf s g).claim) →
      ∃ t, exec (.gateClaim g u c pair) s = .next t ∧ gateOf t g = { gateOf s g with discards := addSat (gateOf s g).discards 1 } ∧
        (∀ h, h ≠ g → gateOf t h = gateOf s h) ∧
        (s.db.svDown = false → suppressed evClaimDiscarded s.db = false → s.pwr.nvInhibit = false → t.db.count = s.db.count + 1)) ∧
    (epochOf c = epochOf (gateOf s g).claim → (gateOf s g).paired = false → (gateOf s g).claim < c →
      ∃ t, exec (.gateClaim g u c pair) s = .next t ∧ gateOf t g = { gateOf s g with claim := c } ∧ (∀ h, h ≠ g → gateOf t h = gateOf s h)) ∧
    (epochOf c = epochOf (gateOf s g).claim → (gateOf s g).paired = true ∨ c = (gateOf s g).claim → exec (.gateClaim g u c pair) s = .next s)) ∧
  (∀ (g : Nat) (u : Bool) (c : GateCmd) (s : State), svOn s = true → g < 10 → claimUnit c.claim = u →
    (gateObeys (gateOf s g) c.claim = true ↔
      epochOf c.claim = epochOf (gateOf s g).claim ∧ ((gateOf s g).paired = true ∨ c.claim = (gateOf s g).claim)) ∧
    (gateObeys (gateOf s g) c.claim = false →
      ∃ t, exec (.gateConfigCommand g u c) s = .next t ∧ gateOf t g = { gateOf s g with discards := addSat (gateOf s g).discards 1 } ∧
        ∀ h, h ≠ g → gateOf t h = gateOf s h) ∧
    (gateObeys (gateOf s g) c.claim = true → c.seq.toNat = (gateOf s g).ack.toNat + 1 → (gateOf s g).ahead = [] →
      ((gateOf s g).paired = false →
        ∃ t, exec (.gateConfigCommand g u c) s = .next t ∧ (gateOf t g).ack = c.seq ∧ (gateOf t g).config = (c.opc, c.payload) :: (gateOf s g).config ∧
          (gateOf t g).claim = (gateOf s g).claim ∧ ∀ h, h ≠ g → gateOf t h = gateOf s h) ∧
      ((gateOf s g).paired = true → (gateOf s g).first = none →
        ∃ t, exec (.gateConfigCommand g u c) s = .next t ∧ (gateOf t g).ack = (gateOf s g).ack ∧ (gateOf t g).first = some c ∧
          (gateOf t g).config = (gateOf s g).config ∧ ∀ h, h ≠ g → gateOf t h = gateOf s h) ∧
      (∀ a, (gateOf s g).paired = true → (gateOf s g).first = some a → a.claim ≠ c.claim → a.same c = true →
        ∃ t, exec (.gateConfigCommand g u c) s = .next t ∧ (gateOf t g).ack = c.seq ∧ (gateOf t g).first = none ∧
          (gateOf t g).config = (c.opc, c.payload) :: (gateOf s g).config ∧ ∀ h, h ≠ g → gateOf t h = gateOf s h)) ∧
    (gateObeys (gateOf s g) c.claim = true → c.seq.toNat ≤ (gateOf s g).ack.toNat → twf {} s.pfx.gates = true →
      ∃ t, exec (.gateConfigCommand g u c) s = .next t ∧ (gateOf t g).ack = (gateOf s g).ack ∧ (gateOf t g).config = (gateOf s g).config) ∧
    (gateObeys (gateOf s g) c.claim = true → (gateOf s g).ack.toNat + 1 < c.seq.toNat → (gateOf s g).ahead.length < 16 →
      ∃ t, exec (.gateConfigCommand g u c) s = .next t ∧ (gateOf t g).ahead = (gateOf s g).ahead ++ [c] ∧ (gateOf t g).ack = (gateOf s g).ack ∧
        (gateOf t g).config = (gateOf s g).config)) ∧
  (∀ (g : Nat) (s : State),
    (∀ c, svOn s = true → (gateOf s g).first = some c → (gateOf s g).ahead = [] →
      ∃ t, exec (.pairCopyWindowExpiry g) s = .next t ∧ (gateOf t g).ack = c.seq ∧ (gateOf t g).first = none ∧
        (gateOf t g).singles = addSat (gateOf s g).singles 1 ∧ (gateOf t g).config = (c.opc, c.payload) :: (gateOf s g).config ∧
        ∀ h, h ≠ g → gateOf t h = gateOf s h) ∧
    ((gateOf s g).first = none → exec (.pairCopyWindowExpiry g) s = .next s)) ∧
  (∀ (g : Nat) (s : State), svOn s = true → g < 10 →
    exec (.gateReadbackRequest g) s = .next { s with out := { chan := .gateCast, port := g,
                                                              body := ((gateOf s g).config.map fun e => le 2 e.1.toNat ++ le 2 (e.2.length / 8) ++ e.2).flatten } :: s.out }) ∧
  (∀ (g : Nat) (u : Bool) (s : State),
    (unitAlive s u = true → unitSends (unitOf s u).role = true → g < 10 →
      exec (.gateResendTimeout g u) s = .next { s with out := ((s.pfx.sent.filter fun e => decide (e.1 = g) && decide ((gateOf s g).ack.toNat < e.2.seq.toNat)).map fun e =>
        ({ chan := .gateCmd, port := g, body := cmdBytes g { e.2 with claim := (unitOf s u).claim } } : Out)) ++ s.out }) ∧
    (unitSends (unitOf s u).role = false → exec (.gateResendTimeout g u) s = .next s))

/-- The Prefects watch each other: a heartbeat goes out on both cross-links; a good one ends the misses and puts a failed partner back to
standby, one that shows the partner unhealthy fails it at once, a broken or own one changes nothing; the third miss fails the partner,
unless the gates have accepted a newer claim of it; a failed controller's partner claims the accepted epoch plus one; a claim that all
gates hold makes its unit the controller, at once where it was sending or the epoch is paired, else after the settle window; a unit with
the lower claim stands down; a claim is repeated three times and then given up, or its path is at fault; a paired unit that trails by more
than 8 stands down; and with no standby none is accepted (R310 to R314, R316, R317, R319, R322). -/
def Obligations.PrefectsWatchEachOther : Prop :=
  (∀ (u : Bool) (s : State),
    (unitAlive s u = true →
      ∃ t b, exec (.heartbeatSend u) s = .next t ∧ hbGood b = true ∧
        t.out = { chan := .heartbeat, port := 2 * b2n u + 1, body := b } :: { chan := .heartbeat, port := 2 * b2n u, body := b } :: s.out ∧
        unitOf t u = { unitOf s u with hbCount := (unitOf s u).hbCount + 1 } ∧ t.pfx.gates = s.pfx.gates) ∧
    (unitAlive s u = false → exec (.heartbeatSend u) s = .next s)) ∧
  (∀ (u l : Bool) (b : Bytes) (s : State),
    (hbGood b = false ∨ bit (rd b 0 16) 127 = u ∨ unitAlive s u = false → exec (.heartbeat u l b) s = .next s) ∧
    (hbGood b = true → bit (rd b 0 16) 127 = (!u) → unitAlive s u = true →
      (fld (rd b 0 16) 32 20 = (unitOf s u).rxCount.toNat →
        ∃ t, exec (.heartbeat u l b) s = .next t ∧ (unitOf t u).misses = (unitOf s u).misses ∧ t.pfx.gates = s.pfx.gates) ∧
      (fld (rd b 0 16) 32 20 ≠ (unitOf s u).rxCount.toNat → fld (rd b 0 16) 84 3 = 7 →
        ∃ t, exec (.heartbeat u l b) s = .next t ∧ (unitOf t u).misses = 0 ∧ (unitOf t u).got = true ∧
          (unitOf t u).rxCount.toNat = fld (rd b 0 16) 32 20 ∧ t.pfx.gates = s.pfx.gates ∧
          ((unitOf s (!u)).role = .failed → (unitOf t (!u)).role = .standby)) ∧
      (fld (rd b 0 16) 32 20 ≠ (unitOf s u).rxCount.toNat → fld (rd b 0 16) 84 3 ≠ 7 → (unitOf s (!u)).role ≠ .failed → epochOf (acceptedClaim s) < 0x7FFFFFFF →
        ∃ t, exec (.heartbeat u l b) s = .next t ∧ (unitOf t (!u)).role = .failed ∧ (unitOf t u).claiming = true ∧
          (unitOf t u).claim = mkClaim (epochOf (acceptedClaim s) + 1) u ∧ t.pfx.gates = s.pfx.gates))) ∧
  (∀ (u : Bool) (s : State), unitAlive s u = true →
    ((unitOf s u).misses + 1 ≠ 3 →
      exec (.heartbeatMiss u) s = .next (modUnit u (fun x => { x with misses := x.misses + 1, got := false }) s)) ∧
    ((unitOf s u).misses + 1 = 3 → (unitOf s u).partnerClaimed = false → (unitOf s (!u)).role ≠ .failed → epochOf (acceptedClaim s) < 0x7FFFFFFF →
      ∃ t, exec (.heartbeatMiss u) s = .next t ∧ (unitOf t (!u)).role = .failed ∧ (unitOf t u).claiming = true ∧
        (unitOf t u).claim = mkClaim (epochOf (acceptedClaim s) + 1) u ∧ t.pfx.gates = s.pfx.gates) ∧
    ((unitOf s u).misses + 1 = 3 → (unitOf s u).partnerClaimed = true →
      ∃ t, exec (.heartbeatMiss u) s = .next t ∧ unitOf t (!u) = unitOf s (!u) ∧ (unitOf t u).claim = (unitOf s u).claim ∧ t.pfx.gates = s.pfx.gates)) ∧
  (∀ (g : Nat) (u pair : Bool) (a : BitVec 32) (s : State), unitAlive s u = true → g < 10 →
    ((unitOf s u).claiming = true → a = (unitOf s u).claim → allHold s a = true →
      ∃ t, exec (.gateBroadcast g u a pair) s = .next t ∧ (unitOf t u).claiming = false ∧ t.pfx.gates = s.pfx.gates ∧
        ((gateOf s 0).paired = true → (unitOf t u).role = .pairedSender) ∧
        ((gateOf s 0).paired = false → unitSends (unitOf s u).role = true → (unitOf t u).role = .controlling) ∧
        ((gateOf s 0).paired = false → unitSends (unitOf s u).role = false → (unitOf t u).role = (unitOf s u).role ∧ (unitOf t u).settling = true)) ∧
    ((unitOf s u).claim < a → pair = false → unitSends (unitOf s u).role = true ∨ (unitOf s u).claiming = true ∨ (unitOf s u).settling = true →
      ∃ t, exec (.gateBroadcast g u a pair) s = .next t ∧ (unitOf t u).role = .stoodDown ∧ (unitOf t u).claiming = false ∧ (unitOf t u).settling = false ∧
        t.pfx.gates = s.pfx.gates) ∧
    (epochOf (unitOf s u).claim < epochOf a → pair = true → (unitOf s u).pathFault = false →
      ∃ t, exec (.gateBroadcast g u a pair) s = .next t ∧ (unitOf t u).role = .pairedSender ∧ (unitOf t u).claim = mkClaim (epochOf a) u ∧
        (unitOf t u).claiming = false)) ∧
  (∀ (u : Bool) (s : State),
    (unitAlive s u = true → (unitOf s u).settling = true → allHold s (unitOf s u).claim = true →
      ∃ t, exec (.claimSettleExpiry u) s = .next t ∧ (unitOf t u).role = .controlling ∧ (unitOf t u).settling = false ∧ t.pfx.gates = s.pfx.gates) ∧
    ((unitOf s u).settling = false → exec (.claimSettleExpiry u) s = .next s)) ∧
  (∀ (u : Bool) (s : State), unitAlive s u = true →
    ((unitOf s u).claiming = false ∨ (∃ g, g < 10 ∧ (gateOf s g).claim = (unitOf s u).claim) → exec (.claimRetryTimeout u) s = .next s) ∧
    ((unitOf s u).claiming = true → (∀ g, g < 10 → (gateOf s g).claim ≠ (unitOf s u).claim) →
      ((unitOf s u).retries < 3 →
        ∃ t, exec (.claimRetryTimeout u) s = .next t ∧ unitOf t u = { unitOf s u with retries := (unitOf s u).retries + 1 } ∧ t.out.length = s.out.length + 10) ∧
      (3 ≤ (unitOf s u).retries → (∀ e ∈ (unitOf s u).ackSeen, (gateOf s e.1).ack = e.2) →
        ∃ t, exec (.claimRetryTimeout u) s = .next t ∧ t.pfx.noAccepted = true ∧ (unitOf t u).claiming = false) ∧
      (3 ≤ (unitOf s u).retries → (∃ e ∈ (unitOf s u).ackSeen, (gateOf s e.1).ack ≠ e.2) →
        ∃ t, exec (.claimRetryTimeout u) s = .next t ∧ (unitOf t u).role = .stoodDown ∧ (unitOf t u).pathFault = true ∧ (unitOf t u).claiming = false ∧
          (unitOf t u).health.getLsbD 4 = false))) ∧
  (∀ (g : Nat) (u : Bool) (s : State), unitAlive s u = true → g < 10 →
    ((gateOf s g).paired = true → (unitOf s u).role = .pairedSender →
      (if u then (gateOf s g).seenB else (gateOf s g).seenA).toNat + 8 < (gateOf s g).ack.toNat → epochOf (acceptedClaim s) < 0x7FFFFFFF →
      ∃ t, exec (.pathPaceTimeout g u) s = .next t ∧ (unitOf t u).role = .stoodDown ∧ (unitOf t u).pathFault = true ∧ (unitOf t (!u)).claiming = true ∧
        (unitOf t (!u)).claim = mkClaim (epochOf (acceptedClaim s) + 1) (!u)) ∧
    ((gateOf s g).paired = false → exec (.pathPaceTimeout g u) s = .next s)) ∧
  (∀ (c : Bool) (s : State), svOn s = true → c = controller s →
    (s.pfx.noAccepted = false → (unitOf s (!c)).role = .standby → (unitOf s (!c)).health.toNat % 16 = 15 → epochOf (acceptedClaim s) < 0x7FFFFFFF →
      ∃ t, exec .svHeartbeatWatch s = .next t ∧ (unitOf t c).role = .failed ∧ (unitOf t (!c)).claiming = true) ∧
    (s.pfx.noAccepted = false → (unitOf s c).role ≠ .off → (unitOf s (!c)).role = .failed →
      ∃ t, exec .svHeartbeatWatch s = .next t ∧ t.pfx.noAccepted = true ∧ t.pfx.gates = s.pfx.gates) ∧
    (s.pfx.noAccepted = true → exec .svHeartbeatWatch s = .next s))

/-- Modes, reverts and the Prefect opcodes: the home Prefect claims when its hold-off ends, not while a plan is at work, and the fourth
revert in an hour turns reverting off; a mode change that could not be made is refused; PREFECT_STATUS, PREFECT_SET_MODE with its limit
of 4,096, PREFECT_SET_HOME, PREFECT_REVERT_ENABLE and PREFECT_SWITCHOVER (R315, R316, R320, R321, R325, R355). -/
def Obligations.ModesRevertsAndPrefectOpcodes : Prop :=
  (∀ s : State, svOn s = true → homeReady s = true → s.pfx.revertEn = true → noClaim s = true →
    (planBusy s = true → exec .revertHoldoffExpiry s = .next (s.modPfx fun p => { p with revertDue := true, holdLeft := 0 })) ∧
    (planBusy s = false → hourReverts s < 3 → epochOf (acceptedClaim s) < 0x7FFFFFFF →
      ∃ t, exec .revertHoldoffExpiry s = .next t ∧ (unitOf t s.pfx.home).claiming = true ∧
        (unitOf t s.pfx.home).claim = mkClaim (epochOf (acceptedClaim s) + 1) s.pfx.home ∧ t.pfx.revertDue = false ∧ t.pfx.gates = s.pfx.gates) ∧
    (planBusy s = false → 3 ≤ hourReverts s →
      ∃ t, exec .revertHoldoffExpiry s = .next t ∧ t.pfx.revertEn = false ∧ unitOf t s.pfx.home = unitOf s s.pfx.home)) ∧
  (∀ s : State, homeReady s = false → exec .revertHoldoffExpiry s = .next s) ∧
  (∀ (s : State) (hot : Bool),
    (∀ r, svOn s = true → s.pfx.modePkt = some (hot, some r) →
      exec .pairModeChangeTimeout s = .next (reply r 0x0201 [] (s.modPfx fun p => { p with modePkt := none }))) ∧
    (svOn s = true → s.pfx.modePkt = some (hot, none) → exec .pairModeChangeTimeout s = .next (s.modPfx fun p => { p with modePkt := none })) ∧
    (s.pfx.modePkt = none → exec .pairModeChangeTimeout s = .next s)) ∧
  (∀ (p : Pkt) (s u : State), bodyState p 0x0801 [] s = some u →
    exec (.prefectStatus p) s =
      .next (reply (p.ref 0x0801) 0 (le 8 (pfxStatusReg u) ++ ((List.range 10).map fun g => le 2 (gateOf u g).discards.toNat).flatten) u)) ∧
  (∀ (p : Pkt) (limit : BitVec 16) (s u : State), bodyState p 0x0802 (le 2 limit.toNat) s = some u →
    (4096 < limit.toNat → exec (.prefectSetMode p limit) s = .next (reply (p.ref 0x0802) 0x0105 [] u)) ∧
    (limit.toNat ≤ 4096 → ∃ t, exec (.prefectSetMode p limit) s = .next t ∧ t.pfx.pairLimit = limit ∧ t.pfx.diverged = false ∧ t.pfx.gates = u.pfx.gates)) ∧
  (∀ (p : Pkt) (unit : BitVec 8) (hold : BitVec 16) (s u : State), bodyState p 0x0803 (le 1 unit.toNat ++ le 2 hold.toNat) s = some u →
    (2 ≤ unit.toNat ∨ hold = 0 ∨ 3600 < hold.toNat → exec (.prefectSetHome p unit hold) s = .next (reply (p.ref 0x0803) 0x0105 [] u)) ∧
    (unit.toNat < 2 → 1 ≤ hold.toNat → hold.toNat ≤ 3600 →
      ∃ t, exec (.prefectSetHome p unit hold) s = .next t ∧ t.pfx.home = decide (unit.toNat = 1) ∧ t.pfx.holdOff = hold ∧ t.pfx.pa = u.pfx.pa ∧
        t.pfx.pb = u.pfx.pb ∧ t.pfx.gates = u.pfx.gates)) ∧
  (∀ (p : Pkt) (s u : State), bodyState p 0x0804 [] s = some u →
    ∃ t, exec (.prefectRevertEnable p) s = .next t ∧ t.pfx.revertEn = true ∧ (unitOf t u.pfx.home).pathFault = false ∧
      (unitOf t u.pfx.home).role = (unitOf u u.pfx.home).role ∧ t.pfx.gates = u.pfx.gates) ∧
  (∀ (p : Pkt) (c : Bool) (s u : State), bodyState p 0x0805 [] s = some u → c = controller u →
    (u.pfx.noAccepted = true ∨ healthy u (!c) = false ∨ planBusy u = true ∨ noClaim u = false → exec (.prefectSwitchover p) s = .next (reply (p.ref 0x0805) 0x0201 [] u)) ∧
    (u.pfx.noAccepted = false → healthy u (!c) = true → planBusy u = false → noClaim u = true → (unitOf u (!c)).role = .standby →
      epochOf (acceptedClaim u) < 0x7FFFFFFF →
      ∃ t v, exec (.prefectSwitchover p) s = .next t ∧ t = reply (p.ref 0x0805) 0 (le 4 (mkClaim (epochOf (acceptedClaim u) + 1) (!c)).toNat) v ∧
        (unitOf t (!c)).claiming = true ∧ (unitOf t (!c)).claim = mkClaim (epochOf (acceptedClaim u) + 1) (!c) ∧ t.pfx.gates = u.pfx.gates))

/-! ### Whole-machine statements -/

/-- What reset leaves: no command waits; every register of the host interface, the Prefects, calibration and the power limits holds the
reset value of its table; time is not valid; no image is loaded, every stream context is INVALID and every sync object 0; the measurement
registers read 0, the gates hold claim 0 unpaired, the interleave key is 0, and memory reads as 0 in canonical form (R32, R36, R37, R115,
R138, R282, R307, R315, R320, R332, R387, R402, R426, R451; memory as nothing listed is the model's own form, log entry 2). -/
def Obligations.ResetLeavesTheStatedValues : Prop :=
  State.reset.pending = [] ∧ State.reset.memWf = true ∧ State.reset.mergesDistinct ∧ (∀ a, tget 0 State.reset.mem.cells a = 0) ∧ (∀ a, tsByte State.reset a = 0) ∧
  State.reset.hi.free = 16384 ∧ State.reset.hi.consume = 0 ∧ State.reset.hi.expectSeq = 0 ∧ State.reset.hi.halt = false ∧ State.reset.hi.ringEn = false ∧
  State.reset.hi.ringSize = 12 ∧ State.reset.hi.irqCount = 1 ∧ State.reset.hi.irqTime = 0 ∧ State.reset.hi.urgent = 3 ∧ State.reset.hi.push = 0 ∧
  State.reset.hi.latchGroups = 0 ∧ State.reset.hi.latchRemain = 0 ∧ State.reset.hi.held = [] ∧
  (∀ g, (gateOf State.reset g).claim = 0 ∧ (gateOf State.reset g).paired = false) ∧ State.reset.pfx.pairLimit = 64 ∧ State.reset.pfx.holdOff = 10 ∧
  State.reset.cal.interval = 600 ∧ State.reset.pwr.capW = 3400 ∧ State.reset.pwr.capA = 100 ∧ State.reset.tm.valid = false ∧ State.reset.tm.rank = 0xF ∧
  State.reset.job.image = none ∧ (∀ st, (ctxOf State.reset st).state = .invalid) ∧ (∀ o, syncOf State.reset o = {}) ∧ (syncOf State.reset 0).count = 0 ∧
  (∀ r, tget 0 State.reset.sec.mr r = 0) ∧ State.reset.mem.ikey = 0 ∧ (∀ code, (tget {} State.reset.db.buckets code).burst = 16 ∧ (tget {} State.reset.db.buckets code).refill = 4)

/-- Every step keeps the form in which memory is held: in LPDDR and in the tile store addresses rise strictly and no entry holds the zero
that an unlisted address reads as, and each merge buffer holds at most one entry for a code word (R127, R138; the form is the model's own,
log entry 2). -/
def Obligations.EveryStepKeepsTheMemoryForm : Prop :=
  ∀ s t : State, step s = .next t → (s.memWf = true → t.memWf = true) ∧ (s.mergesDistinct → t.mergesDistinct)

/-- Memory changes only by its commands: a command that is not among those that write LPDDR leaves every byte of it, and one that is not
among those that write tile store leaves every byte of that (R122 to R138). -/
def Obligations.MemoryChangesOnlyByItsCommands : Prop :=
  ∀ (c : Instr) (s t : State), exec c s = .next t →
    (writesLpddr c = false → t.mem.cells = s.mem.cells) ∧ (writesTiles c = false → t.ts.cells = s.ts.cells)

/-- State under a rule of its own changes only by the commands of that rule: the measurement registers and their log, the gates, the
fabric time apart from its running, and the loaded image (R42, R245, R304, R421). -/
def Obligations.GuardedStateChangesOnlyByItsCommands : Prop :=
  ∀ (c : Instr) (s t : State), exec c s = .next t →
    (extendsMeasurements c = false → t.sec.mr = s.sec.mr ∧ t.sec.log = s.sec.log) ∧ (commandsGates c = false → t.pfx.gates = s.pfx.gates) ∧
    (setsTime c = false → t.tm.ft = s.tm.ft) ∧ (loadsImages c = false → t.job.image = s.job.image)

/-- Every command completes: it answers a next state, and the commands that wait stay as they are. -/
def Obligations.EveryCommandCompletes : Prop :=
  ∀ (c : Instr) (s : State), ∃ t, exec c s = .next t ∧ t.pending = s.pending

/-! ### Addresses and bursts -/

/-- The interleave hash: the byte offset o of die d's LPDDR region maps, through the interleave key, to the channel, sub-channel, bank, row
and burst that the rule's program computes; for every key the mapping is a bijection between the region of 1.5 TiB, burst by burst, and
the die's coordinates; a byte of a burst is at o & 0x1F of its code word; and a key with a channel rotation of 6 or 7 or a non-zero
reserved field is refused by JOB_LOAD with 0x0105; at reset the key is 0 (R113, R114). -/
def Obligations.InterleaveHashIsABijection : Prop :=
  (∀ (k d o : Nat), d < 4 → o < 0x18000000000 →
    (toCoord k d o).ch = 64 * d + (((o >>> 8) &&& 0x3F) ^^^ (List.range 5).foldl (fun hc i =>
      hc ^^^ (((((o >>> 14) >>> (6 * i)) &&& 0x3F) <<< ((k >>> (3 * i)) &&& 7) ||| (((o >>> 14) >>> (6 * i)) &&& 0x3F) >>> (6 - ((k >>> (3 * i)) &&& 7))) &&& 0x3F))
      ((k >>> 15) &&& 0x3F)) ∧
    (toCoord k d o).bank = (((o >>> 20) &&& 0xF) ^^^ (List.range 5).foldl (fun hb i =>
      hb ^^^ (((((o >>> 24) >>> (4 * i)) &&& 0xF) <<< ((k >>> (21 + 2 * i)) &&& 3) ||| (((o >>> 24) >>> (4 * i)) &&& 0xF) >>> (4 - ((k >>> (21 + 2 * i)) &&& 3))) &&& 0xF))
      ((k >>> 31) &&& 0xF)) ∧
    (toCoord k d o).row = o >>> 24 ∧ (toCoord k d o).sub = (o >>> 7) &&& 1 ∧ (toCoord k d o).burst = 4 * ((o >>> 14) &&& 0x3F) + ((o >>> 5) &&& 3)) ∧
  (∀ (k d o : Nat), d < 4 → o < 0x18000000000 →
    (toCoord k d o).ch / 64 = d ∧ (toCoord k d o).ch < 256 ∧ (toCoord k d o).sub < 2 ∧ (toCoord k d o).bank < 16 ∧ (toCoord k d o).row < 98304 ∧
    (toCoord k d o).burst < 256 ∧ toMpa k (toCoord k d o) = d * 0x18000000000 + o / 32 * 32) ∧
  (∀ (k : Nat) (c : Coord), c.ch < 256 → c.sub < 2 → c.bank < 16 → c.row < 98304 → c.burst < 256 →
    toMpa k c / 0x18000000000 = c.ch / 64 ∧ toMpa k c % 32 = 0 ∧ toCoord k (c.ch / 64) (toMpa k c % 0x18000000000) = c) ∧
  (∀ (err : ReadErr) (q : MemSrc) (a n : Nat) (s t : State) (d : Bytes), a + n ≤ 0x60000000000 → 0 < n → a % 32 + n ≤ 32 →
    chanUp s (toCoord s.mem.ikey.toNat (a / 0x18000000000) (a % 0x18000000000)).ch = true →
    readBurst err (toCoord s.mem.ikey.toNat (a / 0x18000000000) (a % 0x18000000000)) q s = (some d, t) →
    mpaRead err q none a n s = ({ data := part d (a % 32) n }, t)) ∧
  (∀ (p : Pkt) (addr number seed key : BitVec 64) (len : BitVec 32) (image : Bytes) (s u : State),
    bodyState p 0x0204 (le 8 addr.toNat ++ le 4 len.toNat ++ le 8 number.toNat ++ le 8 seed.toNat ++ le 8 key.toNat) s = some u →
    key.toNat >>> 35 ≠ 0 ∨ (∃ i, i < 5 ∧ 6 ≤ (key.toNat >>> (3 * i)) &&& 7) →
    exec (.jobLoad p addr len number seed key image) s = .next (reply (p.ref 0x0204) 0x0105 [] u)) ∧
  State.reset.mem.ikey = 0

/-- A burst that is written reads back: its code word decodes clean, a poisoned one as poison with the data behind it; 32 bytes written at
an address of a channel in service are read at it, whole and byte by byte, and no other burst changes; a tile-store word likewise
(R112, R122 to R124, R126, R127). -/
def Obligations.WrittenBurstsReadBack : Prop :=
  (∀ (deg : Bool) (d : Bytes), d.length = 32 → rsDecode deg (rsWord d) = .clean d ∧ rsDecode deg (rsPoison d) = .poisoned d poisonSyn) ∧
  (∀ (q : MemSrc) (a : Nat) (d : Bytes) (s : State) (c : Coord), a % 32 = 0 → a + 32 ≤ 0x60000000000 → d.length = 32 → Memory.wf s.mem.cells = true →
    c = toCoord s.mem.ikey.toNat (a / 0x18000000000) (a % 0x18000000000) → chanUp s c.ch = true →
    (s.mem.merge.map (·.key)).Nodup →
    mpaRead {} q none a 32 (mpaWrite {} q none a d s) = ({ data := d }, mpaWrite {} q none a d s) ∧
    (∀ i, i < 32 → mpaRead {} q none (a + i) 1 (mpaWrite {} q none a d s) = ({ data := [d.getD i 0] }, mpaWrite {} q none a d s)) ∧
    (∀ b, b < 36 * c.no s ∨ 36 * c.no s + 36 ≤ b → tget 0 (mpaWrite {} q none a d s).mem.cells b = tget 0 s.mem.cells b) ∧
    (mpaWrite {} q none a d s).ts = s.ts) ∧
  (∀ (q : MemSrc) (a : Nat) (d : Bytes) (s : State), a % 8 = 0 → 0x80000000000 ≤ a → a + 8 ≤ 0x80080000000 → d.length = 8 → Memory.wf s.ts.cells = true →
    mpaRead {} q none a 8 (mpaWrite {} q none a d s) = ({ data := d }, mpaWrite {} q none a d s) ∧
    (∀ b, b < a - 0x80000000000 ∨ a - 0x80000000000 + 8 ≤ b → tsByte (mpaWrite {} q none a d s) b = tsByte s b) ∧
    (mpaWrite {} q none a d s).mem = s.mem)

/-- Errors in the symbols of a burst: one symbol that differs is corrected in any sub-channel; two are corrected where the sub-channel is
not degraded, and uncorrectable where it is (R122, R123, R125). -/
def Obligations.SymbolErrorsAreCorrected : Prop :=
  (∀ (deg : Bool) (d : Bytes) (p : Nat) (e : BitVec 8), d.length = 32 → p < 36 → e ≠ 0 →
    rsDecode deg ((rsWord d).set p ((rsWord d).getD p 0 ^^^ e)) = .fixed d [p]) ∧
  (∀ (d : Bytes) (p q : Nat) (e f : BitVec 8), d.length = 32 → p < q → q < 36 → e ≠ 0 → f ≠ 0 →
    rsDecode false (((rsWord d).set p ((rsWord d).getD p 0 ^^^ e)).set q ((rsWord d).getD q 0 ^^^ f)) = .fixed d [p, q] ∧
    ∃ syn, rsDecode true (((rsWord d).set p ((rsWord d).getD p 0 ^^^ e)).set q ((rsWord d).getD q 0 ^^^ f)) = .bad syn)
end

