-- ==== Sys2Proof/Laws/State.lean ====
section
/-!
SUPPORT. What each change of one field of the state does to each field.
-/

namespace Sys2Proof.Laws

open Sys2Proof.Machine

@[simp] theorem modPending_pending (s : State) (g) : (s.modPending g).pending = g s.pending := rfl
@[simp] theorem modPending_sc (s : State) (g) : (s.modPending g).sc = s.sc := rfl
@[simp] theorem modPending_free (s : State) (g) : (s.modPending g).free = s.free := rfl
@[simp] theorem modPending_out (s : State) (g) : (s.modPending g).out = s.out := rfl
@[simp] theorem modPending_pins (s : State) (g) : (s.modPending g).pins = s.pins := rfl
@[simp] theorem modPending_pwr (s : State) (g) : (s.modPending g).pwr = s.pwr := rfl
@[simp] theorem modPending_boot (s : State) (g) : (s.modPending g).boot = s.boot := rfl
@[simp] theorem modPending_ident (s : State) (g) : (s.modPending g).ident = s.ident := rfl
@[simp] theorem modPending_prof (s : State) (g) : (s.modPending g).prof = s.prof := rfl
@[simp] theorem modPending_hi (s : State) (g) : (s.modPending g).hi = s.hi := rfl
@[simp] theorem modPending_db (s : State) (g) : (s.modPending g).db = s.db := rfl
@[simp] theorem modPending_life (s : State) (g) : (s.modPending g).life = s.life := rfl
@[simp] theorem modPending_sec (s : State) (g) : (s.modPending g).sec = s.sec := rfl
@[simp] theorem modPending_job (s : State) (g) : (s.modPending g).job = s.job := rfl
@[simp] theorem modPending_stn (s : State) (g) : (s.modPending g).stn = s.stn := rfl
@[simp] theorem modPending_strm (s : State) (g) : (s.modPending g).strm = s.strm := rfl
@[simp] theorem modPending_sync (s : State) (g) : (s.modPending g).sync = s.sync := rfl
@[simp] theorem modPending_mem (s : State) (g) : (s.modPending g).mem = s.mem := rfl
@[simp] theorem modPending_ts (s : State) (g) : (s.modPending g).ts = s.ts := rfl
@[simp] theorem modPending_opt (s : State) (g) : (s.modPending g).opt = s.opt := rfl
@[simp] theorem modPending_sw (s : State) (g) : (s.modPending g).sw = s.sw := rfl
@[simp] theorem modPending_tm (s : State) (g) : (s.modPending g).tm = s.tm := rfl
@[simp] theorem modPending_bells (s : State) (g) : (s.modPending g).bells = s.bells := rfl
@[simp] theorem modPending_ce (s : State) (g) : (s.modPending g).ce = s.ce := rfl
@[simp] theorem modPending_cal (s : State) (g) : (s.modPending g).cal = s.cal := rfl
@[simp] theorem modPending_pfx (s : State) (g) : (s.modPending g).pfx = s.pfx := rfl
@[simp] theorem modPending_net (s : State) (g) : (s.modPending g).net = s.net := rfl
@[simp] theorem modPending_nvw (s : State) (g) : (s.modPending g).nvw = s.nvw := rfl
@[simp] theorem modPending_nvs (s : State) (g) : (s.modPending g).nvs = s.nvs := rfl

@[simp] theorem modSc_pending (s : State) (g) : (s.modSc g).pending = s.pending := rfl
@[simp] theorem modSc_sc (s : State) (g) : (s.modSc g).sc = g s.sc := rfl
@[simp] theorem modSc_free (s : State) (g) : (s.modSc g).free = s.free := rfl
@[simp] theorem modSc_out (s : State) (g) : (s.modSc g).out = s.out := rfl
@[simp] theorem modSc_pins (s : State) (g) : (s.modSc g).pins = s.pins := rfl
@[simp] theorem modSc_pwr (s : State) (g) : (s.modSc g).pwr = s.pwr := rfl
@[simp] theorem modSc_boot (s : State) (g) : (s.modSc g).boot = s.boot := rfl
@[simp] theorem modSc_ident (s : State) (g) : (s.modSc g).ident = s.ident := rfl
@[simp] theorem modSc_prof (s : State) (g) : (s.modSc g).prof = s.prof := rfl
@[simp] theorem modSc_hi (s : State) (g) : (s.modSc g).hi = s.hi := rfl
@[simp] theorem modSc_db (s : State) (g) : (s.modSc g).db = s.db := rfl
@[simp] theorem modSc_life (s : State) (g) : (s.modSc g).life = s.life := rfl
@[simp] theorem modSc_sec (s : State) (g) : (s.modSc g).sec = s.sec := rfl
@[simp] theorem modSc_job (s : State) (g) : (s.modSc g).job = s.job := rfl
@[simp] theorem modSc_stn (s : State) (g) : (s.modSc g).stn = s.stn := rfl
@[simp] theorem modSc_strm (s : State) (g) : (s.modSc g).strm = s.strm := rfl
@[simp] theorem modSc_sync (s : State) (g) : (s.modSc g).sync = s.sync := rfl
@[simp] theorem modSc_mem (s : State) (g) : (s.modSc g).mem = s.mem := rfl
@[simp] theorem modSc_ts (s : State) (g) : (s.modSc g).ts = s.ts := rfl
@[simp] theorem modSc_opt (s : State) (g) : (s.modSc g).opt = s.opt := rfl
@[simp] theorem modSc_sw (s : State) (g) : (s.modSc g).sw = s.sw := rfl
@[simp] theorem modSc_tm (s : State) (g) : (s.modSc g).tm = s.tm := rfl
@[simp] theorem modSc_bells (s : State) (g) : (s.modSc g).bells = s.bells := rfl
@[simp] theorem modSc_ce (s : State) (g) : (s.modSc g).ce = s.ce := rfl
@[simp] theorem modSc_cal (s : State) (g) : (s.modSc g).cal = s.cal := rfl
@[simp] theorem modSc_pfx (s : State) (g) : (s.modSc g).pfx = s.pfx := rfl
@[simp] theorem modSc_net (s : State) (g) : (s.modSc g).net = s.net := rfl
@[simp] theorem modSc_nvw (s : State) (g) : (s.modSc g).nvw = s.nvw := rfl
@[simp] theorem modSc_nvs (s : State) (g) : (s.modSc g).nvs = s.nvs := rfl

@[simp] theorem modFree_pending (s : State) (g) : (s.modFree g).pending = s.pending := rfl
@[simp] theorem modFree_sc (s : State) (g) : (s.modFree g).sc = s.sc := rfl
@[simp] theorem modFree_free (s : State) (g) : (s.modFree g).free = g s.free := rfl
@[simp] theorem modFree_out (s : State) (g) : (s.modFree g).out = s.out := rfl
@[simp] theorem modFree_pins (s : State) (g) : (s.modFree g).pins = s.pins := rfl
@[simp] theorem modFree_pwr (s : State) (g) : (s.modFree g).pwr = s.pwr := rfl
@[simp] theorem modFree_boot (s : State) (g) : (s.modFree g).boot = s.boot := rfl
@[simp] theorem modFree_ident (s : State) (g) : (s.modFree g).ident = s.ident := rfl
@[simp] theorem modFree_prof (s : State) (g) : (s.modFree g).prof = s.prof := rfl
@[simp] theorem modFree_hi (s : State) (g) : (s.modFree g).hi = s.hi := rfl
@[simp] theorem modFree_db (s : State) (g) : (s.modFree g).db = s.db := rfl
@[simp] theorem modFree_life (s : State) (g) : (s.modFree g).life = s.life := rfl
@[simp] theorem modFree_sec (s : State) (g) : (s.modFree g).sec = s.sec := rfl
@[simp] theorem modFree_job (s : State) (g) : (s.modFree g).job = s.job := rfl
@[simp] theorem modFree_stn (s : State) (g) : (s.modFree g).stn = s.stn := rfl
@[simp] theorem modFree_strm (s : State) (g) : (s.modFree g).strm = s.strm := rfl
@[simp] theorem modFree_sync (s : State) (g) : (s.modFree g).sync = s.sync := rfl
@[simp] theorem modFree_mem (s : State) (g) : (s.modFree g).mem = s.mem := rfl
@[simp] theorem modFree_ts (s : State) (g) : (s.modFree g).ts = s.ts := rfl
@[simp] theorem modFree_opt (s : State) (g) : (s.modFree g).opt = s.opt := rfl
@[simp] theorem modFree_sw (s : State) (g) : (s.modFree g).sw = s.sw := rfl
@[simp] theorem modFree_tm (s : State) (g) : (s.modFree g).tm = s.tm := rfl
@[simp] theorem modFree_bells (s : State) (g) : (s.modFree g).bells = s.bells := rfl
@[simp] theorem modFree_ce (s : State) (g) : (s.modFree g).ce = s.ce := rfl
@[simp] theorem modFree_cal (s : State) (g) : (s.modFree g).cal = s.cal := rfl
@[simp] theorem modFree_pfx (s : State) (g) : (s.modFree g).pfx = s.pfx := rfl
@[simp] theorem modFree_net (s : State) (g) : (s.modFree g).net = s.net := rfl
@[simp] theorem modFree_nvw (s : State) (g) : (s.modFree g).nvw = s.nvw := rfl
@[simp] theorem modFree_nvs (s : State) (g) : (s.modFree g).nvs = s.nvs := rfl

@[simp] theorem modOut_pending (s : State) (g) : (s.modOut g).pending = s.pending := rfl
@[simp] theorem modOut_sc (s : State) (g) : (s.modOut g).sc = s.sc := rfl
@[simp] theorem modOut_free (s : State) (g) : (s.modOut g).free = s.free := rfl
@[simp] theorem modOut_out (s : State) (g) : (s.modOut g).out = g s.out := rfl
@[simp] theorem modOut_pins (s : State) (g) : (s.modOut g).pins = s.pins := rfl
@[simp] theorem modOut_pwr (s : State) (g) : (s.modOut g).pwr = s.pwr := rfl
@[simp] theorem modOut_boot (s : State) (g) : (s.modOut g).boot = s.boot := rfl
@[simp] theorem modOut_ident (s : State) (g) : (s.modOut g).ident = s.ident := rfl
@[simp] theorem modOut_prof (s : State) (g) : (s.modOut g).prof = s.prof := rfl
@[simp] theorem modOut_hi (s : State) (g) : (s.modOut g).hi = s.hi := rfl
@[simp] theorem modOut_db (s : State) (g) : (s.modOut g).db = s.db := rfl
@[simp] theorem modOut_life (s : State) (g) : (s.modOut g).life = s.life := rfl
@[simp] theorem modOut_sec (s : State) (g) : (s.modOut g).sec = s.sec := rfl
@[simp] theorem modOut_job (s : State) (g) : (s.modOut g).job = s.job := rfl
@[simp] theorem modOut_stn (s : State) (g) : (s.modOut g).stn = s.stn := rfl
@[simp] theorem modOut_strm (s : State) (g) : (s.modOut g).strm = s.strm := rfl
@[simp] theorem modOut_sync (s : State) (g) : (s.modOut g).sync = s.sync := rfl
@[simp] theorem modOut_mem (s : State) (g) : (s.modOut g).mem = s.mem := rfl
@[simp] theorem modOut_ts (s : State) (g) : (s.modOut g).ts = s.ts := rfl
@[simp] theorem modOut_opt (s : State) (g) : (s.modOut g).opt = s.opt := rfl
@[simp] theorem modOut_sw (s : State) (g) : (s.modOut g).sw = s.sw := rfl
@[simp] theorem modOut_tm (s : State) (g) : (s.modOut g).tm = s.tm := rfl
@[simp] theorem modOut_bells (s : State) (g) : (s.modOut g).bells = s.bells := rfl
@[simp] theorem modOut_ce (s : State) (g) : (s.modOut g).ce = s.ce := rfl
@[simp] theorem modOut_cal (s : State) (g) : (s.modOut g).cal = s.cal := rfl
@[simp] theorem modOut_pfx (s : State) (g) : (s.modOut g).pfx = s.pfx := rfl
@[simp] theorem modOut_net (s : State) (g) : (s.modOut g).net = s.net := rfl
@[simp] theorem modOut_nvw (s : State) (g) : (s.modOut g).nvw = s.nvw := rfl
@[simp] theorem modOut_nvs (s : State) (g) : (s.modOut g).nvs = s.nvs := rfl

@[simp] theorem modPins_pending (s : State) (g) : (s.modPins g).pending = s.pending := rfl
@[simp] theorem modPins_sc (s : State) (g) : (s.modPins g).sc = s.sc := rfl
@[simp] theorem modPins_free (s : State) (g) : (s.modPins g).free = s.free := rfl
@[simp] theorem modPins_out (s : State) (g) : (s.modPins g).out = s.out := rfl
@[simp] theorem modPins_pins (s : State) (g) : (s.modPins g).pins = g s.pins := rfl
@[simp] theorem modPins_pwr (s : State) (g) : (s.modPins g).pwr = s.pwr := rfl
@[simp] theorem modPins_boot (s : State) (g) : (s.modPins g).boot = s.boot := rfl
@[simp] theorem modPins_ident (s : State) (g) : (s.modPins g).ident = s.ident := rfl
@[simp] theorem modPins_prof (s : State) (g) : (s.modPins g).prof = s.prof := rfl
@[simp] theorem modPins_hi (s : State) (g) : (s.modPins g).hi = s.hi := rfl
@[simp] theorem modPins_db (s : State) (g) : (s.modPins g).db = s.db := rfl
@[simp] theorem modPins_life (s : State) (g) : (s.modPins g).life = s.life := rfl
@[simp] theorem modPins_sec (s : State) (g) : (s.modPins g).sec = s.sec := rfl
@[simp] theorem modPins_job (s : State) (g) : (s.modPins g).job = s.job := rfl
@[simp] theorem modPins_stn (s : State) (g) : (s.modPins g).stn = s.stn := rfl
@[simp] theorem modPins_strm (s : State) (g) : (s.modPins g).strm = s.strm := rfl
@[simp] theorem modPins_sync (s : State) (g) : (s.modPins g).sync = s.sync := rfl
@[simp] theorem modPins_mem (s : State) (g) : (s.modPins g).mem = s.mem := rfl
@[simp] theorem modPins_ts (s : State) (g) : (s.modPins g).ts = s.ts := rfl
@[simp] theorem modPins_opt (s : State) (g) : (s.modPins g).opt = s.opt := rfl
@[simp] theorem modPins_sw (s : State) (g) : (s.modPins g).sw = s.sw := rfl
@[simp] theorem modPins_tm (s : State) (g) : (s.modPins g).tm = s.tm := rfl
@[simp] theorem modPins_bells (s : State) (g) : (s.modPins g).bells = s.bells := rfl
@[simp] theorem modPins_ce (s : State) (g) : (s.modPins g).ce = s.ce := rfl
@[simp] theorem modPins_cal (s : State) (g) : (s.modPins g).cal = s.cal := rfl
@[simp] theorem modPins_pfx (s : State) (g) : (s.modPins g).pfx = s.pfx := rfl
@[simp] theorem modPins_net (s : State) (g) : (s.modPins g).net = s.net := rfl
@[simp] theorem modPins_nvw (s : State) (g) : (s.modPins g).nvw = s.nvw := rfl
@[simp] theorem modPins_nvs (s : State) (g) : (s.modPins g).nvs = s.nvs := rfl

@[simp] theorem modPwr_pending (s : State) (g) : (s.modPwr g).pending = s.pending := rfl
@[simp] theorem modPwr_sc (s : State) (g) : (s.modPwr g).sc = s.sc := rfl
@[simp] theorem modPwr_free (s : State) (g) : (s.modPwr g).free = s.free := rfl
@[simp] theorem modPwr_out (s : State) (g) : (s.modPwr g).out = s.out := rfl
@[simp] theorem modPwr_pins (s : State) (g) : (s.modPwr g).pins = s.pins := rfl
@[simp] theorem modPwr_pwr (s : State) (g) : (s.modPwr g).pwr = g s.pwr := rfl
@[simp] theorem modPwr_boot (s : State) (g) : (s.modPwr g).boot = s.boot := rfl
@[simp] theorem modPwr_ident (s : State) (g) : (s.modPwr g).ident = s.ident := rfl
@[simp] theorem modPwr_prof (s : State) (g) : (s.modPwr g).prof = s.prof := rfl
@[simp] theorem modPwr_hi (s : State) (g) : (s.modPwr g).hi = s.hi := rfl
@[simp] theorem modPwr_db (s : State) (g) : (s.modPwr g).db = s.db := rfl
@[simp] theorem modPwr_life (s : State) (g) : (s.modPwr g).life = s.life := rfl
@[simp] theorem modPwr_sec (s : State) (g) : (s.modPwr g).sec = s.sec := rfl
@[simp] theorem modPwr_job (s : State) (g) : (s.modPwr g).job = s.job := rfl
@[simp] theorem modPwr_stn (s : State) (g) : (s.modPwr g).stn = s.stn := rfl
@[simp] theorem modPwr_strm (s : State) (g) : (s.modPwr g).strm = s.strm := rfl
@[simp] theorem modPwr_sync (s : State) (g) : (s.modPwr g).sync = s.sync := rfl
@[simp] theorem modPwr_mem (s : State) (g) : (s.modPwr g).mem = s.mem := rfl
@[simp] theorem modPwr_ts (s : State) (g) : (s.modPwr g).ts = s.ts := rfl
@[simp] theorem modPwr_opt (s : State) (g) : (s.modPwr g).opt = s.opt := rfl
@[simp] theorem modPwr_sw (s : State) (g) : (s.modPwr g).sw = s.sw := rfl
@[simp] theorem modPwr_tm (s : State) (g) : (s.modPwr g).tm = s.tm := rfl
@[simp] theorem modPwr_bells (s : State) (g) : (s.modPwr g).bells = s.bells := rfl
@[simp] theorem modPwr_ce (s : State) (g) : (s.modPwr g).ce = s.ce := rfl
@[simp] theorem modPwr_cal (s : State) (g) : (s.modPwr g).cal = s.cal := rfl
@[simp] theorem modPwr_pfx (s : State) (g) : (s.modPwr g).pfx = s.pfx := rfl
@[simp] theorem modPwr_net (s : State) (g) : (s.modPwr g).net = s.net := rfl
@[simp] theorem modPwr_nvw (s : State) (g) : (s.modPwr g).nvw = s.nvw := rfl
@[simp] theorem modPwr_nvs (s : State) (g) : (s.modPwr g).nvs = s.nvs := rfl

@[simp] theorem modBoot_pending (s : State) (g) : (s.modBoot g).pending = s.pending := rfl
@[simp] theorem modBoot_sc (s : State) (g) : (s.modBoot g).sc = s.sc := rfl
@[simp] theorem modBoot_free (s : State) (g) : (s.modBoot g).free = s.free := rfl
@[simp] theorem modBoot_out (s : State) (g) : (s.modBoot g).out = s.out := rfl
@[simp] theorem modBoot_pins (s : State) (g) : (s.modBoot g).pins = s.pins := rfl
@[simp] theorem modBoot_pwr (s : State) (g) : (s.modBoot g).pwr = s.pwr := rfl
@[simp] theorem modBoot_boot (s : State) (g) : (s.modBoot g).boot = g s.boot := rfl
@[simp] theorem modBoot_ident (s : State) (g) : (s.modBoot g).ident = s.ident := rfl
@[simp] theorem modBoot_prof (s : State) (g) : (s.modBoot g).prof = s.prof := rfl
@[simp] theorem modBoot_hi (s : State) (g) : (s.modBoot g).hi = s.hi := rfl
@[simp] theorem modBoot_db (s : State) (g) : (s.modBoot g).db = s.db := rfl
@[simp] theorem modBoot_life (s : State) (g) : (s.modBoot g).life = s.life := rfl
@[simp] theorem modBoot_sec (s : State) (g) : (s.modBoot g).sec = s.sec := rfl
@[simp] theorem modBoot_job (s : State) (g) : (s.modBoot g).job = s.job := rfl
@[simp] theorem modBoot_stn (s : State) (g) : (s.modBoot g).stn = s.stn := rfl
@[simp] theorem modBoot_strm (s : State) (g) : (s.modBoot g).strm = s.strm := rfl
@[simp] theorem modBoot_sync (s : State) (g) : (s.modBoot g).sync = s.sync := rfl
@[simp] theorem modBoot_mem (s : State) (g) : (s.modBoot g).mem = s.mem := rfl
@[simp] theorem modBoot_ts (s : State) (g) : (s.modBoot g).ts = s.ts := rfl
@[simp] theorem modBoot_opt (s : State) (g) : (s.modBoot g).opt = s.opt := rfl
@[simp] theorem modBoot_sw (s : State) (g) : (s.modBoot g).sw = s.sw := rfl
@[simp] theorem modBoot_tm (s : State) (g) : (s.modBoot g).tm = s.tm := rfl
@[simp] theorem modBoot_bells (s : State) (g) : (s.modBoot g).bells = s.bells := rfl
@[simp] theorem modBoot_ce (s : State) (g) : (s.modBoot g).ce = s.ce := rfl
@[simp] theorem modBoot_cal (s : State) (g) : (s.modBoot g).cal = s.cal := rfl
@[simp] theorem modBoot_pfx (s : State) (g) : (s.modBoot g).pfx = s.pfx := rfl
@[simp] theorem modBoot_net (s : State) (g) : (s.modBoot g).net = s.net := rfl
@[simp] theorem modBoot_nvw (s : State) (g) : (s.modBoot g).nvw = s.nvw := rfl
@[simp] theorem modBoot_nvs (s : State) (g) : (s.modBoot g).nvs = s.nvs := rfl

@[simp] theorem modIdent_pending (s : State) (g) : (s.modIdent g).pending = s.pending := rfl
@[simp] theorem modIdent_sc (s : State) (g) : (s.modIdent g).sc = s.sc := rfl
@[simp] theorem modIdent_free (s : State) (g) : (s.modIdent g).free = s.free := rfl
@[simp] theorem modIdent_out (s : State) (g) : (s.modIdent g).out = s.out := rfl
@[simp] theorem modIdent_pins (s : State) (g) : (s.modIdent g).pins = s.pins := rfl
@[simp] theorem modIdent_pwr (s : State) (g) : (s.modIdent g).pwr = s.pwr := rfl
@[simp] theorem modIdent_boot (s : State) (g) : (s.modIdent g).boot = s.boot := rfl
@[simp] theorem modIdent_ident (s : State) (g) : (s.modIdent g).ident = g s.ident := rfl
@[simp] theorem modIdent_prof (s : State) (g) : (s.modIdent g).prof = s.prof := rfl
@[simp] theorem modIdent_hi (s : State) (g) : (s.modIdent g).hi = s.hi := rfl
@[simp] theorem modIdent_db (s : State) (g) : (s.modIdent g).db = s.db := rfl
@[simp] theorem modIdent_life (s : State) (g) : (s.modIdent g).life = s.life := rfl
@[simp] theorem modIdent_sec (s : State) (g) : (s.modIdent g).sec = s.sec := rfl
@[simp] theorem modIdent_job (s : State) (g) : (s.modIdent g).job = s.job := rfl
@[simp] theorem modIdent_stn (s : State) (g) : (s.modIdent g).stn = s.stn := rfl
@[simp] theorem modIdent_strm (s : State) (g) : (s.modIdent g).strm = s.strm := rfl
@[simp] theorem modIdent_sync (s : State) (g) : (s.modIdent g).sync = s.sync := rfl
@[simp] theorem modIdent_mem (s : State) (g) : (s.modIdent g).mem = s.mem := rfl
@[simp] theorem modIdent_ts (s : State) (g) : (s.modIdent g).ts = s.ts := rfl
@[simp] theorem modIdent_opt (s : State) (g) : (s.modIdent g).opt = s.opt := rfl
@[simp] theorem modIdent_sw (s : State) (g) : (s.modIdent g).sw = s.sw := rfl
@[simp] theorem modIdent_tm (s : State) (g) : (s.modIdent g).tm = s.tm := rfl
@[simp] theorem modIdent_bells (s : State) (g) : (s.modIdent g).bells = s.bells := rfl
@[simp] theorem modIdent_ce (s : State) (g) : (s.modIdent g).ce = s.ce := rfl
@[simp] theorem modIdent_cal (s : State) (g) : (s.modIdent g).cal = s.cal := rfl
@[simp] theorem modIdent_pfx (s : State) (g) : (s.modIdent g).pfx = s.pfx := rfl
@[simp] theorem modIdent_net (s : State) (g) : (s.modIdent g).net = s.net := rfl
@[simp] theorem modIdent_nvw (s : State) (g) : (s.modIdent g).nvw = s.nvw := rfl
@[simp] theorem modIdent_nvs (s : State) (g) : (s.modIdent g).nvs = s.nvs := rfl

@[simp] theorem modProf_pending (s : State) (g) : (s.modProf g).pending = s.pending := rfl
@[simp] theorem modProf_sc (s : State) (g) : (s.modProf g).sc = s.sc := rfl
@[simp] theorem modProf_free (s : State) (g) : (s.modProf g).free = s.free := rfl
@[simp] theorem modProf_out (s : State) (g) : (s.modProf g).out = s.out := rfl
@[simp] theorem modProf_pins (s : State) (g) : (s.modProf g).pins = s.pins := rfl
@[simp] theorem modProf_pwr (s : State) (g) : (s.modProf g).pwr = s.pwr := rfl
@[simp] theorem modProf_boot (s : State) (g) : (s.modProf g).boot = s.boot := rfl
@[simp] theorem modProf_ident (s : State) (g) : (s.modProf g).ident = s.ident := rfl
@[simp] theorem modProf_prof (s : State) (g) : (s.modProf g).prof = g s.prof := rfl
@[simp] theorem modProf_hi (s : State) (g) : (s.modProf g).hi = s.hi := rfl
@[simp] theorem modProf_db (s : State) (g) : (s.modProf g).db = s.db := rfl
@[simp] theorem modProf_life (s : State) (g) : (s.modProf g).life = s.life := rfl
@[simp] theorem modProf_sec (s : State) (g) : (s.modProf g).sec = s.sec := rfl
@[simp] theorem modProf_job (s : State) (g) : (s.modProf g).job = s.job := rfl
@[simp] theorem modProf_stn (s : State) (g) : (s.modProf g).stn = s.stn := rfl
@[simp] theorem modProf_strm (s : State) (g) : (s.modProf g).strm = s.strm := rfl
@[simp] theorem modProf_sync (s : State) (g) : (s.modProf g).sync = s.sync := rfl
@[simp] theorem modProf_mem (s : State) (g) : (s.modProf g).mem = s.mem := rfl
@[simp] theorem modProf_ts (s : State) (g) : (s.modProf g).ts = s.ts := rfl
@[simp] theorem modProf_opt (s : State) (g) : (s.modProf g).opt = s.opt := rfl
@[simp] theorem modProf_sw (s : State) (g) : (s.modProf g).sw = s.sw := rfl
@[simp] theorem modProf_tm (s : State) (g) : (s.modProf g).tm = s.tm := rfl
@[simp] theorem modProf_bells (s : State) (g) : (s.modProf g).bells = s.bells := rfl
@[simp] theorem modProf_ce (s : State) (g) : (s.modProf g).ce = s.ce := rfl
@[simp] theorem modProf_cal (s : State) (g) : (s.modProf g).cal = s.cal := rfl
@[simp] theorem modProf_pfx (s : State) (g) : (s.modProf g).pfx = s.pfx := rfl
@[simp] theorem modProf_net (s : State) (g) : (s.modProf g).net = s.net := rfl
@[simp] theorem modProf_nvw (s : State) (g) : (s.modProf g).nvw = s.nvw := rfl
@[simp] theorem modProf_nvs (s : State) (g) : (s.modProf g).nvs = s.nvs := rfl

@[simp] theorem modHi_pending (s : State) (g) : (s.modHi g).pending = s.pending := rfl
@[simp] theorem modHi_sc (s : State) (g) : (s.modHi g).sc = s.sc := rfl
@[simp] theorem modHi_free (s : State) (g) : (s.modHi g).free = s.free := rfl
@[simp] theorem modHi_out (s : State) (g) : (s.modHi g).out = s.out := rfl
@[simp] theorem modHi_pins (s : State) (g) : (s.modHi g).pins = s.pins := rfl
@[simp] theorem modHi_pwr (s : State) (g) : (s.modHi g).pwr = s.pwr := rfl
@[simp] theorem modHi_boot (s : State) (g) : (s.modHi g).boot = s.boot := rfl
@[simp] theorem modHi_ident (s : State) (g) : (s.modHi g).ident = s.ident := rfl
@[simp] theorem modHi_prof (s : State) (g) : (s.modHi g).prof = s.prof := rfl
@[simp] theorem modHi_hi (s : State) (g) : (s.modHi g).hi = g s.hi := rfl
@[simp] theorem modHi_db (s : State) (g) : (s.modHi g).db = s.db := rfl
@[simp] theorem modHi_life (s : State) (g) : (s.modHi g).life = s.life := rfl
@[simp] theorem modHi_sec (s : State) (g) : (s.modHi g).sec = s.sec := rfl
@[simp] theorem modHi_job (s : State) (g) : (s.modHi g).job = s.job := rfl
@[simp] theorem modHi_stn (s : State) (g) : (s.modHi g).stn = s.stn := rfl
@[simp] theorem modHi_strm (s : State) (g) : (s.modHi g).strm = s.strm := rfl
@[simp] theorem modHi_sync (s : State) (g) : (s.modHi g).sync = s.sync := rfl
@[simp] theorem modHi_mem (s : State) (g) : (s.modHi g).mem = s.mem := rfl
@[simp] theorem modHi_ts (s : State) (g) : (s.modHi g).ts = s.ts := rfl
@[simp] theorem modHi_opt (s : State) (g) : (s.modHi g).opt = s.opt := rfl
@[simp] theorem modHi_sw (s : State) (g) : (s.modHi g).sw = s.sw := rfl
@[simp] theorem modHi_tm (s : State) (g) : (s.modHi g).tm = s.tm := rfl
@[simp] theorem modHi_bells (s : State) (g) : (s.modHi g).bells = s.bells := rfl
@[simp] theorem modHi_ce (s : State) (g) : (s.modHi g).ce = s.ce := rfl
@[simp] theorem modHi_cal (s : State) (g) : (s.modHi g).cal = s.cal := rfl
@[simp] theorem modHi_pfx (s : State) (g) : (s.modHi g).pfx = s.pfx := rfl
@[simp] theorem modHi_net (s : State) (g) : (s.modHi g).net = s.net := rfl
@[simp] theorem modHi_nvw (s : State) (g) : (s.modHi g).nvw = s.nvw := rfl
@[simp] theorem modHi_nvs (s : State) (g) : (s.modHi g).nvs = s.nvs := rfl

@[simp] theorem modDb_pending (s : State) (g) : (s.modDb g).pending = s.pending := rfl
@[simp] theorem modDb_sc (s : State) (g) : (s.modDb g).sc = s.sc := rfl
@[simp] theorem modDb_free (s : State) (g) : (s.modDb g).free = s.free := rfl
@[simp] theorem modDb_out (s : State) (g) : (s.modDb g).out = s.out := rfl
@[simp] theorem modDb_pins (s : State) (g) : (s.modDb g).pins = s.pins := rfl
@[simp] theorem modDb_pwr (s : State) (g) : (s.modDb g).pwr = s.pwr := rfl
@[simp] theorem modDb_boot (s : State) (g) : (s.modDb g).boot = s.boot := rfl
@[simp] theorem modDb_ident (s : State) (g) : (s.modDb g).ident = s.ident := rfl
@[simp] theorem modDb_prof (s : State) (g) : (s.modDb g).prof = s.prof := rfl
@[simp] theorem modDb_hi (s : State) (g) : (s.modDb g).hi = s.hi := rfl
@[simp] theorem modDb_db (s : State) (g) : (s.modDb g).db = g s.db := rfl
@[simp] theorem modDb_life (s : State) (g) : (s.modDb g).life = s.life := rfl
@[simp] theorem modDb_sec (s : State) (g) : (s.modDb g).sec = s.sec := rfl
@[simp] theorem modDb_job (s : State) (g) : (s.modDb g).job = s.job := rfl
@[simp] theorem modDb_stn (s : State) (g) : (s.modDb g).stn = s.stn := rfl
@[simp] theorem modDb_strm (s : State) (g) : (s.modDb g).strm = s.strm := rfl
@[simp] theorem modDb_sync (s : State) (g) : (s.modDb g).sync = s.sync := rfl
@[simp] theorem modDb_mem (s : State) (g) : (s.modDb g).mem = s.mem := rfl
@[simp] theorem modDb_ts (s : State) (g) : (s.modDb g).ts = s.ts := rfl
@[simp] theorem modDb_opt (s : State) (g) : (s.modDb g).opt = s.opt := rfl
@[simp] theorem modDb_sw (s : State) (g) : (s.modDb g).sw = s.sw := rfl
@[simp] theorem modDb_tm (s : State) (g) : (s.modDb g).tm = s.tm := rfl
@[simp] theorem modDb_bells (s : State) (g) : (s.modDb g).bells = s.bells := rfl
@[simp] theorem modDb_ce (s : State) (g) : (s.modDb g).ce = s.ce := rfl
@[simp] theorem modDb_cal (s : State) (g) : (s.modDb g).cal = s.cal := rfl
@[simp] theorem modDb_pfx (s : State) (g) : (s.modDb g).pfx = s.pfx := rfl
@[simp] theorem modDb_net (s : State) (g) : (s.modDb g).net = s.net := rfl
@[simp] theorem modDb_nvw (s : State) (g) : (s.modDb g).nvw = s.nvw := rfl
@[simp] theorem modDb_nvs (s : State) (g) : (s.modDb g).nvs = s.nvs := rfl

@[simp] theorem modLife_pending (s : State) (g) : (s.modLife g).pending = s.pending := rfl
@[simp] theorem modLife_sc (s : State) (g) : (s.modLife g).sc = s.sc := rfl
@[simp] theorem modLife_free (s : State) (g) : (s.modLife g).free = s.free := rfl
@[simp] theorem modLife_out (s : State) (g) : (s.modLife g).out = s.out := rfl
@[simp] theorem modLife_pins (s : State) (g) : (s.modLife g).pins = s.pins := rfl
@[simp] theorem modLife_pwr (s : State) (g) : (s.modLife g).pwr = s.pwr := rfl
@[simp] theorem modLife_boot (s : State) (g) : (s.modLife g).boot = s.boot := rfl
@[simp] theorem modLife_ident (s : State) (g) : (s.modLife g).ident = s.ident := rfl
@[simp] theorem modLife_prof (s : State) (g) : (s.modLife g).prof = s.prof := rfl
@[simp] theorem modLife_hi (s : State) (g) : (s.modLife g).hi = s.hi := rfl
@[simp] theorem modLife_db (s : State) (g) : (s.modLife g).db = s.db := rfl
@[simp] theorem modLife_life (s : State) (g) : (s.modLife g).life = g s.life := rfl
@[simp] theorem modLife_sec (s : State) (g) : (s.modLife g).sec = s.sec := rfl
@[simp] theorem modLife_job (s : State) (g) : (s.modLife g).job = s.job := rfl
@[simp] theorem modLife_stn (s : State) (g) : (s.modLife g).stn = s.stn := rfl
@[simp] theorem modLife_strm (s : State) (g) : (s.modLife g).strm = s.strm := rfl
@[simp] theorem modLife_sync (s : State) (g) : (s.modLife g).sync = s.sync := rfl
@[simp] theorem modLife_mem (s : State) (g) : (s.modLife g).mem = s.mem := rfl
@[simp] theorem modLife_ts (s : State) (g) : (s.modLife g).ts = s.ts := rfl
@[simp] theorem modLife_opt (s : State) (g) : (s.modLife g).opt = s.opt := rfl
@[simp] theorem modLife_sw (s : State) (g) : (s.modLife g).sw = s.sw := rfl
@[simp] theorem modLife_tm (s : State) (g) : (s.modLife g).tm = s.tm := rfl
@[simp] theorem modLife_bells (s : State) (g) : (s.modLife g).bells = s.bells := rfl
@[simp] theorem modLife_ce (s : State) (g) : (s.modLife g).ce = s.ce := rfl
@[simp] theorem modLife_cal (s : State) (g) : (s.modLife g).cal = s.cal := rfl
@[simp] theorem modLife_pfx (s : State) (g) : (s.modLife g).pfx = s.pfx := rfl
@[simp] theorem modLife_net (s : State) (g) : (s.modLife g).net = s.net := rfl
@[simp] theorem modLife_nvw (s : State) (g) : (s.modLife g).nvw = s.nvw := rfl
@[simp] theorem modLife_nvs (s : State) (g) : (s.modLife g).nvs = s.nvs := rfl

@[simp] theorem modSec_pending (s : State) (g) : (s.modSec g).pending = s.pending := rfl
@[simp] theorem modSec_sc (s : State) (g) : (s.modSec g).sc = s.sc := rfl
@[simp] theorem modSec_free (s : State) (g) : (s.modSec g).free = s.free := rfl
@[simp] theorem modSec_out (s : State) (g) : (s.modSec g).out = s.out := rfl
@[simp] theorem modSec_pins (s : State) (g) : (s.modSec g).pins = s.pins := rfl
@[simp] theorem modSec_pwr (s : State) (g) : (s.modSec g).pwr = s.pwr := rfl
@[simp] theorem modSec_boot (s : State) (g) : (s.modSec g).boot = s.boot := rfl
@[simp] theorem modSec_ident (s : State) (g) : (s.modSec g).ident = s.ident := rfl
@[simp] theorem modSec_prof (s : State) (g) : (s.modSec g).prof = s.prof := rfl
@[simp] theorem modSec_hi (s : State) (g) : (s.modSec g).hi = s.hi := rfl
@[simp] theorem modSec_db (s : State) (g) : (s.modSec g).db = s.db := rfl
@[simp] theorem modSec_life (s : State) (g) : (s.modSec g).life = s.life := rfl
@[simp] theorem modSec_sec (s : State) (g) : (s.modSec g).sec = g s.sec := rfl
@[simp] theorem modSec_job (s : State) (g) : (s.modSec g).job = s.job := rfl
@[simp] theorem modSec_stn (s : State) (g) : (s.modSec g).stn = s.stn := rfl
@[simp] theorem modSec_strm (s : State) (g) : (s.modSec g).strm = s.strm := rfl
@[simp] theorem modSec_sync (s : State) (g) : (s.modSec g).sync = s.sync := rfl
@[simp] theorem modSec_mem (s : State) (g) : (s.modSec g).mem = s.mem := rfl
@[simp] theorem modSec_ts (s : State) (g) : (s.modSec g).ts = s.ts := rfl
@[simp] theorem modSec_opt (s : State) (g) : (s.modSec g).opt = s.opt := rfl
@[simp] theorem modSec_sw (s : State) (g) : (s.modSec g).sw = s.sw := rfl
@[simp] theorem modSec_tm (s : State) (g) : (s.modSec g).tm = s.tm := rfl
@[simp] theorem modSec_bells (s : State) (g) : (s.modSec g).bells = s.bells := rfl
@[simp] theorem modSec_ce (s : State) (g) : (s.modSec g).ce = s.ce := rfl
@[simp] theorem modSec_cal (s : State) (g) : (s.modSec g).cal = s.cal := rfl
@[simp] theorem modSec_pfx (s : State) (g) : (s.modSec g).pfx = s.pfx := rfl
@[simp] theorem modSec_net (s : State) (g) : (s.modSec g).net = s.net := rfl
@[simp] theorem modSec_nvw (s : State) (g) : (s.modSec g).nvw = s.nvw := rfl
@[simp] theorem modSec_nvs (s : State) (g) : (s.modSec g).nvs = s.nvs := rfl

@[simp] theorem modJob_pending (s : State) (g) : (s.modJob g).pending = s.pending := rfl
@[simp] theorem modJob_sc (s : State) (g) : (s.modJob g).sc = s.sc := rfl
@[simp] theorem modJob_free (s : State) (g) : (s.modJob g).free = s.free := rfl
@[simp] theorem modJob_out (s : State) (g) : (s.modJob g).out = s.out := rfl
@[simp] theorem modJob_pins (s : State) (g) : (s.modJob g).pins = s.pins := rfl
@[simp] theorem modJob_pwr (s : State) (g) : (s.modJob g).pwr = s.pwr := rfl
@[simp] theorem modJob_boot (s : State) (g) : (s.modJob g).boot = s.boot := rfl
@[simp] theorem modJob_ident (s : State) (g) : (s.modJob g).ident = s.ident := rfl
@[simp] theorem modJob_prof (s : State) (g) : (s.modJob g).prof = s.prof := rfl
@[simp] theorem modJob_hi (s : State) (g) : (s.modJob g).hi = s.hi := rfl
@[simp] theorem modJob_db (s : State) (g) : (s.modJob g).db = s.db := rfl
@[simp] theorem modJob_life (s : State) (g) : (s.modJob g).life = s.life := rfl
@[simp] theorem modJob_sec (s : State) (g) : (s.modJob g).sec = s.sec := rfl
@[simp] theorem modJob_job (s : State) (g) : (s.modJob g).job = g s.job := rfl
@[simp] theorem modJob_stn (s : State) (g) : (s.modJob g).stn = s.stn := rfl
@[simp] theorem modJob_strm (s : State) (g) : (s.modJob g).strm = s.strm := rfl
@[simp] theorem modJob_sync (s : State) (g) : (s.modJob g).sync = s.sync := rfl
@[simp] theorem modJob_mem (s : State) (g) : (s.modJob g).mem = s.mem := rfl
@[simp] theorem modJob_ts (s : State) (g) : (s.modJob g).ts = s.ts := rfl
@[simp] theorem modJob_opt (s : State) (g) : (s.modJob g).opt = s.opt := rfl
@[simp] theorem modJob_sw (s : State) (g) : (s.modJob g).sw = s.sw := rfl
@[simp] theorem modJob_tm (s : State) (g) : (s.modJob g).tm = s.tm := rfl
@[simp] theorem modJob_bells (s : State) (g) : (s.modJob g).bells = s.bells := rfl
@[simp] theorem modJob_ce (s : State) (g) : (s.modJob g).ce = s.ce := rfl
@[simp] theorem modJob_cal (s : State) (g) : (s.modJob g).cal = s.cal := rfl
@[simp] theorem modJob_pfx (s : State) (g) : (s.modJob g).pfx = s.pfx := rfl
@[simp] theorem modJob_net (s : State) (g) : (s.modJob g).net = s.net := rfl
@[simp] theorem modJob_nvw (s : State) (g) : (s.modJob g).nvw = s.nvw := rfl
@[simp] theorem modJob_nvs (s : State) (g) : (s.modJob g).nvs = s.nvs := rfl

@[simp] theorem modStn_pending (s : State) (g) : (s.modStn g).pending = s.pending := rfl
@[simp] theorem modStn_sc (s : State) (g) : (s.modStn g).sc = s.sc := rfl
@[simp] theorem modStn_free (s : State) (g) : (s.modStn g).free = s.free := rfl
@[simp] theorem modStn_out (s : State) (g) : (s.modStn g).out = s.out := rfl
@[simp] theorem modStn_pins (s : State) (g) : (s.modStn g).pins = s.pins := rfl
@[simp] theorem modStn_pwr (s : State) (g) : (s.modStn g).pwr = s.pwr := rfl
@[simp] theorem modStn_boot (s : State) (g) : (s.modStn g).boot = s.boot := rfl
@[simp] theorem modStn_ident (s : State) (g) : (s.modStn g).ident = s.ident := rfl
@[simp] theorem modStn_prof (s : State) (g) : (s.modStn g).prof = s.prof := rfl
@[simp] theorem modStn_hi (s : State) (g) : (s.modStn g).hi = s.hi := rfl
@[simp] theorem modStn_db (s : State) (g) : (s.modStn g).db = s.db := rfl
@[simp] theorem modStn_life (s : State) (g) : (s.modStn g).life = s.life := rfl
@[simp] theorem modStn_sec (s : State) (g) : (s.modStn g).sec = s.sec := rfl
@[simp] theorem modStn_job (s : State) (g) : (s.modStn g).job = s.job := rfl
@[simp] theorem modStn_stn (s : State) (g) : (s.modStn g).stn = g s.stn := rfl
@[simp] theorem modStn_strm (s : State) (g) : (s.modStn g).strm = s.strm := rfl
@[simp] theorem modStn_sync (s : State) (g) : (s.modStn g).sync = s.sync := rfl
@[simp] theorem modStn_mem (s : State) (g) : (s.modStn g).mem = s.mem := rfl
@[simp] theorem modStn_ts (s : State) (g) : (s.modStn g).ts = s.ts := rfl
@[simp] theorem modStn_opt (s : State) (g) : (s.modStn g).opt = s.opt := rfl
@[simp] theorem modStn_sw (s : State) (g) : (s.modStn g).sw = s.sw := rfl
@[simp] theorem modStn_tm (s : State) (g) : (s.modStn g).tm = s.tm := rfl
@[simp] theorem modStn_bells (s : State) (g) : (s.modStn g).bells = s.bells := rfl
@[simp] theorem modStn_ce (s : State) (g) : (s.modStn g).ce = s.ce := rfl
@[simp] theorem modStn_cal (s : State) (g) : (s.modStn g).cal = s.cal := rfl
@[simp] theorem modStn_pfx (s : State) (g) : (s.modStn g).pfx = s.pfx := rfl
@[simp] theorem modStn_net (s : State) (g) : (s.modStn g).net = s.net := rfl
@[simp] theorem modStn_nvw (s : State) (g) : (s.modStn g).nvw = s.nvw := rfl
@[simp] theorem modStn_nvs (s : State) (g) : (s.modStn g).nvs = s.nvs := rfl

@[simp] theorem modStrm_pending (s : State) (g) : (s.modStrm g).pending = s.pending := rfl
@[simp] theorem modStrm_sc (s : State) (g) : (s.modStrm g).sc = s.sc := rfl
@[simp] theorem modStrm_free (s : State) (g) : (s.modStrm g).free = s.free := rfl
@[simp] theorem modStrm_out (s : State) (g) : (s.modStrm g).out = s.out := rfl
@[simp] theorem modStrm_pins (s : State) (g) : (s.modStrm g).pins = s.pins := rfl
@[simp] theorem modStrm_pwr (s : State) (g) : (s.modStrm g).pwr = s.pwr := rfl
@[simp] theorem modStrm_boot (s : State) (g) : (s.modStrm g).boot = s.boot := rfl
@[simp] theorem modStrm_ident (s : State) (g) : (s.modStrm g).ident = s.ident := rfl
@[simp] theorem modStrm_prof (s : State) (g) : (s.modStrm g).prof = s.prof := rfl
@[simp] theorem modStrm_hi (s : State) (g) : (s.modStrm g).hi = s.hi := rfl
@[simp] theorem modStrm_db (s : State) (g) : (s.modStrm g).db = s.db := rfl
@[simp] theorem modStrm_life (s : State) (g) : (s.modStrm g).life = s.life := rfl
@[simp] theorem modStrm_sec (s : State) (g) : (s.modStrm g).sec = s.sec := rfl
@[simp] theorem modStrm_job (s : State) (g) : (s.modStrm g).job = s.job := rfl
@[simp] theorem modStrm_stn (s : State) (g) : (s.modStrm g).stn = s.stn := rfl
@[simp] theorem modStrm_strm (s : State) (g) : (s.modStrm g).strm = g s.strm := rfl
@[simp] theorem modStrm_sync (s : State) (g) : (s.modStrm g).sync = s.sync := rfl
@[simp] theorem modStrm_mem (s : State) (g) : (s.modStrm g).mem = s.mem := rfl
@[simp] theorem modStrm_ts (s : State) (g) : (s.modStrm g).ts = s.ts := rfl
@[simp] theorem modStrm_opt (s : State) (g) : (s.modStrm g).opt = s.opt := rfl
@[simp] theorem modStrm_sw (s : State) (g) : (s.modStrm g).sw = s.sw := rfl
@[simp] theorem modStrm_tm (s : State) (g) : (s.modStrm g).tm = s.tm := rfl
@[simp] theorem modStrm_bells (s : State) (g) : (s.modStrm g).bells = s.bells := rfl
@[simp] theorem modStrm_ce (s : State) (g) : (s.modStrm g).ce = s.ce := rfl
@[simp] theorem modStrm_cal (s : State) (g) : (s.modStrm g).cal = s.cal := rfl
@[simp] theorem modStrm_pfx (s : State) (g) : (s.modStrm g).pfx = s.pfx := rfl
@[simp] theorem modStrm_net (s : State) (g) : (s.modStrm g).net = s.net := rfl
@[simp] theorem modStrm_nvw (s : State) (g) : (s.modStrm g).nvw = s.nvw := rfl
@[simp] theorem modStrm_nvs (s : State) (g) : (s.modStrm g).nvs = s.nvs := rfl

@[simp] theorem modSync_pending (s : State) (g) : (s.modSync g).pending = s.pending := rfl
@[simp] theorem modSync_sc (s : State) (g) : (s.modSync g).sc = s.sc := rfl
@[simp] theorem modSync_free (s : State) (g) : (s.modSync g).free = s.free := rfl
@[simp] theorem modSync_out (s : State) (g) : (s.modSync g).out = s.out := rfl
@[simp] theorem modSync_pins (s : State) (g) : (s.modSync g).pins = s.pins := rfl
@[simp] theorem modSync_pwr (s : State) (g) : (s.modSync g).pwr = s.pwr := rfl
@[simp] theorem modSync_boot (s : State) (g) : (s.modSync g).boot = s.boot := rfl
@[simp] theorem modSync_ident (s : State) (g) : (s.modSync g).ident = s.ident := rfl
@[simp] theorem modSync_prof (s : State) (g) : (s.modSync g).prof = s.prof := rfl
@[simp] theorem modSync_hi (s : State) (g) : (s.modSync g).hi = s.hi := rfl
@[simp] theorem modSync_db (s : State) (g) : (s.modSync g).db = s.db := rfl
@[simp] theorem modSync_life (s : State) (g) : (s.modSync g).life = s.life := rfl
@[simp] theorem modSync_sec (s : State) (g) : (s.modSync g).sec = s.sec := rfl
@[simp] theorem modSync_job (s : State) (g) : (s.modSync g).job = s.job := rfl
@[simp] theorem modSync_stn (s : State) (g) : (s.modSync g).stn = s.stn := rfl
@[simp] theorem modSync_strm (s : State) (g) : (s.modSync g).strm = s.strm := rfl
@[simp] theorem modSync_sync (s : State) (g) : (s.modSync g).sync = g s.sync := rfl
@[simp] theorem modSync_mem (s : State) (g) : (s.modSync g).mem = s.mem := rfl
@[simp] theorem modSync_ts (s : State) (g) : (s.modSync g).ts = s.ts := rfl
@[simp] theorem modSync_opt (s : State) (g) : (s.modSync g).opt = s.opt := rfl
@[simp] theorem modSync_sw (s : State) (g) : (s.modSync g).sw = s.sw := rfl
@[simp] theorem modSync_tm (s : State) (g) : (s.modSync g).tm = s.tm := rfl
@[simp] theorem modSync_bells (s : State) (g) : (s.modSync g).bells = s.bells := rfl
@[simp] theorem modSync_ce (s : State) (g) : (s.modSync g).ce = s.ce := rfl
@[simp] theorem modSync_cal (s : State) (g) : (s.modSync g).cal = s.cal := rfl
@[simp] theorem modSync_pfx (s : State) (g) : (s.modSync g).pfx = s.pfx := rfl
@[simp] theorem modSync_net (s : State) (g) : (s.modSync g).net = s.net := rfl
@[simp] theorem modSync_nvw (s : State) (g) : (s.modSync g).nvw = s.nvw := rfl
@[simp] theorem modSync_nvs (s : State) (g) : (s.modSync g).nvs = s.nvs := rfl

@[simp] theorem modMem_pending (s : State) (g) : (s.modMem g).pending = s.pending := rfl
@[simp] theorem modMem_sc (s : State) (g) : (s.modMem g).sc = s.sc := rfl
@[simp] theorem modMem_free (s : State) (g) : (s.modMem g).free = s.free := rfl
@[simp] theorem modMem_out (s : State) (g) : (s.modMem g).out = s.out := rfl
@[simp] theorem modMem_pins (s : State) (g) : (s.modMem g).pins = s.pins := rfl
@[simp] theorem modMem_pwr (s : State) (g) : (s.modMem g).pwr = s.pwr := rfl
@[simp] theorem modMem_boot (s : State) (g) : (s.modMem g).boot = s.boot := rfl
@[simp] theorem modMem_ident (s : State) (g) : (s.modMem g).ident = s.ident := rfl
@[simp] theorem modMem_prof (s : State) (g) : (s.modMem g).prof = s.prof := rfl
@[simp] theorem modMem_hi (s : State) (g) : (s.modMem g).hi = s.hi := rfl
@[simp] theorem modMem_db (s : State) (g) : (s.modMem g).db = s.db := rfl
@[simp] theorem modMem_life (s : State) (g) : (s.modMem g).life = s.life := rfl
@[simp] theorem modMem_sec (s : State) (g) : (s.modMem g).sec = s.sec := rfl
@[simp] theorem modMem_job (s : State) (g) : (s.modMem g).job = s.job := rfl
@[simp] theorem modMem_stn (s : State) (g) : (s.modMem g).stn = s.stn := rfl
@[simp] theorem modMem_strm (s : State) (g) : (s.modMem g).strm = s.strm := rfl
@[simp] theorem modMem_sync (s : State) (g) : (s.modMem g).sync = s.sync := rfl
@[simp] theorem modMem_mem (s : State) (g) : (s.modMem g).mem = g s.mem := rfl
@[simp] theorem modMem_ts (s : State) (g) : (s.modMem g).ts = s.ts := rfl
@[simp] theorem modMem_opt (s : State) (g) : (s.modMem g).opt = s.opt := rfl
@[simp] theorem modMem_sw (s : State) (g) : (s.modMem g).sw = s.sw := rfl
@[simp] theorem modMem_tm (s : State) (g) : (s.modMem g).tm = s.tm := rfl
@[simp] theorem modMem_bells (s : State) (g) : (s.modMem g).bells = s.bells := rfl
@[simp] theorem modMem_ce (s : State) (g) : (s.modMem g).ce = s.ce := rfl
@[simp] theorem modMem_cal (s : State) (g) : (s.modMem g).cal = s.cal := rfl
@[simp] theorem modMem_pfx (s : State) (g) : (s.modMem g).pfx = s.pfx := rfl
@[simp] theorem modMem_net (s : State) (g) : (s.modMem g).net = s.net := rfl
@[simp] theorem modMem_nvw (s : State) (g) : (s.modMem g).nvw = s.nvw := rfl
@[simp] theorem modMem_nvs (s : State) (g) : (s.modMem g).nvs = s.nvs := rfl

@[simp] theorem modTs_pending (s : State) (g) : (s.modTs g).pending = s.pending := rfl
@[simp] theorem modTs_sc (s : State) (g) : (s.modTs g).sc = s.sc := rfl
@[simp] theorem modTs_free (s : State) (g) : (s.modTs g).free = s.free := rfl
@[simp] theorem modTs_out (s : State) (g) : (s.modTs g).out = s.out := rfl
@[simp] theorem modTs_pins (s : State) (g) : (s.modTs g).pins = s.pins := rfl
@[simp] theorem modTs_pwr (s : State) (g) : (s.modTs g).pwr = s.pwr := rfl
@[simp] theorem modTs_boot (s : State) (g) : (s.modTs g).boot = s.boot := rfl
@[simp] theorem modTs_ident (s : State) (g) : (s.modTs g).ident = s.ident := rfl
@[simp] theorem modTs_prof (s : State) (g) : (s.modTs g).prof = s.prof := rfl
@[simp] theorem modTs_hi (s : State) (g) : (s.modTs g).hi = s.hi := rfl
@[simp] theorem modTs_db (s : State) (g) : (s.modTs g).db = s.db := rfl
@[simp] theorem modTs_life (s : State) (g) : (s.modTs g).life = s.life := rfl
@[simp] theorem modTs_sec (s : State) (g) : (s.modTs g).sec = s.sec := rfl
@[simp] theorem modTs_job (s : State) (g) : (s.modTs g).job = s.job := rfl
@[simp] theorem modTs_stn (s : State) (g) : (s.modTs g).stn = s.stn := rfl
@[simp] theorem modTs_strm (s : State) (g) : (s.modTs g).strm = s.strm := rfl
@[simp] theorem modTs_sync (s : State) (g) : (s.modTs g).sync = s.sync := rfl
@[simp] theorem modTs_mem (s : State) (g) : (s.modTs g).mem = s.mem := rfl
@[simp] theorem modTs_ts (s : State) (g) : (s.modTs g).ts = g s.ts := rfl
@[simp] theorem modTs_opt (s : State) (g) : (s.modTs g).opt = s.opt := rfl
@[simp] theorem modTs_sw (s : State) (g) : (s.modTs g).sw = s.sw := rfl
@[simp] theorem modTs_tm (s : State) (g) : (s.modTs g).tm = s.tm := rfl
@[simp] theorem modTs_bells (s : State) (g) : (s.modTs g).bells = s.bells := rfl
@[simp] theorem modTs_ce (s : State) (g) : (s.modTs g).ce = s.ce := rfl
@[simp] theorem modTs_cal (s : State) (g) : (s.modTs g).cal = s.cal := rfl
@[simp] theorem modTs_pfx (s : State) (g) : (s.modTs g).pfx = s.pfx := rfl
@[simp] theorem modTs_net (s : State) (g) : (s.modTs g).net = s.net := rfl
@[simp] theorem modTs_nvw (s : State) (g) : (s.modTs g).nvw = s.nvw := rfl
@[simp] theorem modTs_nvs (s : State) (g) : (s.modTs g).nvs = s.nvs := rfl

@[simp] theorem modOpt_pending (s : State) (g) : (s.modOpt g).pending = s.pending := rfl
@[simp] theorem modOpt_sc (s : State) (g) : (s.modOpt g).sc = s.sc := rfl
@[simp] theorem modOpt_free (s : State) (g) : (s.modOpt g).free = s.free := rfl
@[simp] theorem modOpt_out (s : State) (g) : (s.modOpt g).out = s.out := rfl
@[simp] theorem modOpt_pins (s : State) (g) : (s.modOpt g).pins = s.pins := rfl
@[simp] theorem modOpt_pwr (s : State) (g) : (s.modOpt g).pwr = s.pwr := rfl
@[simp] theorem modOpt_boot (s : State) (g) : (s.modOpt g).boot = s.boot := rfl
@[simp] theorem modOpt_ident (s : State) (g) : (s.modOpt g).ident = s.ident := rfl
@[simp] theorem modOpt_prof (s : State) (g) : (s.modOpt g).prof = s.prof := rfl
@[simp] theorem modOpt_hi (s : State) (g) : (s.modOpt g).hi = s.hi := rfl
@[simp] theorem modOpt_db (s : State) (g) : (s.modOpt g).db = s.db := rfl
@[simp] theorem modOpt_life (s : State) (g) : (s.modOpt g).life = s.life := rfl
@[simp] theorem modOpt_sec (s : State) (g) : (s.modOpt g).sec = s.sec := rfl
@[simp] theorem modOpt_job (s : State) (g) : (s.modOpt g).job = s.job := rfl
@[simp] theorem modOpt_stn (s : State) (g) : (s.modOpt g).stn = s.stn := rfl
@[simp] theorem modOpt_strm (s : State) (g) : (s.modOpt g).strm = s.strm := rfl
@[simp] theorem modOpt_sync (s : State) (g) : (s.modOpt g).sync = s.sync := rfl
@[simp] theorem modOpt_mem (s : State) (g) : (s.modOpt g).mem = s.mem := rfl
@[simp] theorem modOpt_ts (s : State) (g) : (s.modOpt g).ts = s.ts := rfl
@[simp] theorem modOpt_opt (s : State) (g) : (s.modOpt g).opt = g s.opt := rfl
@[simp] theorem modOpt_sw (s : State) (g) : (s.modOpt g).sw = s.sw := rfl
@[simp] theorem modOpt_tm (s : State) (g) : (s.modOpt g).tm = s.tm := rfl
@[simp] theorem modOpt_bells (s : State) (g) : (s.modOpt g).bells = s.bells := rfl
@[simp] theorem modOpt_ce (s : State) (g) : (s.modOpt g).ce = s.ce := rfl
@[simp] theorem modOpt_cal (s : State) (g) : (s.modOpt g).cal = s.cal := rfl
@[simp] theorem modOpt_pfx (s : State) (g) : (s.modOpt g).pfx = s.pfx := rfl
@[simp] theorem modOpt_net (s : State) (g) : (s.modOpt g).net = s.net := rfl
@[simp] theorem modOpt_nvw (s : State) (g) : (s.modOpt g).nvw = s.nvw := rfl
@[simp] theorem modOpt_nvs (s : State) (g) : (s.modOpt g).nvs = s.nvs := rfl

@[simp] theorem modSw_pending (s : State) (g) : (s.modSw g).pending = s.pending := rfl
@[simp] theorem modSw_sc (s : State) (g) : (s.modSw g).sc = s.sc := rfl
@[simp] theorem modSw_free (s : State) (g) : (s.modSw g).free = s.free := rfl
@[simp] theorem modSw_out (s : State) (g) : (s.modSw g).out = s.out := rfl
@[simp] theorem modSw_pins (s : State) (g) : (s.modSw g).pins = s.pins := rfl
@[simp] theorem modSw_pwr (s : State) (g) : (s.modSw g).pwr = s.pwr := rfl
@[simp] theorem modSw_boot (s : State) (g) : (s.modSw g).boot = s.boot := rfl
@[simp] theorem modSw_ident (s : State) (g) : (s.modSw g).ident = s.ident := rfl
@[simp] theorem modSw_prof (s : State) (g) : (s.modSw g).prof = s.prof := rfl
@[simp] theorem modSw_hi (s : State) (g) : (s.modSw g).hi = s.hi := rfl
@[simp] theorem modSw_db (s : State) (g) : (s.modSw g).db = s.db := rfl
@[simp] theorem modSw_life (s : State) (g) : (s.modSw g).life = s.life := rfl
@[simp] theorem modSw_sec (s : State) (g) : (s.modSw g).sec = s.sec := rfl
@[simp] theorem modSw_job (s : State) (g) : (s.modSw g).job = s.job := rfl
@[simp] theorem modSw_stn (s : State) (g) : (s.modSw g).stn = s.stn := rfl
@[simp] theorem modSw_strm (s : State) (g) : (s.modSw g).strm = s.strm := rfl
@[simp] theorem modSw_sync (s : State) (g) : (s.modSw g).sync = s.sync := rfl
@[simp] theorem modSw_mem (s : State) (g) : (s.modSw g).mem = s.mem := rfl
@[simp] theorem modSw_ts (s : State) (g) : (s.modSw g).ts = s.ts := rfl
@[simp] theorem modSw_opt (s : State) (g) : (s.modSw g).opt = s.opt := rfl
@[simp] theorem modSw_sw (s : State) (g) : (s.modSw g).sw = g s.sw := rfl
@[simp] theorem modSw_tm (s : State) (g) : (s.modSw g).tm = s.tm := rfl
@[simp] theorem modSw_bells (s : State) (g) : (s.modSw g).bells = s.bells := rfl
@[simp] theorem modSw_ce (s : State) (g) : (s.modSw g).ce = s.ce := rfl
@[simp] theorem modSw_cal (s : State) (g) : (s.modSw g).cal = s.cal := rfl
@[simp] theorem modSw_pfx (s : State) (g) : (s.modSw g).pfx = s.pfx := rfl
@[simp] theorem modSw_net (s : State) (g) : (s.modSw g).net = s.net := rfl
@[simp] theorem modSw_nvw (s : State) (g) : (s.modSw g).nvw = s.nvw := rfl
@[simp] theorem modSw_nvs (s : State) (g) : (s.modSw g).nvs = s.nvs := rfl

@[simp] theorem modTm_pending (s : State) (g) : (s.modTm g).pending = s.pending := rfl
@[simp] theorem modTm_sc (s : State) (g) : (s.modTm g).sc = s.sc := rfl
@[simp] theorem modTm_free (s : State) (g) : (s.modTm g).free = s.free := rfl
@[simp] theorem modTm_out (s : State) (g) : (s.modTm g).out = s.out := rfl
@[simp] theorem modTm_pins (s : State) (g) : (s.modTm g).pins = s.pins := rfl
@[simp] theorem modTm_pwr (s : State) (g) : (s.modTm g).pwr = s.pwr := rfl
@[simp] theorem modTm_boot (s : State) (g) : (s.modTm g).boot = s.boot := rfl
@[simp] theorem modTm_ident (s : State) (g) : (s.modTm g).ident = s.ident := rfl
@[simp] theorem modTm_prof (s : State) (g) : (s.modTm g).prof = s.prof := rfl
@[simp] theorem modTm_hi (s : State) (g) : (s.modTm g).hi = s.hi := rfl
@[simp] theorem modTm_db (s : State) (g) : (s.modTm g).db = s.db := rfl
@[simp] theorem modTm_life (s : State) (g) : (s.modTm g).life = s.life := rfl
@[simp] theorem modTm_sec (s : State) (g) : (s.modTm g).sec = s.sec := rfl
@[simp] theorem modTm_job (s : State) (g) : (s.modTm g).job = s.job := rfl
@[simp] theorem modTm_stn (s : State) (g) : (s.modTm g).stn = s.stn := rfl
@[simp] theorem modTm_strm (s : State) (g) : (s.modTm g).strm = s.strm := rfl
@[simp] theorem modTm_sync (s : State) (g) : (s.modTm g).sync = s.sync := rfl
@[simp] theorem modTm_mem (s : State) (g) : (s.modTm g).mem = s.mem := rfl
@[simp] theorem modTm_ts (s : State) (g) : (s.modTm g).ts = s.ts := rfl
@[simp] theorem modTm_opt (s : State) (g) : (s.modTm g).opt = s.opt := rfl
@[simp] theorem modTm_sw (s : State) (g) : (s.modTm g).sw = s.sw := rfl
@[simp] theorem modTm_tm (s : State) (g) : (s.modTm g).tm = g s.tm := rfl
@[simp] theorem modTm_bells (s : State) (g) : (s.modTm g).bells = s.bells := rfl
@[simp] theorem modTm_ce (s : State) (g) : (s.modTm g).ce = s.ce := rfl
@[simp] theorem modTm_cal (s : State) (g) : (s.modTm g).cal = s.cal := rfl
@[simp] theorem modTm_pfx (s : State) (g) : (s.modTm g).pfx = s.pfx := rfl
@[simp] theorem modTm_net (s : State) (g) : (s.modTm g).net = s.net := rfl
@[simp] theorem modTm_nvw (s : State) (g) : (s.modTm g).nvw = s.nvw := rfl
@[simp] theorem modTm_nvs (s : State) (g) : (s.modTm g).nvs = s.nvs := rfl

@[simp] theorem modBells_pending (s : State) (g) : (s.modBells g).pending = s.pending := rfl
@[simp] theorem modBells_sc (s : State) (g) : (s.modBells g).sc = s.sc := rfl
@[simp] theorem modBells_free (s : State) (g) : (s.modBells g).free = s.free := rfl
@[simp] theorem modBells_out (s : State) (g) : (s.modBells g).out = s.out := rfl
@[simp] theorem modBells_pins (s : State) (g) : (s.modBells g).pins = s.pins := rfl
@[simp] theorem modBells_pwr (s : State) (g) : (s.modBells g).pwr = s.pwr := rfl
@[simp] theorem modBells_boot (s : State) (g) : (s.modBells g).boot = s.boot := rfl
@[simp] theorem modBells_ident (s : State) (g) : (s.modBells g).ident = s.ident := rfl
@[simp] theorem modBells_prof (s : State) (g) : (s.modBells g).prof = s.prof := rfl
@[simp] theorem modBells_hi (s : State) (g) : (s.modBells g).hi = s.hi := rfl
@[simp] theorem modBells_db (s : State) (g) : (s.modBells g).db = s.db := rfl
@[simp] theorem modBells_life (s : State) (g) : (s.modBells g).life = s.life := rfl
@[simp] theorem modBells_sec (s : State) (g) : (s.modBells g).sec = s.sec := rfl
@[simp] theorem modBells_job (s : State) (g) : (s.modBells g).job = s.job := rfl
@[simp] theorem modBells_stn (s : State) (g) : (s.modBells g).stn = s.stn := rfl
@[simp] theorem modBells_strm (s : State) (g) : (s.modBells g).strm = s.strm := rfl
@[simp] theorem modBells_sync (s : State) (g) : (s.modBells g).sync = s.sync := rfl
@[simp] theorem modBells_mem (s : State) (g) : (s.modBells g).mem = s.mem := rfl
@[simp] theorem modBells_ts (s : State) (g) : (s.modBells g).ts = s.ts := rfl
@[simp] theorem modBells_opt (s : State) (g) : (s.modBells g).opt = s.opt := rfl
@[simp] theorem modBells_sw (s : State) (g) : (s.modBells g).sw = s.sw := rfl
@[simp] theorem modBells_tm (s : State) (g) : (s.modBells g).tm = s.tm := rfl
@[simp] theorem modBells_bells (s : State) (g) : (s.modBells g).bells = g s.bells := rfl
@[simp] theorem modBells_ce (s : State) (g) : (s.modBells g).ce = s.ce := rfl
@[simp] theorem modBells_cal (s : State) (g) : (s.modBells g).cal = s.cal := rfl
@[simp] theorem modBells_pfx (s : State) (g) : (s.modBells g).pfx = s.pfx := rfl
@[simp] theorem modBells_net (s : State) (g) : (s.modBells g).net = s.net := rfl
@[simp] theorem modBells_nvw (s : State) (g) : (s.modBells g).nvw = s.nvw := rfl
@[simp] theorem modBells_nvs (s : State) (g) : (s.modBells g).nvs = s.nvs := rfl

@[simp] theorem modCe_pending (s : State) (g) : (s.modCe g).pending = s.pending := rfl
@[simp] theorem modCe_sc (s : State) (g) : (s.modCe g).sc = s.sc := rfl
@[simp] theorem modCe_free (s : State) (g) : (s.modCe g).free = s.free := rfl
@[simp] theorem modCe_out (s : State) (g) : (s.modCe g).out = s.out := rfl
@[simp] theorem modCe_pins (s : State) (g) : (s.modCe g).pins = s.pins := rfl
@[simp] theorem modCe_pwr (s : State) (g) : (s.modCe g).pwr = s.pwr := rfl
@[simp] theorem modCe_boot (s : State) (g) : (s.modCe g).boot = s.boot := rfl
@[simp] theorem modCe_ident (s : State) (g) : (s.modCe g).ident = s.ident := rfl
@[simp] theorem modCe_prof (s : State) (g) : (s.modCe g).prof = s.prof := rfl
@[simp] theorem modCe_hi (s : State) (g) : (s.modCe g).hi = s.hi := rfl
@[simp] theorem modCe_db (s : State) (g) : (s.modCe g).db = s.db := rfl
@[simp] theorem modCe_life (s : State) (g) : (s.modCe g).life = s.life := rfl
@[simp] theorem modCe_sec (s : State) (g) : (s.modCe g).sec = s.sec := rfl
@[simp] theorem modCe_job (s : State) (g) : (s.modCe g).job = s.job := rfl
@[simp] theorem modCe_stn (s : State) (g) : (s.modCe g).stn = s.stn := rfl
@[simp] theorem modCe_strm (s : State) (g) : (s.modCe g).strm = s.strm := rfl
@[simp] theorem modCe_sync (s : State) (g) : (s.modCe g).sync = s.sync := rfl
@[simp] theorem modCe_mem (s : State) (g) : (s.modCe g).mem = s.mem := rfl
@[simp] theorem modCe_ts (s : State) (g) : (s.modCe g).ts = s.ts := rfl
@[simp] theorem modCe_opt (s : State) (g) : (s.modCe g).opt = s.opt := rfl
@[simp] theorem modCe_sw (s : State) (g) : (s.modCe g).sw = s.sw := rfl
@[simp] theorem modCe_tm (s : State) (g) : (s.modCe g).tm = s.tm := rfl
@[simp] theorem modCe_bells (s : State) (g) : (s.modCe g).bells = s.bells := rfl
@[simp] theorem modCe_ce (s : State) (g) : (s.modCe g).ce = g s.ce := rfl
@[simp] theorem modCe_cal (s : State) (g) : (s.modCe g).cal = s.cal := rfl
@[simp] theorem modCe_pfx (s : State) (g) : (s.modCe g).pfx = s.pfx := rfl
@[simp] theorem modCe_net (s : State) (g) : (s.modCe g).net = s.net := rfl
@[simp] theorem modCe_nvw (s : State) (g) : (s.modCe g).nvw = s.nvw := rfl
@[simp] theorem modCe_nvs (s : State) (g) : (s.modCe g).nvs = s.nvs := rfl

@[simp] theorem modCal_pending (s : State) (g) : (s.modCal g).pending = s.pending := rfl
@[simp] theorem modCal_sc (s : State) (g) : (s.modCal g).sc = s.sc := rfl
@[simp] theorem modCal_free (s : State) (g) : (s.modCal g).free = s.free := rfl
@[simp] theorem modCal_out (s : State) (g) : (s.modCal g).out = s.out := rfl
@[simp] theorem modCal_pins (s : State) (g) : (s.modCal g).pins = s.pins := rfl
@[simp] theorem modCal_pwr (s : State) (g) : (s.modCal g).pwr = s.pwr := rfl
@[simp] theorem modCal_boot (s : State) (g) : (s.modCal g).boot = s.boot := rfl
@[simp] theorem modCal_ident (s : State) (g) : (s.modCal g).ident = s.ident := rfl
@[simp] theorem modCal_prof (s : State) (g) : (s.modCal g).prof = s.prof := rfl
@[simp] theorem modCal_hi (s : State) (g) : (s.modCal g).hi = s.hi := rfl
@[simp] theorem modCal_db (s : State) (g) : (s.modCal g).db = s.db := rfl
@[simp] theorem modCal_life (s : State) (g) : (s.modCal g).life = s.life := rfl
@[simp] theorem modCal_sec (s : State) (g) : (s.modCal g).sec = s.sec := rfl
@[simp] theorem modCal_job (s : State) (g) : (s.modCal g).job = s.job := rfl
@[simp] theorem modCal_stn (s : State) (g) : (s.modCal g).stn = s.stn := rfl
@[simp] theorem modCal_strm (s : State) (g) : (s.modCal g).strm = s.strm := rfl
@[simp] theorem modCal_sync (s : State) (g) : (s.modCal g).sync = s.sync := rfl
@[simp] theorem modCal_mem (s : State) (g) : (s.modCal g).mem = s.mem := rfl
@[simp] theorem modCal_ts (s : State) (g) : (s.modCal g).ts = s.ts := rfl
@[simp] theorem modCal_opt (s : State) (g) : (s.modCal g).opt = s.opt := rfl
@[simp] theorem modCal_sw (s : State) (g) : (s.modCal g).sw = s.sw := rfl
@[simp] theorem modCal_tm (s : State) (g) : (s.modCal g).tm = s.tm := rfl
@[simp] theorem modCal_bells (s : State) (g) : (s.modCal g).bells = s.bells := rfl
@[simp] theorem modCal_ce (s : State) (g) : (s.modCal g).ce = s.ce := rfl
@[simp] theorem modCal_cal (s : State) (g) : (s.modCal g).cal = g s.cal := rfl
@[simp] theorem modCal_pfx (s : State) (g) : (s.modCal g).pfx = s.pfx := rfl
@[simp] theorem modCal_net (s : State) (g) : (s.modCal g).net = s.net := rfl
@[simp] theorem modCal_nvw (s : State) (g) : (s.modCal g).nvw = s.nvw := rfl
@[simp] theorem modCal_nvs (s : State) (g) : (s.modCal g).nvs = s.nvs := rfl

@[simp] theorem modPfx_pending (s : State) (g) : (s.modPfx g).pending = s.pending := rfl
@[simp] theorem modPfx_sc (s : State) (g) : (s.modPfx g).sc = s.sc := rfl
@[simp] theorem modPfx_free (s : State) (g) : (s.modPfx g).free = s.free := rfl
@[simp] theorem modPfx_out (s : State) (g) : (s.modPfx g).out = s.out := rfl
@[simp] theorem modPfx_pins (s : State) (g) : (s.modPfx g).pins = s.pins := rfl
@[simp] theorem modPfx_pwr (s : State) (g) : (s.modPfx g).pwr = s.pwr := rfl
@[simp] theorem modPfx_boot (s : State) (g) : (s.modPfx g).boot = s.boot := rfl
@[simp] theorem modPfx_ident (s : State) (g) : (s.modPfx g).ident = s.ident := rfl
@[simp] theorem modPfx_prof (s : State) (g) : (s.modPfx g).prof = s.prof := rfl
@[simp] theorem modPfx_hi (s : State) (g) : (s.modPfx g).hi = s.hi := rfl
@[simp] theorem modPfx_db (s : State) (g) : (s.modPfx g).db = s.db := rfl
@[simp] theorem modPfx_life (s : State) (g) : (s.modPfx g).life = s.life := rfl
@[simp] theorem modPfx_sec (s : State) (g) : (s.modPfx g).sec = s.sec := rfl
@[simp] theorem modPfx_job (s : State) (g) : (s.modPfx g).job = s.job := rfl
@[simp] theorem modPfx_stn (s : State) (g) : (s.modPfx g).stn = s.stn := rfl
@[simp] theorem modPfx_strm (s : State) (g) : (s.modPfx g).strm = s.strm := rfl
@[simp] theorem modPfx_sync (s : State) (g) : (s.modPfx g).sync = s.sync := rfl
@[simp] theorem modPfx_mem (s : State) (g) : (s.modPfx g).mem = s.mem := rfl
@[simp] theorem modPfx_ts (s : State) (g) : (s.modPfx g).ts = s.ts := rfl
@[simp] theorem modPfx_opt (s : State) (g) : (s.modPfx g).opt = s.opt := rfl
@[simp] theorem modPfx_sw (s : State) (g) : (s.modPfx g).sw = s.sw := rfl
@[simp] theorem modPfx_tm (s : State) (g) : (s.modPfx g).tm = s.tm := rfl
@[simp] theorem modPfx_bells (s : State) (g) : (s.modPfx g).bells = s.bells := rfl
@[simp] theorem modPfx_ce (s : State) (g) : (s.modPfx g).ce = s.ce := rfl
@[simp] theorem modPfx_cal (s : State) (g) : (s.modPfx g).cal = s.cal := rfl
@[simp] theorem modPfx_pfx (s : State) (g) : (s.modPfx g).pfx = g s.pfx := rfl
@[simp] theorem modPfx_net (s : State) (g) : (s.modPfx g).net = s.net := rfl
@[simp] theorem modPfx_nvw (s : State) (g) : (s.modPfx g).nvw = s.nvw := rfl
@[simp] theorem modPfx_nvs (s : State) (g) : (s.modPfx g).nvs = s.nvs := rfl

@[simp] theorem modNet_pending (s : State) (g) : (s.modNet g).pending = s.pending := rfl
@[simp] theorem modNet_sc (s : State) (g) : (s.modNet g).sc = s.sc := rfl
@[simp] theorem modNet_free (s : State) (g) : (s.modNet g).free = s.free := rfl
@[simp] theorem modNet_out (s : State) (g) : (s.modNet g).out = s.out := rfl
@[simp] theorem modNet_pins (s : State) (g) : (s.modNet g).pins = s.pins := rfl
@[simp] theorem modNet_pwr (s : State) (g) : (s.modNet g).pwr = s.pwr := rfl
@[simp] theorem modNet_boot (s : State) (g) : (s.modNet g).boot = s.boot := rfl
@[simp] theorem modNet_ident (s : State) (g) : (s.modNet g).ident = s.ident := rfl
@[simp] theorem modNet_prof (s : State) (g) : (s.modNet g).prof = s.prof := rfl
@[simp] theorem modNet_hi (s : State) (g) : (s.modNet g).hi = s.hi := rfl
@[simp] theorem modNet_db (s : State) (g) : (s.modNet g).db = s.db := rfl
@[simp] theorem modNet_life (s : State) (g) : (s.modNet g).life = s.life := rfl
@[simp] theorem modNet_sec (s : State) (g) : (s.modNet g).sec = s.sec := rfl
@[simp] theorem modNet_job (s : State) (g) : (s.modNet g).job = s.job := rfl
@[simp] theorem modNet_stn (s : State) (g) : (s.modNet g).stn = s.stn := rfl
@[simp] theorem modNet_strm (s : State) (g) : (s.modNet g).strm = s.strm := rfl
@[simp] theorem modNet_sync (s : State) (g) : (s.modNet g).sync = s.sync := rfl
@[simp] theorem modNet_mem (s : State) (g) : (s.modNet g).mem = s.mem := rfl
@[simp] theorem modNet_ts (s : State) (g) : (s.modNet g).ts = s.ts := rfl
@[simp] theorem modNet_opt (s : State) (g) : (s.modNet g).opt = s.opt := rfl
@[simp] theorem modNet_sw (s : State) (g) : (s.modNet g).sw = s.sw := rfl
@[simp] theorem modNet_tm (s : State) (g) : (s.modNet g).tm = s.tm := rfl
@[simp] theorem modNet_bells (s : State) (g) : (s.modNet g).bells = s.bells := rfl
@[simp] theorem modNet_ce (s : State) (g) : (s.modNet g).ce = s.ce := rfl
@[simp] theorem modNet_cal (s : State) (g) : (s.modNet g).cal = s.cal := rfl
@[simp] theorem modNet_pfx (s : State) (g) : (s.modNet g).pfx = s.pfx := rfl
@[simp] theorem modNet_net (s : State) (g) : (s.modNet g).net = g s.net := rfl
@[simp] theorem modNet_nvw (s : State) (g) : (s.modNet g).nvw = s.nvw := rfl
@[simp] theorem modNet_nvs (s : State) (g) : (s.modNet g).nvs = s.nvs := rfl

@[simp] theorem modNvw_pending (s : State) (g) : (s.modNvw g).pending = s.pending := rfl
@[simp] theorem modNvw_sc (s : State) (g) : (s.modNvw g).sc = s.sc := rfl
@[simp] theorem modNvw_free (s : State) (g) : (s.modNvw g).free = s.free := rfl
@[simp] theorem modNvw_out (s : State) (g) : (s.modNvw g).out = s.out := rfl
@[simp] theorem modNvw_pins (s : State) (g) : (s.modNvw g).pins = s.pins := rfl
@[simp] theorem modNvw_pwr (s : State) (g) : (s.modNvw g).pwr = s.pwr := rfl
@[simp] theorem modNvw_boot (s : State) (g) : (s.modNvw g).boot = s.boot := rfl
@[simp] theorem modNvw_ident (s : State) (g) : (s.modNvw g).ident = s.ident := rfl
@[simp] theorem modNvw_prof (s : State) (g) : (s.modNvw g).prof = s.prof := rfl
@[simp] theorem modNvw_hi (s : State) (g) : (s.modNvw g).hi = s.hi := rfl
@[simp] theorem modNvw_db (s : State) (g) : (s.modNvw g).db = s.db := rfl
@[simp] theorem modNvw_life (s : State) (g) : (s.modNvw g).life = s.life := rfl
@[simp] theorem modNvw_sec (s : State) (g) : (s.modNvw g).sec = s.sec := rfl
@[simp] theorem modNvw_job (s : State) (g) : (s.modNvw g).job = s.job := rfl
@[simp] theorem modNvw_stn (s : State) (g) : (s.modNvw g).stn = s.stn := rfl
@[simp] theorem modNvw_strm (s : State) (g) : (s.modNvw g).strm = s.strm := rfl
@[simp] theorem modNvw_sync (s : State) (g) : (s.modNvw g).sync = s.sync := rfl
@[simp] theorem modNvw_mem (s : State) (g) : (s.modNvw g).mem = s.mem := rfl
@[simp] theorem modNvw_ts (s : State) (g) : (s.modNvw g).ts = s.ts := rfl
@[simp] theorem modNvw_opt (s : State) (g) : (s.modNvw g).opt = s.opt := rfl
@[simp] theorem modNvw_sw (s : State) (g) : (s.modNvw g).sw = s.sw := rfl
@[simp] theorem modNvw_tm (s : State) (g) : (s.modNvw g).tm = s.tm := rfl
@[simp] theorem modNvw_bells (s : State) (g) : (s.modNvw g).bells = s.bells := rfl
@[simp] theorem modNvw_ce (s : State) (g) : (s.modNvw g).ce = s.ce := rfl
@[simp] theorem modNvw_cal (s : State) (g) : (s.modNvw g).cal = s.cal := rfl
@[simp] theorem modNvw_pfx (s : State) (g) : (s.modNvw g).pfx = s.pfx := rfl
@[simp] theorem modNvw_net (s : State) (g) : (s.modNvw g).net = s.net := rfl
@[simp] theorem modNvw_nvw (s : State) (g) : (s.modNvw g).nvw = g s.nvw := rfl
@[simp] theorem modNvw_nvs (s : State) (g) : (s.modNvw g).nvs = s.nvs := rfl

@[simp] theorem modNvs_pending (s : State) (g) : (s.modNvs g).pending = s.pending := rfl
@[simp] theorem modNvs_sc (s : State) (g) : (s.modNvs g).sc = s.sc := rfl
@[simp] theorem modNvs_free (s : State) (g) : (s.modNvs g).free = s.free := rfl
@[simp] theorem modNvs_out (s : State) (g) : (s.modNvs g).out = s.out := rfl
@[simp] theorem modNvs_pins (s : State) (g) : (s.modNvs g).pins = s.pins := rfl
@[simp] theorem modNvs_pwr (s : State) (g) : (s.modNvs g).pwr = s.pwr := rfl
@[simp] theorem modNvs_boot (s : State) (g) : (s.modNvs g).boot = s.boot := rfl
@[simp] theorem modNvs_ident (s : State) (g) : (s.modNvs g).ident = s.ident := rfl
@[simp] theorem modNvs_prof (s : State) (g) : (s.modNvs g).prof = s.prof := rfl
@[simp] theorem modNvs_hi (s : State) (g) : (s.modNvs g).hi = s.hi := rfl
@[simp] theorem modNvs_db (s : State) (g) : (s.modNvs g).db = s.db := rfl
@[simp] theorem modNvs_life (s : State) (g) : (s.modNvs g).life = s.life := rfl
@[simp] theorem modNvs_sec (s : State) (g) : (s.modNvs g).sec = s.sec := rfl
@[simp] theorem modNvs_job (s : State) (g) : (s.modNvs g).job = s.job := rfl
@[simp] theorem modNvs_stn (s : State) (g) : (s.modNvs g).stn = s.stn := rfl
@[simp] theorem modNvs_strm (s : State) (g) : (s.modNvs g).strm = s.strm := rfl
@[simp] theorem modNvs_sync (s : State) (g) : (s.modNvs g).sync = s.sync := rfl
@[simp] theorem modNvs_mem (s : State) (g) : (s.modNvs g).mem = s.mem := rfl
@[simp] theorem modNvs_ts (s : State) (g) : (s.modNvs g).ts = s.ts := rfl
@[simp] theorem modNvs_opt (s : State) (g) : (s.modNvs g).opt = s.opt := rfl
@[simp] theorem modNvs_sw (s : State) (g) : (s.modNvs g).sw = s.sw := rfl
@[simp] theorem modNvs_tm (s : State) (g) : (s.modNvs g).tm = s.tm := rfl
@[simp] theorem modNvs_bells (s : State) (g) : (s.modNvs g).bells = s.bells := rfl
@[simp] theorem modNvs_ce (s : State) (g) : (s.modNvs g).ce = s.ce := rfl
@[simp] theorem modNvs_cal (s : State) (g) : (s.modNvs g).cal = s.cal := rfl
@[simp] theorem modNvs_pfx (s : State) (g) : (s.modNvs g).pfx = s.pfx := rfl
@[simp] theorem modNvs_net (s : State) (g) : (s.modNvs g).net = s.net := rfl
@[simp] theorem modNvs_nvw (s : State) (g) : (s.modNvs g).nvw = s.nvw := rfl
@[simp] theorem modNvs_nvs (s : State) (g) : (s.modNvs g).nvs = g s.nvs := rfl

end Sys2Proof.Laws
end

