-- ==== Sys2Proof/Laws/Tbl.lean ====
section
/-!
SUPPORT. Sparse tables: what a read gives after a write, and that writes keep the canonical form.
-/

namespace Sys2Proof.Laws

open Sys2Proof.Machine

variable {α : Type}

/-- A read below every key of a canonical table gives the default. -/
theorem tget_below [DecidableEq α] (d : α) : ∀ (t : List (Nat × α)) (lo i : Nat), twfFrom d lo t = true → i < lo → tget d t i = d
  | [], _, _, _, _ => rfl
  | (k, v) :: t, lo, i, h, hi => by
    simp only [twfFrom, Bool.and_eq_true, decide_eq_true_eq] at h
    have hk : k ≠ i := by omega
    simp only [tget, hk, if_false]
    exact tget_below d t (k + 1) i h.2 (by omega)

/-- A canonical table above a key is canonical above a lower one. -/
theorem twfFrom_mono [DecidableEq α] (d : α) (t : List (Nat × α)) (lo hi : Nat) (h : lo ≤ hi) (w : twfFrom d hi t = true) : twfFrom d lo t = true := by
  cases t with
  | nil => rfl
  | cons e t =>
    obtain ⟨k, v⟩ := e
    simp only [twfFrom, Bool.and_eq_true, decide_eq_true_eq] at w ⊢
    exact ⟨⟨by omega, w.1.2⟩, w.2⟩

/-- A write keeps the canonical form above every key up to its own. -/
theorem twfFrom_tset [DecidableEq α] (d : α) : ∀ (t : List (Nat × α)) (lo i : Nat) (v : α), lo ≤ i → twfFrom d lo t = true → twfFrom d lo (tset d t i v) = true
  | [], lo, i, v, hi, _ => by
    unfold tset
    split
    · rfl
    · simp [twfFrom, *]
  | (k, w) :: t, lo, i, v, hi, h => by
    simp only [twfFrom, Bool.and_eq_true, decide_eq_true_eq] at h
    unfold tset
    split
    · split
      · simp [twfFrom, h]
      · have := twfFrom_mono d t (i + 1) (k + 1) (by omega) h.2
        simp only [twfFrom, Bool.and_eq_true, decide_eq_true_eq]
        exact ⟨⟨hi, by assumption⟩, ⟨by omega, h.1.2⟩, h.2⟩
    · split
      · split
        · exact twfFrom_mono d t lo (k + 1) (by omega) h.2
        · simp only [twfFrom, Bool.and_eq_true, decide_eq_true_eq]
          subst i
          exact ⟨⟨hi, by assumption⟩, h.2⟩
      · simp only [twfFrom, Bool.and_eq_true, decide_eq_true_eq]
        exact ⟨⟨h.1.1, h.1.2⟩, twfFrom_tset d t (k + 1) i v (by omega) h.2⟩

/-- A write keeps the canonical form. -/
theorem twf_tset [DecidableEq α] (d : α) (t : List (Nat × α)) (i : Nat) (v : α) (h : twf d t = true) : twf d (tset d t i v) = true :=
  twfFrom_tset d t 0 i v (Nat.zero_le _) h

/-- A change of one value keeps the canonical form. -/
theorem twf_tmod [DecidableEq α] (d : α) (t : List (Nat × α)) (i : Nat) (f : α → α) (h : twf d t = true) : twf d (tmod d t i f) = true :=
  twf_tset d t i _ h

/-- Writes at consecutive keys keep the canonical form. -/
theorem twf_tsets [DecidableEq α] (d : α) : ∀ (vs : List α) (t : List (Nat × α)) (i : Nat), twf d t = true → twf d (tsets d t i vs) = true
  | [], _, _, h => h
  | v :: vs, t, i, h => twf_tsets d vs _ (i + 1) (twf_tset d t i v h)

/-- A filter keeps the canonical form. -/
theorem twfFrom_filter [DecidableEq α] (d : α) (p : Nat × α → Bool) : ∀ (t : List (Nat × α)) (lo : Nat), twfFrom d lo t = true → twfFrom d lo (t.filter p) = true
  | [], _, _ => rfl
  | (k, v) :: t, lo, h => by
    simp only [twfFrom, Bool.and_eq_true, decide_eq_true_eq] at h
    rw [List.filter_cons]
    split
    · simp only [twfFrom, Bool.and_eq_true, decide_eq_true_eq]
      exact ⟨h.1, twfFrom_filter d p t (k + 1) h.2⟩
    · exact twfFrom_mono d _ lo (k + 1) (by omega) (twfFrom_filter d p t (k + 1) h.2)

/-- A filter keeps the canonical form. -/
theorem twf_filter [DecidableEq α] (d : α) (p : Nat × α → Bool) (t : List (Nat × α)) (h : twf d t = true) : twf d (t.filter p) = true :=
  twfFrom_filter d p t 0 h

/-- A read at another key is what it was before a write. -/
theorem tget_tset_other [DecidableEq α] (d : α) : ∀ (t : List (Nat × α)) (i j : Nat) (v : α), j ≠ i → tget d (tset d t i v) j = tget d t j
  | [], i, j, v, h => by
    unfold tset
    split <;> simp [tget, h.symm]
  | (k, w) :: t, i, j, v, h => by
    unfold tset
    split
    · split
      · rfl
      · simp [tget, h.symm]
    · split
      · subst i
        split <;> simp [tget, h.symm]
      · by_cases hk : k = j
        · simp [tget, hk]
        · simp only [tget, hk, if_false]
          exact tget_tset_other d t i j v h

/-- A read at the key of a write gives the value written, where that is not the default. -/
theorem tget_tset_ne [DecidableEq α] (d : α) : ∀ (t : List (Nat × α)) (i : Nat) (v : α), v ≠ d → tget d (tset d t i v) i = v
  | [], i, v, h => by simp [tset, tget, h]
  | (k, w) :: t, i, v, h => by
    unfold tset
    split
    · simp [tget]
    · split
      · simp [tget]
      · have hk : k ≠ i := by omega
        simp only [tget, hk, if_false]
        exact tget_tset_ne d t i v h

/-- A read at the key of a write gives the value written, in a canonical table. -/
theorem tget_tset_from [DecidableEq α] (d : α) : ∀ (t : List (Nat × α)) (lo i : Nat) (v : α), twfFrom d lo t = true → tget d (tset d t i v) i = v
  | [], _, i, v, _ => by
    unfold tset
    split
    · next h => simp [tget, h]
    · simp [tget]
  | (k, w) :: t, lo, i, v, h => by
    simp only [twfFrom, Bool.and_eq_true, decide_eq_true_eq] at h
    unfold tset
    split
    · split
      · next hv =>
        have hk : k ≠ i := by omega
        simp only [tget, hk, if_false]
        rw [hv]
        exact tget_below d t (k + 1) i h.2 (by omega)
      · simp [tget]
    · split
      · split
        · next hk hv =>
          rw [hv]
          exact tget_below d t (k + 1) i h.2 (by omega)
        · simp [tget]
      · have hk : k ≠ i := by omega
        simp only [tget, hk, if_false]
        exact tget_tset_from d t (k + 1) i v h.2

/-- A read at the key of a write gives the value written, in a canonical table. -/
theorem tget_tset_same [DecidableEq α] (d : α) (t : List (Nat × α)) (i : Nat) (v : α) (h : twf d t = true) : tget d (tset d t i v) i = v :=
  tget_tset_from d t 0 i v h

/-- A read outside the keys of consecutive writes is what it was. -/
theorem tget_tsets_other [DecidableEq α] (d : α) : ∀ (vs : List α) (t : List (Nat × α)) (i j : Nat), j < i ∨ i + vs.length ≤ j → tget d (tsets d t i vs) j = tget d t j
  | [], _, _, _, _ => rfl
  | v :: vs, t, i, j, h => by
    simp only [List.length_cons] at h
    unfold tsets
    rw [tget_tsets_other d vs _ (i + 1) j (by omega), tget_tset_other d t i j v (by omega)]

/-- A read at one of the keys of consecutive writes gives its value, in a canonical table. -/
theorem tget_tsets_same [DecidableEq α] (d : α) : ∀ (vs : List α) (t : List (Nat × α)) (i j : Nat), twf d t = true → j < vs.length → tget d (tsets d t i vs) (i + j) = vs.getD j d
  | v :: vs, t, i, 0, h, _ => by
    show tget d (tsets d (tset d t i v) (i + 1) vs) i = v
    rw [tget_tsets_other d vs _ (i + 1) i (by omega), tget_tset_same d t i v h]
  | v :: vs, t, i, j + 1, h, hj => by
    unfold tsets
    have := tget_tsets_same d vs (tset d t i v) (i + 1) j (twf_tset d t i v h) (by simpa using hj)
    rw [show i + (j + 1) = i + 1 + j by omega, this]
    rfl

end Sys2Proof.Laws
end

