-- ==== Sys2Proof/Laws/Access.lean ====
section
/-!
SUPPORT. What a change of one entry of a table of the state does to that entry and to the others: the entry takes the changed value
where that is not the default, or where the table is in canonical form; every other entry stays.
-/

namespace Sys2Proof.Laws

open Sys2Proof.Machine

/-- The changed entry, in a canonical table. -/
theorem ctxOf_modCtx (st : BitVec 20) (g) (s : State) (h : twf {} s.strm.ctx = true) : ctxOf (modCtx st g s) st = g (ctxOf s st) := tget_tset_same _ _ _ _ h

/-- The changed entry, where it is not the default. -/
theorem ctxOf_modCtx_ne (st : BitVec 20) (g) (s : State) (h : g (ctxOf s st) ≠ {}) : ctxOf (modCtx st g s) st = g (ctxOf s st) := tget_tset_ne _ _ _ _ h

/-- Every other entry stays. -/
theorem ctxOf_modCtx_other (st y : BitVec 20) (g) (s : State) (h : y ≠ st) : ctxOf (modCtx st g s) y = ctxOf s y :=
  tget_tset_other _ _ _ _ _ (fun e => h (BitVec.eq_of_toNat_eq e))

/-- The changed entry, in a canonical table. -/
theorem syncOf_modSyncObj (st : BitVec 16) (g) (s : State) (h : twf {} s.sync = true) : syncOf (modSyncObj st g s) st = g (syncOf s st) := tget_tset_same _ _ _ _ h

/-- The changed entry, where it is not the default. -/
theorem syncOf_modSyncObj_ne (st : BitVec 16) (g) (s : State) (h : g (syncOf s st) ≠ {}) : syncOf (modSyncObj st g s) st = g (syncOf s st) := tget_tset_ne _ _ _ _ h

/-- Every other entry stays. -/
theorem syncOf_modSyncObj_other (st y : BitVec 16) (g) (s : State) (h : y ≠ st) : syncOf (modSyncObj st g s) y = syncOf s y :=
  tget_tset_other _ _ _ _ _ (fun e => h (BitVec.eq_of_toNat_eq e))

/-- The changed entry, in a canonical table. -/
theorem stnOf_modStn (st : BitVec 16) (g) (s : State) (h : twf {} s.stn.st = true) : stnOf (modStn st g s) st = g (stnOf s st) := tget_tset_same _ _ _ _ h

/-- The changed entry, where it is not the default. -/
theorem stnOf_modStn_ne (st : BitVec 16) (g) (s : State) (h : g (stnOf s st) ≠ {}) : stnOf (modStn st g s) st = g (stnOf s st) := tget_tset_ne _ _ _ _ h

/-- Every other entry stays. -/
theorem stnOf_modStn_other (st y : BitVec 16) (g) (s : State) (h : y ≠ st) : stnOf (modStn st g s) y = stnOf s y :=
  tget_tset_other _ _ _ _ _ (fun e => h (BitVec.eq_of_toNat_eq e))

/-- The changed entry, in a canonical table. -/
theorem rotOf_modRot (f : Nat) (g) (s : State) (h : twf {} s.cal.rot = true) : rotOf (modRot f g s) f = g (rotOf s f) := tget_tset_same _ _ _ _ h

/-- The changed entry, where it is not the default. -/
theorem rotOf_modRot_ne (f : Nat) (g) (s : State) (h : g (rotOf s f) ≠ {}) : rotOf (modRot f g s) f = g (rotOf s f) := tget_tset_ne _ _ _ _ h

/-- Every other entry stays. -/
theorem rotOf_modRot_other (f y : Nat) (g) (s : State) (h : y ≠ f) : rotOf (modRot f g s) y = rotOf s y :=
  tget_tset_other _ _ _ _ _ (h)

/-- The changed entry, in a canonical table. -/
theorem fibreOf_modFibre (f : Nat) (g) (s : State) (h : twf {} s.opt.fibres = true) : fibreOf (modFibre f g s) f = g (fibreOf s f) := tget_tset_same _ _ _ _ h

/-- The changed entry, where it is not the default. -/
theorem fibreOf_modFibre_ne (f : Nat) (g) (s : State) (h : g (fibreOf s f) ≠ {}) : fibreOf (modFibre f g s) f = g (fibreOf s f) := tget_tset_ne _ _ _ _ h

/-- Every other entry stays. -/
theorem fibreOf_modFibre_other (f y : Nat) (g) (s : State) (h : y ≠ f) : fibreOf (modFibre f g s) y = fibreOf s y :=
  tget_tset_other _ _ _ _ _ (h)

/-- The changed entry, in a canonical table. -/
theorem combOf_modComb (f : Nat) (g) (s : State) (h : twf {} s.opt.combs = true) : combOf (modComb f g s) f = g (combOf s f) := tget_tset_same _ _ _ _ h

/-- The changed entry, where it is not the default. -/
theorem combOf_modComb_ne (f : Nat) (g) (s : State) (h : g (combOf s f) ≠ {}) : combOf (modComb f g s) f = g (combOf s f) := tget_tset_ne _ _ _ _ h

/-- Every other entry stays. -/
theorem combOf_modComb_other (f y : Nat) (g) (s : State) (h : y ≠ f) : combOf (modComb f g s) y = combOf s y :=
  tget_tset_other _ _ _ _ _ (h)

/-- The changed entry, in a canonical table. -/
theorem portAt_modPort (f : Nat) (g) (s : State) (h : twf {} s.tm.ports = true) : portAt (modPort f g s) f = g (portAt s f) := tget_tset_same _ _ _ _ h

/-- The changed entry, where it is not the default. -/
theorem portAt_modPort_ne (f : Nat) (g) (s : State) (h : g (portAt s f) ≠ {}) : portAt (modPort f g s) f = g (portAt s f) := tget_tset_ne _ _ _ _ h

/-- Every other entry stays. -/
theorem portAt_modPort_other (f y : Nat) (g) (s : State) (h : y ≠ f) : portAt (modPort f g s) y = portAt s y :=
  tget_tset_other _ _ _ _ _ (h)

/-- The changed entry, in a canonical table. -/
theorem bellOf_modBell (f : Nat) (g) (s : State) (h : twf {} s.bells.bells = true) : bellOf (modBell f g s) f = g (bellOf s f) := tget_tset_same _ _ _ _ h

/-- The changed entry, where it is not the default. -/
theorem bellOf_modBell_ne (f : Nat) (g) (s : State) (h : g (bellOf s f) ≠ {}) : bellOf (modBell f g s) f = g (bellOf s f) := tget_tset_ne _ _ _ _ h

/-- Every other entry stays. -/
theorem bellOf_modBell_other (f y : Nat) (g) (s : State) (h : y ≠ f) : bellOf (modBell f g s) y = bellOf s y :=
  tget_tset_other _ _ _ _ _ (h)

/-- The changed entry, in a canonical table. -/
theorem calSet_modSet (f : Nat) (g) (s : State) (h : twf {} s.cal.sets = true) : calSet (modSet f g s) f = g (calSet s f) := tget_tset_same _ _ _ _ h

/-- The changed entry, where it is not the default. -/
theorem calSet_modSet_ne (f : Nat) (g) (s : State) (h : g (calSet s f) ≠ {}) : calSet (modSet f g s) f = g (calSet s f) := tget_tset_ne _ _ _ _ h

/-- Every other entry stays. -/
theorem calSet_modSet_other (f y : Nat) (g) (s : State) (h : y ≠ f) : calSet (modSet f g s) y = calSet s y :=
  tget_tset_other _ _ _ _ _ (h)

/-- The changed entry, in a canonical table. -/
theorem gateOf_modGate (f : Nat) (g) (s : State) (h : twf {} s.pfx.gates = true) : gateOf (modGate f g s) f = g (gateOf s f) := tget_tset_same _ _ _ _ h

/-- The changed entry, where it is not the default. -/
theorem gateOf_modGate_ne (f : Nat) (g) (s : State) (h : g (gateOf s f) ≠ {}) : gateOf (modGate f g s) f = g (gateOf s f) := tget_tset_ne _ _ _ _ h

/-- Every other entry stays. -/
theorem gateOf_modGate_other (f y : Nat) (g) (s : State) (h : y ≠ f) : gateOf (modGate f g s) y = gateOf s y :=
  tget_tset_other _ _ _ _ _ (h)

/-- The changed entry, in a canonical table. -/
theorem pkgOf_modPkg (f : Nat) (g) (s : State) (h : twf {} s.mem.pkg = true) : pkgOf (modPkg f g s) f = g (pkgOf s f) := tget_tset_same _ _ _ _ h

/-- The changed entry, where it is not the default. -/
theorem pkgOf_modPkg_ne (f : Nat) (g) (s : State) (h : g (pkgOf s f) ≠ {}) : pkgOf (modPkg f g s) f = g (pkgOf s f) := tget_tset_ne _ _ _ _ h

/-- Every other entry stays. -/
theorem pkgOf_modPkg_other (f y : Nat) (g) (s : State) (h : y ≠ f) : pkgOf (modPkg f g s) y = pkgOf s y :=
  tget_tset_other _ _ _ _ _ (h)

/-- The changed record of a lane, where it is not the default or the table is in canonical form. -/
theorem laneOf_modLane (f k : Nat) (g) (s : State) (hk : k < 33) (h : twf {} s.opt.lanes = true ∨ g (laneOf s f k) ≠ {}) :
    laneOf (modLane f k g s) f k = g (laneOf s f k) := by
  unfold modLane
  rw [if_pos hk]
  cases h with
  | inl h => exact tget_tset_same _ _ _ _ h
  | inr h => exact tget_tset_ne _ _ _ _ h

/-- Every other lane keeps its record. -/
theorem laneOf_modLane_other (f k y x : Nat) (g) (s : State) (h : laneKey y x ≠ laneKey f k) : laneOf (modLane f k g s) y x = laneOf s y x := by
  unfold modLane
  split
  · exact tget_tset_other _ _ _ _ _ h
  · rfl

end Sys2Proof.Laws
end

