-- ==== Sys2Proof/Laws/Ops.lean ====
section
/-!
SUPPORT. What the shared operations do: raising an event, a write to MRAM, extending a measurement register, replies, outputs and
vectors. Each operation has one lemma that says everything it leaves alone, and one for each field from it.
-/

namespace Sys2Proof.Laws

open Sys2Proof.Machine

/-- The state without what raising an event may change: the Daybook, event pushes, `BM_ALERT` and WAKE#, the note that writes are
inhibited, the checkpoint that waits, and the count of MRAM writes. -/
def aside (s : State) : State :=
  { s with
    db := {}
    hi := { s.hi with pushes := [] }
    pins := { s.pins with alert := 0, wake := false }
    pwr := { s.pwr with nvRaised := false }
    nvw := { s.nvw with ckpt := false }
    life := { s.life with mramWr := [] } }

theorem aside_modDb (s : State) (g) : aside (s.modDb g) = aside s := rfl

theorem ckptRaise_aside (s : State) : aside (ckptRaise s) = aside s := by
  unfold ckptRaise ckptWrite mramCount
  by_cases h : s.db.ckptNewerB <;> rfl

theorem record_aside (c x : Nat) (p : Bytes) (s : State) : aside (record c x p s) = aside s := by
  have h1 : ∀ (t : State) (a : Bool), aside (if ckptDue t.db then (if a then t.modNvw fun n => { n with ckpt := true } else ckptRaise t) else t) = aside t := by
    intro t a
    split
    · split
      · rfl
      · exact ckptRaise_aside t
    · rfl
  unfold record
  rw [← h1 s s.pwr.nvInhibit]
  generalize (if ckptDue s.db then (if s.pwr.nvInhibit then s.modNvw fun n => { n with ckpt := true } else ckptRaise s) else s) = u
  dsimp only
  split <;> rfl

theorem raise1_aside (c x : Nat) (p : Bytes) (s : State) : aside (raise1 c x p s) = aside s := by
  unfold raise1
  split
  · split <;> rfl
  · split
    · rfl
    · exact record_aside c x p s

theorem inhibitNote_aside (s : State) : aside (inhibitNote s) = aside s := by
  unfold inhibitNote
  dsimp only
  split
  · exact raise1_aside ..
  · rfl

/-- Raising an event changes nothing but what `aside` takes away (R377, R401 to R412). -/
theorem raise_aside (c x : Nat) (p : Bytes) (s : State) : aside (raise c x p s) = aside s :=
  (inhibitNote_aside _).trans (raise1_aside c x p s)

/-- So does a write to MRAM (R413, R415). -/
theorem mramWrite_aside (k i : Nat) (s : State) : aside (mramWrite k i s) = aside s := by
  unfold mramWrite
  dsimp only
  split
  · exact raise_aside ..
  · rfl

/-- The state without what extending a measurement register may change. -/
def asideMr (s : State) : State :=
  { aside s with sec := { s.sec with mr := [], log := [], logOver := false } }

/-- Extending a measurement register changes the registers, their log and what raising an event changes (R422, R423). -/
theorem mrExtend_aside (r k : Nat) (d : BitVec 384) (s : State) : asideMr (mrExtend r k d s) = asideMr s := by
  unfold mrExtend
  dsimp only
  split
  · rfl
  · split
    · rfl
    · have h : ∀ t : State, asideMr t = { aside t with sec := { (aside t).sec with mr := [], log := [], logOver := false } } := fun _ => rfl
      rw [h, raise_aside]
      rfl

/-- A reply that is queued stands at the end of the queue; one that is discarded ends its packet (R328, R344, R345). -/
theorem reply_enabled (ref : PktRef) (st : Nat) (d : Bytes) (s : State) (h : s.hi.ringEn = true) (hm : muted ref s = false) :
    reply ref st d s = s.modHi fun x => { x with replies := x.replies ++ [{ ref := ref, status := BitVec.ofNat 16 st, data := d }] } := by
  simp [reply, queueReply, h, hm]

/-- The state without what a reply changes. -/
def asideReply (s : State) : State := { s with hi := { s.hi with replies := [], held := [], lists := none } }

/-- A packet whose final reply is discarded leaves the packets held, and its list may end with it (R343, R345). -/
theorem dropFinal_aside (ref : PktRef) (s : State) : asideReply (dropFinal ref s) = asideReply s := by
  have h : ∀ r t, asideReply (unhold r t) = asideReply t := fun _ _ => rfl
  have hl : ∀ r t, asideReply ((unhold r t).modHi fun x => { x with lists := none }) = asideReply t := fun _ _ => rfl
  unfold dropFinal
  rw [← h ref s]
  generalize unhold ref s = t
  dsimp only
  split
  · rfl
  · split
    · exact hl _ t
    · rfl

/-- A reply changes only the queue of replies, the packets held and the list that runs (R335, R344). -/
theorem queueReply_aside (r : Reply) (s : State) : asideReply (queueReply r s) = asideReply s := by
  unfold queueReply
  split
  · rfl
  · split
    · rfl
    · exact dropFinal_aside _ s

/-- So does a final reply (R344). -/
theorem reply_aside (ref : PktRef) (st : Nat) (d : Bytes) (s : State) : asideReply (reply ref st d s) = asideReply s :=
  queueReply_aside _ s

/-- So does an interim reply (R346). -/
theorem replyPending_aside (ref : PktRef) (s : State) : asideReply (replyPending ref s) = asideReply s :=
  queueReply_aside _ s

/-- The state without what a vector changes. -/
def asideMsix (s : State) : State := { s with out := [], hi := { s.hi with pba := 0 } }

/-- A vector sets its pending bit or sends its message (R329, R352). -/
theorem msix_aside (v : Nat) (s : State) : asideMsix (msix v s) = asideMsix s := by
  unfold msix
  dsimp only
  split <;> rfl


@[simp] theorem raise_pending (c x : Nat) (p : Bytes) (s : State) : (raise c x p s).pending = s.pending := have h := congrArg (fun t : State => t.pending) (raise_aside c x p s); h
@[simp] theorem raise_sc (c x : Nat) (p : Bytes) (s : State) : (raise c x p s).sc = s.sc := have h := congrArg (fun t : State => t.sc) (raise_aside c x p s); h
@[simp] theorem raise_free (c x : Nat) (p : Bytes) (s : State) : (raise c x p s).free = s.free := have h := congrArg (fun t : State => t.free) (raise_aside c x p s); h
@[simp] theorem raise_out (c x : Nat) (p : Bytes) (s : State) : (raise c x p s).out = s.out := have h := congrArg (fun t : State => t.out) (raise_aside c x p s); h
@[simp] theorem raise_pins_vin (c x : Nat) (p : Bytes) (s : State) : (raise c x p s).pins.vin = s.pins.vin := have h := congrArg (fun t : State => t.pins.vin) (raise_aside c x p s); h
@[simp] theorem raise_pins_iin (c x : Nat) (p : Bytes) (s : State) : (raise c x p s).pins.iin = s.pins.iin := have h := congrArg (fun t : State => t.pins.iin) (raise_aside c x p s); h
@[simp] theorem raise_pins_coolIn (c x : Nat) (p : Bytes) (s : State) : (raise c x p s).pins.coolIn = s.pins.coolIn := have h := congrArg (fun t : State => t.pins.coolIn) (raise_aside c x p s); h
@[simp] theorem raise_pins_coolOut (c x : Nat) (p : Bytes) (s : State) : (raise c x p s).pins.coolOut = s.pins.coolOut := have h := congrArg (fun t : State => t.pins.coolOut) (raise_aside c x p s); h
@[simp] theorem raise_pins_tjMax (c x : Nat) (p : Bytes) (s : State) : (raise c x p s).pins.tjMax = s.pins.tjMax := have h := congrArg (fun t : State => t.pins.tjMax) (raise_aside c x p s); h
@[simp] theorem raise_pins_perst (c x : Nat) (p : Bytes) (s : State) : (raise c x p s).pins.perst = s.pins.perst := have h := congrArg (fun t : State => t.pins.perst) (raise_aside c x p s); h
@[simp] theorem raise_pins_refclk (c x : Nat) (p : Bytes) (s : State) : (raise c x p s).pins.refclk = s.pins.refclk := have h := congrArg (fun t : State => t.pins.refclk) (raise_aside c x p s); h
@[simp] theorem raise_pins_thermtrip (c x : Nat) (p : Bytes) (s : State) : (raise c x p s).pins.thermtrip = s.pins.thermtrip := have h := congrArg (fun t : State => t.pins.thermtrip) (raise_aside c x p s); h
@[simp] theorem raise_pins_pwrGood (c x : Nat) (p : Bytes) (s : State) : (raise c x p s).pins.pwrGood = s.pins.pwrGood := have h := congrArg (fun t : State => t.pins.pwrGood) (raise_aside c x p s); h
@[simp] theorem raise_pins_ppsOutSecs (c x : Nat) (p : Bytes) (s : State) : (raise c x p s).pins.ppsOutSecs = s.pins.ppsOutSecs := have h := congrArg (fun t : State => t.pins.ppsOutSecs) (raise_aside c x p s); h
@[simp] theorem raise_pins_bellPulses (c x : Nat) (p : Bytes) (s : State) : (raise c x p s).pins.bellPulses = s.pins.bellPulses := have h := congrArg (fun t : State => t.pins.bellPulses) (raise_aside c x p s); h
@[simp] theorem raise_pins_pinsDriven (c x : Nat) (p : Bytes) (s : State) : (raise c x p s).pins.pinsDriven = s.pins.pinsDriven := have h := congrArg (fun t : State => t.pins.pinsDriven) (raise_aside c x p s); h
@[simp] theorem raise_pwr_aon (c x : Nat) (p : Bytes) (s : State) : (raise c x p s).pwr.aon = s.pwr.aon := have h := congrArg (fun t : State => t.pwr.aon) (raise_aside c x p s); h
@[simp] theorem raise_pwr_ps (c x : Nat) (p : Bytes) (s : State) : (raise c x p s).pwr.ps = s.pwr.ps := have h := congrArg (fun t : State => t.pwr.ps) (raise_aside c x p s); h
@[simp] theorem raise_pwr_holdUp (c x : Nat) (p : Bytes) (s : State) : (raise c x p s).pwr.holdUp = s.pwr.holdUp := have h := congrArg (fun t : State => t.pwr.holdUp) (raise_aside c x p s); h
@[simp] theorem raise_pwr_target (c x : Nat) (p : Bytes) (s : State) : (raise c x p s).pwr.target = s.pwr.target := have h := congrArg (fun t : State => t.pwr.target) (raise_aside c x p s); h
@[simp] theorem raise_pwr_targetPkt (c x : Nat) (p : Bytes) (s : State) : (raise c x p s).pwr.targetPkt = s.pwr.targetPkt := have h := congrArg (fun t : State => t.pwr.targetPkt) (raise_aside c x p s); h
@[simp] theorem raise_pwr_sag (c x : Nat) (p : Bytes) (s : State) : (raise c x p s).pwr.sag = s.pwr.sag := have h := congrArg (fun t : State => t.pwr.sag) (raise_aside c x p s); h
@[simp] theorem raise_pwr_nvInhibit (c x : Nat) (p : Bytes) (s : State) : (raise c x p s).pwr.nvInhibit = s.pwr.nvInhibit := have h := congrArg (fun t : State => t.pwr.nvInhibit) (raise_aside c x p s); h
@[simp] theorem raise_pwr_failCause (c x : Nat) (p : Bytes) (s : State) : (raise c x p s).pwr.failCause = s.pwr.failCause := have h := congrArg (fun t : State => t.pwr.failCause) (raise_aside c x p s); h
@[simp] theorem raise_pwr_failSeen (c x : Nat) (p : Bytes) (s : State) : (raise c x p s).pwr.failSeen = s.pwr.failSeen := have h := congrArg (fun t : State => t.pwr.failSeen) (raise_aside c x p s); h
@[simp] theorem raise_pwr_intOsc (c x : Nat) (p : Bytes) (s : State) : (raise c x p s).pwr.intOsc = s.pwr.intOsc := have h := congrArg (fun t : State => t.pwr.intOsc) (raise_aside c x p s); h
@[simp] theorem raise_pwr_throttle (c x : Nat) (p : Bytes) (s : State) : (raise c x p s).pwr.throttle = s.pwr.throttle := have h := congrArg (fun t : State => t.pwr.throttle) (raise_aside c x p s); h
@[simp] theorem raise_pwr_throttleWhy (c x : Nat) (p : Bytes) (s : State) : (raise c x p s).pwr.throttleWhy = s.pwr.throttleWhy := have h := congrArg (fun t : State => t.pwr.throttleWhy) (raise_aside c x p s); h
@[simp] theorem raise_pwr_throttleDie (c x : Nat) (p : Bytes) (s : State) : (raise c x p s).pwr.throttleDie = s.pwr.throttleDie := have h := congrArg (fun t : State => t.pwr.throttleDie) (raise_aside c x p s); h
@[simp] theorem raise_pwr_coreOff (c x : Nat) (p : Bytes) (s : State) : (raise c x p s).pwr.coreOff = s.pwr.coreOff := have h := congrArg (fun t : State => t.pwr.coreOff) (raise_aside c x p s); h
@[simp] theorem raise_pwr_capW (c x : Nat) (p : Bytes) (s : State) : (raise c x p s).pwr.capW = s.pwr.capW := have h := congrArg (fun t : State => t.pwr.capW) (raise_aside c x p s); h
@[simp] theorem raise_pwr_capA (c x : Nat) (p : Bytes) (s : State) : (raise c x p s).pwr.capA = s.pwr.capA := have h := congrArg (fun t : State => t.pwr.capA) (raise_aside c x p s); h
@[simp] theorem raise_pwr_nvCapW (c x : Nat) (p : Bytes) (s : State) : (raise c x p s).pwr.nvCapW = s.pwr.nvCapW := have h := congrArg (fun t : State => t.pwr.nvCapW) (raise_aside c x p s); h
@[simp] theorem raise_pwr_nvCapA (c x : Nat) (p : Bytes) (s : State) : (raise c x p s).pwr.nvCapA = s.pwr.nvCapA := have h := congrArg (fun t : State => t.pwr.nvCapA) (raise_aside c x p s); h
@[simp] theorem raise_pwr_oppOff (c x : Nat) (p : Bytes) (s : State) : (raise c x p s).pwr.oppOff = s.pwr.oppOff := have h := congrArg (fun t : State => t.pwr.oppOff) (raise_aside c x p s); h
@[simp] theorem raise_pwr_dieOut (c x : Nat) (p : Bytes) (s : State) : (raise c x p s).pwr.dieOut = s.pwr.dieOut := have h := congrArg (fun t : State => t.pwr.dieOut) (raise_aside c x p s); h
@[simp] theorem raise_pwr_stageMs (c x : Nat) (p : Bytes) (s : State) : (raise c x p s).pwr.stageMs = s.pwr.stageMs := have h := congrArg (fun t : State => t.pwr.stageMs) (raise_aside c x p s); h
@[simp] theorem raise_boot (c x : Nat) (p : Bytes) (s : State) : (raise c x p s).boot = s.boot := have h := congrArg (fun t : State => t.boot) (raise_aside c x p s); h
@[simp] theorem raise_ident (c x : Nat) (p : Bytes) (s : State) : (raise c x p s).ident = s.ident := have h := congrArg (fun t : State => t.ident) (raise_aside c x p s); h
@[simp] theorem raise_prof (c x : Nat) (p : Bytes) (s : State) : (raise c x p s).prof = s.prof := have h := congrArg (fun t : State => t.prof) (raise_aside c x p s); h
@[simp] theorem raise_hi_pcieUp (c x : Nat) (p : Bytes) (s : State) : (raise c x p s).hi.pcieUp = s.hi.pcieUp := have h := congrArg (fun t : State => t.hi.pcieUp) (raise_aside c x p s); h
@[simp] theorem raise_hi_apLines (c x : Nat) (p : Bytes) (s : State) : (raise c x p s).hi.apLines = s.hi.apLines := have h := congrArg (fun t : State => t.hi.apLines) (raise_aside c x p s); h
@[simp] theorem raise_hi_expectSeq (c x : Nat) (p : Bytes) (s : State) : (raise c x p s).hi.expectSeq = s.hi.expectSeq := have h := congrArg (fun t : State => t.hi.expectSeq) (raise_aside c x p s); h
@[simp] theorem raise_hi_halt (c x : Nat) (p : Bytes) (s : State) : (raise c x p s).hi.halt = s.hi.halt := have h := congrArg (fun t : State => t.hi.halt) (raise_aside c x p s); h
@[simp] theorem raise_hi_consume (c x : Nat) (p : Bytes) (s : State) : (raise c x p s).hi.consume = s.hi.consume := have h := congrArg (fun t : State => t.hi.consume) (raise_aside c x p s); h
@[simp] theorem raise_hi_free (c x : Nat) (p : Bytes) (s : State) : (raise c x p s).hi.free = s.hi.free := have h := congrArg (fun t : State => t.hi.free) (raise_aside c x p s); h
@[simp] theorem raise_hi_credit (c x : Nat) (p : Bytes) (s : State) : (raise c x p s).hi.credit = s.hi.credit := have h := congrArg (fun t : State => t.hi.credit) (raise_aside c x p s); h
@[simp] theorem raise_hi_ringBase (c x : Nat) (p : Bytes) (s : State) : (raise c x p s).hi.ringBase = s.hi.ringBase := have h := congrArg (fun t : State => t.hi.ringBase) (raise_aside c x p s); h
@[simp] theorem raise_hi_ringEn (c x : Nat) (p : Bytes) (s : State) : (raise c x p s).hi.ringEn = s.hi.ringEn := have h := congrArg (fun t : State => t.hi.ringEn) (raise_aside c x p s); h
@[simp] theorem raise_hi_ringSize (c x : Nat) (p : Bytes) (s : State) : (raise c x p s).hi.ringSize = s.hi.ringSize := have h := congrArg (fun t : State => t.hi.ringSize) (raise_aside c x p s); h
@[simp] theorem raise_hi_prod (c x : Nat) (p : Bytes) (s : State) : (raise c x p s).hi.prod = s.hi.prod := have h := congrArg (fun t : State => t.hi.prod) (raise_aside c x p s); h
@[simp] theorem raise_hi_cons (c x : Nat) (p : Bytes) (s : State) : (raise c x p s).hi.cons = s.hi.cons := have h := congrArg (fun t : State => t.hi.cons) (raise_aside c x p s); h
@[simp] theorem raise_hi_phase (c x : Nat) (p : Bytes) (s : State) : (raise c x p s).hi.phase = s.hi.phase := have h := congrArg (fun t : State => t.hi.phase) (raise_aside c x p s); h
@[simp] theorem raise_hi_irqTime (c x : Nat) (p : Bytes) (s : State) : (raise c x p s).hi.irqTime = s.hi.irqTime := have h := congrArg (fun t : State => t.hi.irqTime) (raise_aside c x p s); h
@[simp] theorem raise_hi_irqCount (c x : Nat) (p : Bytes) (s : State) : (raise c x p s).hi.irqCount = s.hi.irqCount := have h := congrArg (fun t : State => t.hi.irqCount) (raise_aside c x p s); h
@[simp] theorem raise_hi_dropped (c x : Nat) (p : Bytes) (s : State) : (raise c x p s).hi.dropped = s.hi.dropped := have h := congrArg (fun t : State => t.hi.dropped) (raise_aside c x p s); h
@[simp] theorem raise_hi_urgent (c x : Nat) (p : Bytes) (s : State) : (raise c x p s).hi.urgent = s.hi.urgent := have h := congrArg (fun t : State => t.hi.urgent) (raise_aside c x p s); h
@[simp] theorem raise_hi_push (c x : Nat) (p : Bytes) (s : State) : (raise c x p s).hi.push = s.hi.push := have h := congrArg (fun t : State => t.hi.push) (raise_aside c x p s); h
@[simp] theorem raise_hi_latchRemain (c x : Nat) (p : Bytes) (s : State) : (raise c x p s).hi.latchRemain = s.hi.latchRemain := have h := congrArg (fun t : State => t.hi.latchRemain) (raise_aside c x p s); h
@[simp] theorem raise_hi_latchGroups (c x : Nat) (p : Bytes) (s : State) : (raise c x p s).hi.latchGroups = s.hi.latchGroups := have h := congrArg (fun t : State => t.hi.latchGroups) (raise_aside c x p s); h
@[simp] theorem raise_hi_bar2Win (c x : Nat) (p : Bytes) (s : State) : (raise c x p s).hi.bar2Win = s.hi.bar2Win := have h := congrArg (fun t : State => t.hi.bar2Win) (raise_aside c x p s); h
@[simp] theorem raise_hi_msix (c x : Nat) (p : Bytes) (s : State) : (raise c x p s).hi.msix = s.hi.msix := have h := congrArg (fun t : State => t.hi.msix) (raise_aside c x p s); h
@[simp] theorem raise_hi_pba (c x : Nat) (p : Bytes) (s : State) : (raise c x p s).hi.pba = s.hi.pba := have h := congrArg (fun t : State => t.hi.pba) (raise_aside c x p s); h
@[simp] theorem raise_hi_held (c x : Nat) (p : Bytes) (s : State) : (raise c x p s).hi.held = s.hi.held := have h := congrArg (fun t : State => t.hi.held) (raise_aside c x p s); h
@[simp] theorem raise_hi_replies (c x : Nat) (p : Bytes) (s : State) : (raise c x p s).hi.replies = s.hi.replies := have h := congrArg (fun t : State => t.hi.replies) (raise_aside c x p s); h
@[simp] theorem raise_hi_unsig (c x : Nat) (p : Bytes) (s : State) : (raise c x p s).hi.unsig = s.hi.unsig := have h := congrArg (fun t : State => t.hi.unsig) (raise_aside c x p s); h
@[simp] theorem raise_hi_fullRaised (c x : Nat) (p : Bytes) (s : State) : (raise c x p s).hi.fullRaised = s.hi.fullRaised := have h := congrArg (fun t : State => t.hi.fullRaised) (raise_aside c x p s); h
@[simp] theorem raise_hi_lists (c x : Nat) (p : Bytes) (s : State) : (raise c x p s).hi.lists = s.hi.lists := have h := congrArg (fun t : State => t.hi.lists) (raise_aside c x p s); h
@[simp] theorem raise_hi_ftLatch (c x : Nat) (p : Bytes) (s : State) : (raise c x p s).hi.ftLatch = s.hi.ftLatch := have h := congrArg (fun t : State => t.hi.ftLatch) (raise_aside c x p s); h
@[simp] theorem raise_hi_ftLatched (c x : Nat) (p : Bytes) (s : State) : (raise c x p s).hi.ftLatched = s.hi.ftLatched := have h := congrArg (fun t : State => t.hi.ftLatched) (raise_aside c x p s); h
@[simp] theorem raise_hi_ppsLatch (c x : Nat) (p : Bytes) (s : State) : (raise c x p s).hi.ppsLatch = s.hi.ppsLatch := have h := congrArg (fun t : State => t.hi.ppsLatch) (raise_aside c x p s); h
@[simp] theorem raise_hi_ppsLatched (c x : Nat) (p : Bytes) (s : State) : (raise c x p s).hi.ppsLatched = s.hi.ppsLatched := have h := congrArg (fun t : State => t.hi.ppsLatched) (raise_aside c x p s); h
@[simp] theorem raise_hi_nonce (c x : Nat) (p : Bytes) (s : State) : (raise c x p s).hi.nonce = s.hi.nonce := have h := congrArg (fun t : State => t.hi.nonce) (raise_aside c x p s); h
@[simp] theorem raise_hi_nonceAt (c x : Nat) (p : Bytes) (s : State) : (raise c x p s).hi.nonceAt = s.hi.nonceAt := have h := congrArg (fun t : State => t.hi.nonceAt) (raise_aside c x p s); h
@[simp] theorem raise_hi_nonceCtr (c x : Nat) (p : Bytes) (s : State) : (raise c x p s).hi.nonceCtr = s.hi.nonceCtr := have h := congrArg (fun t : State => t.hi.nonceCtr) (raise_aside c x p s); h
@[simp] theorem raise_hi_hostPort (c x : Nat) (p : Bytes) (s : State) : (raise c x p s).hi.hostPort = s.hi.hostPort := have h := congrArg (fun t : State => t.hi.hostPort) (raise_aside c x p s); h
@[simp] theorem raise_hi_heldWrites (c x : Nat) (p : Bytes) (s : State) : (raise c x p s).hi.heldWrites = s.hi.heldWrites := have h := congrArg (fun t : State => t.hi.heldWrites) (raise_aside c x p s); h
@[simp] theorem raise_life_powerOnS (c x : Nat) (p : Bytes) (s : State) : (raise c x p s).life.powerOnS = s.life.powerOnS := have h := congrArg (fun t : State => t.life.powerOnS) (raise_aside c x p s); h
@[simp] theorem raise_life_runningS (c x : Nat) (p : Bytes) (s : State) : (raise c x p s).life.runningS = s.life.runningS := have h := congrArg (fun t : State => t.life.runningS) (raise_aside c x p s); h
@[simp] theorem raise_life_coldStarts (c x : Nat) (p : Bytes) (s : State) : (raise c x p s).life.coldStarts = s.life.coldStarts := have h := congrArg (fun t : State => t.life.coldStarts) (raise_aside c x p s); h
@[simp] theorem raise_life_warmStarts (c x : Nat) (p : Bytes) (s : State) : (raise c x p s).life.warmStarts = s.life.warmStarts := have h := congrArg (fun t : State => t.life.warmStarts) (raise_aside c x p s); h
@[simp] theorem raise_life_safeMode (c x : Nat) (p : Bytes) (s : State) : (raise c x p s).life.safeMode = s.life.safeMode := have h := congrArg (fun t : State => t.life.safeMode) (raise_aside c x p s); h
@[simp] theorem raise_life_pfxSwitch (c x : Nat) (p : Bytes) (s : State) : (raise c x p s).life.pfxSwitch = s.life.pfxSwitch := have h := congrArg (fun t : State => t.life.pfxSwitch) (raise_aside c x p s); h
@[simp] theorem raise_life_thermal (c x : Nat) (p : Bytes) (s : State) : (raise c x p s).life.thermal = s.life.thermal := have h := congrArg (fun t : State => t.life.thermal) (raise_aside c x p s); h
@[simp] theorem raise_life_trough (c x : Nat) (p : Bytes) (s : State) : (raise c x p s).life.trough = s.life.trough := have h := congrArg (fun t : State => t.life.trough) (raise_aside c x p s); h
@[simp] theorem raise_life_peak (c x : Nat) (p : Bytes) (s : State) : (raise c x p s).life.peak = s.life.peak := have h := congrArg (fun t : State => t.life.peak) (raise_aside c x p s); h
@[simp] theorem raise_life_heaterTotal (c x : Nat) (p : Bytes) (s : State) : (raise c x p s).life.heaterTotal = s.life.heaterTotal := have h := congrArg (fun t : State => t.life.heaterTotal) (raise_aside c x p s); h
@[simp] theorem raise_life_combS (c x : Nat) (p : Bytes) (s : State) : (raise c x p s).life.combS = s.life.combS := have h := congrArg (fun t : State => t.life.combS) (raise_aside c x p s); h
@[simp] theorem raise_life_combUah (c x : Nat) (p : Bytes) (s : State) : (raise c x p s).life.combUah = s.life.combUah := have h := congrArg (fun t : State => t.life.combUah) (raise_aside c x p s); h
@[simp] theorem raise_life_combEol (c x : Nat) (p : Bytes) (s : State) : (raise c x p s).life.combEol = s.life.combEol := have h := congrArg (fun t : State => t.life.combEol) (raise_aside c x p s); h
@[simp] theorem raise_life_combRef (c x : Nat) (p : Bytes) (s : State) : (raise c x p s).life.combRef = s.life.combRef := have h := congrArg (fun t : State => t.life.combRef) (raise_aside c x p s); h
@[simp] theorem raise_life_combHist (c x : Nat) (p : Bytes) (s : State) : (raise c x p s).life.combHist = s.life.combHist := have h := congrArg (fun t : State => t.life.combHist) (raise_aside c x p s); h
@[simp] theorem raise_life_eccCor (c x : Nat) (p : Bytes) (s : State) : (raise c x p s).life.eccCor = s.life.eccCor := have h := congrArg (fun t : State => t.life.eccCor) (raise_aside c x p s); h
@[simp] theorem raise_life_eccUnc (c x : Nat) (p : Bytes) (s : State) : (raise c x p s).life.eccUnc = s.life.eccUnc := have h := congrArg (fun t : State => t.life.eccUnc) (raise_aside c x p s); h
@[simp] theorem raise_life_pinCor (c x : Nat) (p : Bytes) (s : State) : (raise c x p s).life.pinCor = s.life.pinCor := have h := congrArg (fun t : State => t.life.pinCor) (raise_aside c x p s); h
@[simp] theorem raise_life_cal (c x : Nat) (p : Bytes) (s : State) : (raise c x p s).life.cal = s.life.cal := have h := congrArg (fun t : State => t.life.cal) (raise_aside c x p s); h
@[simp] theorem raise_life_calFrac (c x : Nat) (p : Bytes) (s : State) : (raise c x p s).life.calFrac = s.life.calFrac := have h := congrArg (fun t : State => t.life.calFrac) (raise_aside c x p s); h
@[simp] theorem raise_life_calNotSet (c x : Nat) (p : Bytes) (s : State) : (raise c x p s).life.calNotSet = s.life.calNotSet := have h := congrArg (fun t : State => t.life.calNotSet) (raise_aside c x p s); h
@[simp] theorem raise_life_calStored (c x : Nat) (p : Bytes) (s : State) : (raise c x p s).life.calStored = s.life.calStored := have h := congrArg (fun t : State => t.life.calStored) (raise_aside c x p s); h
@[simp] theorem raise_life_stores (c x : Nat) (p : Bytes) (s : State) : (raise c x p s).life.stores = s.life.stores := have h := congrArg (fun t : State => t.life.stores) (raise_aside c x p s); h
@[simp] theorem raise_life_ticks (c x : Nat) (p : Bytes) (s : State) : (raise c x p s).life.ticks = s.life.ticks := have h := congrArg (fun t : State => t.life.ticks) (raise_aside c x p s); h
@[simp] theorem raise_life_combUas (c x : Nat) (p : Bytes) (s : State) : (raise c x p s).life.combUas = s.life.combUas := have h := congrArg (fun t : State => t.life.combUas) (raise_aside c x p s); h
@[simp] theorem raise_sec (c x : Nat) (p : Bytes) (s : State) : (raise c x p s).sec = s.sec := have h := congrArg (fun t : State => t.sec) (raise_aside c x p s); h
@[simp] theorem raise_job (c x : Nat) (p : Bytes) (s : State) : (raise c x p s).job = s.job := have h := congrArg (fun t : State => t.job) (raise_aside c x p s); h
@[simp] theorem raise_stn (c x : Nat) (p : Bytes) (s : State) : (raise c x p s).stn = s.stn := have h := congrArg (fun t : State => t.stn) (raise_aside c x p s); h
@[simp] theorem raise_strm (c x : Nat) (p : Bytes) (s : State) : (raise c x p s).strm = s.strm := have h := congrArg (fun t : State => t.strm) (raise_aside c x p s); h
@[simp] theorem raise_sync (c x : Nat) (p : Bytes) (s : State) : (raise c x p s).sync = s.sync := have h := congrArg (fun t : State => t.sync) (raise_aside c x p s); h
@[simp] theorem raise_mem (c x : Nat) (p : Bytes) (s : State) : (raise c x p s).mem = s.mem := have h := congrArg (fun t : State => t.mem) (raise_aside c x p s); h
@[simp] theorem raise_ts (c x : Nat) (p : Bytes) (s : State) : (raise c x p s).ts = s.ts := have h := congrArg (fun t : State => t.ts) (raise_aside c x p s); h
@[simp] theorem raise_opt (c x : Nat) (p : Bytes) (s : State) : (raise c x p s).opt = s.opt := have h := congrArg (fun t : State => t.opt) (raise_aside c x p s); h
@[simp] theorem raise_sw (c x : Nat) (p : Bytes) (s : State) : (raise c x p s).sw = s.sw := have h := congrArg (fun t : State => t.sw) (raise_aside c x p s); h
@[simp] theorem raise_tm (c x : Nat) (p : Bytes) (s : State) : (raise c x p s).tm = s.tm := have h := congrArg (fun t : State => t.tm) (raise_aside c x p s); h
@[simp] theorem raise_bells (c x : Nat) (p : Bytes) (s : State) : (raise c x p s).bells = s.bells := have h := congrArg (fun t : State => t.bells) (raise_aside c x p s); h
@[simp] theorem raise_ce (c x : Nat) (p : Bytes) (s : State) : (raise c x p s).ce = s.ce := have h := congrArg (fun t : State => t.ce) (raise_aside c x p s); h
@[simp] theorem raise_cal (c x : Nat) (p : Bytes) (s : State) : (raise c x p s).cal = s.cal := have h := congrArg (fun t : State => t.cal) (raise_aside c x p s); h
@[simp] theorem raise_pfx (c x : Nat) (p : Bytes) (s : State) : (raise c x p s).pfx = s.pfx := have h := congrArg (fun t : State => t.pfx) (raise_aside c x p s); h
@[simp] theorem raise_net (c x : Nat) (p : Bytes) (s : State) : (raise c x p s).net = s.net := have h := congrArg (fun t : State => t.net) (raise_aside c x p s); h
@[simp] theorem raise_nvw_cmds (c x : Nat) (p : Bytes) (s : State) : (raise c x p s).nvw.cmds = s.nvw.cmds := have h := congrArg (fun t : State => t.nvw.cmds) (raise_aside c x p s); h
@[simp] theorem raise_nvw_setCap (c x : Nat) (p : Bytes) (s : State) : (raise c x p s).nvw.setCap = s.nvw.setCap := have h := congrArg (fun t : State => t.nvw.setCap) (raise_aside c x p s); h
@[simp] theorem raise_nvw_setPfx (c x : Nat) (p : Bytes) (s : State) : (raise c x p s).nvw.setPfx = s.nvw.setPfx := have h := congrArg (fun t : State => t.nvw.setPfx) (raise_aside c x p s); h
@[simp] theorem raise_nvw_setRate (c x : Nat) (p : Bytes) (s : State) : (raise c x p s).nvw.setRate = s.nvw.setRate := have h := congrArg (fun t : State => t.nvw.setRate) (raise_aside c x p s); h
@[simp] theorem raise_nvw_setId (c x : Nat) (p : Bytes) (s : State) : (raise c x p s).nvw.setId = s.nvw.setId := have h := congrArg (fun t : State => t.nvw.setId) (raise_aside c x p s); h
@[simp] theorem raise_nvw_lifetime (c x : Nat) (p : Bytes) (s : State) : (raise c x p s).nvw.lifetime = s.nvw.lifetime := have h := congrArg (fun t : State => t.nvw.lifetime) (raise_aside c x p s); h
@[simp] theorem raise_nvw_train (c x : Nat) (p : Bytes) (s : State) : (raise c x p s).nvw.train = s.nvw.train := have h := congrArg (fun t : State => t.nvw.train) (raise_aside c x p s); h
@[simp] theorem raise_nvs (c x : Nat) (p : Bytes) (s : State) : (raise c x p s).nvs = s.nvs := have h := congrArg (fun t : State => t.nvs) (raise_aside c x p s); h
@[simp] theorem mramWrite_pending (k i : Nat) (s : State) : (mramWrite k i s).pending = s.pending := have h := congrArg (fun t : State => t.pending) (mramWrite_aside k i s); h
@[simp] theorem mramWrite_sc (k i : Nat) (s : State) : (mramWrite k i s).sc = s.sc := have h := congrArg (fun t : State => t.sc) (mramWrite_aside k i s); h
@[simp] theorem mramWrite_free (k i : Nat) (s : State) : (mramWrite k i s).free = s.free := have h := congrArg (fun t : State => t.free) (mramWrite_aside k i s); h
@[simp] theorem mramWrite_out (k i : Nat) (s : State) : (mramWrite k i s).out = s.out := have h := congrArg (fun t : State => t.out) (mramWrite_aside k i s); h
@[simp] theorem mramWrite_pins_vin (k i : Nat) (s : State) : (mramWrite k i s).pins.vin = s.pins.vin := have h := congrArg (fun t : State => t.pins.vin) (mramWrite_aside k i s); h
@[simp] theorem mramWrite_pins_iin (k i : Nat) (s : State) : (mramWrite k i s).pins.iin = s.pins.iin := have h := congrArg (fun t : State => t.pins.iin) (mramWrite_aside k i s); h
@[simp] theorem mramWrite_pins_coolIn (k i : Nat) (s : State) : (mramWrite k i s).pins.coolIn = s.pins.coolIn := have h := congrArg (fun t : State => t.pins.coolIn) (mramWrite_aside k i s); h
@[simp] theorem mramWrite_pins_coolOut (k i : Nat) (s : State) : (mramWrite k i s).pins.coolOut = s.pins.coolOut := have h := congrArg (fun t : State => t.pins.coolOut) (mramWrite_aside k i s); h
@[simp] theorem mramWrite_pins_tjMax (k i : Nat) (s : State) : (mramWrite k i s).pins.tjMax = s.pins.tjMax := have h := congrArg (fun t : State => t.pins.tjMax) (mramWrite_aside k i s); h
@[simp] theorem mramWrite_pins_perst (k i : Nat) (s : State) : (mramWrite k i s).pins.perst = s.pins.perst := have h := congrArg (fun t : State => t.pins.perst) (mramWrite_aside k i s); h
@[simp] theorem mramWrite_pins_refclk (k i : Nat) (s : State) : (mramWrite k i s).pins.refclk = s.pins.refclk := have h := congrArg (fun t : State => t.pins.refclk) (mramWrite_aside k i s); h
@[simp] theorem mramWrite_pins_thermtrip (k i : Nat) (s : State) : (mramWrite k i s).pins.thermtrip = s.pins.thermtrip := have h := congrArg (fun t : State => t.pins.thermtrip) (mramWrite_aside k i s); h
@[simp] theorem mramWrite_pins_pwrGood (k i : Nat) (s : State) : (mramWrite k i s).pins.pwrGood = s.pins.pwrGood := have h := congrArg (fun t : State => t.pins.pwrGood) (mramWrite_aside k i s); h
@[simp] theorem mramWrite_pins_ppsOutSecs (k i : Nat) (s : State) : (mramWrite k i s).pins.ppsOutSecs = s.pins.ppsOutSecs := have h := congrArg (fun t : State => t.pins.ppsOutSecs) (mramWrite_aside k i s); h
@[simp] theorem mramWrite_pins_bellPulses (k i : Nat) (s : State) : (mramWrite k i s).pins.bellPulses = s.pins.bellPulses := have h := congrArg (fun t : State => t.pins.bellPulses) (mramWrite_aside k i s); h
@[simp] theorem mramWrite_pins_pinsDriven (k i : Nat) (s : State) : (mramWrite k i s).pins.pinsDriven = s.pins.pinsDriven := have h := congrArg (fun t : State => t.pins.pinsDriven) (mramWrite_aside k i s); h
@[simp] theorem mramWrite_pwr_aon (k i : Nat) (s : State) : (mramWrite k i s).pwr.aon = s.pwr.aon := have h := congrArg (fun t : State => t.pwr.aon) (mramWrite_aside k i s); h
@[simp] theorem mramWrite_pwr_ps (k i : Nat) (s : State) : (mramWrite k i s).pwr.ps = s.pwr.ps := have h := congrArg (fun t : State => t.pwr.ps) (mramWrite_aside k i s); h
@[simp] theorem mramWrite_pwr_holdUp (k i : Nat) (s : State) : (mramWrite k i s).pwr.holdUp = s.pwr.holdUp := have h := congrArg (fun t : State => t.pwr.holdUp) (mramWrite_aside k i s); h
@[simp] theorem mramWrite_pwr_target (k i : Nat) (s : State) : (mramWrite k i s).pwr.target = s.pwr.target := have h := congrArg (fun t : State => t.pwr.target) (mramWrite_aside k i s); h
@[simp] theorem mramWrite_pwr_targetPkt (k i : Nat) (s : State) : (mramWrite k i s).pwr.targetPkt = s.pwr.targetPkt := have h := congrArg (fun t : State => t.pwr.targetPkt) (mramWrite_aside k i s); h
@[simp] theorem mramWrite_pwr_sag (k i : Nat) (s : State) : (mramWrite k i s).pwr.sag = s.pwr.sag := have h := congrArg (fun t : State => t.pwr.sag) (mramWrite_aside k i s); h
@[simp] theorem mramWrite_pwr_nvInhibit (k i : Nat) (s : State) : (mramWrite k i s).pwr.nvInhibit = s.pwr.nvInhibit := have h := congrArg (fun t : State => t.pwr.nvInhibit) (mramWrite_aside k i s); h
@[simp] theorem mramWrite_pwr_failCause (k i : Nat) (s : State) : (mramWrite k i s).pwr.failCause = s.pwr.failCause := have h := congrArg (fun t : State => t.pwr.failCause) (mramWrite_aside k i s); h
@[simp] theorem mramWrite_pwr_failSeen (k i : Nat) (s : State) : (mramWrite k i s).pwr.failSeen = s.pwr.failSeen := have h := congrArg (fun t : State => t.pwr.failSeen) (mramWrite_aside k i s); h
@[simp] theorem mramWrite_pwr_intOsc (k i : Nat) (s : State) : (mramWrite k i s).pwr.intOsc = s.pwr.intOsc := have h := congrArg (fun t : State => t.pwr.intOsc) (mramWrite_aside k i s); h
@[simp] theorem mramWrite_pwr_throttle (k i : Nat) (s : State) : (mramWrite k i s).pwr.throttle = s.pwr.throttle := have h := congrArg (fun t : State => t.pwr.throttle) (mramWrite_aside k i s); h
@[simp] theorem mramWrite_pwr_throttleWhy (k i : Nat) (s : State) : (mramWrite k i s).pwr.throttleWhy = s.pwr.throttleWhy := have h := congrArg (fun t : State => t.pwr.throttleWhy) (mramWrite_aside k i s); h
@[simp] theorem mramWrite_pwr_throttleDie (k i : Nat) (s : State) : (mramWrite k i s).pwr.throttleDie = s.pwr.throttleDie := have h := congrArg (fun t : State => t.pwr.throttleDie) (mramWrite_aside k i s); h
@[simp] theorem mramWrite_pwr_coreOff (k i : Nat) (s : State) : (mramWrite k i s).pwr.coreOff = s.pwr.coreOff := have h := congrArg (fun t : State => t.pwr.coreOff) (mramWrite_aside k i s); h
@[simp] theorem mramWrite_pwr_capW (k i : Nat) (s : State) : (mramWrite k i s).pwr.capW = s.pwr.capW := have h := congrArg (fun t : State => t.pwr.capW) (mramWrite_aside k i s); h
@[simp] theorem mramWrite_pwr_capA (k i : Nat) (s : State) : (mramWrite k i s).pwr.capA = s.pwr.capA := have h := congrArg (fun t : State => t.pwr.capA) (mramWrite_aside k i s); h
@[simp] theorem mramWrite_pwr_nvCapW (k i : Nat) (s : State) : (mramWrite k i s).pwr.nvCapW = s.pwr.nvCapW := have h := congrArg (fun t : State => t.pwr.nvCapW) (mramWrite_aside k i s); h
@[simp] theorem mramWrite_pwr_nvCapA (k i : Nat) (s : State) : (mramWrite k i s).pwr.nvCapA = s.pwr.nvCapA := have h := congrArg (fun t : State => t.pwr.nvCapA) (mramWrite_aside k i s); h
@[simp] theorem mramWrite_pwr_oppOff (k i : Nat) (s : State) : (mramWrite k i s).pwr.oppOff = s.pwr.oppOff := have h := congrArg (fun t : State => t.pwr.oppOff) (mramWrite_aside k i s); h
@[simp] theorem mramWrite_pwr_dieOut (k i : Nat) (s : State) : (mramWrite k i s).pwr.dieOut = s.pwr.dieOut := have h := congrArg (fun t : State => t.pwr.dieOut) (mramWrite_aside k i s); h
@[simp] theorem mramWrite_pwr_stageMs (k i : Nat) (s : State) : (mramWrite k i s).pwr.stageMs = s.pwr.stageMs := have h := congrArg (fun t : State => t.pwr.stageMs) (mramWrite_aside k i s); h
@[simp] theorem mramWrite_boot (k i : Nat) (s : State) : (mramWrite k i s).boot = s.boot := have h := congrArg (fun t : State => t.boot) (mramWrite_aside k i s); h
@[simp] theorem mramWrite_ident (k i : Nat) (s : State) : (mramWrite k i s).ident = s.ident := have h := congrArg (fun t : State => t.ident) (mramWrite_aside k i s); h
@[simp] theorem mramWrite_prof (k i : Nat) (s : State) : (mramWrite k i s).prof = s.prof := have h := congrArg (fun t : State => t.prof) (mramWrite_aside k i s); h
@[simp] theorem mramWrite_hi_pcieUp (k i : Nat) (s : State) : (mramWrite k i s).hi.pcieUp = s.hi.pcieUp := have h := congrArg (fun t : State => t.hi.pcieUp) (mramWrite_aside k i s); h
@[simp] theorem mramWrite_hi_apLines (k i : Nat) (s : State) : (mramWrite k i s).hi.apLines = s.hi.apLines := have h := congrArg (fun t : State => t.hi.apLines) (mramWrite_aside k i s); h
@[simp] theorem mramWrite_hi_expectSeq (k i : Nat) (s : State) : (mramWrite k i s).hi.expectSeq = s.hi.expectSeq := have h := congrArg (fun t : State => t.hi.expectSeq) (mramWrite_aside k i s); h
@[simp] theorem mramWrite_hi_halt (k i : Nat) (s : State) : (mramWrite k i s).hi.halt = s.hi.halt := have h := congrArg (fun t : State => t.hi.halt) (mramWrite_aside k i s); h
@[simp] theorem mramWrite_hi_consume (k i : Nat) (s : State) : (mramWrite k i s).hi.consume = s.hi.consume := have h := congrArg (fun t : State => t.hi.consume) (mramWrite_aside k i s); h
@[simp] theorem mramWrite_hi_free (k i : Nat) (s : State) : (mramWrite k i s).hi.free = s.hi.free := have h := congrArg (fun t : State => t.hi.free) (mramWrite_aside k i s); h
@[simp] theorem mramWrite_hi_credit (k i : Nat) (s : State) : (mramWrite k i s).hi.credit = s.hi.credit := have h := congrArg (fun t : State => t.hi.credit) (mramWrite_aside k i s); h
@[simp] theorem mramWrite_hi_ringBase (k i : Nat) (s : State) : (mramWrite k i s).hi.ringBase = s.hi.ringBase := have h := congrArg (fun t : State => t.hi.ringBase) (mramWrite_aside k i s); h
@[simp] theorem mramWrite_hi_ringEn (k i : Nat) (s : State) : (mramWrite k i s).hi.ringEn = s.hi.ringEn := have h := congrArg (fun t : State => t.hi.ringEn) (mramWrite_aside k i s); h
@[simp] theorem mramWrite_hi_ringSize (k i : Nat) (s : State) : (mramWrite k i s).hi.ringSize = s.hi.ringSize := have h := congrArg (fun t : State => t.hi.ringSize) (mramWrite_aside k i s); h
@[simp] theorem mramWrite_hi_prod (k i : Nat) (s : State) : (mramWrite k i s).hi.prod = s.hi.prod := have h := congrArg (fun t : State => t.hi.prod) (mramWrite_aside k i s); h
@[simp] theorem mramWrite_hi_cons (k i : Nat) (s : State) : (mramWrite k i s).hi.cons = s.hi.cons := have h := congrArg (fun t : State => t.hi.cons) (mramWrite_aside k i s); h
@[simp] theorem mramWrite_hi_phase (k i : Nat) (s : State) : (mramWrite k i s).hi.phase = s.hi.phase := have h := congrArg (fun t : State => t.hi.phase) (mramWrite_aside k i s); h
@[simp] theorem mramWrite_hi_irqTime (k i : Nat) (s : State) : (mramWrite k i s).hi.irqTime = s.hi.irqTime := have h := congrArg (fun t : State => t.hi.irqTime) (mramWrite_aside k i s); h
@[simp] theorem mramWrite_hi_irqCount (k i : Nat) (s : State) : (mramWrite k i s).hi.irqCount = s.hi.irqCount := have h := congrArg (fun t : State => t.hi.irqCount) (mramWrite_aside k i s); h
@[simp] theorem mramWrite_hi_dropped (k i : Nat) (s : State) : (mramWrite k i s).hi.dropped = s.hi.dropped := have h := congrArg (fun t : State => t.hi.dropped) (mramWrite_aside k i s); h
@[simp] theorem mramWrite_hi_urgent (k i : Nat) (s : State) : (mramWrite k i s).hi.urgent = s.hi.urgent := have h := congrArg (fun t : State => t.hi.urgent) (mramWrite_aside k i s); h
@[simp] theorem mramWrite_hi_push (k i : Nat) (s : State) : (mramWrite k i s).hi.push = s.hi.push := have h := congrArg (fun t : State => t.hi.push) (mramWrite_aside k i s); h
@[simp] theorem mramWrite_hi_latchRemain (k i : Nat) (s : State) : (mramWrite k i s).hi.latchRemain = s.hi.latchRemain := have h := congrArg (fun t : State => t.hi.latchRemain) (mramWrite_aside k i s); h
@[simp] theorem mramWrite_hi_latchGroups (k i : Nat) (s : State) : (mramWrite k i s).hi.latchGroups = s.hi.latchGroups := have h := congrArg (fun t : State => t.hi.latchGroups) (mramWrite_aside k i s); h
@[simp] theorem mramWrite_hi_bar2Win (k i : Nat) (s : State) : (mramWrite k i s).hi.bar2Win = s.hi.bar2Win := have h := congrArg (fun t : State => t.hi.bar2Win) (mramWrite_aside k i s); h
@[simp] theorem mramWrite_hi_msix (k i : Nat) (s : State) : (mramWrite k i s).hi.msix = s.hi.msix := have h := congrArg (fun t : State => t.hi.msix) (mramWrite_aside k i s); h
@[simp] theorem mramWrite_hi_pba (k i : Nat) (s : State) : (mramWrite k i s).hi.pba = s.hi.pba := have h := congrArg (fun t : State => t.hi.pba) (mramWrite_aside k i s); h
@[simp] theorem mramWrite_hi_held (k i : Nat) (s : State) : (mramWrite k i s).hi.held = s.hi.held := have h := congrArg (fun t : State => t.hi.held) (mramWrite_aside k i s); h
@[simp] theorem mramWrite_hi_replies (k i : Nat) (s : State) : (mramWrite k i s).hi.replies = s.hi.replies := have h := congrArg (fun t : State => t.hi.replies) (mramWrite_aside k i s); h
@[simp] theorem mramWrite_hi_unsig (k i : Nat) (s : State) : (mramWrite k i s).hi.unsig = s.hi.unsig := have h := congrArg (fun t : State => t.hi.unsig) (mramWrite_aside k i s); h
@[simp] theorem mramWrite_hi_fullRaised (k i : Nat) (s : State) : (mramWrite k i s).hi.fullRaised = s.hi.fullRaised := have h := congrArg (fun t : State => t.hi.fullRaised) (mramWrite_aside k i s); h
@[simp] theorem mramWrite_hi_lists (k i : Nat) (s : State) : (mramWrite k i s).hi.lists = s.hi.lists := have h := congrArg (fun t : State => t.hi.lists) (mramWrite_aside k i s); h
@[simp] theorem mramWrite_hi_ftLatch (k i : Nat) (s : State) : (mramWrite k i s).hi.ftLatch = s.hi.ftLatch := have h := congrArg (fun t : State => t.hi.ftLatch) (mramWrite_aside k i s); h
@[simp] theorem mramWrite_hi_ftLatched (k i : Nat) (s : State) : (mramWrite k i s).hi.ftLatched = s.hi.ftLatched := have h := congrArg (fun t : State => t.hi.ftLatched) (mramWrite_aside k i s); h
@[simp] theorem mramWrite_hi_ppsLatch (k i : Nat) (s : State) : (mramWrite k i s).hi.ppsLatch = s.hi.ppsLatch := have h := congrArg (fun t : State => t.hi.ppsLatch) (mramWrite_aside k i s); h
@[simp] theorem mramWrite_hi_ppsLatched (k i : Nat) (s : State) : (mramWrite k i s).hi.ppsLatched = s.hi.ppsLatched := have h := congrArg (fun t : State => t.hi.ppsLatched) (mramWrite_aside k i s); h
@[simp] theorem mramWrite_hi_nonce (k i : Nat) (s : State) : (mramWrite k i s).hi.nonce = s.hi.nonce := have h := congrArg (fun t : State => t.hi.nonce) (mramWrite_aside k i s); h
@[simp] theorem mramWrite_hi_nonceAt (k i : Nat) (s : State) : (mramWrite k i s).hi.nonceAt = s.hi.nonceAt := have h := congrArg (fun t : State => t.hi.nonceAt) (mramWrite_aside k i s); h
@[simp] theorem mramWrite_hi_nonceCtr (k i : Nat) (s : State) : (mramWrite k i s).hi.nonceCtr = s.hi.nonceCtr := have h := congrArg (fun t : State => t.hi.nonceCtr) (mramWrite_aside k i s); h
@[simp] theorem mramWrite_hi_hostPort (k i : Nat) (s : State) : (mramWrite k i s).hi.hostPort = s.hi.hostPort := have h := congrArg (fun t : State => t.hi.hostPort) (mramWrite_aside k i s); h
@[simp] theorem mramWrite_hi_heldWrites (k i : Nat) (s : State) : (mramWrite k i s).hi.heldWrites = s.hi.heldWrites := have h := congrArg (fun t : State => t.hi.heldWrites) (mramWrite_aside k i s); h
@[simp] theorem mramWrite_life_powerOnS (k i : Nat) (s : State) : (mramWrite k i s).life.powerOnS = s.life.powerOnS := have h := congrArg (fun t : State => t.life.powerOnS) (mramWrite_aside k i s); h
@[simp] theorem mramWrite_life_runningS (k i : Nat) (s : State) : (mramWrite k i s).life.runningS = s.life.runningS := have h := congrArg (fun t : State => t.life.runningS) (mramWrite_aside k i s); h
@[simp] theorem mramWrite_life_coldStarts (k i : Nat) (s : State) : (mramWrite k i s).life.coldStarts = s.life.coldStarts := have h := congrArg (fun t : State => t.life.coldStarts) (mramWrite_aside k i s); h
@[simp] theorem mramWrite_life_warmStarts (k i : Nat) (s : State) : (mramWrite k i s).life.warmStarts = s.life.warmStarts := have h := congrArg (fun t : State => t.life.warmStarts) (mramWrite_aside k i s); h
@[simp] theorem mramWrite_life_safeMode (k i : Nat) (s : State) : (mramWrite k i s).life.safeMode = s.life.safeMode := have h := congrArg (fun t : State => t.life.safeMode) (mramWrite_aside k i s); h
@[simp] theorem mramWrite_life_pfxSwitch (k i : Nat) (s : State) : (mramWrite k i s).life.pfxSwitch = s.life.pfxSwitch := have h := congrArg (fun t : State => t.life.pfxSwitch) (mramWrite_aside k i s); h
@[simp] theorem mramWrite_life_thermal (k i : Nat) (s : State) : (mramWrite k i s).life.thermal = s.life.thermal := have h := congrArg (fun t : State => t.life.thermal) (mramWrite_aside k i s); h
@[simp] theorem mramWrite_life_trough (k i : Nat) (s : State) : (mramWrite k i s).life.trough = s.life.trough := have h := congrArg (fun t : State => t.life.trough) (mramWrite_aside k i s); h
@[simp] theorem mramWrite_life_peak (k i : Nat) (s : State) : (mramWrite k i s).life.peak = s.life.peak := have h := congrArg (fun t : State => t.life.peak) (mramWrite_aside k i s); h
@[simp] theorem mramWrite_life_heaterTotal (k i : Nat) (s : State) : (mramWrite k i s).life.heaterTotal = s.life.heaterTotal := have h := congrArg (fun t : State => t.life.heaterTotal) (mramWrite_aside k i s); h
@[simp] theorem mramWrite_life_combS (k i : Nat) (s : State) : (mramWrite k i s).life.combS = s.life.combS := have h := congrArg (fun t : State => t.life.combS) (mramWrite_aside k i s); h
@[simp] theorem mramWrite_life_combUah (k i : Nat) (s : State) : (mramWrite k i s).life.combUah = s.life.combUah := have h := congrArg (fun t : State => t.life.combUah) (mramWrite_aside k i s); h
@[simp] theorem mramWrite_life_combEol (k i : Nat) (s : State) : (mramWrite k i s).life.combEol = s.life.combEol := have h := congrArg (fun t : State => t.life.combEol) (mramWrite_aside k i s); h
@[simp] theorem mramWrite_life_combRef (k i : Nat) (s : State) : (mramWrite k i s).life.combRef = s.life.combRef := have h := congrArg (fun t : State => t.life.combRef) (mramWrite_aside k i s); h
@[simp] theorem mramWrite_life_combHist (k i : Nat) (s : State) : (mramWrite k i s).life.combHist = s.life.combHist := have h := congrArg (fun t : State => t.life.combHist) (mramWrite_aside k i s); h
@[simp] theorem mramWrite_life_eccCor (k i : Nat) (s : State) : (mramWrite k i s).life.eccCor = s.life.eccCor := have h := congrArg (fun t : State => t.life.eccCor) (mramWrite_aside k i s); h
@[simp] theorem mramWrite_life_eccUnc (k i : Nat) (s : State) : (mramWrite k i s).life.eccUnc = s.life.eccUnc := have h := congrArg (fun t : State => t.life.eccUnc) (mramWrite_aside k i s); h
@[simp] theorem mramWrite_life_pinCor (k i : Nat) (s : State) : (mramWrite k i s).life.pinCor = s.life.pinCor := have h := congrArg (fun t : State => t.life.pinCor) (mramWrite_aside k i s); h
@[simp] theorem mramWrite_life_cal (k i : Nat) (s : State) : (mramWrite k i s).life.cal = s.life.cal := have h := congrArg (fun t : State => t.life.cal) (mramWrite_aside k i s); h
@[simp] theorem mramWrite_life_calFrac (k i : Nat) (s : State) : (mramWrite k i s).life.calFrac = s.life.calFrac := have h := congrArg (fun t : State => t.life.calFrac) (mramWrite_aside k i s); h
@[simp] theorem mramWrite_life_calNotSet (k i : Nat) (s : State) : (mramWrite k i s).life.calNotSet = s.life.calNotSet := have h := congrArg (fun t : State => t.life.calNotSet) (mramWrite_aside k i s); h
@[simp] theorem mramWrite_life_calStored (k i : Nat) (s : State) : (mramWrite k i s).life.calStored = s.life.calStored := have h := congrArg (fun t : State => t.life.calStored) (mramWrite_aside k i s); h
@[simp] theorem mramWrite_life_stores (k i : Nat) (s : State) : (mramWrite k i s).life.stores = s.life.stores := have h := congrArg (fun t : State => t.life.stores) (mramWrite_aside k i s); h
@[simp] theorem mramWrite_life_ticks (k i : Nat) (s : State) : (mramWrite k i s).life.ticks = s.life.ticks := have h := congrArg (fun t : State => t.life.ticks) (mramWrite_aside k i s); h
@[simp] theorem mramWrite_life_combUas (k i : Nat) (s : State) : (mramWrite k i s).life.combUas = s.life.combUas := have h := congrArg (fun t : State => t.life.combUas) (mramWrite_aside k i s); h
@[simp] theorem mramWrite_sec (k i : Nat) (s : State) : (mramWrite k i s).sec = s.sec := have h := congrArg (fun t : State => t.sec) (mramWrite_aside k i s); h
@[simp] theorem mramWrite_job (k i : Nat) (s : State) : (mramWrite k i s).job = s.job := have h := congrArg (fun t : State => t.job) (mramWrite_aside k i s); h
@[simp] theorem mramWrite_stn (k i : Nat) (s : State) : (mramWrite k i s).stn = s.stn := have h := congrArg (fun t : State => t.stn) (mramWrite_aside k i s); h
@[simp] theorem mramWrite_strm (k i : Nat) (s : State) : (mramWrite k i s).strm = s.strm := have h := congrArg (fun t : State => t.strm) (mramWrite_aside k i s); h
@[simp] theorem mramWrite_sync (k i : Nat) (s : State) : (mramWrite k i s).sync = s.sync := have h := congrArg (fun t : State => t.sync) (mramWrite_aside k i s); h
@[simp] theorem mramWrite_mem (k i : Nat) (s : State) : (mramWrite k i s).mem = s.mem := have h := congrArg (fun t : State => t.mem) (mramWrite_aside k i s); h
@[simp] theorem mramWrite_ts (k i : Nat) (s : State) : (mramWrite k i s).ts = s.ts := have h := congrArg (fun t : State => t.ts) (mramWrite_aside k i s); h
@[simp] theorem mramWrite_opt (k i : Nat) (s : State) : (mramWrite k i s).opt = s.opt := have h := congrArg (fun t : State => t.opt) (mramWrite_aside k i s); h
@[simp] theorem mramWrite_sw (k i : Nat) (s : State) : (mramWrite k i s).sw = s.sw := have h := congrArg (fun t : State => t.sw) (mramWrite_aside k i s); h
@[simp] theorem mramWrite_tm (k i : Nat) (s : State) : (mramWrite k i s).tm = s.tm := have h := congrArg (fun t : State => t.tm) (mramWrite_aside k i s); h
@[simp] theorem mramWrite_bells (k i : Nat) (s : State) : (mramWrite k i s).bells = s.bells := have h := congrArg (fun t : State => t.bells) (mramWrite_aside k i s); h
@[simp] theorem mramWrite_ce (k i : Nat) (s : State) : (mramWrite k i s).ce = s.ce := have h := congrArg (fun t : State => t.ce) (mramWrite_aside k i s); h
@[simp] theorem mramWrite_cal (k i : Nat) (s : State) : (mramWrite k i s).cal = s.cal := have h := congrArg (fun t : State => t.cal) (mramWrite_aside k i s); h
@[simp] theorem mramWrite_pfx (k i : Nat) (s : State) : (mramWrite k i s).pfx = s.pfx := have h := congrArg (fun t : State => t.pfx) (mramWrite_aside k i s); h
@[simp] theorem mramWrite_net (k i : Nat) (s : State) : (mramWrite k i s).net = s.net := have h := congrArg (fun t : State => t.net) (mramWrite_aside k i s); h
@[simp] theorem mramWrite_nvw_cmds (k i : Nat) (s : State) : (mramWrite k i s).nvw.cmds = s.nvw.cmds := have h := congrArg (fun t : State => t.nvw.cmds) (mramWrite_aside k i s); h
@[simp] theorem mramWrite_nvw_setCap (k i : Nat) (s : State) : (mramWrite k i s).nvw.setCap = s.nvw.setCap := have h := congrArg (fun t : State => t.nvw.setCap) (mramWrite_aside k i s); h
@[simp] theorem mramWrite_nvw_setPfx (k i : Nat) (s : State) : (mramWrite k i s).nvw.setPfx = s.nvw.setPfx := have h := congrArg (fun t : State => t.nvw.setPfx) (mramWrite_aside k i s); h
@[simp] theorem mramWrite_nvw_setRate (k i : Nat) (s : State) : (mramWrite k i s).nvw.setRate = s.nvw.setRate := have h := congrArg (fun t : State => t.nvw.setRate) (mramWrite_aside k i s); h
@[simp] theorem mramWrite_nvw_setId (k i : Nat) (s : State) : (mramWrite k i s).nvw.setId = s.nvw.setId := have h := congrArg (fun t : State => t.nvw.setId) (mramWrite_aside k i s); h
@[simp] theorem mramWrite_nvw_lifetime (k i : Nat) (s : State) : (mramWrite k i s).nvw.lifetime = s.nvw.lifetime := have h := congrArg (fun t : State => t.nvw.lifetime) (mramWrite_aside k i s); h
@[simp] theorem mramWrite_nvw_train (k i : Nat) (s : State) : (mramWrite k i s).nvw.train = s.nvw.train := have h := congrArg (fun t : State => t.nvw.train) (mramWrite_aside k i s); h
@[simp] theorem mramWrite_nvs (k i : Nat) (s : State) : (mramWrite k i s).nvs = s.nvs := have h := congrArg (fun t : State => t.nvs) (mramWrite_aside k i s); h
@[simp] theorem inhibitNote_pending (s : State) : (inhibitNote s).pending = s.pending := have h := congrArg (fun t : State => t.pending) (inhibitNote_aside s); h
@[simp] theorem inhibitNote_sc (s : State) : (inhibitNote s).sc = s.sc := have h := congrArg (fun t : State => t.sc) (inhibitNote_aside s); h
@[simp] theorem inhibitNote_free (s : State) : (inhibitNote s).free = s.free := have h := congrArg (fun t : State => t.free) (inhibitNote_aside s); h
@[simp] theorem inhibitNote_out (s : State) : (inhibitNote s).out = s.out := have h := congrArg (fun t : State => t.out) (inhibitNote_aside s); h
@[simp] theorem inhibitNote_pins_vin (s : State) : (inhibitNote s).pins.vin = s.pins.vin := have h := congrArg (fun t : State => t.pins.vin) (inhibitNote_aside s); h
@[simp] theorem inhibitNote_pins_iin (s : State) : (inhibitNote s).pins.iin = s.pins.iin := have h := congrArg (fun t : State => t.pins.iin) (inhibitNote_aside s); h
@[simp] theorem inhibitNote_pins_coolIn (s : State) : (inhibitNote s).pins.coolIn = s.pins.coolIn := have h := congrArg (fun t : State => t.pins.coolIn) (inhibitNote_aside s); h
@[simp] theorem inhibitNote_pins_coolOut (s : State) : (inhibitNote s).pins.coolOut = s.pins.coolOut := have h := congrArg (fun t : State => t.pins.coolOut) (inhibitNote_aside s); h
@[simp] theorem inhibitNote_pins_tjMax (s : State) : (inhibitNote s).pins.tjMax = s.pins.tjMax := have h := congrArg (fun t : State => t.pins.tjMax) (inhibitNote_aside s); h
@[simp] theorem inhibitNote_pins_perst (s : State) : (inhibitNote s).pins.perst = s.pins.perst := have h := congrArg (fun t : State => t.pins.perst) (inhibitNote_aside s); h
@[simp] theorem inhibitNote_pins_refclk (s : State) : (inhibitNote s).pins.refclk = s.pins.refclk := have h := congrArg (fun t : State => t.pins.refclk) (inhibitNote_aside s); h
@[simp] theorem inhibitNote_pins_thermtrip (s : State) : (inhibitNote s).pins.thermtrip = s.pins.thermtrip := have h := congrArg (fun t : State => t.pins.thermtrip) (inhibitNote_aside s); h
@[simp] theorem inhibitNote_pins_pwrGood (s : State) : (inhibitNote s).pins.pwrGood = s.pins.pwrGood := have h := congrArg (fun t : State => t.pins.pwrGood) (inhibitNote_aside s); h
@[simp] theorem inhibitNote_pins_ppsOutSecs (s : State) : (inhibitNote s).pins.ppsOutSecs = s.pins.ppsOutSecs := have h := congrArg (fun t : State => t.pins.ppsOutSecs) (inhibitNote_aside s); h
@[simp] theorem inhibitNote_pins_bellPulses (s : State) : (inhibitNote s).pins.bellPulses = s.pins.bellPulses := have h := congrArg (fun t : State => t.pins.bellPulses) (inhibitNote_aside s); h
@[simp] theorem inhibitNote_pins_pinsDriven (s : State) : (inhibitNote s).pins.pinsDriven = s.pins.pinsDriven := have h := congrArg (fun t : State => t.pins.pinsDriven) (inhibitNote_aside s); h
@[simp] theorem inhibitNote_pwr_aon (s : State) : (inhibitNote s).pwr.aon = s.pwr.aon := have h := congrArg (fun t : State => t.pwr.aon) (inhibitNote_aside s); h
@[simp] theorem inhibitNote_pwr_ps (s : State) : (inhibitNote s).pwr.ps = s.pwr.ps := have h := congrArg (fun t : State => t.pwr.ps) (inhibitNote_aside s); h
@[simp] theorem inhibitNote_pwr_holdUp (s : State) : (inhibitNote s).pwr.holdUp = s.pwr.holdUp := have h := congrArg (fun t : State => t.pwr.holdUp) (inhibitNote_aside s); h
@[simp] theorem inhibitNote_pwr_target (s : State) : (inhibitNote s).pwr.target = s.pwr.target := have h := congrArg (fun t : State => t.pwr.target) (inhibitNote_aside s); h
@[simp] theorem inhibitNote_pwr_targetPkt (s : State) : (inhibitNote s).pwr.targetPkt = s.pwr.targetPkt := have h := congrArg (fun t : State => t.pwr.targetPkt) (inhibitNote_aside s); h
@[simp] theorem inhibitNote_pwr_sag (s : State) : (inhibitNote s).pwr.sag = s.pwr.sag := have h := congrArg (fun t : State => t.pwr.sag) (inhibitNote_aside s); h
@[simp] theorem inhibitNote_pwr_nvInhibit (s : State) : (inhibitNote s).pwr.nvInhibit = s.pwr.nvInhibit := have h := congrArg (fun t : State => t.pwr.nvInhibit) (inhibitNote_aside s); h
@[simp] theorem inhibitNote_pwr_failCause (s : State) : (inhibitNote s).pwr.failCause = s.pwr.failCause := have h := congrArg (fun t : State => t.pwr.failCause) (inhibitNote_aside s); h
@[simp] theorem inhibitNote_pwr_failSeen (s : State) : (inhibitNote s).pwr.failSeen = s.pwr.failSeen := have h := congrArg (fun t : State => t.pwr.failSeen) (inhibitNote_aside s); h
@[simp] theorem inhibitNote_pwr_intOsc (s : State) : (inhibitNote s).pwr.intOsc = s.pwr.intOsc := have h := congrArg (fun t : State => t.pwr.intOsc) (inhibitNote_aside s); h
@[simp] theorem inhibitNote_pwr_throttle (s : State) : (inhibitNote s).pwr.throttle = s.pwr.throttle := have h := congrArg (fun t : State => t.pwr.throttle) (inhibitNote_aside s); h
@[simp] theorem inhibitNote_pwr_throttleWhy (s : State) : (inhibitNote s).pwr.throttleWhy = s.pwr.throttleWhy := have h := congrArg (fun t : State => t.pwr.throttleWhy) (inhibitNote_aside s); h
@[simp] theorem inhibitNote_pwr_throttleDie (s : State) : (inhibitNote s).pwr.throttleDie = s.pwr.throttleDie := have h := congrArg (fun t : State => t.pwr.throttleDie) (inhibitNote_aside s); h
@[simp] theorem inhibitNote_pwr_coreOff (s : State) : (inhibitNote s).pwr.coreOff = s.pwr.coreOff := have h := congrArg (fun t : State => t.pwr.coreOff) (inhibitNote_aside s); h
@[simp] theorem inhibitNote_pwr_capW (s : State) : (inhibitNote s).pwr.capW = s.pwr.capW := have h := congrArg (fun t : State => t.pwr.capW) (inhibitNote_aside s); h
@[simp] theorem inhibitNote_pwr_capA (s : State) : (inhibitNote s).pwr.capA = s.pwr.capA := have h := congrArg (fun t : State => t.pwr.capA) (inhibitNote_aside s); h
@[simp] theorem inhibitNote_pwr_nvCapW (s : State) : (inhibitNote s).pwr.nvCapW = s.pwr.nvCapW := have h := congrArg (fun t : State => t.pwr.nvCapW) (inhibitNote_aside s); h
@[simp] theorem inhibitNote_pwr_nvCapA (s : State) : (inhibitNote s).pwr.nvCapA = s.pwr.nvCapA := have h := congrArg (fun t : State => t.pwr.nvCapA) (inhibitNote_aside s); h
@[simp] theorem inhibitNote_pwr_oppOff (s : State) : (inhibitNote s).pwr.oppOff = s.pwr.oppOff := have h := congrArg (fun t : State => t.pwr.oppOff) (inhibitNote_aside s); h
@[simp] theorem inhibitNote_pwr_dieOut (s : State) : (inhibitNote s).pwr.dieOut = s.pwr.dieOut := have h := congrArg (fun t : State => t.pwr.dieOut) (inhibitNote_aside s); h
@[simp] theorem inhibitNote_pwr_stageMs (s : State) : (inhibitNote s).pwr.stageMs = s.pwr.stageMs := have h := congrArg (fun t : State => t.pwr.stageMs) (inhibitNote_aside s); h
@[simp] theorem inhibitNote_boot (s : State) : (inhibitNote s).boot = s.boot := have h := congrArg (fun t : State => t.boot) (inhibitNote_aside s); h
@[simp] theorem inhibitNote_ident (s : State) : (inhibitNote s).ident = s.ident := have h := congrArg (fun t : State => t.ident) (inhibitNote_aside s); h
@[simp] theorem inhibitNote_prof (s : State) : (inhibitNote s).prof = s.prof := have h := congrArg (fun t : State => t.prof) (inhibitNote_aside s); h
@[simp] theorem inhibitNote_hi_pcieUp (s : State) : (inhibitNote s).hi.pcieUp = s.hi.pcieUp := have h := congrArg (fun t : State => t.hi.pcieUp) (inhibitNote_aside s); h
@[simp] theorem inhibitNote_hi_apLines (s : State) : (inhibitNote s).hi.apLines = s.hi.apLines := have h := congrArg (fun t : State => t.hi.apLines) (inhibitNote_aside s); h
@[simp] theorem inhibitNote_hi_expectSeq (s : State) : (inhibitNote s).hi.expectSeq = s.hi.expectSeq := have h := congrArg (fun t : State => t.hi.expectSeq) (inhibitNote_aside s); h
@[simp] theorem inhibitNote_hi_halt (s : State) : (inhibitNote s).hi.halt = s.hi.halt := have h := congrArg (fun t : State => t.hi.halt) (inhibitNote_aside s); h
@[simp] theorem inhibitNote_hi_consume (s : State) : (inhibitNote s).hi.consume = s.hi.consume := have h := congrArg (fun t : State => t.hi.consume) (inhibitNote_aside s); h
@[simp] theorem inhibitNote_hi_free (s : State) : (inhibitNote s).hi.free = s.hi.free := have h := congrArg (fun t : State => t.hi.free) (inhibitNote_aside s); h
@[simp] theorem inhibitNote_hi_credit (s : State) : (inhibitNote s).hi.credit = s.hi.credit := have h := congrArg (fun t : State => t.hi.credit) (inhibitNote_aside s); h
@[simp] theorem inhibitNote_hi_ringBase (s : State) : (inhibitNote s).hi.ringBase = s.hi.ringBase := have h := congrArg (fun t : State => t.hi.ringBase) (inhibitNote_aside s); h
@[simp] theorem inhibitNote_hi_ringEn (s : State) : (inhibitNote s).hi.ringEn = s.hi.ringEn := have h := congrArg (fun t : State => t.hi.ringEn) (inhibitNote_aside s); h
@[simp] theorem inhibitNote_hi_ringSize (s : State) : (inhibitNote s).hi.ringSize = s.hi.ringSize := have h := congrArg (fun t : State => t.hi.ringSize) (inhibitNote_aside s); h
@[simp] theorem inhibitNote_hi_prod (s : State) : (inhibitNote s).hi.prod = s.hi.prod := have h := congrArg (fun t : State => t.hi.prod) (inhibitNote_aside s); h
@[simp] theorem inhibitNote_hi_cons (s : State) : (inhibitNote s).hi.cons = s.hi.cons := have h := congrArg (fun t : State => t.hi.cons) (inhibitNote_aside s); h
@[simp] theorem inhibitNote_hi_phase (s : State) : (inhibitNote s).hi.phase = s.hi.phase := have h := congrArg (fun t : State => t.hi.phase) (inhibitNote_aside s); h
@[simp] theorem inhibitNote_hi_irqTime (s : State) : (inhibitNote s).hi.irqTime = s.hi.irqTime := have h := congrArg (fun t : State => t.hi.irqTime) (inhibitNote_aside s); h
@[simp] theorem inhibitNote_hi_irqCount (s : State) : (inhibitNote s).hi.irqCount = s.hi.irqCount := have h := congrArg (fun t : State => t.hi.irqCount) (inhibitNote_aside s); h
@[simp] theorem inhibitNote_hi_dropped (s : State) : (inhibitNote s).hi.dropped = s.hi.dropped := have h := congrArg (fun t : State => t.hi.dropped) (inhibitNote_aside s); h
@[simp] theorem inhibitNote_hi_urgent (s : State) : (inhibitNote s).hi.urgent = s.hi.urgent := have h := congrArg (fun t : State => t.hi.urgent) (inhibitNote_aside s); h
@[simp] theorem inhibitNote_hi_push (s : State) : (inhibitNote s).hi.push = s.hi.push := have h := congrArg (fun t : State => t.hi.push) (inhibitNote_aside s); h
@[simp] theorem inhibitNote_hi_latchRemain (s : State) : (inhibitNote s).hi.latchRemain = s.hi.latchRemain := have h := congrArg (fun t : State => t.hi.latchRemain) (inhibitNote_aside s); h
@[simp] theorem inhibitNote_hi_latchGroups (s : State) : (inhibitNote s).hi.latchGroups = s.hi.latchGroups := have h := congrArg (fun t : State => t.hi.latchGroups) (inhibitNote_aside s); h
@[simp] theorem inhibitNote_hi_bar2Win (s : State) : (inhibitNote s).hi.bar2Win = s.hi.bar2Win := have h := congrArg (fun t : State => t.hi.bar2Win) (inhibitNote_aside s); h
@[simp] theorem inhibitNote_hi_msix (s : State) : (inhibitNote s).hi.msix = s.hi.msix := have h := congrArg (fun t : State => t.hi.msix) (inhibitNote_aside s); h
@[simp] theorem inhibitNote_hi_pba (s : State) : (inhibitNote s).hi.pba = s.hi.pba := have h := congrArg (fun t : State => t.hi.pba) (inhibitNote_aside s); h
@[simp] theorem inhibitNote_hi_held (s : State) : (inhibitNote s).hi.held = s.hi.held := have h := congrArg (fun t : State => t.hi.held) (inhibitNote_aside s); h
@[simp] theorem inhibitNote_hi_replies (s : State) : (inhibitNote s).hi.replies = s.hi.replies := have h := congrArg (fun t : State => t.hi.replies) (inhibitNote_aside s); h
@[simp] theorem inhibitNote_hi_unsig (s : State) : (inhibitNote s).hi.unsig = s.hi.unsig := have h := congrArg (fun t : State => t.hi.unsig) (inhibitNote_aside s); h
@[simp] theorem inhibitNote_hi_fullRaised (s : State) : (inhibitNote s).hi.fullRaised = s.hi.fullRaised := have h := congrArg (fun t : State => t.hi.fullRaised) (inhibitNote_aside s); h
@[simp] theorem inhibitNote_hi_lists (s : State) : (inhibitNote s).hi.lists = s.hi.lists := have h := congrArg (fun t : State => t.hi.lists) (inhibitNote_aside s); h
@[simp] theorem inhibitNote_hi_ftLatch (s : State) : (inhibitNote s).hi.ftLatch = s.hi.ftLatch := have h := congrArg (fun t : State => t.hi.ftLatch) (inhibitNote_aside s); h
@[simp] theorem inhibitNote_hi_ftLatched (s : State) : (inhibitNote s).hi.ftLatched = s.hi.ftLatched := have h := congrArg (fun t : State => t.hi.ftLatched) (inhibitNote_aside s); h
@[simp] theorem inhibitNote_hi_ppsLatch (s : State) : (inhibitNote s).hi.ppsLatch = s.hi.ppsLatch := have h := congrArg (fun t : State => t.hi.ppsLatch) (inhibitNote_aside s); h
@[simp] theorem inhibitNote_hi_ppsLatched (s : State) : (inhibitNote s).hi.ppsLatched = s.hi.ppsLatched := have h := congrArg (fun t : State => t.hi.ppsLatched) (inhibitNote_aside s); h
@[simp] theorem inhibitNote_hi_nonce (s : State) : (inhibitNote s).hi.nonce = s.hi.nonce := have h := congrArg (fun t : State => t.hi.nonce) (inhibitNote_aside s); h
@[simp] theorem inhibitNote_hi_nonceAt (s : State) : (inhibitNote s).hi.nonceAt = s.hi.nonceAt := have h := congrArg (fun t : State => t.hi.nonceAt) (inhibitNote_aside s); h
@[simp] theorem inhibitNote_hi_nonceCtr (s : State) : (inhibitNote s).hi.nonceCtr = s.hi.nonceCtr := have h := congrArg (fun t : State => t.hi.nonceCtr) (inhibitNote_aside s); h
@[simp] theorem inhibitNote_hi_hostPort (s : State) : (inhibitNote s).hi.hostPort = s.hi.hostPort := have h := congrArg (fun t : State => t.hi.hostPort) (inhibitNote_aside s); h
@[simp] theorem inhibitNote_hi_heldWrites (s : State) : (inhibitNote s).hi.heldWrites = s.hi.heldWrites := have h := congrArg (fun t : State => t.hi.heldWrites) (inhibitNote_aside s); h
@[simp] theorem inhibitNote_life_powerOnS (s : State) : (inhibitNote s).life.powerOnS = s.life.powerOnS := have h := congrArg (fun t : State => t.life.powerOnS) (inhibitNote_aside s); h
@[simp] theorem inhibitNote_life_runningS (s : State) : (inhibitNote s).life.runningS = s.life.runningS := have h := congrArg (fun t : State => t.life.runningS) (inhibitNote_aside s); h
@[simp] theorem inhibitNote_life_coldStarts (s : State) : (inhibitNote s).life.coldStarts = s.life.coldStarts := have h := congrArg (fun t : State => t.life.coldStarts) (inhibitNote_aside s); h
@[simp] theorem inhibitNote_life_warmStarts (s : State) : (inhibitNote s).life.warmStarts = s.life.warmStarts := have h := congrArg (fun t : State => t.life.warmStarts) (inhibitNote_aside s); h
@[simp] theorem inhibitNote_life_safeMode (s : State) : (inhibitNote s).life.safeMode = s.life.safeMode := have h := congrArg (fun t : State => t.life.safeMode) (inhibitNote_aside s); h
@[simp] theorem inhibitNote_life_pfxSwitch (s : State) : (inhibitNote s).life.pfxSwitch = s.life.pfxSwitch := have h := congrArg (fun t : State => t.life.pfxSwitch) (inhibitNote_aside s); h
@[simp] theorem inhibitNote_life_thermal (s : State) : (inhibitNote s).life.thermal = s.life.thermal := have h := congrArg (fun t : State => t.life.thermal) (inhibitNote_aside s); h
@[simp] theorem inhibitNote_life_trough (s : State) : (inhibitNote s).life.trough = s.life.trough := have h := congrArg (fun t : State => t.life.trough) (inhibitNote_aside s); h
@[simp] theorem inhibitNote_life_peak (s : State) : (inhibitNote s).life.peak = s.life.peak := have h := congrArg (fun t : State => t.life.peak) (inhibitNote_aside s); h
@[simp] theorem inhibitNote_life_heaterTotal (s : State) : (inhibitNote s).life.heaterTotal = s.life.heaterTotal := have h := congrArg (fun t : State => t.life.heaterTotal) (inhibitNote_aside s); h
@[simp] theorem inhibitNote_life_combS (s : State) : (inhibitNote s).life.combS = s.life.combS := have h := congrArg (fun t : State => t.life.combS) (inhibitNote_aside s); h
@[simp] theorem inhibitNote_life_combUah (s : State) : (inhibitNote s).life.combUah = s.life.combUah := have h := congrArg (fun t : State => t.life.combUah) (inhibitNote_aside s); h
@[simp] theorem inhibitNote_life_combEol (s : State) : (inhibitNote s).life.combEol = s.life.combEol := have h := congrArg (fun t : State => t.life.combEol) (inhibitNote_aside s); h
@[simp] theorem inhibitNote_life_combRef (s : State) : (inhibitNote s).life.combRef = s.life.combRef := have h := congrArg (fun t : State => t.life.combRef) (inhibitNote_aside s); h
@[simp] theorem inhibitNote_life_combHist (s : State) : (inhibitNote s).life.combHist = s.life.combHist := have h := congrArg (fun t : State => t.life.combHist) (inhibitNote_aside s); h
@[simp] theorem inhibitNote_life_eccCor (s : State) : (inhibitNote s).life.eccCor = s.life.eccCor := have h := congrArg (fun t : State => t.life.eccCor) (inhibitNote_aside s); h
@[simp] theorem inhibitNote_life_eccUnc (s : State) : (inhibitNote s).life.eccUnc = s.life.eccUnc := have h := congrArg (fun t : State => t.life.eccUnc) (inhibitNote_aside s); h
@[simp] theorem inhibitNote_life_pinCor (s : State) : (inhibitNote s).life.pinCor = s.life.pinCor := have h := congrArg (fun t : State => t.life.pinCor) (inhibitNote_aside s); h
@[simp] theorem inhibitNote_life_cal (s : State) : (inhibitNote s).life.cal = s.life.cal := have h := congrArg (fun t : State => t.life.cal) (inhibitNote_aside s); h
@[simp] theorem inhibitNote_life_calFrac (s : State) : (inhibitNote s).life.calFrac = s.life.calFrac := have h := congrArg (fun t : State => t.life.calFrac) (inhibitNote_aside s); h
@[simp] theorem inhibitNote_life_calNotSet (s : State) : (inhibitNote s).life.calNotSet = s.life.calNotSet := have h := congrArg (fun t : State => t.life.calNotSet) (inhibitNote_aside s); h
@[simp] theorem inhibitNote_life_calStored (s : State) : (inhibitNote s).life.calStored = s.life.calStored := have h := congrArg (fun t : State => t.life.calStored) (inhibitNote_aside s); h
@[simp] theorem inhibitNote_life_stores (s : State) : (inhibitNote s).life.stores = s.life.stores := have h := congrArg (fun t : State => t.life.stores) (inhibitNote_aside s); h
@[simp] theorem inhibitNote_life_ticks (s : State) : (inhibitNote s).life.ticks = s.life.ticks := have h := congrArg (fun t : State => t.life.ticks) (inhibitNote_aside s); h
@[simp] theorem inhibitNote_life_combUas (s : State) : (inhibitNote s).life.combUas = s.life.combUas := have h := congrArg (fun t : State => t.life.combUas) (inhibitNote_aside s); h
@[simp] theorem inhibitNote_sec (s : State) : (inhibitNote s).sec = s.sec := have h := congrArg (fun t : State => t.sec) (inhibitNote_aside s); h
@[simp] theorem inhibitNote_job (s : State) : (inhibitNote s).job = s.job := have h := congrArg (fun t : State => t.job) (inhibitNote_aside s); h
@[simp] theorem inhibitNote_stn (s : State) : (inhibitNote s).stn = s.stn := have h := congrArg (fun t : State => t.stn) (inhibitNote_aside s); h
@[simp] theorem inhibitNote_strm (s : State) : (inhibitNote s).strm = s.strm := have h := congrArg (fun t : State => t.strm) (inhibitNote_aside s); h
@[simp] theorem inhibitNote_sync (s : State) : (inhibitNote s).sync = s.sync := have h := congrArg (fun t : State => t.sync) (inhibitNote_aside s); h
@[simp] theorem inhibitNote_mem (s : State) : (inhibitNote s).mem = s.mem := have h := congrArg (fun t : State => t.mem) (inhibitNote_aside s); h
@[simp] theorem inhibitNote_ts (s : State) : (inhibitNote s).ts = s.ts := have h := congrArg (fun t : State => t.ts) (inhibitNote_aside s); h
@[simp] theorem inhibitNote_opt (s : State) : (inhibitNote s).opt = s.opt := have h := congrArg (fun t : State => t.opt) (inhibitNote_aside s); h
@[simp] theorem inhibitNote_sw (s : State) : (inhibitNote s).sw = s.sw := have h := congrArg (fun t : State => t.sw) (inhibitNote_aside s); h
@[simp] theorem inhibitNote_tm (s : State) : (inhibitNote s).tm = s.tm := have h := congrArg (fun t : State => t.tm) (inhibitNote_aside s); h
@[simp] theorem inhibitNote_bells (s : State) : (inhibitNote s).bells = s.bells := have h := congrArg (fun t : State => t.bells) (inhibitNote_aside s); h
@[simp] theorem inhibitNote_ce (s : State) : (inhibitNote s).ce = s.ce := have h := congrArg (fun t : State => t.ce) (inhibitNote_aside s); h
@[simp] theorem inhibitNote_cal (s : State) : (inhibitNote s).cal = s.cal := have h := congrArg (fun t : State => t.cal) (inhibitNote_aside s); h
@[simp] theorem inhibitNote_pfx (s : State) : (inhibitNote s).pfx = s.pfx := have h := congrArg (fun t : State => t.pfx) (inhibitNote_aside s); h
@[simp] theorem inhibitNote_net (s : State) : (inhibitNote s).net = s.net := have h := congrArg (fun t : State => t.net) (inhibitNote_aside s); h
@[simp] theorem inhibitNote_nvw_cmds (s : State) : (inhibitNote s).nvw.cmds = s.nvw.cmds := have h := congrArg (fun t : State => t.nvw.cmds) (inhibitNote_aside s); h
@[simp] theorem inhibitNote_nvw_setCap (s : State) : (inhibitNote s).nvw.setCap = s.nvw.setCap := have h := congrArg (fun t : State => t.nvw.setCap) (inhibitNote_aside s); h
@[simp] theorem inhibitNote_nvw_setPfx (s : State) : (inhibitNote s).nvw.setPfx = s.nvw.setPfx := have h := congrArg (fun t : State => t.nvw.setPfx) (inhibitNote_aside s); h
@[simp] theorem inhibitNote_nvw_setRate (s : State) : (inhibitNote s).nvw.setRate = s.nvw.setRate := have h := congrArg (fun t : State => t.nvw.setRate) (inhibitNote_aside s); h
@[simp] theorem inhibitNote_nvw_setId (s : State) : (inhibitNote s).nvw.setId = s.nvw.setId := have h := congrArg (fun t : State => t.nvw.setId) (inhibitNote_aside s); h
@[simp] theorem inhibitNote_nvw_lifetime (s : State) : (inhibitNote s).nvw.lifetime = s.nvw.lifetime := have h := congrArg (fun t : State => t.nvw.lifetime) (inhibitNote_aside s); h
@[simp] theorem inhibitNote_nvw_train (s : State) : (inhibitNote s).nvw.train = s.nvw.train := have h := congrArg (fun t : State => t.nvw.train) (inhibitNote_aside s); h
@[simp] theorem inhibitNote_nvs (s : State) : (inhibitNote s).nvs = s.nvs := have h := congrArg (fun t : State => t.nvs) (inhibitNote_aside s); h
@[simp] theorem mrExtend_pending (r k : Nat) (d : BitVec 384) (s : State) : (mrExtend r k d s).pending = s.pending := have h := congrArg (fun t : State => t.pending) (mrExtend_aside r k d s); h
@[simp] theorem mrExtend_sc (r k : Nat) (d : BitVec 384) (s : State) : (mrExtend r k d s).sc = s.sc := have h := congrArg (fun t : State => t.sc) (mrExtend_aside r k d s); h
@[simp] theorem mrExtend_free (r k : Nat) (d : BitVec 384) (s : State) : (mrExtend r k d s).free = s.free := have h := congrArg (fun t : State => t.free) (mrExtend_aside r k d s); h
@[simp] theorem mrExtend_out (r k : Nat) (d : BitVec 384) (s : State) : (mrExtend r k d s).out = s.out := have h := congrArg (fun t : State => t.out) (mrExtend_aside r k d s); h
@[simp] theorem mrExtend_pins_vin (r k : Nat) (d : BitVec 384) (s : State) : (mrExtend r k d s).pins.vin = s.pins.vin := have h := congrArg (fun t : State => t.pins.vin) (mrExtend_aside r k d s); h
@[simp] theorem mrExtend_pins_iin (r k : Nat) (d : BitVec 384) (s : State) : (mrExtend r k d s).pins.iin = s.pins.iin := have h := congrArg (fun t : State => t.pins.iin) (mrExtend_aside r k d s); h
@[simp] theorem mrExtend_pins_coolIn (r k : Nat) (d : BitVec 384) (s : State) : (mrExtend r k d s).pins.coolIn = s.pins.coolIn := have h := congrArg (fun t : State => t.pins.coolIn) (mrExtend_aside r k d s); h
@[simp] theorem mrExtend_pins_coolOut (r k : Nat) (d : BitVec 384) (s : State) : (mrExtend r k d s).pins.coolOut = s.pins.coolOut := have h := congrArg (fun t : State => t.pins.coolOut) (mrExtend_aside r k d s); h
@[simp] theorem mrExtend_pins_tjMax (r k : Nat) (d : BitVec 384) (s : State) : (mrExtend r k d s).pins.tjMax = s.pins.tjMax := have h := congrArg (fun t : State => t.pins.tjMax) (mrExtend_aside r k d s); h
@[simp] theorem mrExtend_pins_perst (r k : Nat) (d : BitVec 384) (s : State) : (mrExtend r k d s).pins.perst = s.pins.perst := have h := congrArg (fun t : State => t.pins.perst) (mrExtend_aside r k d s); h
@[simp] theorem mrExtend_pins_refclk (r k : Nat) (d : BitVec 384) (s : State) : (mrExtend r k d s).pins.refclk = s.pins.refclk := have h := congrArg (fun t : State => t.pins.refclk) (mrExtend_aside r k d s); h
@[simp] theorem mrExtend_pins_thermtrip (r k : Nat) (d : BitVec 384) (s : State) : (mrExtend r k d s).pins.thermtrip = s.pins.thermtrip := have h := congrArg (fun t : State => t.pins.thermtrip) (mrExtend_aside r k d s); h
@[simp] theorem mrExtend_pins_pwrGood (r k : Nat) (d : BitVec 384) (s : State) : (mrExtend r k d s).pins.pwrGood = s.pins.pwrGood := have h := congrArg (fun t : State => t.pins.pwrGood) (mrExtend_aside r k d s); h
@[simp] theorem mrExtend_pins_ppsOutSecs (r k : Nat) (d : BitVec 384) (s : State) : (mrExtend r k d s).pins.ppsOutSecs = s.pins.ppsOutSecs := have h := congrArg (fun t : State => t.pins.ppsOutSecs) (mrExtend_aside r k d s); h
@[simp] theorem mrExtend_pins_bellPulses (r k : Nat) (d : BitVec 384) (s : State) : (mrExtend r k d s).pins.bellPulses = s.pins.bellPulses := have h := congrArg (fun t : State => t.pins.bellPulses) (mrExtend_aside r k d s); h
@[simp] theorem mrExtend_pins_pinsDriven (r k : Nat) (d : BitVec 384) (s : State) : (mrExtend r k d s).pins.pinsDriven = s.pins.pinsDriven := have h := congrArg (fun t : State => t.pins.pinsDriven) (mrExtend_aside r k d s); h
@[simp] theorem mrExtend_pwr_aon (r k : Nat) (d : BitVec 384) (s : State) : (mrExtend r k d s).pwr.aon = s.pwr.aon := have h := congrArg (fun t : State => t.pwr.aon) (mrExtend_aside r k d s); h
@[simp] theorem mrExtend_pwr_ps (r k : Nat) (d : BitVec 384) (s : State) : (mrExtend r k d s).pwr.ps = s.pwr.ps := have h := congrArg (fun t : State => t.pwr.ps) (mrExtend_aside r k d s); h
@[simp] theorem mrExtend_pwr_holdUp (r k : Nat) (d : BitVec 384) (s : State) : (mrExtend r k d s).pwr.holdUp = s.pwr.holdUp := have h := congrArg (fun t : State => t.pwr.holdUp) (mrExtend_aside r k d s); h
@[simp] theorem mrExtend_pwr_target (r k : Nat) (d : BitVec 384) (s : State) : (mrExtend r k d s).pwr.target = s.pwr.target := have h := congrArg (fun t : State => t.pwr.target) (mrExtend_aside r k d s); h
@[simp] theorem mrExtend_pwr_targetPkt (r k : Nat) (d : BitVec 384) (s : State) : (mrExtend r k d s).pwr.targetPkt = s.pwr.targetPkt := have h := congrArg (fun t : State => t.pwr.targetPkt) (mrExtend_aside r k d s); h
@[simp] theorem mrExtend_pwr_sag (r k : Nat) (d : BitVec 384) (s : State) : (mrExtend r k d s).pwr.sag = s.pwr.sag := have h := congrArg (fun t : State => t.pwr.sag) (mrExtend_aside r k d s); h
@[simp] theorem mrExtend_pwr_nvInhibit (r k : Nat) (d : BitVec 384) (s : State) : (mrExtend r k d s).pwr.nvInhibit = s.pwr.nvInhibit := have h := congrArg (fun t : State => t.pwr.nvInhibit) (mrExtend_aside r k d s); h
@[simp] theorem mrExtend_pwr_failCause (r k : Nat) (d : BitVec 384) (s : State) : (mrExtend r k d s).pwr.failCause = s.pwr.failCause := have h := congrArg (fun t : State => t.pwr.failCause) (mrExtend_aside r k d s); h
@[simp] theorem mrExtend_pwr_failSeen (r k : Nat) (d : BitVec 384) (s : State) : (mrExtend r k d s).pwr.failSeen = s.pwr.failSeen := have h := congrArg (fun t : State => t.pwr.failSeen) (mrExtend_aside r k d s); h
@[simp] theorem mrExtend_pwr_intOsc (r k : Nat) (d : BitVec 384) (s : State) : (mrExtend r k d s).pwr.intOsc = s.pwr.intOsc := have h := congrArg (fun t : State => t.pwr.intOsc) (mrExtend_aside r k d s); h
@[simp] theorem mrExtend_pwr_throttle (r k : Nat) (d : BitVec 384) (s : State) : (mrExtend r k d s).pwr.throttle = s.pwr.throttle := have h := congrArg (fun t : State => t.pwr.throttle) (mrExtend_aside r k d s); h
@[simp] theorem mrExtend_pwr_throttleWhy (r k : Nat) (d : BitVec 384) (s : State) : (mrExtend r k d s).pwr.throttleWhy = s.pwr.throttleWhy := have h := congrArg (fun t : State => t.pwr.throttleWhy) (mrExtend_aside r k d s); h
@[simp] theorem mrExtend_pwr_throttleDie (r k : Nat) (d : BitVec 384) (s : State) : (mrExtend r k d s).pwr.throttleDie = s.pwr.throttleDie := have h := congrArg (fun t : State => t.pwr.throttleDie) (mrExtend_aside r k d s); h
@[simp] theorem mrExtend_pwr_coreOff (r k : Nat) (d : BitVec 384) (s : State) : (mrExtend r k d s).pwr.coreOff = s.pwr.coreOff := have h := congrArg (fun t : State => t.pwr.coreOff) (mrExtend_aside r k d s); h
@[simp] theorem mrExtend_pwr_capW (r k : Nat) (d : BitVec 384) (s : State) : (mrExtend r k d s).pwr.capW = s.pwr.capW := have h := congrArg (fun t : State => t.pwr.capW) (mrExtend_aside r k d s); h
@[simp] theorem mrExtend_pwr_capA (r k : Nat) (d : BitVec 384) (s : State) : (mrExtend r k d s).pwr.capA = s.pwr.capA := have h := congrArg (fun t : State => t.pwr.capA) (mrExtend_aside r k d s); h
@[simp] theorem mrExtend_pwr_nvCapW (r k : Nat) (d : BitVec 384) (s : State) : (mrExtend r k d s).pwr.nvCapW = s.pwr.nvCapW := have h := congrArg (fun t : State => t.pwr.nvCapW) (mrExtend_aside r k d s); h
@[simp] theorem mrExtend_pwr_nvCapA (r k : Nat) (d : BitVec 384) (s : State) : (mrExtend r k d s).pwr.nvCapA = s.pwr.nvCapA := have h := congrArg (fun t : State => t.pwr.nvCapA) (mrExtend_aside r k d s); h
@[simp] theorem mrExtend_pwr_oppOff (r k : Nat) (d : BitVec 384) (s : State) : (mrExtend r k d s).pwr.oppOff = s.pwr.oppOff := have h := congrArg (fun t : State => t.pwr.oppOff) (mrExtend_aside r k d s); h
@[simp] theorem mrExtend_pwr_dieOut (r k : Nat) (d : BitVec 384) (s : State) : (mrExtend r k d s).pwr.dieOut = s.pwr.dieOut := have h := congrArg (fun t : State => t.pwr.dieOut) (mrExtend_aside r k d s); h
@[simp] theorem mrExtend_pwr_stageMs (r k : Nat) (d : BitVec 384) (s : State) : (mrExtend r k d s).pwr.stageMs = s.pwr.stageMs := have h := congrArg (fun t : State => t.pwr.stageMs) (mrExtend_aside r k d s); h
@[simp] theorem mrExtend_boot (r k : Nat) (d : BitVec 384) (s : State) : (mrExtend r k d s).boot = s.boot := have h := congrArg (fun t : State => t.boot) (mrExtend_aside r k d s); h
@[simp] theorem mrExtend_ident (r k : Nat) (d : BitVec 384) (s : State) : (mrExtend r k d s).ident = s.ident := have h := congrArg (fun t : State => t.ident) (mrExtend_aside r k d s); h
@[simp] theorem mrExtend_prof (r k : Nat) (d : BitVec 384) (s : State) : (mrExtend r k d s).prof = s.prof := have h := congrArg (fun t : State => t.prof) (mrExtend_aside r k d s); h
@[simp] theorem mrExtend_hi_pcieUp (r k : Nat) (d : BitVec 384) (s : State) : (mrExtend r k d s).hi.pcieUp = s.hi.pcieUp := have h := congrArg (fun t : State => t.hi.pcieUp) (mrExtend_aside r k d s); h
@[simp] theorem mrExtend_hi_apLines (r k : Nat) (d : BitVec 384) (s : State) : (mrExtend r k d s).hi.apLines = s.hi.apLines := have h := congrArg (fun t : State => t.hi.apLines) (mrExtend_aside r k d s); h
@[simp] theorem mrExtend_hi_expectSeq (r k : Nat) (d : BitVec 384) (s : State) : (mrExtend r k d s).hi.expectSeq = s.hi.expectSeq := have h := congrArg (fun t : State => t.hi.expectSeq) (mrExtend_aside r k d s); h
@[simp] theorem mrExtend_hi_halt (r k : Nat) (d : BitVec 384) (s : State) : (mrExtend r k d s).hi.halt = s.hi.halt := have h := congrArg (fun t : State => t.hi.halt) (mrExtend_aside r k d s); h
@[simp] theorem mrExtend_hi_consume (r k : Nat) (d : BitVec 384) (s : State) : (mrExtend r k d s).hi.consume = s.hi.consume := have h := congrArg (fun t : State => t.hi.consume) (mrExtend_aside r k d s); h
@[simp] theorem mrExtend_hi_free (r k : Nat) (d : BitVec 384) (s : State) : (mrExtend r k d s).hi.free = s.hi.free := have h := congrArg (fun t : State => t.hi.free) (mrExtend_aside r k d s); h
@[simp] theorem mrExtend_hi_credit (r k : Nat) (d : BitVec 384) (s : State) : (mrExtend r k d s).hi.credit = s.hi.credit := have h := congrArg (fun t : State => t.hi.credit) (mrExtend_aside r k d s); h
@[simp] theorem mrExtend_hi_ringBase (r k : Nat) (d : BitVec 384) (s : State) : (mrExtend r k d s).hi.ringBase = s.hi.ringBase := have h := congrArg (fun t : State => t.hi.ringBase) (mrExtend_aside r k d s); h
@[simp] theorem mrExtend_hi_ringEn (r k : Nat) (d : BitVec 384) (s : State) : (mrExtend r k d s).hi.ringEn = s.hi.ringEn := have h := congrArg (fun t : State => t.hi.ringEn) (mrExtend_aside r k d s); h
@[simp] theorem mrExtend_hi_ringSize (r k : Nat) (d : BitVec 384) (s : State) : (mrExtend r k d s).hi.ringSize = s.hi.ringSize := have h := congrArg (fun t : State => t.hi.ringSize) (mrExtend_aside r k d s); h
@[simp] theorem mrExtend_hi_prod (r k : Nat) (d : BitVec 384) (s : State) : (mrExtend r k d s).hi.prod = s.hi.prod := have h := congrArg (fun t : State => t.hi.prod) (mrExtend_aside r k d s); h
@[simp] theorem mrExtend_hi_cons (r k : Nat) (d : BitVec 384) (s : State) : (mrExtend r k d s).hi.cons = s.hi.cons := have h := congrArg (fun t : State => t.hi.cons) (mrExtend_aside r k d s); h
@[simp] theorem mrExtend_hi_phase (r k : Nat) (d : BitVec 384) (s : State) : (mrExtend r k d s).hi.phase = s.hi.phase := have h := congrArg (fun t : State => t.hi.phase) (mrExtend_aside r k d s); h
@[simp] theorem mrExtend_hi_irqTime (r k : Nat) (d : BitVec 384) (s : State) : (mrExtend r k d s).hi.irqTime = s.hi.irqTime := have h := congrArg (fun t : State => t.hi.irqTime) (mrExtend_aside r k d s); h
@[simp] theorem mrExtend_hi_irqCount (r k : Nat) (d : BitVec 384) (s : State) : (mrExtend r k d s).hi.irqCount = s.hi.irqCount := have h := congrArg (fun t : State => t.hi.irqCount) (mrExtend_aside r k d s); h
@[simp] theorem mrExtend_hi_dropped (r k : Nat) (d : BitVec 384) (s : State) : (mrExtend r k d s).hi.dropped = s.hi.dropped := have h := congrArg (fun t : State => t.hi.dropped) (mrExtend_aside r k d s); h
@[simp] theorem mrExtend_hi_urgent (r k : Nat) (d : BitVec 384) (s : State) : (mrExtend r k d s).hi.urgent = s.hi.urgent := have h := congrArg (fun t : State => t.hi.urgent) (mrExtend_aside r k d s); h
@[simp] theorem mrExtend_hi_push (r k : Nat) (d : BitVec 384) (s : State) : (mrExtend r k d s).hi.push = s.hi.push := have h := congrArg (fun t : State => t.hi.push) (mrExtend_aside r k d s); h
@[simp] theorem mrExtend_hi_latchRemain (r k : Nat) (d : BitVec 384) (s : State) : (mrExtend r k d s).hi.latchRemain = s.hi.latchRemain := have h := congrArg (fun t : State => t.hi.latchRemain) (mrExtend_aside r k d s); h
@[simp] theorem mrExtend_hi_latchGroups (r k : Nat) (d : BitVec 384) (s : State) : (mrExtend r k d s).hi.latchGroups = s.hi.latchGroups := have h := congrArg (fun t : State => t.hi.latchGroups) (mrExtend_aside r k d s); h
@[simp] theorem mrExtend_hi_bar2Win (r k : Nat) (d : BitVec 384) (s : State) : (mrExtend r k d s).hi.bar2Win = s.hi.bar2Win := have h := congrArg (fun t : State => t.hi.bar2Win) (mrExtend_aside r k d s); h
@[simp] theorem mrExtend_hi_msix (r k : Nat) (d : BitVec 384) (s : State) : (mrExtend r k d s).hi.msix = s.hi.msix := have h := congrArg (fun t : State => t.hi.msix) (mrExtend_aside r k d s); h
@[simp] theorem mrExtend_hi_pba (r k : Nat) (d : BitVec 384) (s : State) : (mrExtend r k d s).hi.pba = s.hi.pba := have h := congrArg (fun t : State => t.hi.pba) (mrExtend_aside r k d s); h
@[simp] theorem mrExtend_hi_held (r k : Nat) (d : BitVec 384) (s : State) : (mrExtend r k d s).hi.held = s.hi.held := have h := congrArg (fun t : State => t.hi.held) (mrExtend_aside r k d s); h
@[simp] theorem mrExtend_hi_replies (r k : Nat) (d : BitVec 384) (s : State) : (mrExtend r k d s).hi.replies = s.hi.replies := have h := congrArg (fun t : State => t.hi.replies) (mrExtend_aside r k d s); h
@[simp] theorem mrExtend_hi_unsig (r k : Nat) (d : BitVec 384) (s : State) : (mrExtend r k d s).hi.unsig = s.hi.unsig := have h := congrArg (fun t : State => t.hi.unsig) (mrExtend_aside r k d s); h
@[simp] theorem mrExtend_hi_fullRaised (r k : Nat) (d : BitVec 384) (s : State) : (mrExtend r k d s).hi.fullRaised = s.hi.fullRaised := have h := congrArg (fun t : State => t.hi.fullRaised) (mrExtend_aside r k d s); h
@[simp] theorem mrExtend_hi_lists (r k : Nat) (d : BitVec 384) (s : State) : (mrExtend r k d s).hi.lists = s.hi.lists := have h := congrArg (fun t : State => t.hi.lists) (mrExtend_aside r k d s); h
@[simp] theorem mrExtend_hi_ftLatch (r k : Nat) (d : BitVec 384) (s : State) : (mrExtend r k d s).hi.ftLatch = s.hi.ftLatch := have h := congrArg (fun t : State => t.hi.ftLatch) (mrExtend_aside r k d s); h
@[simp] theorem mrExtend_hi_ftLatched (r k : Nat) (d : BitVec 384) (s : State) : (mrExtend r k d s).hi.ftLatched = s.hi.ftLatched := have h := congrArg (fun t : State => t.hi.ftLatched) (mrExtend_aside r k d s); h
@[simp] theorem mrExtend_hi_ppsLatch (r k : Nat) (d : BitVec 384) (s : State) : (mrExtend r k d s).hi.ppsLatch = s.hi.ppsLatch := have h := congrArg (fun t : State => t.hi.ppsLatch) (mrExtend_aside r k d s); h
@[simp] theorem mrExtend_hi_ppsLatched (r k : Nat) (d : BitVec 384) (s : State) : (mrExtend r k d s).hi.ppsLatched = s.hi.ppsLatched := have h := congrArg (fun t : State => t.hi.ppsLatched) (mrExtend_aside r k d s); h
@[simp] theorem mrExtend_hi_nonce (r k : Nat) (d : BitVec 384) (s : State) : (mrExtend r k d s).hi.nonce = s.hi.nonce := have h := congrArg (fun t : State => t.hi.nonce) (mrExtend_aside r k d s); h
@[simp] theorem mrExtend_hi_nonceAt (r k : Nat) (d : BitVec 384) (s : State) : (mrExtend r k d s).hi.nonceAt = s.hi.nonceAt := have h := congrArg (fun t : State => t.hi.nonceAt) (mrExtend_aside r k d s); h
@[simp] theorem mrExtend_hi_nonceCtr (r k : Nat) (d : BitVec 384) (s : State) : (mrExtend r k d s).hi.nonceCtr = s.hi.nonceCtr := have h := congrArg (fun t : State => t.hi.nonceCtr) (mrExtend_aside r k d s); h
@[simp] theorem mrExtend_hi_hostPort (r k : Nat) (d : BitVec 384) (s : State) : (mrExtend r k d s).hi.hostPort = s.hi.hostPort := have h := congrArg (fun t : State => t.hi.hostPort) (mrExtend_aside r k d s); h
@[simp] theorem mrExtend_hi_heldWrites (r k : Nat) (d : BitVec 384) (s : State) : (mrExtend r k d s).hi.heldWrites = s.hi.heldWrites := have h := congrArg (fun t : State => t.hi.heldWrites) (mrExtend_aside r k d s); h
@[simp] theorem mrExtend_life_powerOnS (r k : Nat) (d : BitVec 384) (s : State) : (mrExtend r k d s).life.powerOnS = s.life.powerOnS := have h := congrArg (fun t : State => t.life.powerOnS) (mrExtend_aside r k d s); h
@[simp] theorem mrExtend_life_runningS (r k : Nat) (d : BitVec 384) (s : State) : (mrExtend r k d s).life.runningS = s.life.runningS := have h := congrArg (fun t : State => t.life.runningS) (mrExtend_aside r k d s); h
@[simp] theorem mrExtend_life_coldStarts (r k : Nat) (d : BitVec 384) (s : State) : (mrExtend r k d s).life.coldStarts = s.life.coldStarts := have h := congrArg (fun t : State => t.life.coldStarts) (mrExtend_aside r k d s); h
@[simp] theorem mrExtend_life_warmStarts (r k : Nat) (d : BitVec 384) (s : State) : (mrExtend r k d s).life.warmStarts = s.life.warmStarts := have h := congrArg (fun t : State => t.life.warmStarts) (mrExtend_aside r k d s); h
@[simp] theorem mrExtend_life_safeMode (r k : Nat) (d : BitVec 384) (s : State) : (mrExtend r k d s).life.safeMode = s.life.safeMode := have h := congrArg (fun t : State => t.life.safeMode) (mrExtend_aside r k d s); h
@[simp] theorem mrExtend_life_pfxSwitch (r k : Nat) (d : BitVec 384) (s : State) : (mrExtend r k d s).life.pfxSwitch = s.life.pfxSwitch := have h := congrArg (fun t : State => t.life.pfxSwitch) (mrExtend_aside r k d s); h
@[simp] theorem mrExtend_life_thermal (r k : Nat) (d : BitVec 384) (s : State) : (mrExtend r k d s).life.thermal = s.life.thermal := have h := congrArg (fun t : State => t.life.thermal) (mrExtend_aside r k d s); h
@[simp] theorem mrExtend_life_trough (r k : Nat) (d : BitVec 384) (s : State) : (mrExtend r k d s).life.trough = s.life.trough := have h := congrArg (fun t : State => t.life.trough) (mrExtend_aside r k d s); h
@[simp] theorem mrExtend_life_peak (r k : Nat) (d : BitVec 384) (s : State) : (mrExtend r k d s).life.peak = s.life.peak := have h := congrArg (fun t : State => t.life.peak) (mrExtend_aside r k d s); h
@[simp] theorem mrExtend_life_heaterTotal (r k : Nat) (d : BitVec 384) (s : State) : (mrExtend r k d s).life.heaterTotal = s.life.heaterTotal := have h := congrArg (fun t : State => t.life.heaterTotal) (mrExtend_aside r k d s); h
@[simp] theorem mrExtend_life_combS (r k : Nat) (d : BitVec 384) (s : State) : (mrExtend r k d s).life.combS = s.life.combS := have h := congrArg (fun t : State => t.life.combS) (mrExtend_aside r k d s); h
@[simp] theorem mrExtend_life_combUah (r k : Nat) (d : BitVec 384) (s : State) : (mrExtend r k d s).life.combUah = s.life.combUah := have h := congrArg (fun t : State => t.life.combUah) (mrExtend_aside r k d s); h
@[simp] theorem mrExtend_life_combEol (r k : Nat) (d : BitVec 384) (s : State) : (mrExtend r k d s).life.combEol = s.life.combEol := have h := congrArg (fun t : State => t.life.combEol) (mrExtend_aside r k d s); h
@[simp] theorem mrExtend_life_combRef (r k : Nat) (d : BitVec 384) (s : State) : (mrExtend r k d s).life.combRef = s.life.combRef := have h := congrArg (fun t : State => t.life.combRef) (mrExtend_aside r k d s); h
@[simp] theorem mrExtend_life_combHist (r k : Nat) (d : BitVec 384) (s : State) : (mrExtend r k d s).life.combHist = s.life.combHist := have h := congrArg (fun t : State => t.life.combHist) (mrExtend_aside r k d s); h
@[simp] theorem mrExtend_life_eccCor (r k : Nat) (d : BitVec 384) (s : State) : (mrExtend r k d s).life.eccCor = s.life.eccCor := have h := congrArg (fun t : State => t.life.eccCor) (mrExtend_aside r k d s); h
@[simp] theorem mrExtend_life_eccUnc (r k : Nat) (d : BitVec 384) (s : State) : (mrExtend r k d s).life.eccUnc = s.life.eccUnc := have h := congrArg (fun t : State => t.life.eccUnc) (mrExtend_aside r k d s); h
@[simp] theorem mrExtend_life_pinCor (r k : Nat) (d : BitVec 384) (s : State) : (mrExtend r k d s).life.pinCor = s.life.pinCor := have h := congrArg (fun t : State => t.life.pinCor) (mrExtend_aside r k d s); h
@[simp] theorem mrExtend_life_cal (r k : Nat) (d : BitVec 384) (s : State) : (mrExtend r k d s).life.cal = s.life.cal := have h := congrArg (fun t : State => t.life.cal) (mrExtend_aside r k d s); h
@[simp] theorem mrExtend_life_calFrac (r k : Nat) (d : BitVec 384) (s : State) : (mrExtend r k d s).life.calFrac = s.life.calFrac := have h := congrArg (fun t : State => t.life.calFrac) (mrExtend_aside r k d s); h
@[simp] theorem mrExtend_life_calNotSet (r k : Nat) (d : BitVec 384) (s : State) : (mrExtend r k d s).life.calNotSet = s.life.calNotSet := have h := congrArg (fun t : State => t.life.calNotSet) (mrExtend_aside r k d s); h
@[simp] theorem mrExtend_life_calStored (r k : Nat) (d : BitVec 384) (s : State) : (mrExtend r k d s).life.calStored = s.life.calStored := have h := congrArg (fun t : State => t.life.calStored) (mrExtend_aside r k d s); h
@[simp] theorem mrExtend_life_stores (r k : Nat) (d : BitVec 384) (s : State) : (mrExtend r k d s).life.stores = s.life.stores := have h := congrArg (fun t : State => t.life.stores) (mrExtend_aside r k d s); h
@[simp] theorem mrExtend_life_ticks (r k : Nat) (d : BitVec 384) (s : State) : (mrExtend r k d s).life.ticks = s.life.ticks := have h := congrArg (fun t : State => t.life.ticks) (mrExtend_aside r k d s); h
@[simp] theorem mrExtend_life_combUas (r k : Nat) (d : BitVec 384) (s : State) : (mrExtend r k d s).life.combUas = s.life.combUas := have h := congrArg (fun t : State => t.life.combUas) (mrExtend_aside r k d s); h
@[simp] theorem mrExtend_sec_keys (r k : Nat) (d : BitVec 384) (s : State) : (mrExtend r k d s).sec.keys = s.sec.keys := have h := congrArg (fun t : State => t.sec.keys) (mrExtend_aside r k d s); h
@[simp] theorem mrExtend_sec_keyPair (r k : Nat) (d : BitVec 384) (s : State) : (mrExtend r k d s).sec.keyPair = s.sec.keyPair := have h := congrArg (fun t : State => t.sec.keyPair) (mrExtend_aside r k d s); h
@[simp] theorem mrExtend_sec_keyOk (r k : Nat) (d : BitVec 384) (s : State) : (mrExtend r k d s).sec.keyOk = s.sec.keyOk := have h := congrArg (fun t : State => t.sec.keyOk) (mrExtend_aside r k d s); h
@[simp] theorem mrExtend_sec_fuse (r k : Nat) (d : BitVec 384) (s : State) : (mrExtend r k d s).sec.fuse = s.sec.fuse := have h := congrArg (fun t : State => t.sec.fuse) (mrExtend_aside r k d s); h
@[simp] theorem mrExtend_sec_fuseRead (r k : Nat) (d : BitVec 384) (s : State) : (mrExtend r k d s).sec.fuseRead = s.sec.fuseRead := have h := congrArg (fun t : State => t.sec.fuseRead) (mrExtend_aside r k d s); h
@[simp] theorem mrExtend_sec_signs (r k : Nat) (d : BitVec 384) (s : State) : (mrExtend r k d s).sec.signs = s.sec.signs := have h := congrArg (fun t : State => t.sec.signs) (mrExtend_aside r k d s); h
@[simp] theorem mrExtend_job (r k : Nat) (d : BitVec 384) (s : State) : (mrExtend r k d s).job = s.job := have h := congrArg (fun t : State => t.job) (mrExtend_aside r k d s); h
@[simp] theorem mrExtend_stn (r k : Nat) (d : BitVec 384) (s : State) : (mrExtend r k d s).stn = s.stn := have h := congrArg (fun t : State => t.stn) (mrExtend_aside r k d s); h
@[simp] theorem mrExtend_strm (r k : Nat) (d : BitVec 384) (s : State) : (mrExtend r k d s).strm = s.strm := have h := congrArg (fun t : State => t.strm) (mrExtend_aside r k d s); h
@[simp] theorem mrExtend_sync (r k : Nat) (d : BitVec 384) (s : State) : (mrExtend r k d s).sync = s.sync := have h := congrArg (fun t : State => t.sync) (mrExtend_aside r k d s); h
@[simp] theorem mrExtend_mem (r k : Nat) (d : BitVec 384) (s : State) : (mrExtend r k d s).mem = s.mem := have h := congrArg (fun t : State => t.mem) (mrExtend_aside r k d s); h
@[simp] theorem mrExtend_ts (r k : Nat) (d : BitVec 384) (s : State) : (mrExtend r k d s).ts = s.ts := have h := congrArg (fun t : State => t.ts) (mrExtend_aside r k d s); h
@[simp] theorem mrExtend_opt (r k : Nat) (d : BitVec 384) (s : State) : (mrExtend r k d s).opt = s.opt := have h := congrArg (fun t : State => t.opt) (mrExtend_aside r k d s); h
@[simp] theorem mrExtend_sw (r k : Nat) (d : BitVec 384) (s : State) : (mrExtend r k d s).sw = s.sw := have h := congrArg (fun t : State => t.sw) (mrExtend_aside r k d s); h
@[simp] theorem mrExtend_tm (r k : Nat) (d : BitVec 384) (s : State) : (mrExtend r k d s).tm = s.tm := have h := congrArg (fun t : State => t.tm) (mrExtend_aside r k d s); h
@[simp] theorem mrExtend_bells (r k : Nat) (d : BitVec 384) (s : State) : (mrExtend r k d s).bells = s.bells := have h := congrArg (fun t : State => t.bells) (mrExtend_aside r k d s); h
@[simp] theorem mrExtend_ce (r k : Nat) (d : BitVec 384) (s : State) : (mrExtend r k d s).ce = s.ce := have h := congrArg (fun t : State => t.ce) (mrExtend_aside r k d s); h
@[simp] theorem mrExtend_cal (r k : Nat) (d : BitVec 384) (s : State) : (mrExtend r k d s).cal = s.cal := have h := congrArg (fun t : State => t.cal) (mrExtend_aside r k d s); h
@[simp] theorem mrExtend_pfx (r k : Nat) (d : BitVec 384) (s : State) : (mrExtend r k d s).pfx = s.pfx := have h := congrArg (fun t : State => t.pfx) (mrExtend_aside r k d s); h
@[simp] theorem mrExtend_net (r k : Nat) (d : BitVec 384) (s : State) : (mrExtend r k d s).net = s.net := have h := congrArg (fun t : State => t.net) (mrExtend_aside r k d s); h
@[simp] theorem mrExtend_nvw_cmds (r k : Nat) (d : BitVec 384) (s : State) : (mrExtend r k d s).nvw.cmds = s.nvw.cmds := have h := congrArg (fun t : State => t.nvw.cmds) (mrExtend_aside r k d s); h
@[simp] theorem mrExtend_nvw_setCap (r k : Nat) (d : BitVec 384) (s : State) : (mrExtend r k d s).nvw.setCap = s.nvw.setCap := have h := congrArg (fun t : State => t.nvw.setCap) (mrExtend_aside r k d s); h
@[simp] theorem mrExtend_nvw_setPfx (r k : Nat) (d : BitVec 384) (s : State) : (mrExtend r k d s).nvw.setPfx = s.nvw.setPfx := have h := congrArg (fun t : State => t.nvw.setPfx) (mrExtend_aside r k d s); h
@[simp] theorem mrExtend_nvw_setRate (r k : Nat) (d : BitVec 384) (s : State) : (mrExtend r k d s).nvw.setRate = s.nvw.setRate := have h := congrArg (fun t : State => t.nvw.setRate) (mrExtend_aside r k d s); h
@[simp] theorem mrExtend_nvw_setId (r k : Nat) (d : BitVec 384) (s : State) : (mrExtend r k d s).nvw.setId = s.nvw.setId := have h := congrArg (fun t : State => t.nvw.setId) (mrExtend_aside r k d s); h
@[simp] theorem mrExtend_nvw_lifetime (r k : Nat) (d : BitVec 384) (s : State) : (mrExtend r k d s).nvw.lifetime = s.nvw.lifetime := have h := congrArg (fun t : State => t.nvw.lifetime) (mrExtend_aside r k d s); h
@[simp] theorem mrExtend_nvw_train (r k : Nat) (d : BitVec 384) (s : State) : (mrExtend r k d s).nvw.train = s.nvw.train := have h := congrArg (fun t : State => t.nvw.train) (mrExtend_aside r k d s); h
@[simp] theorem mrExtend_nvs (r k : Nat) (d : BitVec 384) (s : State) : (mrExtend r k d s).nvs = s.nvs := have h := congrArg (fun t : State => t.nvs) (mrExtend_aside r k d s); h
@[simp] theorem reply_pending (ref : PktRef) (st : Nat) (d : Bytes) (s : State) : (reply ref st d s).pending = s.pending := have h := congrArg (fun t : State => t.pending) (reply_aside ref st d s); h
@[simp] theorem reply_sc (ref : PktRef) (st : Nat) (d : Bytes) (s : State) : (reply ref st d s).sc = s.sc := have h := congrArg (fun t : State => t.sc) (reply_aside ref st d s); h
@[simp] theorem reply_free (ref : PktRef) (st : Nat) (d : Bytes) (s : State) : (reply ref st d s).free = s.free := have h := congrArg (fun t : State => t.free) (reply_aside ref st d s); h
@[simp] theorem reply_out (ref : PktRef) (st : Nat) (d : Bytes) (s : State) : (reply ref st d s).out = s.out := have h := congrArg (fun t : State => t.out) (reply_aside ref st d s); h
@[simp] theorem reply_pins (ref : PktRef) (st : Nat) (d : Bytes) (s : State) : (reply ref st d s).pins = s.pins := have h := congrArg (fun t : State => t.pins) (reply_aside ref st d s); h
@[simp] theorem reply_pwr (ref : PktRef) (st : Nat) (d : Bytes) (s : State) : (reply ref st d s).pwr = s.pwr := have h := congrArg (fun t : State => t.pwr) (reply_aside ref st d s); h
@[simp] theorem reply_boot (ref : PktRef) (st : Nat) (d : Bytes) (s : State) : (reply ref st d s).boot = s.boot := have h := congrArg (fun t : State => t.boot) (reply_aside ref st d s); h
@[simp] theorem reply_ident (ref : PktRef) (st : Nat) (d : Bytes) (s : State) : (reply ref st d s).ident = s.ident := have h := congrArg (fun t : State => t.ident) (reply_aside ref st d s); h
@[simp] theorem reply_prof (ref : PktRef) (st : Nat) (d : Bytes) (s : State) : (reply ref st d s).prof = s.prof := have h := congrArg (fun t : State => t.prof) (reply_aside ref st d s); h
@[simp] theorem reply_hi_pcieUp (ref : PktRef) (st : Nat) (d : Bytes) (s : State) : (reply ref st d s).hi.pcieUp = s.hi.pcieUp := have h := congrArg (fun t : State => t.hi.pcieUp) (reply_aside ref st d s); h
@[simp] theorem reply_hi_apLines (ref : PktRef) (st : Nat) (d : Bytes) (s : State) : (reply ref st d s).hi.apLines = s.hi.apLines := have h := congrArg (fun t : State => t.hi.apLines) (reply_aside ref st d s); h
@[simp] theorem reply_hi_expectSeq (ref : PktRef) (st : Nat) (d : Bytes) (s : State) : (reply ref st d s).hi.expectSeq = s.hi.expectSeq := have h := congrArg (fun t : State => t.hi.expectSeq) (reply_aside ref st d s); h
@[simp] theorem reply_hi_halt (ref : PktRef) (st : Nat) (d : Bytes) (s : State) : (reply ref st d s).hi.halt = s.hi.halt := have h := congrArg (fun t : State => t.hi.halt) (reply_aside ref st d s); h
@[simp] theorem reply_hi_consume (ref : PktRef) (st : Nat) (d : Bytes) (s : State) : (reply ref st d s).hi.consume = s.hi.consume := have h := congrArg (fun t : State => t.hi.consume) (reply_aside ref st d s); h
@[simp] theorem reply_hi_free (ref : PktRef) (st : Nat) (d : Bytes) (s : State) : (reply ref st d s).hi.free = s.hi.free := have h := congrArg (fun t : State => t.hi.free) (reply_aside ref st d s); h
@[simp] theorem reply_hi_credit (ref : PktRef) (st : Nat) (d : Bytes) (s : State) : (reply ref st d s).hi.credit = s.hi.credit := have h := congrArg (fun t : State => t.hi.credit) (reply_aside ref st d s); h
@[simp] theorem reply_hi_ringBase (ref : PktRef) (st : Nat) (d : Bytes) (s : State) : (reply ref st d s).hi.ringBase = s.hi.ringBase := have h := congrArg (fun t : State => t.hi.ringBase) (reply_aside ref st d s); h
@[simp] theorem reply_hi_ringEn (ref : PktRef) (st : Nat) (d : Bytes) (s : State) : (reply ref st d s).hi.ringEn = s.hi.ringEn := have h := congrArg (fun t : State => t.hi.ringEn) (reply_aside ref st d s); h
@[simp] theorem reply_hi_ringSize (ref : PktRef) (st : Nat) (d : Bytes) (s : State) : (reply ref st d s).hi.ringSize = s.hi.ringSize := have h := congrArg (fun t : State => t.hi.ringSize) (reply_aside ref st d s); h
@[simp] theorem reply_hi_prod (ref : PktRef) (st : Nat) (d : Bytes) (s : State) : (reply ref st d s).hi.prod = s.hi.prod := have h := congrArg (fun t : State => t.hi.prod) (reply_aside ref st d s); h
@[simp] theorem reply_hi_cons (ref : PktRef) (st : Nat) (d : Bytes) (s : State) : (reply ref st d s).hi.cons = s.hi.cons := have h := congrArg (fun t : State => t.hi.cons) (reply_aside ref st d s); h
@[simp] theorem reply_hi_phase (ref : PktRef) (st : Nat) (d : Bytes) (s : State) : (reply ref st d s).hi.phase = s.hi.phase := have h := congrArg (fun t : State => t.hi.phase) (reply_aside ref st d s); h
@[simp] theorem reply_hi_irqTime (ref : PktRef) (st : Nat) (d : Bytes) (s : State) : (reply ref st d s).hi.irqTime = s.hi.irqTime := have h := congrArg (fun t : State => t.hi.irqTime) (reply_aside ref st d s); h
@[simp] theorem reply_hi_irqCount (ref : PktRef) (st : Nat) (d : Bytes) (s : State) : (reply ref st d s).hi.irqCount = s.hi.irqCount := have h := congrArg (fun t : State => t.hi.irqCount) (reply_aside ref st d s); h
@[simp] theorem reply_hi_dropped (ref : PktRef) (st : Nat) (d : Bytes) (s : State) : (reply ref st d s).hi.dropped = s.hi.dropped := have h := congrArg (fun t : State => t.hi.dropped) (reply_aside ref st d s); h
@[simp] theorem reply_hi_urgent (ref : PktRef) (st : Nat) (d : Bytes) (s : State) : (reply ref st d s).hi.urgent = s.hi.urgent := have h := congrArg (fun t : State => t.hi.urgent) (reply_aside ref st d s); h
@[simp] theorem reply_hi_push (ref : PktRef) (st : Nat) (d : Bytes) (s : State) : (reply ref st d s).hi.push = s.hi.push := have h := congrArg (fun t : State => t.hi.push) (reply_aside ref st d s); h
@[simp] theorem reply_hi_latchRemain (ref : PktRef) (st : Nat) (d : Bytes) (s : State) : (reply ref st d s).hi.latchRemain = s.hi.latchRemain := have h := congrArg (fun t : State => t.hi.latchRemain) (reply_aside ref st d s); h
@[simp] theorem reply_hi_latchGroups (ref : PktRef) (st : Nat) (d : Bytes) (s : State) : (reply ref st d s).hi.latchGroups = s.hi.latchGroups := have h := congrArg (fun t : State => t.hi.latchGroups) (reply_aside ref st d s); h
@[simp] theorem reply_hi_bar2Win (ref : PktRef) (st : Nat) (d : Bytes) (s : State) : (reply ref st d s).hi.bar2Win = s.hi.bar2Win := have h := congrArg (fun t : State => t.hi.bar2Win) (reply_aside ref st d s); h
@[simp] theorem reply_hi_msix (ref : PktRef) (st : Nat) (d : Bytes) (s : State) : (reply ref st d s).hi.msix = s.hi.msix := have h := congrArg (fun t : State => t.hi.msix) (reply_aside ref st d s); h
@[simp] theorem reply_hi_pba (ref : PktRef) (st : Nat) (d : Bytes) (s : State) : (reply ref st d s).hi.pba = s.hi.pba := have h := congrArg (fun t : State => t.hi.pba) (reply_aside ref st d s); h
@[simp] theorem reply_hi_pushes (ref : PktRef) (st : Nat) (d : Bytes) (s : State) : (reply ref st d s).hi.pushes = s.hi.pushes := have h := congrArg (fun t : State => t.hi.pushes) (reply_aside ref st d s); h
@[simp] theorem reply_hi_unsig (ref : PktRef) (st : Nat) (d : Bytes) (s : State) : (reply ref st d s).hi.unsig = s.hi.unsig := have h := congrArg (fun t : State => t.hi.unsig) (reply_aside ref st d s); h
@[simp] theorem reply_hi_fullRaised (ref : PktRef) (st : Nat) (d : Bytes) (s : State) : (reply ref st d s).hi.fullRaised = s.hi.fullRaised := have h := congrArg (fun t : State => t.hi.fullRaised) (reply_aside ref st d s); h
@[simp] theorem reply_hi_ftLatch (ref : PktRef) (st : Nat) (d : Bytes) (s : State) : (reply ref st d s).hi.ftLatch = s.hi.ftLatch := have h := congrArg (fun t : State => t.hi.ftLatch) (reply_aside ref st d s); h
@[simp] theorem reply_hi_ftLatched (ref : PktRef) (st : Nat) (d : Bytes) (s : State) : (reply ref st d s).hi.ftLatched = s.hi.ftLatched := have h := congrArg (fun t : State => t.hi.ftLatched) (reply_aside ref st d s); h
@[simp] theorem reply_hi_ppsLatch (ref : PktRef) (st : Nat) (d : Bytes) (s : State) : (reply ref st d s).hi.ppsLatch = s.hi.ppsLatch := have h := congrArg (fun t : State => t.hi.ppsLatch) (reply_aside ref st d s); h
@[simp] theorem reply_hi_ppsLatched (ref : PktRef) (st : Nat) (d : Bytes) (s : State) : (reply ref st d s).hi.ppsLatched = s.hi.ppsLatched := have h := congrArg (fun t : State => t.hi.ppsLatched) (reply_aside ref st d s); h
@[simp] theorem reply_hi_nonce (ref : PktRef) (st : Nat) (d : Bytes) (s : State) : (reply ref st d s).hi.nonce = s.hi.nonce := have h := congrArg (fun t : State => t.hi.nonce) (reply_aside ref st d s); h
@[simp] theorem reply_hi_nonceAt (ref : PktRef) (st : Nat) (d : Bytes) (s : State) : (reply ref st d s).hi.nonceAt = s.hi.nonceAt := have h := congrArg (fun t : State => t.hi.nonceAt) (reply_aside ref st d s); h
@[simp] theorem reply_hi_nonceCtr (ref : PktRef) (st : Nat) (d : Bytes) (s : State) : (reply ref st d s).hi.nonceCtr = s.hi.nonceCtr := have h := congrArg (fun t : State => t.hi.nonceCtr) (reply_aside ref st d s); h
@[simp] theorem reply_hi_hostPort (ref : PktRef) (st : Nat) (d : Bytes) (s : State) : (reply ref st d s).hi.hostPort = s.hi.hostPort := have h := congrArg (fun t : State => t.hi.hostPort) (reply_aside ref st d s); h
@[simp] theorem reply_hi_heldWrites (ref : PktRef) (st : Nat) (d : Bytes) (s : State) : (reply ref st d s).hi.heldWrites = s.hi.heldWrites := have h := congrArg (fun t : State => t.hi.heldWrites) (reply_aside ref st d s); h
@[simp] theorem reply_db (ref : PktRef) (st : Nat) (d : Bytes) (s : State) : (reply ref st d s).db = s.db := have h := congrArg (fun t : State => t.db) (reply_aside ref st d s); h
@[simp] theorem reply_life (ref : PktRef) (st : Nat) (d : Bytes) (s : State) : (reply ref st d s).life = s.life := have h := congrArg (fun t : State => t.life) (reply_aside ref st d s); h
@[simp] theorem reply_sec (ref : PktRef) (st : Nat) (d : Bytes) (s : State) : (reply ref st d s).sec = s.sec := have h := congrArg (fun t : State => t.sec) (reply_aside ref st d s); h
@[simp] theorem reply_job (ref : PktRef) (st : Nat) (d : Bytes) (s : State) : (reply ref st d s).job = s.job := have h := congrArg (fun t : State => t.job) (reply_aside ref st d s); h
@[simp] theorem reply_stn (ref : PktRef) (st : Nat) (d : Bytes) (s : State) : (reply ref st d s).stn = s.stn := have h := congrArg (fun t : State => t.stn) (reply_aside ref st d s); h
@[simp] theorem reply_strm (ref : PktRef) (st : Nat) (d : Bytes) (s : State) : (reply ref st d s).strm = s.strm := have h := congrArg (fun t : State => t.strm) (reply_aside ref st d s); h
@[simp] theorem reply_sync (ref : PktRef) (st : Nat) (d : Bytes) (s : State) : (reply ref st d s).sync = s.sync := have h := congrArg (fun t : State => t.sync) (reply_aside ref st d s); h
@[simp] theorem reply_mem (ref : PktRef) (st : Nat) (d : Bytes) (s : State) : (reply ref st d s).mem = s.mem := have h := congrArg (fun t : State => t.mem) (reply_aside ref st d s); h
@[simp] theorem reply_ts (ref : PktRef) (st : Nat) (d : Bytes) (s : State) : (reply ref st d s).ts = s.ts := have h := congrArg (fun t : State => t.ts) (reply_aside ref st d s); h
@[simp] theorem reply_opt (ref : PktRef) (st : Nat) (d : Bytes) (s : State) : (reply ref st d s).opt = s.opt := have h := congrArg (fun t : State => t.opt) (reply_aside ref st d s); h
@[simp] theorem reply_sw (ref : PktRef) (st : Nat) (d : Bytes) (s : State) : (reply ref st d s).sw = s.sw := have h := congrArg (fun t : State => t.sw) (reply_aside ref st d s); h
@[simp] theorem reply_tm (ref : PktRef) (st : Nat) (d : Bytes) (s : State) : (reply ref st d s).tm = s.tm := have h := congrArg (fun t : State => t.tm) (reply_aside ref st d s); h
@[simp] theorem reply_bells (ref : PktRef) (st : Nat) (d : Bytes) (s : State) : (reply ref st d s).bells = s.bells := have h := congrArg (fun t : State => t.bells) (reply_aside ref st d s); h
@[simp] theorem reply_ce (ref : PktRef) (st : Nat) (d : Bytes) (s : State) : (reply ref st d s).ce = s.ce := have h := congrArg (fun t : State => t.ce) (reply_aside ref st d s); h
@[simp] theorem reply_cal (ref : PktRef) (st : Nat) (d : Bytes) (s : State) : (reply ref st d s).cal = s.cal := have h := congrArg (fun t : State => t.cal) (reply_aside ref st d s); h
@[simp] theorem reply_pfx (ref : PktRef) (st : Nat) (d : Bytes) (s : State) : (reply ref st d s).pfx = s.pfx := have h := congrArg (fun t : State => t.pfx) (reply_aside ref st d s); h
@[simp] theorem reply_net (ref : PktRef) (st : Nat) (d : Bytes) (s : State) : (reply ref st d s).net = s.net := have h := congrArg (fun t : State => t.net) (reply_aside ref st d s); h
@[simp] theorem reply_nvw (ref : PktRef) (st : Nat) (d : Bytes) (s : State) : (reply ref st d s).nvw = s.nvw := have h := congrArg (fun t : State => t.nvw) (reply_aside ref st d s); h
@[simp] theorem reply_nvs (ref : PktRef) (st : Nat) (d : Bytes) (s : State) : (reply ref st d s).nvs = s.nvs := have h := congrArg (fun t : State => t.nvs) (reply_aside ref st d s); h
@[simp] theorem replyPending_pending (ref : PktRef) (s : State) : (replyPending ref s).pending = s.pending := have h := congrArg (fun t : State => t.pending) (replyPending_aside ref s); h
@[simp] theorem replyPending_sc (ref : PktRef) (s : State) : (replyPending ref s).sc = s.sc := have h := congrArg (fun t : State => t.sc) (replyPending_aside ref s); h
@[simp] theorem replyPending_free (ref : PktRef) (s : State) : (replyPending ref s).free = s.free := have h := congrArg (fun t : State => t.free) (replyPending_aside ref s); h
@[simp] theorem replyPending_out (ref : PktRef) (s : State) : (replyPending ref s).out = s.out := have h := congrArg (fun t : State => t.out) (replyPending_aside ref s); h
@[simp] theorem replyPending_pins (ref : PktRef) (s : State) : (replyPending ref s).pins = s.pins := have h := congrArg (fun t : State => t.pins) (replyPending_aside ref s); h
@[simp] theorem replyPending_pwr (ref : PktRef) (s : State) : (replyPending ref s).pwr = s.pwr := have h := congrArg (fun t : State => t.pwr) (replyPending_aside ref s); h
@[simp] theorem replyPending_boot (ref : PktRef) (s : State) : (replyPending ref s).boot = s.boot := have h := congrArg (fun t : State => t.boot) (replyPending_aside ref s); h
@[simp] theorem replyPending_ident (ref : PktRef) (s : State) : (replyPending ref s).ident = s.ident := have h := congrArg (fun t : State => t.ident) (replyPending_aside ref s); h
@[simp] theorem replyPending_prof (ref : PktRef) (s : State) : (replyPending ref s).prof = s.prof := have h := congrArg (fun t : State => t.prof) (replyPending_aside ref s); h
@[simp] theorem replyPending_hi_pcieUp (ref : PktRef) (s : State) : (replyPending ref s).hi.pcieUp = s.hi.pcieUp := have h := congrArg (fun t : State => t.hi.pcieUp) (replyPending_aside ref s); h
@[simp] theorem replyPending_hi_apLines (ref : PktRef) (s : State) : (replyPending ref s).hi.apLines = s.hi.apLines := have h := congrArg (fun t : State => t.hi.apLines) (replyPending_aside ref s); h
@[simp] theorem replyPending_hi_expectSeq (ref : PktRef) (s : State) : (replyPending ref s).hi.expectSeq = s.hi.expectSeq := have h := congrArg (fun t : State => t.hi.expectSeq) (replyPending_aside ref s); h
@[simp] theorem replyPending_hi_halt (ref : PktRef) (s : State) : (replyPending ref s).hi.halt = s.hi.halt := have h := congrArg (fun t : State => t.hi.halt) (replyPending_aside ref s); h
@[simp] theorem replyPending_hi_consume (ref : PktRef) (s : State) : (replyPending ref s).hi.consume = s.hi.consume := have h := congrArg (fun t : State => t.hi.consume) (replyPending_aside ref s); h
@[simp] theorem replyPending_hi_free (ref : PktRef) (s : State) : (replyPending ref s).hi.free = s.hi.free := have h := congrArg (fun t : State => t.hi.free) (replyPending_aside ref s); h
@[simp] theorem replyPending_hi_credit (ref : PktRef) (s : State) : (replyPending ref s).hi.credit = s.hi.credit := have h := congrArg (fun t : State => t.hi.credit) (replyPending_aside ref s); h
@[simp] theorem replyPending_hi_ringBase (ref : PktRef) (s : State) : (replyPending ref s).hi.ringBase = s.hi.ringBase := have h := congrArg (fun t : State => t.hi.ringBase) (replyPending_aside ref s); h
@[simp] theorem replyPending_hi_ringEn (ref : PktRef) (s : State) : (replyPending ref s).hi.ringEn = s.hi.ringEn := have h := congrArg (fun t : State => t.hi.ringEn) (replyPending_aside ref s); h
@[simp] theorem replyPending_hi_ringSize (ref : PktRef) (s : State) : (replyPending ref s).hi.ringSize = s.hi.ringSize := have h := congrArg (fun t : State => t.hi.ringSize) (replyPending_aside ref s); h
@[simp] theorem replyPending_hi_prod (ref : PktRef) (s : State) : (replyPending ref s).hi.prod = s.hi.prod := have h := congrArg (fun t : State => t.hi.prod) (replyPending_aside ref s); h
@[simp] theorem replyPending_hi_cons (ref : PktRef) (s : State) : (replyPending ref s).hi.cons = s.hi.cons := have h := congrArg (fun t : State => t.hi.cons) (replyPending_aside ref s); h
@[simp] theorem replyPending_hi_phase (ref : PktRef) (s : State) : (replyPending ref s).hi.phase = s.hi.phase := have h := congrArg (fun t : State => t.hi.phase) (replyPending_aside ref s); h
@[simp] theorem replyPending_hi_irqTime (ref : PktRef) (s : State) : (replyPending ref s).hi.irqTime = s.hi.irqTime := have h := congrArg (fun t : State => t.hi.irqTime) (replyPending_aside ref s); h
@[simp] theorem replyPending_hi_irqCount (ref : PktRef) (s : State) : (replyPending ref s).hi.irqCount = s.hi.irqCount := have h := congrArg (fun t : State => t.hi.irqCount) (replyPending_aside ref s); h
@[simp] theorem replyPending_hi_dropped (ref : PktRef) (s : State) : (replyPending ref s).hi.dropped = s.hi.dropped := have h := congrArg (fun t : State => t.hi.dropped) (replyPending_aside ref s); h
@[simp] theorem replyPending_hi_urgent (ref : PktRef) (s : State) : (replyPending ref s).hi.urgent = s.hi.urgent := have h := congrArg (fun t : State => t.hi.urgent) (replyPending_aside ref s); h
@[simp] theorem replyPending_hi_push (ref : PktRef) (s : State) : (replyPending ref s).hi.push = s.hi.push := have h := congrArg (fun t : State => t.hi.push) (replyPending_aside ref s); h
@[simp] theorem replyPending_hi_latchRemain (ref : PktRef) (s : State) : (replyPending ref s).hi.latchRemain = s.hi.latchRemain := have h := congrArg (fun t : State => t.hi.latchRemain) (replyPending_aside ref s); h
@[simp] theorem replyPending_hi_latchGroups (ref : PktRef) (s : State) : (replyPending ref s).hi.latchGroups = s.hi.latchGroups := have h := congrArg (fun t : State => t.hi.latchGroups) (replyPending_aside ref s); h
@[simp] theorem replyPending_hi_bar2Win (ref : PktRef) (s : State) : (replyPending ref s).hi.bar2Win = s.hi.bar2Win := have h := congrArg (fun t : State => t.hi.bar2Win) (replyPending_aside ref s); h
@[simp] theorem replyPending_hi_msix (ref : PktRef) (s : State) : (replyPending ref s).hi.msix = s.hi.msix := have h := congrArg (fun t : State => t.hi.msix) (replyPending_aside ref s); h
@[simp] theorem replyPending_hi_pba (ref : PktRef) (s : State) : (replyPending ref s).hi.pba = s.hi.pba := have h := congrArg (fun t : State => t.hi.pba) (replyPending_aside ref s); h
@[simp] theorem replyPending_hi_pushes (ref : PktRef) (s : State) : (replyPending ref s).hi.pushes = s.hi.pushes := have h := congrArg (fun t : State => t.hi.pushes) (replyPending_aside ref s); h
@[simp] theorem replyPending_hi_unsig (ref : PktRef) (s : State) : (replyPending ref s).hi.unsig = s.hi.unsig := have h := congrArg (fun t : State => t.hi.unsig) (replyPending_aside ref s); h
@[simp] theorem replyPending_hi_fullRaised (ref : PktRef) (s : State) : (replyPending ref s).hi.fullRaised = s.hi.fullRaised := have h := congrArg (fun t : State => t.hi.fullRaised) (replyPending_aside ref s); h
@[simp] theorem replyPending_hi_ftLatch (ref : PktRef) (s : State) : (replyPending ref s).hi.ftLatch = s.hi.ftLatch := have h := congrArg (fun t : State => t.hi.ftLatch) (replyPending_aside ref s); h
@[simp] theorem replyPending_hi_ftLatched (ref : PktRef) (s : State) : (replyPending ref s).hi.ftLatched = s.hi.ftLatched := have h := congrArg (fun t : State => t.hi.ftLatched) (replyPending_aside ref s); h
@[simp] theorem replyPending_hi_ppsLatch (ref : PktRef) (s : State) : (replyPending ref s).hi.ppsLatch = s.hi.ppsLatch := have h := congrArg (fun t : State => t.hi.ppsLatch) (replyPending_aside ref s); h
@[simp] theorem replyPending_hi_ppsLatched (ref : PktRef) (s : State) : (replyPending ref s).hi.ppsLatched = s.hi.ppsLatched := have h := congrArg (fun t : State => t.hi.ppsLatched) (replyPending_aside ref s); h
@[simp] theorem replyPending_hi_nonce (ref : PktRef) (s : State) : (replyPending ref s).hi.nonce = s.hi.nonce := have h := congrArg (fun t : State => t.hi.nonce) (replyPending_aside ref s); h
@[simp] theorem replyPending_hi_nonceAt (ref : PktRef) (s : State) : (replyPending ref s).hi.nonceAt = s.hi.nonceAt := have h := congrArg (fun t : State => t.hi.nonceAt) (replyPending_aside ref s); h
@[simp] theorem replyPending_hi_nonceCtr (ref : PktRef) (s : State) : (replyPending ref s).hi.nonceCtr = s.hi.nonceCtr := have h := congrArg (fun t : State => t.hi.nonceCtr) (replyPending_aside ref s); h
@[simp] theorem replyPending_hi_hostPort (ref : PktRef) (s : State) : (replyPending ref s).hi.hostPort = s.hi.hostPort := have h := congrArg (fun t : State => t.hi.hostPort) (replyPending_aside ref s); h
@[simp] theorem replyPending_hi_heldWrites (ref : PktRef) (s : State) : (replyPending ref s).hi.heldWrites = s.hi.heldWrites := have h := congrArg (fun t : State => t.hi.heldWrites) (replyPending_aside ref s); h
@[simp] theorem replyPending_db (ref : PktRef) (s : State) : (replyPending ref s).db = s.db := have h := congrArg (fun t : State => t.db) (replyPending_aside ref s); h
@[simp] theorem replyPending_life (ref : PktRef) (s : State) : (replyPending ref s).life = s.life := have h := congrArg (fun t : State => t.life) (replyPending_aside ref s); h
@[simp] theorem replyPending_sec (ref : PktRef) (s : State) : (replyPending ref s).sec = s.sec := have h := congrArg (fun t : State => t.sec) (replyPending_aside ref s); h
@[simp] theorem replyPending_job (ref : PktRef) (s : State) : (replyPending ref s).job = s.job := have h := congrArg (fun t : State => t.job) (replyPending_aside ref s); h
@[simp] theorem replyPending_stn (ref : PktRef) (s : State) : (replyPending ref s).stn = s.stn := have h := congrArg (fun t : State => t.stn) (replyPending_aside ref s); h
@[simp] theorem replyPending_strm (ref : PktRef) (s : State) : (replyPending ref s).strm = s.strm := have h := congrArg (fun t : State => t.strm) (replyPending_aside ref s); h
@[simp] theorem replyPending_sync (ref : PktRef) (s : State) : (replyPending ref s).sync = s.sync := have h := congrArg (fun t : State => t.sync) (replyPending_aside ref s); h
@[simp] theorem replyPending_mem (ref : PktRef) (s : State) : (replyPending ref s).mem = s.mem := have h := congrArg (fun t : State => t.mem) (replyPending_aside ref s); h
@[simp] theorem replyPending_ts (ref : PktRef) (s : State) : (replyPending ref s).ts = s.ts := have h := congrArg (fun t : State => t.ts) (replyPending_aside ref s); h
@[simp] theorem replyPending_opt (ref : PktRef) (s : State) : (replyPending ref s).opt = s.opt := have h := congrArg (fun t : State => t.opt) (replyPending_aside ref s); h
@[simp] theorem replyPending_sw (ref : PktRef) (s : State) : (replyPending ref s).sw = s.sw := have h := congrArg (fun t : State => t.sw) (replyPending_aside ref s); h
@[simp] theorem replyPending_tm (ref : PktRef) (s : State) : (replyPending ref s).tm = s.tm := have h := congrArg (fun t : State => t.tm) (replyPending_aside ref s); h
@[simp] theorem replyPending_bells (ref : PktRef) (s : State) : (replyPending ref s).bells = s.bells := have h := congrArg (fun t : State => t.bells) (replyPending_aside ref s); h
@[simp] theorem replyPending_ce (ref : PktRef) (s : State) : (replyPending ref s).ce = s.ce := have h := congrArg (fun t : State => t.ce) (replyPending_aside ref s); h
@[simp] theorem replyPending_cal (ref : PktRef) (s : State) : (replyPending ref s).cal = s.cal := have h := congrArg (fun t : State => t.cal) (replyPending_aside ref s); h
@[simp] theorem replyPending_pfx (ref : PktRef) (s : State) : (replyPending ref s).pfx = s.pfx := have h := congrArg (fun t : State => t.pfx) (replyPending_aside ref s); h
@[simp] theorem replyPending_net (ref : PktRef) (s : State) : (replyPending ref s).net = s.net := have h := congrArg (fun t : State => t.net) (replyPending_aside ref s); h
@[simp] theorem replyPending_nvw (ref : PktRef) (s : State) : (replyPending ref s).nvw = s.nvw := have h := congrArg (fun t : State => t.nvw) (replyPending_aside ref s); h
@[simp] theorem replyPending_nvs (ref : PktRef) (s : State) : (replyPending ref s).nvs = s.nvs := have h := congrArg (fun t : State => t.nvs) (replyPending_aside ref s); h
@[simp] theorem msix_pending (v : Nat) (s : State) : (msix v s).pending = s.pending := have h := congrArg (fun t : State => t.pending) (msix_aside v s); h
@[simp] theorem msix_sc (v : Nat) (s : State) : (msix v s).sc = s.sc := have h := congrArg (fun t : State => t.sc) (msix_aside v s); h
@[simp] theorem msix_free (v : Nat) (s : State) : (msix v s).free = s.free := have h := congrArg (fun t : State => t.free) (msix_aside v s); h
@[simp] theorem msix_pins (v : Nat) (s : State) : (msix v s).pins = s.pins := have h := congrArg (fun t : State => t.pins) (msix_aside v s); h
@[simp] theorem msix_pwr (v : Nat) (s : State) : (msix v s).pwr = s.pwr := have h := congrArg (fun t : State => t.pwr) (msix_aside v s); h
@[simp] theorem msix_boot (v : Nat) (s : State) : (msix v s).boot = s.boot := have h := congrArg (fun t : State => t.boot) (msix_aside v s); h
@[simp] theorem msix_ident (v : Nat) (s : State) : (msix v s).ident = s.ident := have h := congrArg (fun t : State => t.ident) (msix_aside v s); h
@[simp] theorem msix_prof (v : Nat) (s : State) : (msix v s).prof = s.prof := have h := congrArg (fun t : State => t.prof) (msix_aside v s); h
@[simp] theorem msix_hi_pcieUp (v : Nat) (s : State) : (msix v s).hi.pcieUp = s.hi.pcieUp := have h := congrArg (fun t : State => t.hi.pcieUp) (msix_aside v s); h
@[simp] theorem msix_hi_apLines (v : Nat) (s : State) : (msix v s).hi.apLines = s.hi.apLines := have h := congrArg (fun t : State => t.hi.apLines) (msix_aside v s); h
@[simp] theorem msix_hi_expectSeq (v : Nat) (s : State) : (msix v s).hi.expectSeq = s.hi.expectSeq := have h := congrArg (fun t : State => t.hi.expectSeq) (msix_aside v s); h
@[simp] theorem msix_hi_halt (v : Nat) (s : State) : (msix v s).hi.halt = s.hi.halt := have h := congrArg (fun t : State => t.hi.halt) (msix_aside v s); h
@[simp] theorem msix_hi_consume (v : Nat) (s : State) : (msix v s).hi.consume = s.hi.consume := have h := congrArg (fun t : State => t.hi.consume) (msix_aside v s); h
@[simp] theorem msix_hi_free (v : Nat) (s : State) : (msix v s).hi.free = s.hi.free := have h := congrArg (fun t : State => t.hi.free) (msix_aside v s); h
@[simp] theorem msix_hi_credit (v : Nat) (s : State) : (msix v s).hi.credit = s.hi.credit := have h := congrArg (fun t : State => t.hi.credit) (msix_aside v s); h
@[simp] theorem msix_hi_ringBase (v : Nat) (s : State) : (msix v s).hi.ringBase = s.hi.ringBase := have h := congrArg (fun t : State => t.hi.ringBase) (msix_aside v s); h
@[simp] theorem msix_hi_ringEn (v : Nat) (s : State) : (msix v s).hi.ringEn = s.hi.ringEn := have h := congrArg (fun t : State => t.hi.ringEn) (msix_aside v s); h
@[simp] theorem msix_hi_ringSize (v : Nat) (s : State) : (msix v s).hi.ringSize = s.hi.ringSize := have h := congrArg (fun t : State => t.hi.ringSize) (msix_aside v s); h
@[simp] theorem msix_hi_prod (v : Nat) (s : State) : (msix v s).hi.prod = s.hi.prod := have h := congrArg (fun t : State => t.hi.prod) (msix_aside v s); h
@[simp] theorem msix_hi_cons (v : Nat) (s : State) : (msix v s).hi.cons = s.hi.cons := have h := congrArg (fun t : State => t.hi.cons) (msix_aside v s); h
@[simp] theorem msix_hi_phase (v : Nat) (s : State) : (msix v s).hi.phase = s.hi.phase := have h := congrArg (fun t : State => t.hi.phase) (msix_aside v s); h
@[simp] theorem msix_hi_irqTime (v : Nat) (s : State) : (msix v s).hi.irqTime = s.hi.irqTime := have h := congrArg (fun t : State => t.hi.irqTime) (msix_aside v s); h
@[simp] theorem msix_hi_irqCount (v : Nat) (s : State) : (msix v s).hi.irqCount = s.hi.irqCount := have h := congrArg (fun t : State => t.hi.irqCount) (msix_aside v s); h
@[simp] theorem msix_hi_dropped (v : Nat) (s : State) : (msix v s).hi.dropped = s.hi.dropped := have h := congrArg (fun t : State => t.hi.dropped) (msix_aside v s); h
@[simp] theorem msix_hi_urgent (v : Nat) (s : State) : (msix v s).hi.urgent = s.hi.urgent := have h := congrArg (fun t : State => t.hi.urgent) (msix_aside v s); h
@[simp] theorem msix_hi_push (v : Nat) (s : State) : (msix v s).hi.push = s.hi.push := have h := congrArg (fun t : State => t.hi.push) (msix_aside v s); h
@[simp] theorem msix_hi_latchRemain (v : Nat) (s : State) : (msix v s).hi.latchRemain = s.hi.latchRemain := have h := congrArg (fun t : State => t.hi.latchRemain) (msix_aside v s); h
@[simp] theorem msix_hi_latchGroups (v : Nat) (s : State) : (msix v s).hi.latchGroups = s.hi.latchGroups := have h := congrArg (fun t : State => t.hi.latchGroups) (msix_aside v s); h
@[simp] theorem msix_hi_bar2Win (v : Nat) (s : State) : (msix v s).hi.bar2Win = s.hi.bar2Win := have h := congrArg (fun t : State => t.hi.bar2Win) (msix_aside v s); h
@[simp] theorem msix_hi_msix (v : Nat) (s : State) : (msix v s).hi.msix = s.hi.msix := have h := congrArg (fun t : State => t.hi.msix) (msix_aside v s); h
@[simp] theorem msix_hi_held (v : Nat) (s : State) : (msix v s).hi.held = s.hi.held := have h := congrArg (fun t : State => t.hi.held) (msix_aside v s); h
@[simp] theorem msix_hi_replies (v : Nat) (s : State) : (msix v s).hi.replies = s.hi.replies := have h := congrArg (fun t : State => t.hi.replies) (msix_aside v s); h
@[simp] theorem msix_hi_pushes (v : Nat) (s : State) : (msix v s).hi.pushes = s.hi.pushes := have h := congrArg (fun t : State => t.hi.pushes) (msix_aside v s); h
@[simp] theorem msix_hi_unsig (v : Nat) (s : State) : (msix v s).hi.unsig = s.hi.unsig := have h := congrArg (fun t : State => t.hi.unsig) (msix_aside v s); h
@[simp] theorem msix_hi_fullRaised (v : Nat) (s : State) : (msix v s).hi.fullRaised = s.hi.fullRaised := have h := congrArg (fun t : State => t.hi.fullRaised) (msix_aside v s); h
@[simp] theorem msix_hi_lists (v : Nat) (s : State) : (msix v s).hi.lists = s.hi.lists := have h := congrArg (fun t : State => t.hi.lists) (msix_aside v s); h
@[simp] theorem msix_hi_ftLatch (v : Nat) (s : State) : (msix v s).hi.ftLatch = s.hi.ftLatch := have h := congrArg (fun t : State => t.hi.ftLatch) (msix_aside v s); h
@[simp] theorem msix_hi_ftLatched (v : Nat) (s : State) : (msix v s).hi.ftLatched = s.hi.ftLatched := have h := congrArg (fun t : State => t.hi.ftLatched) (msix_aside v s); h
@[simp] theorem msix_hi_ppsLatch (v : Nat) (s : State) : (msix v s).hi.ppsLatch = s.hi.ppsLatch := have h := congrArg (fun t : State => t.hi.ppsLatch) (msix_aside v s); h
@[simp] theorem msix_hi_ppsLatched (v : Nat) (s : State) : (msix v s).hi.ppsLatched = s.hi.ppsLatched := have h := congrArg (fun t : State => t.hi.ppsLatched) (msix_aside v s); h
@[simp] theorem msix_hi_nonce (v : Nat) (s : State) : (msix v s).hi.nonce = s.hi.nonce := have h := congrArg (fun t : State => t.hi.nonce) (msix_aside v s); h
@[simp] theorem msix_hi_nonceAt (v : Nat) (s : State) : (msix v s).hi.nonceAt = s.hi.nonceAt := have h := congrArg (fun t : State => t.hi.nonceAt) (msix_aside v s); h
@[simp] theorem msix_hi_nonceCtr (v : Nat) (s : State) : (msix v s).hi.nonceCtr = s.hi.nonceCtr := have h := congrArg (fun t : State => t.hi.nonceCtr) (msix_aside v s); h
@[simp] theorem msix_hi_hostPort (v : Nat) (s : State) : (msix v s).hi.hostPort = s.hi.hostPort := have h := congrArg (fun t : State => t.hi.hostPort) (msix_aside v s); h
@[simp] theorem msix_hi_heldWrites (v : Nat) (s : State) : (msix v s).hi.heldWrites = s.hi.heldWrites := have h := congrArg (fun t : State => t.hi.heldWrites) (msix_aside v s); h
@[simp] theorem msix_db (v : Nat) (s : State) : (msix v s).db = s.db := have h := congrArg (fun t : State => t.db) (msix_aside v s); h
@[simp] theorem msix_life (v : Nat) (s : State) : (msix v s).life = s.life := have h := congrArg (fun t : State => t.life) (msix_aside v s); h
@[simp] theorem msix_sec (v : Nat) (s : State) : (msix v s).sec = s.sec := have h := congrArg (fun t : State => t.sec) (msix_aside v s); h
@[simp] theorem msix_job (v : Nat) (s : State) : (msix v s).job = s.job := have h := congrArg (fun t : State => t.job) (msix_aside v s); h
@[simp] theorem msix_stn (v : Nat) (s : State) : (msix v s).stn = s.stn := have h := congrArg (fun t : State => t.stn) (msix_aside v s); h
@[simp] theorem msix_strm (v : Nat) (s : State) : (msix v s).strm = s.strm := have h := congrArg (fun t : State => t.strm) (msix_aside v s); h
@[simp] theorem msix_sync (v : Nat) (s : State) : (msix v s).sync = s.sync := have h := congrArg (fun t : State => t.sync) (msix_aside v s); h
@[simp] theorem msix_mem (v : Nat) (s : State) : (msix v s).mem = s.mem := have h := congrArg (fun t : State => t.mem) (msix_aside v s); h
@[simp] theorem msix_ts (v : Nat) (s : State) : (msix v s).ts = s.ts := have h := congrArg (fun t : State => t.ts) (msix_aside v s); h
@[simp] theorem msix_opt (v : Nat) (s : State) : (msix v s).opt = s.opt := have h := congrArg (fun t : State => t.opt) (msix_aside v s); h
@[simp] theorem msix_sw (v : Nat) (s : State) : (msix v s).sw = s.sw := have h := congrArg (fun t : State => t.sw) (msix_aside v s); h
@[simp] theorem msix_tm (v : Nat) (s : State) : (msix v s).tm = s.tm := have h := congrArg (fun t : State => t.tm) (msix_aside v s); h
@[simp] theorem msix_bells (v : Nat) (s : State) : (msix v s).bells = s.bells := have h := congrArg (fun t : State => t.bells) (msix_aside v s); h
@[simp] theorem msix_ce (v : Nat) (s : State) : (msix v s).ce = s.ce := have h := congrArg (fun t : State => t.ce) (msix_aside v s); h
@[simp] theorem msix_cal (v : Nat) (s : State) : (msix v s).cal = s.cal := have h := congrArg (fun t : State => t.cal) (msix_aside v s); h
@[simp] theorem msix_pfx (v : Nat) (s : State) : (msix v s).pfx = s.pfx := have h := congrArg (fun t : State => t.pfx) (msix_aside v s); h
@[simp] theorem msix_net (v : Nat) (s : State) : (msix v s).net = s.net := have h := congrArg (fun t : State => t.net) (msix_aside v s); h
@[simp] theorem msix_nvw (v : Nat) (s : State) : (msix v s).nvw = s.nvw := have h := congrArg (fun t : State => t.nvw) (msix_aside v s); h
@[simp] theorem msix_nvs (v : Nat) (s : State) : (msix v s).nvs = s.nvs := have h := congrArg (fun t : State => t.nvs) (msix_aside v s); h
@[simp] theorem emit_pending (c : Chan) (p : Nat) (b : Bytes) (s : State) : (emit c p b s).pending = s.pending := rfl
@[simp] theorem emit_sc (c : Chan) (p : Nat) (b : Bytes) (s : State) : (emit c p b s).sc = s.sc := rfl
@[simp] theorem emit_free (c : Chan) (p : Nat) (b : Bytes) (s : State) : (emit c p b s).free = s.free := rfl
@[simp] theorem emit_pins (c : Chan) (p : Nat) (b : Bytes) (s : State) : (emit c p b s).pins = s.pins := rfl
@[simp] theorem emit_pwr (c : Chan) (p : Nat) (b : Bytes) (s : State) : (emit c p b s).pwr = s.pwr := rfl
@[simp] theorem emit_boot (c : Chan) (p : Nat) (b : Bytes) (s : State) : (emit c p b s).boot = s.boot := rfl
@[simp] theorem emit_ident (c : Chan) (p : Nat) (b : Bytes) (s : State) : (emit c p b s).ident = s.ident := rfl
@[simp] theorem emit_prof (c : Chan) (p : Nat) (b : Bytes) (s : State) : (emit c p b s).prof = s.prof := rfl
@[simp] theorem emit_hi (c : Chan) (p : Nat) (b : Bytes) (s : State) : (emit c p b s).hi = s.hi := rfl
@[simp] theorem emit_db (c : Chan) (p : Nat) (b : Bytes) (s : State) : (emit c p b s).db = s.db := rfl
@[simp] theorem emit_life (c : Chan) (p : Nat) (b : Bytes) (s : State) : (emit c p b s).life = s.life := rfl
@[simp] theorem emit_sec (c : Chan) (p : Nat) (b : Bytes) (s : State) : (emit c p b s).sec = s.sec := rfl
@[simp] theorem emit_job (c : Chan) (p : Nat) (b : Bytes) (s : State) : (emit c p b s).job = s.job := rfl
@[simp] theorem emit_stn (c : Chan) (p : Nat) (b : Bytes) (s : State) : (emit c p b s).stn = s.stn := rfl
@[simp] theorem emit_strm (c : Chan) (p : Nat) (b : Bytes) (s : State) : (emit c p b s).strm = s.strm := rfl
@[simp] theorem emit_sync (c : Chan) (p : Nat) (b : Bytes) (s : State) : (emit c p b s).sync = s.sync := rfl
@[simp] theorem emit_mem (c : Chan) (p : Nat) (b : Bytes) (s : State) : (emit c p b s).mem = s.mem := rfl
@[simp] theorem emit_ts (c : Chan) (p : Nat) (b : Bytes) (s : State) : (emit c p b s).ts = s.ts := rfl
@[simp] theorem emit_opt (c : Chan) (p : Nat) (b : Bytes) (s : State) : (emit c p b s).opt = s.opt := rfl
@[simp] theorem emit_sw (c : Chan) (p : Nat) (b : Bytes) (s : State) : (emit c p b s).sw = s.sw := rfl
@[simp] theorem emit_tm (c : Chan) (p : Nat) (b : Bytes) (s : State) : (emit c p b s).tm = s.tm := rfl
@[simp] theorem emit_bells (c : Chan) (p : Nat) (b : Bytes) (s : State) : (emit c p b s).bells = s.bells := rfl
@[simp] theorem emit_ce (c : Chan) (p : Nat) (b : Bytes) (s : State) : (emit c p b s).ce = s.ce := rfl
@[simp] theorem emit_cal (c : Chan) (p : Nat) (b : Bytes) (s : State) : (emit c p b s).cal = s.cal := rfl
@[simp] theorem emit_pfx (c : Chan) (p : Nat) (b : Bytes) (s : State) : (emit c p b s).pfx = s.pfx := rfl
@[simp] theorem emit_net (c : Chan) (p : Nat) (b : Bytes) (s : State) : (emit c p b s).net = s.net := rfl
@[simp] theorem emit_nvw (c : Chan) (p : Nat) (b : Bytes) (s : State) : (emit c p b s).nvw = s.nvw := rfl
@[simp] theorem emit_nvs (c : Chan) (p : Nat) (b : Bytes) (s : State) : (emit c p b s).nvs = s.nvs := rfl
@[simp] theorem emit_out (c : Chan) (p : Nat) (b : Bytes) (s : State) : (emit c p b s).out = { chan := c, port := p, body := b } :: s.out := rfl
@[simp] theorem useFree_pending (s : State) : (useFree s).pending = s.pending := rfl
@[simp] theorem useFree_sc (s : State) : (useFree s).sc = s.sc := rfl
@[simp] theorem useFree_out (s : State) : (useFree s).out = s.out := rfl
@[simp] theorem useFree_pins (s : State) : (useFree s).pins = s.pins := rfl
@[simp] theorem useFree_pwr (s : State) : (useFree s).pwr = s.pwr := rfl
@[simp] theorem useFree_boot (s : State) : (useFree s).boot = s.boot := rfl
@[simp] theorem useFree_ident (s : State) : (useFree s).ident = s.ident := rfl
@[simp] theorem useFree_prof (s : State) : (useFree s).prof = s.prof := rfl
@[simp] theorem useFree_hi (s : State) : (useFree s).hi = s.hi := rfl
@[simp] theorem useFree_db (s : State) : (useFree s).db = s.db := rfl
@[simp] theorem useFree_life (s : State) : (useFree s).life = s.life := rfl
@[simp] theorem useFree_sec (s : State) : (useFree s).sec = s.sec := rfl
@[simp] theorem useFree_job (s : State) : (useFree s).job = s.job := rfl
@[simp] theorem useFree_stn (s : State) : (useFree s).stn = s.stn := rfl
@[simp] theorem useFree_strm (s : State) : (useFree s).strm = s.strm := rfl
@[simp] theorem useFree_sync (s : State) : (useFree s).sync = s.sync := rfl
@[simp] theorem useFree_mem (s : State) : (useFree s).mem = s.mem := rfl
@[simp] theorem useFree_ts (s : State) : (useFree s).ts = s.ts := rfl
@[simp] theorem useFree_opt (s : State) : (useFree s).opt = s.opt := rfl
@[simp] theorem useFree_sw (s : State) : (useFree s).sw = s.sw := rfl
@[simp] theorem useFree_tm (s : State) : (useFree s).tm = s.tm := rfl
@[simp] theorem useFree_bells (s : State) : (useFree s).bells = s.bells := rfl
@[simp] theorem useFree_ce (s : State) : (useFree s).ce = s.ce := rfl
@[simp] theorem useFree_cal (s : State) : (useFree s).cal = s.cal := rfl
@[simp] theorem useFree_pfx (s : State) : (useFree s).pfx = s.pfx := rfl
@[simp] theorem useFree_net (s : State) : (useFree s).net = s.net := rfl
@[simp] theorem useFree_nvw (s : State) : (useFree s).nvw = s.nvw := rfl
@[simp] theorem useFree_nvs (s : State) : (useFree s).nvs = s.nvs := rfl
@[simp] theorem useFree_free (s : State) : (useFree s).free = s.free + 1 := rfl

end Sys2Proof.Laws
end

