-- ==== Sys2Proof/Laws/Memory.lean ====
section
/-!
SUPPORT. The form in which memory is held: reset memory has it, and every operation that writes LPDDR or the tile store keeps it.
-/

namespace Sys2Proof.Laws

open Sys2Proof.Machine

/-- Reset memory is in canonical form. -/
theorem reset_memWf : State.reset.memWf = true := rfl

/-- The form of a state's memory depends on what is stored alone. -/
theorem memWf_of_cells (s t : State) (h1 : t.mem.cells = s.mem.cells) (h2 : t.ts.cells = s.ts.cells) : t.memWf = s.memWf := by
  unfold State.memWf
  rw [h1, h2]

/-- The two parts of the form. -/
theorem memWf_iff (s : State) : s.memWf = true ↔ Memory.wf s.mem.cells = true ∧ Memory.wf s.ts.cells = true := by
  unfold State.memWf
  exact Bool.and_eq_true _ _ ▸ Iff.rfl

/-- Writing a burst keeps the form. -/
theorem putBurst_memWf (b : Nat) (w : Bytes) (s : State) (h : s.memWf = true) : (putBurst b w s).memWf = true := by
  rw [memWf_iff] at h ⊢
  exact ⟨twf_tsets 0 w s.mem.cells (36 * b) h.1, h.2⟩

/-- Writing a whole burst keeps the form. -/
theorem writeBurst_memWf (poison : Bool) (c : Coord) (d : Bytes) (s : State) (h : s.memWf = true) : (writeBurst poison c d s).memWf = true :=
  putBurst_memWf _ _ s h

/-- Writing whole words of tile store keeps the form. -/
theorem tsWhole_memWf (a : Nat) (d : Bytes) (s : State) (h : s.memWf = true) : (tsWhole a d s).memWf = true := by
  rw [memWf_iff] at h ⊢
  exact ⟨h.1, twf_tsets 0 d s.ts.cells a h.2⟩

/-- A channel that goes keeps the form of what stays. -/
theorem dropChannel_memWf (ch : Nat) (s : State) (h : s.memWf = true) : (dropChannel ch s).memWf = true := by
  rw [memWf_iff] at h ⊢
  exact ⟨twf_filter 0 _ s.mem.cells h.1, h.2⟩

/-- A repaired row, whatever it holds, keeps the form. -/
theorem freeRow_memWf (r : RowRemap) (s : State) (h : s.memWf = true) : (freeRow r s).memWf = true := by
  have hp : ∀ (a n : Nat) (vs : Bytes), ((s.modMem fun m => { m with cells := tsets 0 m.cells a vs }).modFree (· + n)).memWf = true := by
    intro a n vs
    rw [memWf_iff] at h ⊢
    exact ⟨twf_tsets 0 vs s.mem.cells a h.1, h.2⟩
  exact hp (36 * ((r.bank * 98320 + r.row) * 256)) 9216 ((List.range 9216).map fun i => Config.freeBits 8 (s.free + i))

/-! ### Reads and their records -/

/-- What is stored in LPDDR and in the tile store. -/
def stored (s : State) : List (Nat × BitVec 8) × List (Nat × BitVec 8) := (s.mem.cells, s.ts.cells)

/-- The form depends on what is stored alone. -/
theorem memWf_stored (s t : State) (h : stored t = stored s) : t.memWf = s.memWf :=
  memWf_of_cells s t (congrArg Prod.fst h) (congrArg Prod.snd h)

/-- Raising an event stores nothing in memory. -/
@[simp] theorem raise_stored (c x : Nat) (p : Bytes) (s : State) : stored (raise c x p s) = stored s := by
  unfold stored
  rw [raise_mem, raise_ts]

/-- A corrected error stores nothing. -/
@[simp] theorem memCorrected_stored (src : Nat) (pl : Bytes) (s : State) : stored (memCorrected src pl s) = stored s := by
  unfold memCorrected
  simp only [raise_stored]
  rfl

/-- A suspect pin stores nothing. -/
@[simp] theorem pinSuspect_stored (ch sub pin n : Nat) (s : State) : stored (pinSuspect ch sub pin n s) = stored s := by
  unfold pinSuspect
  dsimp only
  split <;> simp only [raise_stored] <;> rfl

/-- Counting a corrected symbol stores nothing. -/
@[simp] theorem pinHit_stored (ch sub pin : Nat) (s : State) : stored (pinHit ch sub pin s) = stored s := by
  unfold pinHit
  dsimp only
  split
  · simp only [pinSuspect_stored]
    rfl
  · rfl

/-- A fold of steps that store nothing stores nothing. -/
theorem foldl_stored {β : Type} (f : State → β → State) (h : ∀ s b, stored (f s b) = stored s) : ∀ (l : List β) (s : State), stored (l.foldl f s) = stored s
  | [], _ => rfl
  | b :: l, s => (foldl_stored f h l (f s b)).trans (h s b)

/-- A corrected burst stores nothing: a correction is not written back (R123). -/
@[simp] theorem burstCorrected_stored (c : Coord) (syms : List Nat) (s : State) : stored (burstCorrected c syms s) = stored s := by
  unfold burstCorrected
  dsimp only
  rw [foldl_stored _ (fun t p => pinHit_stored c.ch c.sub p t), memCorrected_stored]
  rfl

/-- A newly bad burst stores nothing. -/
@[simp] theorem distinctBad_stored (ch b : Nat) (s : State) : stored (distinctBad ch b s) = stored s := by
  unfold distinctBad
  dsimp only
  split
  · rfl
  · split
    · simp only [raise_stored]
      rfl
    · rfl

/-- An uncorrectable burst stores nothing. -/
@[simp] theorem burstBad_stored (c : Coord) (b : Nat) (syn : List (BitVec 8)) (q : MemSrc) (s : State) : stored (burstBad c b syn q s) = stored s := by
  unfold burstBad
  dsimp only
  split
  · rw [pinSuspect_stored]
    show stored (distinctBad _ _ _) = _
    rw [distinctBad_stored, raise_stored]
    rfl
  · rw [distinctBad_stored, raise_stored]
    rfl

/-- Reading a burst stores nothing, whatever it decodes to (R123, R131). -/
@[simp] theorem noteBurst_stored (c : Coord) (q : MemSrc) (o : BurstOut) (s : State) : stored (noteBurst c q o s) = stored s := by
  cases o
  · rfl
  · exact burstCorrected_stored ..
  · exact raise_stored ..
  · exact burstBad_stored ..

/-- Reading a tile-store word stores nothing (R126, R131). -/
@[simp] theorem noteWord_stored (kind : Nat) (q : MemSrc) (w : Nat) (k : SramKind) (s : State) : stored (noteWord kind q w k s) = stored s := by
  cases k
  · exact memCorrected_stored ..
  · show stored (raise _ _ _ _) = _
    rw [raise_stored]
    rfl
  · show stored (raise _ _ _ _) = _
    rw [raise_stored]

/-! ### Merge buffers and writes by address -/

/-- A merge entry written by read-modify-write keeps the form. -/
theorem mergeRmw_memWf (err : ReadErr) (m : MergeEnt) (s : State) (h : s.memWf = true) : (mergeRmw err m s).memWf = true := by
  unfold mergeRmw
  dsimp only
  split
  · exact putBurst_memWf _ _ _ ((memWf_stored _ _ (noteBurst_stored ..)).trans h)
  · exact putBurst_memWf _ _ _ ((memWf_stored _ _ (noteBurst_stored ..)).trans h)

/-- A narrow write of LPDDR keeps the form. -/
theorem narrowLp_memWf (err : ReadErr) (c : Coord) (off : Nat) (d : Bytes) (s : State) (h : s.memWf = true) : (narrowLp err c off d s).memWf = true := by
  unfold narrowLp
  dsimp only
  split
  · split
    · exact writeBurst_memWf _ _ _ _ h
    · exact h
  · split
    · split
      · exact mergeRmw_memWf err _ _ h
      · exact h
    · exact h

/-- Bytes put into a tile-store word keep the form. -/
theorem tsPut_memWf (a : Nat) (d : Bytes) (s t : State) (h : s.memWf = true) (h1 : t.mem.cells = s.mem.cells) (h2 : t.ts.cells = tsets 0 s.ts.cells a d) :
    t.memWf = true := by
  rw [memWf_iff] at h ⊢
  rw [h1, h2]
  exact ⟨h.1, twf_tsets 0 d s.ts.cells a h.2⟩

/-- A merge entry of tile store written by read-modify-write keeps the form. -/
theorem tsRmw_memWf (err : ReadErr) (m : MergeEnt) (s : State) (h : s.memWf = true) : (tsRmw err m s).memWf = true := by
  unfold tsRmw
  dsimp only
  have hn : ∀ k, (noteWord 3 { kind := 3 } m.key k s).memWf = true := fun k => (memWf_stored _ _ (noteWord_stored ..)).trans h
  split
  · exact tsPut_memWf _ _ s _ h rfl rfl
  · exact tsPut_memWf _ _ _ _ (hn _) rfl rfl
  · exact tsPut_memWf _ _ _ _ (hn _) rfl rfl

/-- A narrow write of tile store keeps the form. -/
theorem narrowTs_memWf (err : ReadErr) (w off : Nat) (d : Bytes) (s : State) (h : s.memWf = true) : (narrowTs err w off d s).memWf = true := by
  unfold narrowTs
  dsimp only
  split
  · split
    · exact tsWhole_memWf _ _ _ h
    · exact h
  · split
    · split
      · exact tsRmw_memWf err _ _ h
      · exact h
    · exact h

/-- So does a narrow write of any bytes. -/
theorem narrowIf_memWf (err : ReadErr) (a : Nat) (d : Bytes) (s : State) (h : s.memWf = true) : (narrowIf err a d s).memWf = true := by
  unfold narrowIf
  split
  · exact h
  · exact narrowTs_memWf _ _ _ _ _ h

/-- Writing bytes of tile store keeps the form (R127). -/
theorem tsWrite_memWf (err : ReadErr) (a : Nat) (d : Bytes) (s : State) (h : s.memWf = true) : (tsWrite err a d s).memWf = true :=
  narrowIf_memWf _ _ _ _ (tsWhole_memWf _ _ _ (narrowIf_memWf _ _ _ _ h))

/-- A fold of steps that keep the form keeps it. -/
theorem foldl_memWf {β : Type} (f : State → β → State) (hf : ∀ s b, s.memWf = true → (f s b).memWf = true) :
    ∀ (l : List β) (s : State), s.memWf = true → (l.foldl f s).memWf = true
  | [], _, h => h
  | b :: l, s, h => foldl_memWf f hf l (f s b) (hf s b h)

/-- Writing all merge entries keeps the form. -/
theorem mergeFlush_memWf (err : ReadErr) (s : State) (h : s.memWf = true) : (mergeFlush err s).memWf = true := by
  unfold mergeFlush
  exact foldl_memWf _ (fun t m ht => tsRmw_memWf err m t ht) _ _ (foldl_memWf _ (fun t m ht => mergeRmw_memWf err m t ht) _ _ h)

/-- Writing one piece of an access keeps the form. -/
theorem writePiece_memWf (err : ReadErr) (q : MemSrc) (source : Option Nat) (start : Nat) (data : Bytes) (s : State) (p : Nat × Nat) (h : s.memWf = true) :
    (writePiece err q source start data s p).memWf = true := by
  have hh : ∀ (x y : Nat), (hotCount x y s).memWf = true := fun _ _ => h
  have hn : ∀ (x y z : Nat), (noteHole x y z s).memWf = true := fun _ _ _ => (memWf_stored _ _ (raise_stored ..)).trans h
  unfold writePiece
  dsimp only
  split
  · split
    · split
      · cases source
        · exact writeBurst_memWf _ _ _ _ h
        · exact writeBurst_memWf _ _ _ _ (hh _ _)
      · cases source
        · exact narrowLp_memWf _ _ _ _ _ h
        · exact narrowLp_memWf _ _ _ _ _ (hh _ _)
    · split
      · exact hn _ _ _
      · exact h
  · exact tsWrite_memWf _ _ _ _ h
  · exact h

/-- A write by module address keeps the form. -/
theorem mpaWrite_memWf (err : ReadErr) (q : MemSrc) (source : Option Nat) (a : Nat) (data : Bytes) (s : State) (h : s.memWf = true) :
    (mpaWrite err q source a data s).memWf = true :=
  foldl_memWf _ (fun t p ht => writePiece_memWf err q source a data t p ht) _ _ h

end Sys2Proof.Laws
end

