-- ==== Sys2Proof/Laws/Packet.lean ====
section
/-!
SUPPORT. What the checks of a packet do: a packet whose body may run has its effect, or is refused 0x0105 for its parameters.
-/

namespace Sys2Proof.Laws

open Sys2Proof.Machine

/-- The checks of a packet whose body runs. -/
theorem bodyState_some (p : Pkt) (op : Nat) (params : Bytes) (s s2 : State) (h : bodyState p op params s = some s2) :
    svOn s = true ∧ ∃ s1, startPkt p op params s = some s1 ∧ headerCheck op p.expert p.sig.isSome p.target = 0 ∧
      (fwUp s1 || bootServed op) = true ∧ authCheck op params p s1 = 0 ∧
      s2 = pfxInput op p.target.toNat (if opSigned op then spendNonce p s1 else s1) := by
  unfold bodyState at h
  cases hs : svOn s
  · simp [hs] at h
  · cases h1 : startPkt p op params s with
    | none => simp [hs, h1] at h
    | some s1 =>
      simp only [hs, h1, Bool.not_true, Option.bind_some] at h
      by_cases hc : headerCheck op p.expert p.sig.isSome p.target = 0 ∧ (fwUp s1 || bootServed op) = true ∧ authCheck op params p s1 = 0
      · rw [if_neg (by simp), if_pos hc] at h
        exact ⟨rfl, s1, rfl, hc.1, hc.2.1, hc.2.2, (Option.some.inj h).symm⟩
      · rw [if_neg (by simp), if_neg hc] at h
        cases h

/-- What a packet does once it may run: its body, or the refusal of its parameters (R338 to R340, R350, R363). -/
theorem runPkt_body (p : Pkt) (op : Nat) (params : Bytes) (valid : Bool) (body : PktRef → State → State) (s s2 : State)
    (h : bodyState p op params s = some s2) :
    runPkt p op params valid body s = if valid then body (p.ref op) s2 else reply (p.ref op) stParamInvalid [] s2 := by
  obtain ⟨hs, s1, h1, h2, h3, h4, rfl⟩ := bodyState_some p op params s s2 h
  have h3' : (!fwUp s1 && !bootServed op) = false := by
    cases hf : fwUp s1 <;> cases hb : bootServed op <;> simp [hf, hb] at h3 ⊢
  unfold runPkt
  simp only [hs, h1, h2, h3', h4]
  cases valid <;> simp

end Sys2Proof.Laws
end

