-- ==== Sys2Proof/WellFormed.lean ====
section
/-!
DEFINITION. When a command is well formed: every operand that names a unit names one that the module has. Operands that are fields
of a packet or of a message are words of their own width and may hold any value; the command's meaning refuses what the spec refuses.
-/

namespace Sys2Proof

/-! ### What an operand may name -/

/-- A fibre, F0 to F15 (R140). -/
def isFibre (n : Nat) : Bool := decide (n < 16)

/-- A comb line or lane, 0 to 32 (R140). -/
def isLane (n : Nat) : Bool := decide (n < 33)

/-- A link of a fibre, 0 to 7 (R155). -/
def isLink (n : Nat) : Bool := decide (n < 8)

/-- A gate, P0 to P3, SW and K0 to K4 (R306). -/
def isGate (n : Nat) : Bool := decide (n < 10)

/-- A control engine, CE0 to CE5 (R256). -/
def isEngine (n : Nat) : Bool := decide (n < 6)

/-- A loop of an engine (R256). -/
def isLoop (n : Nat) : Bool := decide (n < 512)

/-- A compute die (R11). -/
def isDie (n : Nat) : Bool := decide (n < 4)

/-- A die with HX channels, C0 or C1 (R11, R12). -/
def isHxDie (n : Nat) : Bool := decide (n < 2)

/-- An MM of a die (R11). -/
def isMm (n : Nat) : Bool := decide (n < 16)

/-- A forward of a stream (R32). -/
def isForward (n : Nat) : Bool := decide (n < 2)

/-- An LPDDR package (R109). -/
def isPackage (n : Nat) : Bool := decide (n < 64)

/-- An HX channel of a die (R57, R118). -/
def isHxChannel (n : Nat) : Bool := decide (n < 16)

/-- A group of four fibres (R140). -/
def isGroup (n : Nat) : Bool := decide (n < 4)

/-- A cage of a faceplate group (R170). -/
def isCage (n : Nat) : Bool := decide (n < 2)

/-- A comb source, K0 to K4 (R140). -/
def isComb (n : Nat) : Bool := decide (n < 5)

/-- A link on which a message arrives: fibre × 8 + link (R155). -/
def isLinkPort (n : Nat) : Bool := decide (n < 128)

/-- A faceplate port: cage × 8 + port of the cage (R172; log entry 16, DESIGN CHOICE). -/
def isFacePort (n : Nat) : Bool := decide (n < 64)

/-- A 1588 port, 1 to 24 (R238). -/
def isPtpPort (n : Nat) : Bool := decide (1 ≤ n) && decide (n ≤ 24)

/-- An internal Bell (R249). -/
def isBell (n : Nat) : Bool := decide (n < 64)

/-- A pin Bell (R249). -/
def isPinBell (n : Nat) : Bool := decide (n < 8)

/-- A fibre as input or output of a crosspoint, or 16 for the local side (R175). -/
def isRingPort (n : Nat) : Bool := decide (n ≤ 16)

/-- A capture of the four components XI, XQ, YI, YQ (R285). -/
def isCapture (m : Machine.RunStats) : Bool := decide (m.arms.length = 4) && decide (m.tempLo ≤ m.tempHi)

/-- A byte of the aperture (R329, R334). -/
def isAperture (n : Nat) : Bool := decide (n < 1048576)

/-- A byte of BAR0 (R329). -/
def isBar0 (n : Nat) : Bool := decide (n < 33554432)

/-- A byte of BAR2's window (R333). -/
def isBar2 (n : Nat) : Bool := decide (n < 68719476736)

/-! ### Commands -/

/-- A command is well formed. -/
def Instr.wf : Instr → Bool
  | .internalBellRing bell => isBell bell
  | .pinBellRing bell => isPinBell bell
  | .kind1ForwardDone _ fwd _ => isForward fwd
  | .hxTransferEnd die chan _ _ _ => isHxDie die && isHxChannel chan
  | .recessWindowStart _ _ test _ _ => isCapture test
  | .idleRefresh die mm => isDie die && isMm mm
  | .idleScrub die mm _ => isDie die && isMm mm
  | .memTempReading pkg _ => isPackage pkg
  | .channelHotspot _ chan => isHxChannel chan
  | .remoteSignalEntry fibre link _ => isFibre fibre && isLink link
  | .superframeBoundary fibre _ _ _ => isFibre fibre
  | .dataCellArrival fibre link _ _ => isFibre fibre && isLink link
  | .linkAckNotice port _ => isLinkPort port
  | .resendTimerExpiry _ fwd _ => isForward fwd
  | .streamBreakNotice port _ => isLinkPort port
  | .streamTxStalled _ fwd => isForward fwd
  | .stretchNotice port _ => isLinkPort port
  | .unstretchNotice port _ => isLinkPort port
  | .lineCheckNotice port _ => isLinkPort port
  | .laneFailure fibre lane _ _ => isFibre fibre && isLane lane
  | .laneFailureReport port _ fibre lane => isLinkPort port && isFibre fibre && isLane lane
  | .spareRetargetDone fibre => isFibre fibre
  | .laneReadyMessage port _ fibre lane => isLinkPort port && isFibre fibre && isLane lane
  | .laneReadyTimeout fibre => isFibre fibre
  | .berMeasurement fibre lane _ _ => isFibre fibre && isLane lane
  | .fibreLos fibre _ => isFibre fibre
  | .aprEntry fibre => isFibre fibre
  | .fibreRestored fibre => isFibre fibre
  | .combSourceFault src _ _ => isComb src
  | .beaconFrame fibre _ _ => isFibre fibre
  | .xn5QueueHigh fibre _ _ => isFibre fibre
  | .xaRequest fibre _ => isFibre fibre
  | .xaGrant fibre _ => isFibre fibre
  | .xaDeny fibre _ => isFibre fibre
  | .xaRelease fibre _ => isFibre fibre
  | .xaAck fibre _ => isFibre fibre
  | .xn5LineIdle fibre lane => isFibre fibre && isLane lane
  | .cagePresencePoll group cage _ _ _ => isGroup group && isCage cage
  | .faceplateFrame port _ => isFacePort port
  | .faceplatePortDown port => isFacePort port
  | .ringStepComplete line inp out _ _ => isLane line && isRingPort inp && isRingPort out
  | .linkDeskewComplete fibre link lane _ => isFibre fibre && isLink link && isLane lane
  | .linkVerificationDone fibre link _ _ => isFibre fibre && isLink link
  | .faultNotice port _ => isLinkPort port
  | .p2pAck port _ => isLinkPort port
  | .rollCallAnswer fibre link _ _ => isFibre fibre && isLink link
  | .ptpSyncSend port => isPtpPort port
  | .pdelayReqSend port => isPtpPort port
  | .announceSend port => isPtpPort port
  | .ptpSync port _ _ => isPtpPort port
  | .pdelayReq port _ _ => isPtpPort port
  | .pdelayResp port _ _ => isPtpPort port
  | .announce port _ => isPtpPort port
  | .announceReceiptTimeout port => isPtpPort port
  | .loopSample eng loop _ _ _ _ => isEngine eng && isLoop loop
  | .calRotationDue fibre => isFibre fibre
  | .calRunComplete fibre _ _ test _ => isFibre fibre && isCapture test
  | .gateClaim gate _ _ _ => isGate gate
  | .gateConfigCommand gate _ _ => isGate gate
  | .gateReadbackRequest gate => isGate gate
  | .gateBroadcast gate _ _ _ => isGate gate
  | .gateResendTimeout gate _ => isGate gate
  | .pairCopyWindowExpiry gate => isGate gate
  | .pathPaceTimeout gate _ => isGate gate
  | .apertureWrite off _ => isAperture off
  | .registerWrite off _ => isBar0 off
  | .ftNowLowRead off _ => isBar0 off
  | .bar2Read off _ _ => isBar2 off
  | .bar2Write off _ => isBar2 off
  | .emergencyRefreshDue pkg => isPackage pkg
  | .serviceCellSlot fibre link => isFibre fibre && isLink link
  | .faceplatePortUp port => isFacePort port
  | .powerApplied .. | .supplySag .. | .supplyRestored .. | .nvWriteInhibitEnter .. | .nvWriteInhibitExit .. | .powerFail .. | .inputOvervoltage ..
  | .powerFailRecovery .. | .alwaysOnStoreExpired .. | .forceCold .. | .perstAssert .. | .perstRelease .. | .flr .. | .refclkLost ..
  | .refclkReturn .. | .ppsInEdge .. | .ppsInLost .. | .ppsOutPulse .. | .firmwareFetchDone .. | .firmwareRunning .. | .lpddrTrainingDone ..
  | .zeroFillDone .. | .combBringUp .. | .frequencyLockAcquired .. | .lanesUp .. | .startStepTimeout .. | .startRetry .. | .firmwareFatal ..
  | .powerStateReached .. | .issueThrottleStart .. | .issueThrottleEnd .. | .thermalTrip .. | .thermtripRelease .. | .coolantLimit ..
  | .photonicTempLimit .. | .periodBell .. | .planActivation .. | .stationNop .. | .signal .. | .signalRemote .. | .wait .. | .take .. | .release ..
  | .mma .. | .accFlush .. | .vew .. | .vred .. | .vcvt .. | .vxpose .. | .vgather .. | .vscatter .. | .vfunc .. | .sumOpen .. | .sumAdd ..
  | .sumClose .. | .expmax .. | .act .. | .rdrun .. | .wrrun .. | .pre .. | .prea .. | .refab .. | .refpb .. | .send .. | .sumpass .. | .h2d ..
  | .d2h .. | .pphase .. | .outputComplete .. | .sramBackgroundPass .. | .mergeEntryAged .. | .hostPortAccess .. | .streamHoldLimit ..
  | .noticeRepeat .. | .combSwapComplete .. | .xn5Activation .. | .xn5TxnTimeout .. | .pathPlanComplete .. | .p2pMessageRepeat ..
  | .p2pUndelivered .. | .rollCallAnswerTimer .. | .rollCallDone .. | .fastplaneSlotBoundary .. | .holdoverExpired .. | .journalWrite ..
  | .temperatureSetEval .. | .kopRefresh .. | .heartbeatSend .. | .heartbeat .. | .heartbeatMiss .. | .claimSettleExpiry .. | .claimRetryTimeout ..
  | .svHeartbeatWatch .. | .revertHoldoffExpiry .. | .pairModeChangeTimeout .. | .packetTaken .. | .apertureReset .. | .replyWrite ..
  | .replyRingFull .. | .eventPush .. | .vector0TimeLimit .. | .replyRingEnable .. | .replyRingDisable .. | .replyRingConsume .. | .bar2Timeout ..
  | .expertLatchExpiry .. | .fwGo .. | .combHoldRelease .. | .idModuleWrite .. | .bmWake .. | .bmAlertRead .. | .mirrorWrite .. | .checkpointWrite ..
  | .clearedRecordErase .. | .tokenRefill .. | .lifetimeStore .. | .nop .. | .identify .. | .executeList .. | .expertLatch ..
  | .setPowerStateAsleep .. | .setPowerStateAwake .. | .setPowerStateLit .. | .warmStart .. | .coldStart .. | .setPowerCap .. | .moduleProfileRead ..
  | .fabricProfileInstall .. | .fabricProfileRead .. | .jobLoad .. | .jobStartStrict .. | .jobStartLoose .. | .jobHoldBell .. | .jobHoldPeriod ..
  | .jobResumeStrict .. | .jobResumeLoose .. | .jobUnload .. | .jobStatus .. | .trapRead .. | .syncSignal .. | .syncArm .. | .syncRead ..
  | .syncReset .. | .contextRead .. | .memRead .. | .memWrite .. | .memFill .. | .hxRestart .. | .channelRetire .. | .rowRemapAdd ..
  | .rowRemapRemove .. | .memCountsRead .. | .pinMarkClear .. | .pprRequest .. | .softRepairWrite .. | .fieldFuseBurn .. | .channelRestore ..
  | .setLightPaths .. | .pathPlanCancel .. | .storeFallback .. | .fallbackArm .. | .fallbackDisarm .. | .fallbackRead .. | .rollCallOpen ..
  | .rollCallClose .. | .rollCallRead .. | .groupSetMode .. | .cageConfig .. | .cmisCdb .. | .combSwapIn .. | .combSwapRestore .. | .setCrosspoint ..
  | .clearCrosspoint .. | .laneForceSpare .. | .laneFailedClear .. | .timeSetNow .. | .timeSetAtPps .. | .timeAdjust .. | .timeSource ..
  | .ptpPortSet .. | .timeStatus .. | .bellSet .. | .bellCancel .. | .loopRead .. | .loopSetPoint .. | .loopFlagsRead .. | .roteSave ..
  | .roteLoad .. | .loopWriteDesc .. | .loopWriteCoeffs .. | .loopEnable .. | .loopDisable .. | .calConfig .. | .calLaneStep .. | .calRead ..
  | .privRead .. | .privWriteComb .. | .privWriteEoBias .. | .calSuspectClear .. | .prefectStatus .. | .prefectSetMode .. | .prefectSetHome ..
  | .prefectRevertEnable .. | .prefectSwitchover .. | .daybookRead .. | .daybookClear .. | .daybookRateSet .. | .nonceGet .. | .attest ..
  | .certRead .. | .operatorKeyInstall .. | .operatorKeyRemove .. | .mr7Extend .. | .lifetimeRead .. | .calendarSet .. | .calendarRead ..
  | .getVersion .. | .getCapabilities .. | .negotiateAlgorithms .. | .getDigests .. | .getCertificate .. | .challenge .. | .getMeasurements ..
  | .spdmUnsupportedRequest .. | .nvCommandWaitTimeout .. | .mirrorQueueTimeout .. | .postPackageRepairDone .. | .thermtripAlertRepeat .. => true

end Sys2Proof
end

