-- ==== Sys2Proof/Tests/Slice0.lean ====
section
/-!
SUPPORT. Tests. For every statement about the machine, a state and operands that meet the hypotheses of each of its clauses; checks of
values that the spec works out; and ill-formed commands that the check of well-formedness refuses.
-/

namespace Sys2Proof.Tests

open Sys2Proof Sys2Proof.Machine

set_option maxRecDepth 100000
set_option Elab.async false

/-! ### Small states -/

/-- The state after a command that answers one. -/
def after (c : Instr) (s : State) : State :=
  match exec c s with
  | .next t => t
  | _ => s

/-- The state in which a packet's body runs. -/
def begun (p : Pkt) (op : Nat) (params : Bytes) (s : State) : State := (bodyState p op params s).getD s

/-- A packet of an opcode of basic level, and one of expert level. -/
def pk : Pkt := {}

/-- A packet of expert level. -/
def px : Pkt := { expert := true }

/-- In a power state, with firmware that serves every opcode and the host's ring enabled. -/
def up (ps : PState) : State :=
  { State.reset with
    pwr := { State.reset.pwr with aon := true, ps := ps }
    mem := { State.reset.mem with selfRef := decide (ps = .awake ∨ ps = .asleep) }
    boot := { State.reset.boot with fwRunning := true, stage := 11 }
    hi := { State.reset.hi with pcieUp := true, ringEn := true, latchGroups := 0xFFF, latchRemain := 60 }
    pfx := { State.reset.pfx with
      pa := { role := .controlling, health := 0x3F }, pb := { role := .standby, health := 0x3F }, x0 := true, x1 := true } }

/-- Awake. -/
def awake : State := up .awake

/-- Lit. -/
def lit : State := up .lit

/-- Running. -/
def run : State := up .running

/-- An operator key stands at index 0, and a nonce has been given. -/
def keyed (s : State) : State :=
  { s with
    sec := { s.sec with keys := [(0, 0x3617de4a96262c6f5d9e98bf9292dc29f8f41dbd289a147ce9da3113b5f0b8c00a60b1ce1d7e819d7a431d7c90ea0e5faa87ca22be8b05378eb1c71ef320ad746e1d3b628ba79b9859f741e082542a385502f25dbf55296c3a545e3872760ab7)] }
    hi := { s.hi with nonce := some 0 } }

/-! ### Words and tiles -/

/-- Operand fields laid from bit 90 downward (R52). -/
def pack : Nat → List Nat → List Nat → Nat
  | top, n :: ns, a :: as => a * 2 ^ (top - n) + pack (top - n) ns as
  | _, _, _ => 0

/-- An issue word at offset 0: opcode, modifiers, operands (R52, R55). -/
def iw (opc mods : Nat) (args : List Nat) : BitVec 128 :=
  BitVec.ofNat 128 (opc * 2 ^ 94 + mods * 2 ^ 90 + pack 90 (((iwRow opc).map (·.widths)).getD []) args)

/-- The first word of a program, expanded. -/
def ew (w : BitVec 128) : Ew := ⟨0, w, 0, 0, 0, 0⟩

/-- Binding entry k of a list of formats and grid modes: a tile of one element of stream k + 1. -/
def bd (k : Nat) (f : Nat × Nat) : Binding :=
  { stream := BitVec.ofNat 20 (k + 1), format := BitVec.ofNat 8 f.1, gridMode := BitVec.ofNat 2 f.2, layout := 0, scalePlace := 0, rowsM1 := 0, colsM1 := 0 }

/-- A ring of two slots that holds tile 0. -/
def ring2 (k : Nat) : StreamCtx := { state := .open, bufBase := BitVec.ofNat 21 (8 * k), slotSize := 2, slotCntM1 := 1, tseqHead := 1 }

/-- Put tile 0 of an entry into its slot: one byte of payload, then zeros. -/
def putTile (s : State) (b : Binding) (v : BitVec 8) : State :=
  tsWrite {} (slotAddr b.stream (ctxOf s b.stream) 0)
    (({ stream := b.stream, format := b.format, gridMode := b.gridMode, plen := BitVec.ofNat 17 b.shape.plen } : TileHdr).bytes ++ padTo b.shape.plen [v]) s

/-- A job in strict mode, 1 µs into its first period, with one program and the streams of its binding table. -/
def job1 (x : BitVec 16) (ws : List (BitVec 128)) (fs : List (Nat × Nat)) : State :=
  let bs := (List.range fs.length).map fun k => bd k (fs.getD k (1, 0))
  bs.foldl (fun s b => putTile s b (BitVec.ofNat 8 b.stream.toNat))
    { run with
      tm := { run.tm with valid := true, ft := 64000 }
      job := { run.job with st := .strict, gridOn := true, number := 7,
                            image := some { periodNs := 20000, stretchNs := 30000, programs := [(x, ws)], binds := [(x, bs)], house := if stnKind x = 4 ∧ iwOpc (ws.headD 0) ∉ [0x40, 0x41, 0x42, 0x43, 0x44] then [(x, ws)] else [] } }
      strm := { run.strm with ctx := bs.map fun b => (b.stream.toNat, ring2 b.stream.toNat) } }

/-- What a word's input tiles read as. -/
def ins (x : BitVec 16) (w : BitVec 128) (s : State) : List TileIn := (readTiles {} x (ew w) (usesOf s x w) s).2.1

/-- The state after they have been read. -/
def rdDone (x : BitVec 16) (w : BitVec 128) (s : State) : State := (readTiles {} x (ew w) (usesOf s x w) s).2.2

/-- An input tile of a list. -/
def tin (k : Nat) (l : List TileIn) : TileIn := l.getD k ⟨{}, ⟨1, 1, 1, 0, 0, 0⟩, [], false, 0⟩

/-- A cell of a header without its CRC and a payload. -/
def mkCell (hdr : Nat) (pay : Bytes) : Bytes := le 28 hdr ++ le 4 (crc32c (le 28 hdr ++ padTo 1024 pay)) ++ padTo 1024 pay

/-- A native Ethernet frame of an EtherType (R172). -/
def frame (ty : Nat) (body : Bytes) : Bytes := let b := zeros 12 ++ (le 2 ty).reverse ++ body; b ++ le 4 (fcs b)

/-- Lit, in a ring of two modules in XN5 mode on fibre 4. -/
def ringed (m : BitVec 12) : State :=
  { lit with
    ident := { lit.ident with active := m }
    prof := { lit.prof with
      fab := some { modules := [m, 3], links := [{ a := m, aFibre := 4, b := 3, bFibre := 4 }, { a := 3, aFibre := 4, b := m, bFibre := 4 }] } }
    opt := { lit.opt with fibres := [(4, ({ mode := .xn5 } : Fibre))] } }


/-- Lit, with one comb locked. -/
def combLit : State := lit.modOpt fun zz => { zz with combs := [(0, ({ lit := true, locked := true } : Comb))] }

/-- The same, with an Announce heard on port 16 whose dataset is the lowest. -/
def heardLit : State := combLit.modTm fun zz => { zz with ports := [(16, ({ annSeen := true, annKey := 0 } : Port))] }

theorem best_own : bestKey combLit = ownKey combLit := by
  have h : heardSets combLit = [] := by decide +kernel
  rw [bestKey, h, nearestSets, List.filter_nil, List.foldl_nil]

theorem best_zero : bestKey heardLit = 0 := by
  have h : nearestSets (heardSets heardLit) = [(0, 0)] := by decide +kernel
  rw [bestKey, h, List.foldl_cons, List.foldl_nil, Nat.min_zero]

theorem clock_pos : clockId (moduleId heardLit) ≠ 0 := by decide +kernel

theorem dataset_ge (p c a v q i : Nat) : i ≤ dataset p c a v q i := Nat.le_add_left _ _

theorem ownKey_ge (s : State) : clockId (moduleId s) ≤ ownKey s := dataset_ge _ _ _ _ _ _

theorem best_other : bestKey heardLit ≠ ownKey heardLit := by
  intro h
  have g := ownKey_ge heardLit
  rw [← h, best_zero] at g
  exact clock_pos (Nat.le_zero.mp g)

/-- Lit, with every LPDDR channel retired and the MM stations out, so that an image needs no refresh words. -/
def bare : State :=
  { lit with
    mem := { lit.mem with retired := List.range 256 }
    ident := { lit.ident with unavail := (List.range 64).map fun m => mkStn (m / 16) 4 (m % 16) } }

/-- An image of one program of one NOP, in a period of 20 µs, that names a module profile. -/
def image1 (mprof : Nat) : Bytes :=
  (le 4 0x31545447 ++ le 2 1 ++ le 2 0xFFF) ++ le 48 mprof ++
    (zeros 50 ++ le 2 2 ++ le 4 20000 ++ le 4 20050 ++ le 4 1 ++ zeros 8 ++ le 2 1 ++ zeros 126 ++ le 2 1 ++ le 2 0x0100 ++ le 8 320 ++ le 4 16 ++ zeros 64)

/-- The state in which a JOB_LOAD of 336 bytes runs. -/
def bareU : State := begun pk 0x0204 (le 8 0 ++ le 4 336 ++ le 8 0 ++ le 8 0 ++ le 8 0) bare

/-- The image for this module. -/
def img : Bytes := image1 (profileId bareU).toNat

theorem ofLe_le (k n : Nat) : ofLe (le k n) = n % 256 ^ k := by
  induction k generalizing n with
  | zero => simp [le, ofLe, Nat.mod_one]
  | succ k ih =>
    show n % 256 + 256 * ofLe (le k (n / 256)) = n % 256 ^ (k + 1)
    rw [ih]
    exact Nat.mod_mul.symm.trans (by rw [Nat.pow_succ, Nat.mul_comm])

theorem length_le (k n : Nat) : (le k n).length = k := by
  induction k generalizing n with
  | zero => rfl
  | succ k ih => simp [le, ih]

theorem mod_pow (n k : Nat) : n % 256 ^ k % 2 ^ (8 * k) = n % 2 ^ (8 * k) := by
  rw [Nat.pow_mul 2 8 k]
  exact Nat.mod_mod _ _

set_option exponentiation.threshold 400 in
theorem image_mprof (n : Nat) : (readImage (image1 n)).mprof = BitVec.ofNat 384 n := by
  have h : rd (image1 n) 8 48 = n % 256 ^ 48 := by
    have e : part (image1 n) 8 48 = le 48 n := by
      unfold part image1
      rw [List.append_assoc, List.drop_left' (by decide), List.take_left' (length_le 48 n)]
    rw [rd, e, ofLe_le]
  show BitVec.ofNat 384 (rd (image1 n) 8 48) = _
  rw [h]
  exact BitVec.eq_of_toNat_eq (by rw [BitVec.toNat_ofNat, BitVec.toNat_ofNat]; exact mod_pow n 48)

theorem image_loads : loadCheck bareU img = none := by
  have c1 : formatOk img = true := by decide +kernel
  have c2 : need (decide ((readImage img).module.toNat = (moduleId bareU).toNat)) = none := by decide +kernel
  have c3 : need (decide ((readImage img).mprof = profileId bareU)) = none := by
    have h : (readImage img).mprof = profileId bareU := (image_mprof _).trans (BitVec.eq_of_toNat_eq (by rw [BitVec.toNat_ofNat]; exact Nat.mod_eq_of_lt (profileId bareU).isLt))
    rw [decide_eq_true h]
    rfl
  have c4 : need (decide ((readImage img).fprof = bareU.prof.fabId)) = none := by decide +kernel
  have c5 : check5 bareU (readImage img) = none := by decide +kernel
  have c6 : check6 bareU img (readImage img) = none := by decide +kernel
  have c7 : check7 img (readImage img) = none := by decide +kernel
  have c8 : check8 bareU (readImage img) = none := by decide +kernel
  have c9 : check9 bareU (readImage img) = none := by decide +kernel
  have c10 : check10 img (readImage img) = none := by decide +kernel
  have c11 : check11 bareU (readImage img) (workSlots bareU (readImage img)) (houseSlots bareU (readImage img)) = none := by decide +kernel
  have c12 : check12 (readImage img) (workSlots bareU (readImage img)) = none := by decide +kernel
  have c13 : check13 (workSlots bareU (readImage img)) (houseSlots bareU (readImage img)) = none := by decide +kernel
  have c14 : check14 (readImage img) (workSlots bareU (readImage img)) (houseSlots bareU (readImage img)) = none := by decide +kernel
  have c15 : check15 bareU (readImage img) (houseSlots bareU (readImage img)) = none := by decide +kernel
  have c16 : check16 bareU (readImage img) (workSlots bareU (readImage img)) (houseSlots bareU (readImage img)) = none := by decide +kernel
  have c17 : check17 bareU img (readImage img) = none := by decide +kernel
  have c18 : check18 bareU (readImage img) = none := by decide +kernel
  have c19 : check19 (readImage img) = none := by decide +kernel
  simp only [loadCheck, c1, List.foldl, c2, c3, c4, c5, c6, c7, c8, c9, c10, c11, c12, c13, c14, c15, c16, c17, c18, c19, Bool.not_true, Option.map_none,
    Bool.false_eq_true, if_false]

theorem image_taken : loadCheck bareU (img.take 336) = none := by
  have h : img.length ≤ 336 := by decide +kernel
  rw [List.take_of_length_le h]
  exact image_loads

/-! ### A state and operands that meet the hypotheses of each clause of each statement -/

theorem witness_StepRunsTheFrontCommand :
    (∃ (s : State), s.pending = []) ∧
    (∃ (s : State), s.pwr.aon = false) :=
  ⟨⟨(lit : State), by decide +kernel⟩,
   ⟨(State.reset : State), by decide +kernel⟩⟩

theorem witness_ApertureWriteFillsFreeLines :
    (∃ (line : Nat) (n : Nat) (data : Bytes) (s : State), hostUp s = true ∧ writeWaits s = false ∧ s.hi.halt = false ∧ 0 < n ∧ data.length = 64 * n ∧ line + n ≤ 16384 ∧ ((∀ i, i < n → tget [] s.hi.apLines (line + i) = []))) ∧
    (∃ (off : Nat) (data : Bytes) (s : State), hostUp s = true ∧ writeWaits s = false ∧ s.hi.halt = false ∧ data ≠ [] ∧ (off % 64 ≠ 0 ∨ data.length % 64 ≠ 0 ∨ (∃ i, i < data.length / 64 ∧ tget [] s.hi.apLines (off / 64 + i) ≠ []))) ∧
    (∃ (s : State), hostUp s = true ∧ writeWaits s = true) :=
  ⟨⟨(16383 : Nat), (1 : Nat), (List.replicate 64 1 : Bytes), (lit : State), by decide +kernel⟩,
   ⟨(32 : Nat), (List.replicate 64 0 : Bytes), (lit : State), by decide +kernel⟩,
   ⟨((lit.modHi fun zz => { zz with hostPort := [({ kind := 1, len := 1 } : PortAcc)] }) : State), by decide +kernel⟩⟩

theorem witness_PacketTakenHoldsThePacket :
    (∃ (s : State) (first : Bytes) (b : Bytes), svOn s = true ∧ s.hi.held.length < 256 ∧ s.hi.lists = none ∧ s.hi.halt = false ∧ tget [] s.hi.apLines s.hi.consume.toNat = first ∧ first ≠ [] ∧ 2 ≤ (readHdr first).len ∧ (readHdr first).len ≤ 8192 ∧ takeLines s.hi.apLines s.hi.consume.toNat (ceilDiv (8 * (readHdr first).len) 64) = some b ∧ takeCheck (readHdr first) s.hi.expectSeq.toNat false (b.take (8 * (readHdr first).len)) = 0) :=
  ⟨((lit.modHi fun zz => { zz with apLines := [(0, le 4 0 ++ [0, 0xFF, 0, 0] ++ le 4 0 ++ le 2 2 ++ le 2 0x0100 ++ zeros 48)] }) : State), (le 4 0 ++ [0, 0xFF, 0, 0] ++ le 4 0 ++ le 2 2 ++ le 2 0x0100 ++ zeros 48 : Bytes), (le 4 0 ++ [0, 0xFF, 0, 0] ++ le 4 0 ++ le 2 2 ++ le 2 0x0100 ++ zeros 48 : Bytes), by decide +kernel⟩

theorem witness_ReplyWriteFillsTheRing :
    (∃ (s : State) (r : Reply) (rest : List Reply), hostUp s = true ∧ s.hi.ringEn = true ∧ s.hi.replies = r :: rest ∧ ringFull s.hi = false) ∧
    (∃ (s : State), hostUp s = true ∧ s.hi.ringEn = true ∧ ringFull s.hi = true) :=
  ⟨⟨((lit.modHi fun zz => { zz with replies := [({} : Reply)] }) : State), ({} : Reply), ([] : List Reply), by decide +kernel⟩,
   ⟨((lit.modHi fun zz => { zz with cons := 1 }) : State), by decide +kernel⟩⟩

theorem witness_RegistersRingAndPushes :
    (∃ (v : BitVec 32) (s : State), hostUp s = true ∧ writeWaits s = false ∧ v.getLsbD 31 = true ∧ s.hi.ringEn = false ∧ 12 ≤ v.toNat % 32 ∧ v.toNat % 32 ≤ 24) ∧
    (∃ (v : BitVec 32) (s : State), hostUp s = true ∧ writeWaits s = false ∧ v.getLsbD 31 = false ∧ s.hi.ringEn = true) ∧
    (∃ (s : State), hostUp s = true ∧ writeWaits s = false) ∧
    (∃ (s : State), svOn s = true ∧ s.hi.ringEn = true ∧ ringFull s.hi = true ∧ s.hi.fullRaised = false) ∧
    (∃ (s : State) (q : Push) (rest : List Push), hostUp s = true ∧ s.hi.ringEn = true ∧ s.hi.pushes = q :: rest ∧ ringFull s.hi = false) ∧
    (∃ (s : State) (q : Push) (rest : List Push), hostUp s = true ∧ s.hi.ringEn = true ∧ s.hi.pushes = q :: rest ∧ ringFull s.hi = true ∧ q.sure = false) ∧
    (∃ (s : State), hostUp s = true ∧ s.hi.irqTime ≠ 0 ∧ s.hi.unsig ≠ 0) ∧
    (∃ (s : State), s.hi.fullRaised = true) ∧
    (∃ (s : State) (q : Push) (rest : List Push), hostUp s = true ∧ s.hi.ringEn = true ∧ s.hi.pushes = q :: rest ∧ ringFull s.hi = true ∧ q.sure = true) ∧
    (∃ (v : BitVec 32) (s : State), hostUp s = true ∧ writeWaits s = false ∧ v.getLsbD 0 = true) ∧
    (∃ (data : Bytes) (s : State), hostUp s = true ∧ writeWaits s = false ∧ data.length ≠ 4 ∧ data.length ≠ 8) ∧
    (∃ (s : State), hostUp s = true) ∧
    (∃ (s : State), s.pwr.aon = true) ∧
    (∃ (s : State), hostUp s = true ∧ writeWaits s = true) ∧
    (∃ (v : BitVec 32) (s : State), hostUp s = true ∧ writeWaits s = true ∧ v.getLsbD 0 = true) ∧
    (∃ (v : BitVec 32) (s : State), hostUp s = true ∧ writeWaits s = true ∧ v.getLsbD 31 = true) ∧
    (∃ (v : BitVec 32) (s : State), hostUp s = true ∧ writeWaits s = true ∧ v.getLsbD 31 = false) :=
  ⟨⟨(0x8000000C : BitVec 32), ((lit.modHi fun zz => { zz with ringEn := false }) : State), by decide +kernel⟩,
   ⟨(0 : BitVec 32), (lit : State), by decide +kernel⟩,
   ⟨(lit : State), by decide +kernel⟩,
   ⟨((lit.modHi fun zz => { zz with cons := 1 }) : State), by decide +kernel⟩,
   ⟨((lit.modHi fun zz => { zz with pushes := [({} : Push)] }) : State), ({} : Push), ([] : List Push), by decide +kernel⟩,
   ⟨((lit.modHi fun zz => { zz with pushes := [({} : Push)], cons := 1 }) : State), ({} : Push), ([] : List Push), by decide +kernel⟩,
   ⟨((lit.modHi fun zz => { zz with irqTime := 1, unsig := 1 }) : State), by decide +kernel⟩,
   ⟨((lit.modHi fun zz => { zz with fullRaised := true }) : State), by decide +kernel⟩,
   ⟨((lit.modHi fun zz => { zz with pushes := [({ sure := true } : Push)], cons := 1 }) : State), ({ sure := true } : Push), ([] : List Push), by decide +kernel⟩,
   ⟨(1 : BitVec 32), (lit : State), by decide +kernel⟩,
   ⟨([1] : Bytes), (lit : State), by decide +kernel⟩,
   ⟨(lit : State), by decide +kernel⟩,
   ⟨(lit : State), by decide +kernel⟩,
   ⟨((lit.modHi fun zz => { zz with hostPort := [({ kind := 1, len := 1 } : PortAcc)] }) : State), by decide +kernel⟩,
   ⟨(1 : BitVec 32), ((lit.modHi fun zz => { zz with hostPort := [({ kind := 1, len := 1 } : PortAcc)] }) : State), by decide +kernel⟩,
   ⟨(0x80000000 : BitVec 32), ((lit.modHi fun zz => { zz with hostPort := [({ kind := 1, len := 1 } : PortAcc)] }) : State), by decide +kernel⟩,
   ⟨(0 : BitVec 32), ((lit.modHi fun zz => { zz with hostPort := [({ kind := 1, len := 1 } : PortAcc)] }) : State), by decide +kernel⟩⟩

theorem witness_BootRegistersTriggersAndPins :
    (∃ (v : BitVec 32) (s : State), hostUp s = true ∧ writeWaits s = false ∧ v.getLsbD 30 = true ∧ s.boot.stage = 4) ∧
    (∃ (v : BitVec 32) (s : State), hostUp s = true ∧ writeWaits s = false ∧ v.getLsbD 29 = false ∧ v.getLsbD 30 = false) ∧
    (∃ (s : State), hostUp s = true ∧ writeWaits s = false ∧ s.pwr.ps = .awake ∧ s.pwr.target = none) ∧
    (∃ (s : State), writeWaits s = false ∧ (s.pwr.ps ≠ .awake ∨ s.pwr.target ≠ none)) ∧
    (∃ (v : BitVec 32) (s : State), hostUp s = true ∧ writeWaits s = true ∧ v.getLsbD 30 = true) ∧
    (∃ (v : BitVec 32) (s : State), hostUp s = true ∧ writeWaits s = true ∧ v.getLsbD 29 = false) ∧
    (∃ (s : State), hostUp s = true ∧ writeWaits s = true) ∧
    (∃ (ns : Nat) (s : State), s.pwr.aon = true ∧ s.pwr.holdUp = false ∧ 10000 ≤ ns) ∧
    (∃ (ns : Nat), ns < 2000) ∧
    (∃ (p : Pkt) (s : State) (u : State), bodyState p 0x0106 [] s = some u) ∧
    (∃ (s : State), svOn s = true ∧ s.boot.stage.toNat < 11) ∧
    (∃ (s : State), svOn s = true ∧ s.boot.stage = 11 ∧ s.boot.perstWarm = false) ∧
    (∃ (us : Nat) (s : State), s.pins.perst = true ∧ inAsleep s = true ∧ 100 ≤ us ∧ s.pwr.target = none) ∧
    (∃ (s : State), s.pins.perst = true ∧ svOn s = true ∧ s.boot.stage = 11 ∧ s.boot.perstIntent = true) ∧
    (∃ (s : State), svOn s = true ∧ s.pins.refclk = true) ∧
    (∃ (s : State), svOn s = true ∧ s.pins.refclk = false ∧ s.boot.starting = false ∧ s.pins.perst = false ∧ 4 ≤ s.boot.stage.toNat) ∧
    (∃ (s : State), svOn s = true ∧ s.boot.stage = 11 ∧ s.boot.perstWarm = true) :=
  ⟨⟨(0xC0000000 : BitVec 32), ((lit.modBoot fun zz => { zz with stage := 4 }) : State), by decide +kernel⟩,
   ⟨(0 : BitVec 32), (lit : State), by decide +kernel⟩,
   ⟨(awake : State), by decide +kernel⟩,
   ⟨(lit : State), by decide +kernel⟩,
   ⟨(0x40000000 : BitVec 32), ((lit.modHi fun zz => { zz with hostPort := [({ kind := 1, len := 1 } : PortAcc)] }) : State), by decide +kernel⟩,
   ⟨(0 : BitVec 32), ((lit.modHi fun zz => { zz with hostPort := [({ kind := 1, len := 1 } : PortAcc)] }) : State), by decide +kernel⟩,
   ⟨((lit.modHi fun zz => { zz with hostPort := [({ kind := 1, len := 1 } : PortAcc)] }) : State), by decide +kernel⟩,
   ⟨(10000 : Nat), (awake : State), by decide +kernel⟩,
   ⟨(1999 : Nat), by decide +kernel⟩,
   ⟨(pk : Pkt), (lit : State), (begun (pk : Pkt) 0x0106 [] (lit : State) : State), by decide +kernel⟩,
   ⟨((awake.modBoot fun zz => { zz with stage := 10 }) : State), by decide +kernel⟩,
   ⟨(lit : State), by decide +kernel⟩,
   ⟨(100 : Nat), (((up .asleep).modPins fun zz => { zz with perst := true }) : State), by decide +kernel⟩,
   ⟨(((lit.modPins fun zz => { zz with perst := true }).modBoot fun zz => { zz with perstIntent := true }) : State), by decide +kernel⟩,
   ⟨(lit : State), by decide +kernel⟩,
   ⟨(((lit.modPins fun zz => { zz with refclk := false }).modBoot fun zz => { zz with stage := 4 }) : State), by decide +kernel⟩,
   ⟨((lit.modBoot fun zz => { zz with perstWarm := true }) : State), by decide +kernel⟩⟩

theorem witness_AttestationAndSecurityOpcodes :
    (∃ (req : Bytes) (s : State), spdmServed s = true ∧ rb req 1 = 0x84) ∧
    (∃ (req : Bytes) (s : State), spdmServed s = true ∧ rb req 1 = 0xE1) ∧
    (∃ (req : Bytes) (s : State), spdmServed s = true ∧ rb req 1 = 0xE3) ∧
    (∃ (req : Bytes) (s : State), spdmServed s = true ∧ rb req 1 = 0x81) ∧
    (∃ (req : Bytes) (s : State), spdmServed s = true ∧ rb req 1 = 0x82 ∧ rb req 2 % 16 = 0 ∧ rd req 4 2 ≤ Config.certChain.length) ∧
    (∃ (req : Bytes) (s : State), spdmServed s = true ∧ rb req 1 = 0x83 ∧ s.sec.keyOk = true ∧ rb req 2 % 16 = 0 ∧ (rb req 3 = 0 ∨ rb req 3 = 1 ∨ rb req 3 = 0xFF)) ∧
    (∃ (req : Bytes) (s : State), spdmServed s = true ∧ rb req 1 = 0xE0 ∧ (rb req 3 ≤ 8 ∨ rb req 3 = 0xFF) ∧ (s.sec.keyOk = true ∨ rb req 2 % 2 = 0)) ∧
    (∃ (req : Bytes) (s : State), spdmServed s = true ∧ rb req 1 ∉ spdmCodes) ∧
    (∃ (p : Pkt) (s : State) (u : State), bodyState p 0x0A01 [] s = some u) ∧
    (∃ (p : Pkt) (nonce : BitVec 256) (mask : BitVec 8) (buf : Buf) (s : State) (u : State), bodyState p 0x0A02 (le 32 nonce.toNat ++ le 1 mask.toNat ++ buf.bytes) s = some u ∧ u.sec.keyOk = true) ∧
    (∃ (p : Pkt) (buf : Buf) (s : State) (u : State), bodyState p 0x0A03 buf.bytes s = some u ∧ Config.certChain.length ≤ buf.len.toNat) ∧
    (∃ (p : Pkt) (index : BitVec 8) (key : BitVec 768) (s : State) (u : State), index.toNat ≤ 3 ∧ bodyState p 0x0A04 (le 1 index.toNat ++ le 1 0 ++ le 96 key.toNat) s = some u ∧ u.pwr.nvInhibit = false ∧ onCurve (key.toNat % 2 ^ 384) (key.toNat / 2 ^ 384) = true ∧ ((u.sec.keys.find? fun e => decide (e.1 = index.toNat)) = none)) ∧
    (∃ (p : Pkt) (index : BitVec 8) (key : BitVec 768) (s : State) (u : State), index.toNat ≤ 3 ∧ bodyState p 0x0A04 (le 1 index.toNat ++ le 1 1 ++ le 96 key.toNat) s = some u ∧ u.pwr.nvInhibit = false ∧ onCurve (key.toNat % 2 ^ 384) (key.toNat / 2 ^ 384) = true ∧ (u.sec.keys.find? fun e => decide (e.1 = index.toNat)) ≠ none) ∧
    (∃ (p : Pkt) (d : BitVec 384) (s : State) (u : State), bodyState p 0x0A05 (digestBytes d) s = some u ∧ u.sec.log.length < 1024 ∧ twf 0 u.sec.mr = true) ∧
    (∃ (p : Pkt) (d : BitVec 384) (s : State) (u : State), bodyState p 0x0A05 (digestBytes d) s = some u ∧ 1024 ≤ u.sec.log.length) :=
  ⟨⟨([0x10, 0x84, 0, 0] : Bytes), (lit : State), by decide +kernel⟩,
   ⟨([0x12, 0xE1, 0, 0] : Bytes), (lit : State), by decide +kernel⟩,
   ⟨([0x12, 0xE3, 0, 0] : Bytes), (lit : State), by decide +kernel⟩,
   ⟨([0x12, 0x81, 0, 0] : Bytes), (lit : State), by decide +kernel⟩,
   ⟨([0x12, 0x82, 0, 0] : Bytes), (lit : State), ⟨by decide +kernel, by decide +kernel, by decide +kernel, Nat.zero_le _⟩⟩,
   ⟨([0x12, 0x83, 0, 255] : Bytes), ((lit.modSec fun zz => { zz with keyOk := true }) : State), by decide +kernel⟩,
   ⟨([0x12, 0xE0, 1, 255] : Bytes), ((lit.modSec fun zz => { zz with keyOk := true }) : State), by decide +kernel⟩,
   ⟨([0x12, 0x85, 0, 0] : Bytes), (lit : State), by decide +kernel⟩,
   ⟨(pk : Pkt), (lit : State), (begun (pk : Pkt) 0x0A01 [] (lit : State) : State), by decide +kernel⟩,
   ⟨(pk : Pkt), (0 : BitVec 256), (0xFF : BitVec 8), ({ addr := 0x1000, len := 0xFFFFFFFF } : Buf), (lit : State), (begun (pk : Pkt) 0x0A02 (le 32 (0 : BitVec 256).toNat ++ le 1 (0xFF : BitVec 8).toNat ++ ({ addr := 0x1000, len := 0xFFFFFFFF } : Buf).bytes) (lit : State) : State), by decide +kernel⟩,
   ⟨(pk : Pkt), ({ addr := 0x1000, len := 0xFFFFFFFF } : Buf), (lit : State), (begun (pk : Pkt) 0x0A03 ({ addr := 0x1000, len := 0xFFFFFFFF } : Buf).bytes (lit : State) : State), ⟨by decide +kernel, Nat.le_trans (List.length_take_le 4096 Config.certStored) (by decide)⟩⟩,
   ⟨(pk : Pkt), (3 : BitVec 8), (0x3617de4a96262c6f5d9e98bf9292dc29f8f41dbd289a147ce9da3113b5f0b8c00a60b1ce1d7e819d7a431d7c90ea0e5faa87ca22be8b05378eb1c71ef320ad746e1d3b628ba79b9859f741e082542a385502f25dbf55296c3a545e3872760ab7 : BitVec 768), (lit : State), (begun (pk : Pkt) 0x0A04 (le 1 (3 : BitVec 8).toNat ++ le 1 0 ++ le 96 (0x3617de4a96262c6f5d9e98bf9292dc29f8f41dbd289a147ce9da3113b5f0b8c00a60b1ce1d7e819d7a431d7c90ea0e5faa87ca22be8b05378eb1c71ef320ad746e1d3b628ba79b9859f741e082542a385502f25dbf55296c3a545e3872760ab7 : BitVec 768).toNat) (lit : State) : State), by decide +kernel⟩,
   ⟨({ expert := false, sig := some { key := 0, nonce := 0, r := 0x8d999057ba3d2d969260045c55b97f089025959a6f434d651d207d19fb96e9e4fe0e86ebe0e64f85b96a9c75295df61, s := 0x9d5558013b6c2ccdd04e3f17b498d22d9400f6bc801308055f92f8bfc90a1be476fa5c666a1b8da0d59dd8c27c46be24 } } : Pkt), (0 : BitVec 8), (0x3617de4a96262c6f5d9e98bf9292dc29f8f41dbd289a147ce9da3113b5f0b8c00a60b1ce1d7e819d7a431d7c90ea0e5faa87ca22be8b05378eb1c71ef320ad746e1d3b628ba79b9859f741e082542a385502f25dbf55296c3a545e3872760ab7 : BitVec 768), ((keyed lit) : State), (begun ({ expert := false, sig := some { key := 0, nonce := 0, r := 0x8d999057ba3d2d969260045c55b97f089025959a6f434d651d207d19fb96e9e4fe0e86ebe0e64f85b96a9c75295df61, s := 0x9d5558013b6c2ccdd04e3f17b498d22d9400f6bc801308055f92f8bfc90a1be476fa5c666a1b8da0d59dd8c27c46be24 } } : Pkt) 0x0A04 (le 1 (0 : BitVec 8).toNat ++ le 1 1 ++ le 96 (0x3617de4a96262c6f5d9e98bf9292dc29f8f41dbd289a147ce9da3113b5f0b8c00a60b1ce1d7e819d7a431d7c90ea0e5faa87ca22be8b05378eb1c71ef320ad746e1d3b628ba79b9859f741e082542a385502f25dbf55296c3a545e3872760ab7 : BitVec 768).toNat) ((keyed lit) : State) : State), by decide +kernel⟩,
   ⟨(pk : Pkt), (0 : BitVec 384), (lit : State), (begun (pk : Pkt) 0x0A05 (digestBytes (0 : BitVec 384)) (lit : State) : State), by decide +kernel⟩,
   ⟨(pk : Pkt), (0 : BitVec 384), ((lit.modSec fun zz => { zz with log := List.replicate 1024 ({} : MlEntry) }) : State), (begun (pk : Pkt) 0x0A05 (digestBytes (0 : BitVec 384)) ((lit.modSec fun zz => { zz with log := List.replicate 1024 ({} : MlEntry) }) : State) : State), by decide +kernel⟩⟩

theorem witness_DaybookNumbersStoresAndTokens :
    (∃ (code : Nat) (s : State), s.db.svDown = false ∧ suppressed code s.db = false ∧ s.db.narrow = false ∧ inAsleep s = false ∧ s.db.ring.length < 16384 ∧ s.pwr.nvInhibit = false) ∧
    (∃ (s : State) (r : DbRec) (rest : List DbRec), svOn s = true ∧ s.pwr.nvInhibit = false ∧ s.db.mirrorOut = false ∧ s.db.mirrorQ = r :: rest ∧ s.db.mirror.length < 32768 ∧ twf 0 s.life.mramWr = true ∧ tget 0 s.life.mramWr (Config.mramSector 2 (r.count.toNat % 32768)) ≠ 800000000000) ∧
    (∃ (s : State) (r : DbRec) (rest : List DbRec), svOn s = true ∧ s.pwr.nvInhibit = false ∧ s.db.mirrorOut = false ∧ s.db.mirrorQ = r :: rest) ∧
    (∃ (s : State), svOn s = true ∧ s.pwr.nvInhibit = false ∧ s.nvw.ckpt = true) ∧
    (∃ (s : State) (a : Nat) (b : Nat) (rest : List (Nat × Nat)), svOn s = true ∧ s.pwr.nvInhibit = false ∧ s.db.erase = (a, b) :: rest) ∧
    (∃ (s : State), s.pwr.aon = true) ∧
    (∃ (s : State), svOn s = true ∧ s.pwr.nvInhibit = false) :=
  ⟨⟨(0x0101 : Nat), (lit : State), by decide +kernel⟩,
   ⟨((lit.modDb fun zz => { zz with mirrorQ := [({} : DbRec)] }) : State), ({} : DbRec), ([] : List DbRec), by decide +kernel⟩,
   ⟨((lit.modDb fun zz => { zz with mirrorQ := [({} : DbRec)] }) : State), ({} : DbRec), ([] : List DbRec), by decide +kernel⟩,
   ⟨((lit.modNvw fun zz => { zz with ckpt := true }) : State), by decide +kernel⟩,
   ⟨((lit.modDb fun zz => { zz with erase := [((1 : Nat), (2 : Nat))], mirror := [({ count := 1 } : DbRec)] }) : State), (1 : Nat), (2 : Nat), ([] : List (Nat × Nat)), by decide +kernel⟩,
   ⟨(lit : State), by decide +kernel⟩,
   ⟨(lit : State), by decide +kernel⟩⟩

theorem witness_DaybookAndCalendarOpcodes :
    (∃ (p : Pkt) (store : BitVec 8) (first : BitVec 64) (count : BitVec 16) (buf : Buf) (s : State) (u : State), store.toNat ≤ 1 ∧ bodyState p 0x0901 (le 1 store.toNat ++ le 8 first.toNat ++ le 2 count.toNat ++ buf.bytes) s = some u) ∧
    (∃ (p : Pkt) (first : BitVec 64) (last : BitVec 64) (s : State) (u : State), bodyState p 0x0902 (le 8 first.toNat ++ le 8 last.toNat) s = some u ∧ first.toNat ≤ last.toNat ∧ last.toNat < dbNext u ∧ u.db.narrow = false ∧ u.pwr.nvInhibit = false) ∧
    (∃ (p : Pkt) (first : BitVec 64) (last : BitVec 64) (s : State) (u : State), bodyState p 0x0902 (le 8 first.toNat ++ le 8 last.toNat) s = some u ∧ (last.toNat < first.toNat ∨ dbNext u ≤ last.toNat)) ∧
    (∃ (p : Pkt) (code : BitVec 16) (burst : BitVec 8) (refill : BitVec 8) (s : State) (u : State), codeListed code.toNat = true ∧ refill ≠ 0 ∧ bodyState p 0x0903 (le 2 code.toNat ++ le 1 burst.toNat ++ le 1 refill.toNat) s = some u ∧ u.pwr.nvInhibit = false ∧ twf {} u.db.buckets = true) ∧
    (∃ (p : Pkt) (buf : Buf) (s : State) (u : State), bodyState p 0x0B01 buf.bytes s = some u) ∧
    (∃ (p : Pkt) (buf : Buf) (s : State) (u : State), bodyState p 0x0B01 buf.bytes s = some u ∧ 11456 ≤ buf.len.toNat) ∧
    (∃ (p : Pkt) (v : BitVec 64) (s : State) (u : State), bodyState p 0x0B02 (le 8 v.toNat) s = some u) ∧
    (∃ (p : Pkt) (s : State) (u : State), bodyState p 0x0B03 [] s = some u) :=
  ⟨⟨(pk : Pkt), (1 : BitVec 8), (0 : BitVec 64), (1 : BitVec 16), ({ addr := 0x1000, len := 0xFFFFFFFF } : Buf), (lit : State), (begun (pk : Pkt) 0x0901 (le 1 (1 : BitVec 8).toNat ++ le 8 (0 : BitVec 64).toNat ++ le 2 (1 : BitVec 16).toNat ++ ({ addr := 0x1000, len := 0xFFFFFFFF } : Buf).bytes) (lit : State) : State), by decide +kernel⟩,
   ⟨({ expert := false, sig := some { key := 0, nonce := 0, r := 0x8d999057ba3d2d969260045c55b97f089025959a6f434d651d207d19fb96e9e4fe0e86ebe0e64f85b96a9c75295df61, s := 0xdc6c6a0422742c0997f42cdd6e66f3802710ee6f39f3cbf274249c74761851ef1f205de9d7226addfaebde6f8c2c7365 } } : Pkt), (0 : BitVec 64), (0 : BitVec 64), ((keyed (lit.modDb fun zz => { zz with count := 1 })) : State), (begun ({ expert := false, sig := some { key := 0, nonce := 0, r := 0x8d999057ba3d2d969260045c55b97f089025959a6f434d651d207d19fb96e9e4fe0e86ebe0e64f85b96a9c75295df61, s := 0xdc6c6a0422742c0997f42cdd6e66f3802710ee6f39f3cbf274249c74761851ef1f205de9d7226addfaebde6f8c2c7365 } } : Pkt) 0x0902 (le 8 (0 : BitVec 64).toNat ++ le 8 (0 : BitVec 64).toNat) ((keyed (lit.modDb fun zz => { zz with count := 1 })) : State) : State), by decide +kernel⟩,
   ⟨({ expert := false, sig := some { key := 0, nonce := 0, r := 0x8d999057ba3d2d969260045c55b97f089025959a6f434d651d207d19fb96e9e4fe0e86ebe0e64f85b96a9c75295df61, s := 0x162bbe78f25bfd51b8500182ed89cc645d90aefa95f0c07c614ae72051160f842afe9468a34fc6f6d693905a6e745d37 } } : Pkt), (1 : BitVec 64), (0 : BitVec 64), ((keyed lit) : State), (begun ({ expert := false, sig := some { key := 0, nonce := 0, r := 0x8d999057ba3d2d969260045c55b97f089025959a6f434d651d207d19fb96e9e4fe0e86ebe0e64f85b96a9c75295df61, s := 0x162bbe78f25bfd51b8500182ed89cc645d90aefa95f0c07c614ae72051160f842afe9468a34fc6f6d693905a6e745d37 } } : Pkt) 0x0902 (le 8 (1 : BitVec 64).toNat ++ le 8 (0 : BitVec 64).toNat) ((keyed lit) : State) : State), by decide +kernel⟩,
   ⟨(px : Pkt), (0x1001 : BitVec 16), (1 : BitVec 8), (1 : BitVec 8), (lit : State), (begun (px : Pkt) 0x0903 (le 2 (0x1001 : BitVec 16).toNat ++ le 1 (1 : BitVec 8).toNat ++ le 1 (1 : BitVec 8).toNat) (lit : State) : State), by decide +kernel⟩,
   ⟨(pk : Pkt), ({ addr := 0x1000, len := 0xFFFFFFFF } : Buf), (lit : State), (begun (pk : Pkt) 0x0B01 ({ addr := 0x1000, len := 0xFFFFFFFF } : Buf).bytes (lit : State) : State), by decide +kernel⟩,
   ⟨(pk : Pkt), ({ addr := 0x1000, len := 0xFFFFFFFF } : Buf), (lit : State), (begun (pk : Pkt) 0x0B01 ({ addr := 0x1000, len := 0xFFFFFFFF } : Buf).bytes (lit : State) : State), by decide +kernel⟩,
   ⟨(pk : Pkt), (0 : BitVec 64), (lit : State), (begun (pk : Pkt) 0x0B02 (le 8 (0 : BitVec 64).toNat) (lit : State) : State), by decide +kernel⟩,
   ⟨(pk : Pkt), (lit : State), (begun (pk : Pkt) 0x0B03 [] (lit : State) : State), by decide +kernel⟩⟩

theorem witness_InputVoltageAndWriteInhibit :
    (∃ (vin : BitVec 16) (s : State), s.pwr.aon = false ∧ 340 < vin.toNat) ∧
    (∃ (vin : BitVec 16) (s : State), s.pwr.aon = true ∧ s.pwr.holdUp = false ∧ vin.toNat < 330) ∧
    (∃ (vin : BitVec 16) (s : State), s.pwr.aon = true ∧ s.pwr.holdUp = false ∧ 480 < vin.toNat) ∧
    (∃ (vin : BitVec 16) (s : State), s.pwr.aon = true ∧ s.pwr.holdUp = true ∧ 340 < vin.toNat) ∧
    (∃ (s : State), s.pwr.aon = true ∧ s.pwr.holdUp = true) ∧
    (∃ (vin : BitVec 16) (s : State), s.pwr.aon = true ∧ s.pwr.holdUp = false ∧ s.pwr.sag = false ∧ vin.toNat < 360) ∧
    (∃ (vin : BitVec 16) (s : State), s.pwr.aon = true ∧ s.pwr.holdUp = false ∧ s.pwr.sag = true ∧ 365 < vin.toNat) ∧
    (∃ (vin : BitVec 16) (s : State), s.pwr.aon = true ∧ s.pwr.holdUp = false ∧ s.pwr.nvInhibit = false ∧ vin.toNat < 350) ∧
    (∃ (vin : BitVec 16) (s : State), svOn s = true ∧ s.pwr.nvInhibit = true ∧ 355 < vin.toNat ∧ s.nvw.cmds = []) ∧
    (∃ (s : State) (c : PktRef × NvCmd) (rest : List (PktRef × NvCmd)), s.pwr.nvInhibit = true ∧ s.nvw.cmds = c :: rest) :=
  ⟨⟨(341 : BitVec 16), (State.reset : State), by decide +kernel⟩,
   ⟨(329 : BitVec 16), (lit : State), by decide +kernel⟩,
   ⟨(481 : BitVec 16), (lit : State), by decide +kernel⟩,
   ⟨(341 : BitVec 16), ((lit.modPwr fun zz => { zz with holdUp := true }) : State), by decide +kernel⟩,
   ⟨((lit.modPwr fun zz => { zz with holdUp := true }) : State), by decide +kernel⟩,
   ⟨(359 : BitVec 16), (lit : State), by decide +kernel⟩,
   ⟨(366 : BitVec 16), ((lit.modPwr fun zz => { zz with sag := true }) : State), by decide +kernel⟩,
   ⟨(349 : BitVec 16), (lit : State), by decide +kernel⟩,
   ⟨(356 : BitVec 16), ((lit.modPwr fun zz => { zz with nvInhibit := true }) : State), by decide +kernel⟩,
   ⟨(((lit.modPwr fun zz => { zz with nvInhibit := true }).modNvw fun zz => { zz with cmds := [(({} : PktRef), NvCmd.retire 0)] }) : State), (({}, NvCmd.retire 0) : PktRef × NvCmd), ([] : List (PktRef × NvCmd)), by decide +kernel⟩⟩

theorem witness_FirmwareIsMeasuredAndRun :
    (∃ (s : State), svOn s = true ∧ s.boot.fetching = true ∧ s.boot.stage = 4) ∧
    (∃ (img : Bytes) (s : State), svOn s = true ∧ s.boot.fetching = true ∧ s.boot.stage = 4 ∧ imageFormatOk img s.boot.fwLen.toNat = false) ∧
    (∃ (img : Bytes) (s : State), svOn s = true ∧ s.boot.fetching = true ∧ s.boot.stage = 4 ∧ imageFormatOk img s.boot.fwLen.toNat = true ∧ s.sec.fuseRead = false ∧ twf 0 s.sec.mr = true) ∧
    (∃ (img : Bytes) (s : State), svOn s = true ∧ s.boot.fetching = true ∧ s.boot.stage = 4 ∧ imageFormatOk img s.boot.fwLen.toNat = true ∧ s.sec.fuseRead = true ∧ bit (rd img 12 4) 0 = false) ∧
    (∃ (s : State), svOn s = true ∧ s.boot.stage = 5 ∧ s.boot.kind ≠ 1) ∧
    (∃ (s : State), fwUp s = true ∧ s.boot.starting = true) ∧
    (∃ (s : State), fwUp s = true ∧ s.boot.starting = false) ∧
    (∃ (s : State), fwUp s = true) :=
  ⟨⟨((lit.modBoot fun zz => { zz with stage := 4, fetching := true, fwLen := 4096 }) : State), by decide +kernel⟩,
   ⟨(zeros 4096 : Bytes), ((lit.modBoot fun zz => { zz with stage := 4, fetching := true, fwLen := 4096 }) : State), by decide +kernel⟩,
   ⟨((le 4 0x38465758 ++ le 4 64 ++ le 4 3968 ++ zeros 4084) : Bytes), ((lit.modBoot fun zz => { zz with stage := 4, fetching := true, fwLen := 4096 }) : State), by decide +kernel⟩,
   ⟨((le 4 0x38465758 ++ le 4 64 ++ le 4 3968 ++ zeros 4084) : Bytes), (((lit.modBoot fun zz => { zz with stage := 4, fetching := true, fwLen := 4096 }).modSec fun zz => { zz with fuseRead := true }) : State), by decide +kernel⟩,
   ⟨((lit.modBoot fun zz => { zz with stage := 5 }) : State), by decide +kernel⟩,
   ⟨((lit.modBoot fun zz => { zz with starting := true }) : State), by decide +kernel⟩,
   ⟨(lit : State), by decide +kernel⟩,
   ⟨(lit : State), by decide +kernel⟩⟩

theorem witness_ColdStartReachesLit :
    (∃ (failed : List Nat) (s : State), fwUp s = true ∧ s.boot.starting = true ∧ s.boot.stage = 6 ∧ failed.length ≤ 16) ∧
    (∃ (failed : List Nat) (s : State), fwUp s = true ∧ s.boot.starting = true ∧ s.boot.stage = 6 ∧ 16 < failed.length) ∧
    (∃ (s : State), fwUp s = true ∧ s.boot.starting = true ∧ s.boot.stage = 7) ∧
    (∃ (s : State), fwUp s = true ∧ s.boot.starting = true ∧ s.boot.stage = 8 ∧ s.boot.combHold = false ∧ s.ident.assigned = true) ∧
    (∃ (s : State), s.boot.starting = true ∧ (s.boot.combHold = true ∨ s.ident.assigned = false)) ∧
    (∃ (s : State), fwUp s = true ∧ s.boot.starting = true ∧ s.boot.stage = 9 ∧ combsLit s = true ∧ bestFreq s = none ∧ s.tm.priority1.toNat < 128) ∧
    (∃ (s : State), fwUp s = true ∧ s.boot.starting = true ∧ s.boot.stage = 10 ∧ s.boot.kind = 0) :=
  ⟨⟨(List.range 16 : List Nat), ((lit.modBoot fun zz => { zz with starting := true, stage := 6 }) : State), by decide +kernel⟩,
   ⟨(List.range 17 : List Nat), ((lit.modBoot fun zz => { zz with starting := true, stage := 6 }) : State), by decide +kernel⟩,
   ⟨((lit.modBoot fun zz => { zz with starting := true, stage := 7 }) : State), by decide +kernel⟩,
   ⟨(((lit.modBoot fun zz => { zz with starting := true, stage := 8 }).modIdent fun zz => { zz with assigned := true, idField := 5 }) : State), by decide +kernel⟩,
   ⟨((lit.modBoot fun zz => { zz with starting := true, stage := 8 }) : State), by decide +kernel⟩,
   ⟨((((lit.modBoot fun zz => { zz with starting := true, stage := 9 }).modOpt fun zz => { zz with combs := [(0, ({ lit := true } : Comb))] }).modTm fun zz => { zz with priority1 := 127 }) : State), by decide +kernel⟩,
   ⟨((lit.modBoot fun zz => { zz with starting := true, stage := 10 }) : State), by decide +kernel⟩⟩

theorem witness_FailedStartsAndWarmStarts :
    (∃ (s : State), s.pwr.aon = true ∧ s.pwr.holdUp = false ∧ s.boot.starting = true ∧ s.boot.stage ≠ 3 ∧ s.boot.stage ≠ 9 ∧ ((s.boot.stage = 4 → s.boot.fetching = true)) ∧ ((s.boot.stage = 8 → s.boot.combHold = false ∧ s.ident.assigned = true))) ∧
    (∃ (s : State), s.pwr.aon = true ∧ s.pwr.holdUp = false ∧ s.boot.starting = true ∧ s.boot.stage.toNat ≤ 4 ∧ s.boot.fetching = false) ∧
    (∃ (s : State), s.pwr.aon = true ∧ s.pwr.holdUp = false ∧ s.boot.failedKind = some 0 ∧ s.boot.coldFails.toNat < 3) ∧
    (∃ (s : State), s.pwr.aon = true ∧ s.pwr.holdUp = false ∧ s.boot.failedKind = some 0 ∧ 3 ≤ s.boot.coldFails.toNat ∧ s.pins.refclk = true ∧ s.pins.perst = false) ∧
    (∃ (s : State), s.pwr.aon = true ∧ s.pwr.holdUp = false ∧ s.boot.failedKind = some 1 ∧ 3 ≤ s.boot.warmFails.toNat) ∧
    (∃ (s : State), s.pwr.aon = true ∧ s.pwr.holdUp = false ∧ s.boot.failedKind = some 1 ∧ s.boot.warmFails.toNat < 3) ∧
    (∃ (p : Pkt) (s : State) (u : State), bodyState p 0x0105 [] s = some u ∧ (u.job.st = .loaded ∨ u.job.st = .held ∨ u.job.st = .noJob ∨ u.job.st = .complete) ∧ u.sw.plan = none ∧ u.sw.fbRun = none ∧ u.boot.starting = false ∧ u.pwr.target = none ∧ u.pins.perst = false) ∧
    (∃ (p : Pkt) (s : State) (u : State), bodyState p 0x0105 [] s = some u ∧ (u.job.st = .strict ∨ u.job.st = .loose ∨ u.job.st = .catchup ∨ u.sw.plan.isSome = true)) ∧
    (∃ (s : State), svOn s = true ∧ s.boot.stage = 5 ∧ s.boot.kind = 1) ∧
    (∃ (s : State), (s.boot.stage = 3 ∨ s.boot.stage = 9 ∨ (s.boot.stage = 4 ∧ s.boot.fetching = false) ∨ (s.boot.stage = 8 ∧ (s.boot.combHold = true ∨ s.ident.assigned = false)))) :=
  ⟨⟨((lit.modBoot fun zz => { zz with starting := true, stage := 5 }) : State), by decide +kernel⟩,
   ⟨((lit.modBoot fun zz => { zz with starting := true, stage := 4 }) : State), by decide +kernel⟩,
   ⟨((lit.modBoot fun zz => { zz with failedKind := some 0, coldFails := 2 }) : State), by decide +kernel⟩,
   ⟨((lit.modBoot fun zz => { zz with failedKind := some 0, coldFails := 3 }) : State), by decide +kernel⟩,
   ⟨((lit.modBoot fun zz => { zz with failedKind := some 1, warmFails := 3 }) : State), by decide +kernel⟩,
   ⟨((lit.modBoot fun zz => { zz with failedKind := some 1, warmFails := 2 }) : State), by decide +kernel⟩,
   ⟨(pk : Pkt), (lit : State), (begun (pk : Pkt) 0x0105 [] (lit : State) : State), by decide +kernel⟩,
   ⟨(pk : Pkt), ((lit.modJob fun zz => { zz with st := .strict }) : State), (begun (pk : Pkt) 0x0105 [] ((lit.modJob fun zz => { zz with st := .strict }) : State) : State), by decide +kernel⟩,
   ⟨((lit.modBoot fun zz => { zz with starting := true, stage := 5, kind := 1 }) : State), by decide +kernel⟩,
   ⟨((lit.modBoot fun zz => { zz with stage := 3 }) : State), by decide +kernel⟩⟩

theorem witness_PowerStateTransitions :
    (∃ (p : Pkt) (s : State) (u : State), bodyState p 0x0104 [1] s = some u ∧ u.boot.starting = false ∧ u.pwr.target = none ∧ u.pwr.ps = .awake) ∧
    (∃ (p : Pkt) (s : State) (u : State), bodyState p 0x0104 [1] s = some u ∧ u.boot.starting = false ∧ u.pwr.target = none ∧ u.pwr.ps = .lit ∧ leaveLitRefused u = false) ∧
    (∃ (p : Pkt) (s : State) (u : State), bodyState p 0x0104 [1] s = some u ∧ u.boot.starting = false ∧ u.pwr.target = none ∧ u.pwr.ps = .lit ∧ imageLoaded u = true) ∧
    (∃ (p : Pkt) (s : State) (u : State), bodyState p 0x0104 [0] s = some u ∧ u.boot.starting = false ∧ u.pwr.target = none ∧ u.pwr.ps = .awake) ∧
    (∃ (p : Pkt) (s : State) (u : State), bodyState p 0x0104 [2] s = some u ∧ u.boot.starting = false ∧ u.pwr.target = none ∧ u.pwr.ps = .awake ∧ u.ident.assigned = true) ∧
    (∃ (p : Pkt) (s : State) (u : State), bodyState p 0x0104 [2] s = some u ∧ u.boot.starting = false ∧ u.pwr.target = none ∧ u.pwr.ps = .awake ∧ u.ident.assigned = false) ∧
    (∃ (s : State), s.pwr.aon = true ∧ s.pwr.holdUp = false ∧ s.pwr.target = some .awake ∧ s.pwr.ps = .lit) ∧
    (∃ (s : State), s.pwr.aon = true ∧ s.pwr.holdUp = false ∧ s.pwr.target = some .asleep ∧ s.pwr.ps = .awake) ∧
    (∃ (s : State), s.pwr.aon = true ∧ s.pwr.holdUp = false ∧ s.pwr.target = some .running ∧ s.pwr.ps = .lit) ∧
    (∃ (s : State), s.pwr.aon = true ∧ inAsleep s = true ∧ s.pwr.target = none) ∧
    (∃ (v : BitVec 8) (s : State), (v ≠ 0xA5 ∨ s.pwr.ps ≠ .asleep)) ∧
    (∃ (s : State), s.pwr.aon = true ∧ s.pwr.holdUp = false ∧ s.pwr.target = some .asleep ∧ s.pwr.ps = .lit) ∧
    (∃ (s : State), s.pwr.aon = true ∧ s.pwr.holdUp = false ∧ s.pwr.target = some .lit ∧ s.pwr.ps = .awake ∧ combsLocked s = true) ∧
    (∃ (s : State), s.pwr.aon = true ∧ s.pwr.holdUp = false ∧ s.pwr.target = some .lit ∧ s.pwr.ps = .running) ∧
    (∃ (s : State), s.pwr.aon = true ∧ s.pwr.holdUp = false ∧ s.pwr.target = some .awake ∧ s.pwr.ps = .asleep) ∧
    (∃ (s : State), s.pwr.target = some .lit ∧ s.pwr.ps = .awake ∧ combsLocked s = false) :=
  ⟨⟨(pk : Pkt), (awake : State), (begun (pk : Pkt) 0x0104 [1] (awake : State) : State), by decide +kernel⟩,
   ⟨(pk : Pkt), (lit : State), (begun (pk : Pkt) 0x0104 [1] (lit : State) : State), by decide +kernel⟩,
   ⟨(pk : Pkt), ((lit.modJob fun zz => { zz with st := .loaded }) : State), (begun (pk : Pkt) 0x0104 [1] ((lit.modJob fun zz => { zz with st := .loaded }) : State) : State), by decide +kernel⟩,
   ⟨(pk : Pkt), (awake : State), (begun (pk : Pkt) 0x0104 [0] (awake : State) : State), by decide +kernel⟩,
   ⟨(pk : Pkt), ((awake.modIdent fun zz => { zz with assigned := true }) : State), (begun (pk : Pkt) 0x0104 [2] ((awake.modIdent fun zz => { zz with assigned := true }) : State) : State), by decide +kernel⟩,
   ⟨(pk : Pkt), (awake : State), (begun (pk : Pkt) 0x0104 [2] (awake : State) : State), by decide +kernel⟩,
   ⟨((lit.modPwr fun zz => { zz with target := some .awake }) : State), by decide +kernel⟩,
   ⟨((awake.modPwr fun zz => { zz with target := some .asleep }) : State), by decide +kernel⟩,
   ⟨((lit.modPwr fun zz => { zz with target := some .running }) : State), by decide +kernel⟩,
   ⟨(up .asleep : State), by decide +kernel⟩,
   ⟨(0xA5 : BitVec 8), (lit : State), by decide +kernel⟩,
   ⟨((lit.modPwr fun zz => { zz with target := some .asleep }) : State), by decide +kernel⟩,
   ⟨(((awake.modPwr fun zz => { zz with target := some .lit }).modOpt fun zz => { zz with combs := [(4, ({ locked := true } : Comb))] }) : State), by decide +kernel⟩,
   ⟨((run.modPwr fun zz => { zz with target := some .lit }) : State), by decide +kernel⟩,
   ⟨(((up .asleep).modPwr fun zz => { zz with target := some .awake }) : State), by decide +kernel⟩,
   ⟨((awake.modPwr fun zz => { zz with target := some .lit }) : State), by decide +kernel⟩⟩

theorem witness_HardLimits :
    (∃ (s : State), svOn s = true ∧ s.pwr.throttle = false) ∧
    (∃ (s : State), svOn s = true ∧ s.pwr.throttle = true) ∧
    (∃ (s : State), litUp s = true) ∧
    (∃ (s : State), s.pwr.aon = true) ∧
    (∃ (s : State), s.pwr.aon = true ∧ s.pins.thermtrip = true) ∧
    (∃ (inlet : BitVec 16) (outlet : BitVec 16) (s : State), svOn s = true ∧ (400 ≤ inlet.toInt ∨ 620 ≤ outlet.toInt)) ∧
    (∃ (temp : Int) (s : State), litUp s = true ∧ 850 < temp) :=
  ⟨⟨(lit : State), by decide +kernel⟩,
   ⟨((lit.modPwr fun zz => { zz with throttle := true }) : State), by decide +kernel⟩,
   ⟨(lit : State), by decide +kernel⟩,
   ⟨(lit : State), by decide +kernel⟩,
   ⟨((lit.modPins fun zz => { zz with thermtrip := true }) : State), by decide +kernel⟩,
   ⟨(400 : BitVec 16), (0 : BitVec 16), (lit : State), by decide +kernel⟩,
   ⟨(851 : Int), (lit : State), by decide +kernel⟩⟩

theorem witness_SystemOpcodes :
    (∃ (p : Pkt) (s : State) (u : State), bodyState p 0x0100 [] s = some u) ∧
    (∃ (p : Pkt) (s : State) (u : State), bodyState p 0x0101 [] s = some u) ∧
    (∃ (p : Pkt) (addr : BitVec 64) (len : BitVec 32) (stop : BitVec 8) (data : Bytes) (s : State) (u : State), bodyState p 0x0102 (le 8 addr.toNat ++ le 4 len.toNat ++ le 1 stop.toNat) s = some u ∧ 64 ≤ len.toNat ∧ len.toNat ≤ 16777216 ∧ len.toNat % 64 = 0 ∧ addr.toNat % 64 = 0 ∧ stop.toNat ≤ 1 ∧ p.list = false ∧ s.hi.lists = none ∧ data.length = len.toNat) ∧
    (∃ (p : Pkt) (mask : BitVec 16) (secs : BitVec 16) (s : State) (u : State), bodyState p 0x0103 (le 2 mask.toNat ++ le 2 secs.toNat) s = some u ∧ mask.toNat < 4096 ∧ mask.toNat % 2 = 0 ∧ secs.toNat ≤ 3600) ∧
    (∃ (p : Pkt) (watts : BitVec 16) (amps : BitVec 8) (s : State) (u : State), bodyState p 0x0107 (le 2 watts.toNat ++ le 1 amps.toNat) s = some u ∧ 500 ≤ watts.toNat ∧ watts.toNat ≤ 3400 ∧ 20 ≤ amps.toNat ∧ amps.toNat ≤ 100) ∧
    (∃ (p : Pkt) (watts : BitVec 16) (amps : BitVec 8) (s : State) (u : State), bodyState p 0x0107 (le 2 watts.toNat ++ le 1 amps.toNat) s = some u ∧ (watts.toNat < 500 ∨ 3400 < watts.toNat ∨ amps.toNat < 20 ∨ 100 < amps.toNat)) ∧
    (∃ (p : Pkt) (buf : Buf) (s : State) (u : State), bodyState p 0x0201 buf.bytes s = some u) :=
  ⟨⟨(pk : Pkt), (lit : State), (begun (pk : Pkt) 0x0100 [] (lit : State) : State), by decide +kernel⟩,
   ⟨(pk : Pkt), (lit : State), (begun (pk : Pkt) 0x0101 [] (lit : State) : State), by decide +kernel⟩,
   ⟨(pk : Pkt), (0 : BitVec 64), (64 : BitVec 32), (0 : BitVec 8), (List.replicate 64 0 : Bytes), (lit : State), (begun (pk : Pkt) 0x0102 (le 8 (0 : BitVec 64).toNat ++ le 4 (64 : BitVec 32).toNat ++ le 1 (0 : BitVec 8).toNat) (lit : State) : State), by decide +kernel⟩,
   ⟨(pk : Pkt), (0xFFE : BitVec 16), (3600 : BitVec 16), (lit : State), (begun (pk : Pkt) 0x0103 (le 2 (0xFFE : BitVec 16).toNat ++ le 2 (3600 : BitVec 16).toNat) (lit : State) : State), by decide +kernel⟩,
   ⟨(pk : Pkt), (3400 : BitVec 16), (100 : BitVec 8), (lit : State), (begun (pk : Pkt) 0x0107 (le 2 (3400 : BitVec 16).toNat ++ le 1 (100 : BitVec 8).toNat) (lit : State) : State), by decide +kernel⟩,
   ⟨(pk : Pkt), (499 : BitVec 16), (0 : BitVec 8), (lit : State), (begun (pk : Pkt) 0x0107 (le 2 (499 : BitVec 16).toNat ++ le 1 (0 : BitVec 8).toNat) (lit : State) : State), by decide +kernel⟩,
   ⟨(pk : Pkt), ({ addr := 0x1000, len := 0xFFFFFFFF } : Buf), (lit : State), (begun (pk : Pkt) 0x0201 ({ addr := 0x1000, len := 0xFFFFFFFF } : Buf).bytes (lit : State) : State), by decide +kernel⟩⟩

theorem witness_FabricProfileInstallAndRead :
    (∃ (p : Pkt) (addr : BitVec 64) (len : BitVec 32) (s : State) (u : State), bodyState p 0x0202 (le 8 addr.toNat ++ le 4 len.toNat) s = some u ∧ imageLoaded u = true) ∧
    (∃ (p : Pkt) (addr : BitVec 64) (len : BitVec 32) (prof : FabProf) (s : State) (u : State), bodyState p 0x0202 (le 8 addr.toNat ++ le 4 len.toNat) s = some u ∧ imageLoaded u = false ∧ keyClash (logLinksOf (moduleId u) prof) = true) ∧
    (∃ (p : Pkt) (addr : BitVec 64) (len : BitVec 32) (prof : FabProf) (s : State) (u : State), bodyState p 0x0202 (le 8 addr.toNat ++ le 4 len.toNat) s = some u ∧ imageLoaded u = false ∧ keyClash (logLinksOf (moduleId u) prof) = false ∧ 1900000 < prof.noticeBoundNs) ∧
    (∃ (p : Pkt) (addr : BitVec 64) (len : BitVec 32) (prof : FabProf) (s : State) (u : State), bodyState p 0x0202 (le 8 addr.toNat ++ le 4 len.toNat) s = some u ∧ imageLoaded u = false ∧ keyClash (logLinksOf (moduleId u) prof) = false ∧ prof.noticeBoundNs ≤ 1900000 ∧ twf 0 u.sec.mr = true ∧ twf {} u.sw.fallbacks = true) ∧
    (∃ (p : Pkt) (buf : Buf) (s : State) (u : State), bodyState p 0x0203 buf.bytes s = some u ∧ u.prof.fabImage.length ≤ buf.len.toNat) :=
  ⟨⟨(pk : Pkt), (0 : BitVec 64), (0 : BitVec 32), ((lit.modJob fun zz => { zz with st := .loaded }) : State), (begun (pk : Pkt) 0x0202 (le 8 (0 : BitVec 64).toNat ++ le 4 (0 : BitVec 32).toNat) ((lit.modJob fun zz => { zz with st := .loaded }) : State) : State), by decide +kernel⟩,
   ⟨(pk : Pkt), (0 : BitVec 64), (0 : BitVec 32), ({ links := [({ a := 0xFFF, aFibre := 1, b := 1, bFibre := 2, tag := 5 } : FabLink), ({ a := 0xFFF, aFibre := 3, b := 1, bFibre := 4, tag := 5, link := 1 } : FabLink)] } : FabProf), (lit : State), (begun (pk : Pkt) 0x0202 (le 8 (0 : BitVec 64).toNat ++ le 4 (0 : BitVec 32).toNat) (lit : State) : State), by decide +kernel⟩,
   ⟨(pk : Pkt), (0 : BitVec 64), (0 : BitVec 32), ({ noticeBoundNs := 1900001 } : FabProf), (lit : State), (begun (pk : Pkt) 0x0202 (le 8 (0 : BitVec 64).toNat ++ le 4 (0 : BitVec 32).toNat) (lit : State) : State), by decide +kernel⟩,
   ⟨(pk : Pkt), (0 : BitVec 64), (2 : BitVec 32), ({ noticeBoundNs := 1900000, links := [({ a := 0xFFF, aFibre := 1, b := 1, bFibre := 2, tag := 5 } : FabLink)] } : FabProf), (lit : State), (begun (pk : Pkt) 0x0202 (le 8 (0 : BitVec 64).toNat ++ le 4 (2 : BitVec 32).toNat) (lit : State) : State), by decide +kernel⟩,
   ⟨(pk : Pkt), ({ addr := 0, len := 3 } : Buf), ((lit.modProf fun zz => { zz with fabImage := [1, 2, 3] }) : State), (begun (pk : Pkt) 0x0203 ({ addr := 0, len := 3 } : Buf).bytes ((lit.modProf fun zz => { zz with fabImage := [1, 2, 3] }) : State) : State), by decide +kernel⟩⟩

theorem witness_JobLoadAndUnload :
    (∃ (p : Pkt) (addr : BitVec 64) (len : BitVec 32) (number : BitVec 64) (seed : BitVec 64) (key : BitVec 64) (image : Bytes) (s : State) (u : State), bodyState p 0x0204 (le 8 addr.toNat ++ le 4 len.toNat ++ le 8 number.toNat ++ le 8 seed.toNat ++ le 8 key.toNat) s = some u ∧ keyOk key.toNat = true ∧ u.pwr.ps = .lit ∧ u.pwr.target = none ∧ u.boot.starting = false ∧ imageLoaded u = false ∧ u.pins.thermtrip = false ∧ loadCheck u (image.take len.toNat) = none) ∧
    (∃ (p : Pkt) (addr : BitVec 64) (len : BitVec 32) (number : BitVec 64) (seed : BitVec 64) (key : BitVec 64) (image : Bytes) (s : State) (u : State) (st : Nat) (f : LoadFail), bodyState p 0x0204 (le 8 addr.toNat ++ le 4 len.toNat ++ le 8 number.toNat ++ le 8 seed.toNat ++ le 8 key.toNat) s = some u ∧ keyOk key.toNat = true ∧ u.pwr.ps = .lit ∧ u.pwr.target = none ∧ u.boot.starting = false ∧ imageLoaded u = false ∧ u.pins.thermtrip = false ∧ loadCheck u (image.take len.toNat) = some (st, f)) ∧
    (∃ (p : Pkt) (addr : BitVec 64) (len : BitVec 32) (number : BitVec 64) (seed : BitVec 64) (key : BitVec 64) (s : State) (u : State), bodyState p 0x0204 (le 8 addr.toNat ++ le 4 len.toNat ++ le 8 number.toNat ++ le 8 seed.toNat ++ le 8 key.toNat) s = some u ∧ (keyOk key.toNat = false ∨ (keyOk key.toNat = true ∧ u.pwr.ps = .awake))) ∧
    (∃ (p : Pkt) (s : State) (u : State), bodyState p 0x0208 [] s = some u ∧ (u.job.st = .loaded ∨ u.job.st = .held ∨ u.job.st = .complete) ∧ u.pwr.target = none) ∧
    (∃ (p : Pkt) (s : State) (u : State), bodyState p 0x0208 [] s = some u ∧ (u.job.st = .strict ∨ u.job.st = .loose ∨ u.job.st = .catchup ∨ u.job.st = .noJob)) :=
  ⟨⟨(pk : Pkt), (0 : BitVec 64), (336 : BitVec 32), (0 : BitVec 64), (0 : BitVec 64), (0 : BitVec 64), (img : Bytes), (bare : State), (bareU : State), ⟨by decide +kernel, by decide +kernel, by decide +kernel, by decide +kernel, by decide +kernel, by decide +kernel, by decide +kernel, image_taken⟩⟩,
   ⟨(pk : Pkt), (0 : BitVec 64), (0 : BitVec 32), (0 : BitVec 64), (0 : BitVec 64), (0 : BitVec 64), ([] : Bytes), (lit : State), (begun (pk : Pkt) 0x0204 (le 8 (0 : BitVec 64).toNat ++ le 4 (0 : BitVec 32).toNat ++ le 8 (0 : BitVec 64).toNat ++ le 8 (0 : BitVec 64).toNat ++ le 8 (0 : BitVec 64).toNat) (lit : State) : State), (stImageFormat : Nat), ({} : LoadFail), by decide +kernel⟩,
   ⟨(pk : Pkt), (0 : BitVec 64), (0 : BitVec 32), (0 : BitVec 64), (0 : BitVec 64), (0 : BitVec 64), (awake : State), (begun (pk : Pkt) 0x0204 (le 8 (0 : BitVec 64).toNat ++ le 4 (0 : BitVec 32).toNat ++ le 8 (0 : BitVec 64).toNat ++ le 8 (0 : BitVec 64).toNat ++ le 8 (0 : BitVec 64).toNat) (awake : State) : State), by decide +kernel⟩,
   ⟨(pk : Pkt), ((lit.modJob fun zz => { zz with st := .loaded }) : State), (begun (pk : Pkt) 0x0208 [] ((lit.modJob fun zz => { zz with st := .loaded }) : State) : State), by decide +kernel⟩,
   ⟨(pk : Pkt), ((lit.modJob fun zz => { zz with st := .strict }) : State), (begun (pk : Pkt) 0x0208 [] ((lit.modJob fun zz => { zz with st := .strict }) : State) : State), by decide +kernel⟩⟩

theorem witness_JobStartHoldAndResume :
    (∃ (p : Pkt) (t0 : BitVec 64) (s : State) (u : State), u.job.st = .loaded ∧ u.job.startReq = none ∧ u.pwr.ps = .running ∧ u.pwr.target = none ∧ u.tm.valid = true ∧ t0.toNat % 3200 = 0 ∧ reached (u.tm.ft + 63999999) t0 = false ∧ bodyState p 0x0205 (le 8 t0.toNat ++ le 1 0) s = some u) ∧
    (∃ (p : Pkt) (t0 : BitVec 64) (s : State) (u : State), u.job.st = .loaded ∧ u.job.startReq = none ∧ u.pwr.ps = .running ∧ u.pwr.target = none ∧ u.tm.valid = true ∧ t0.toNat % 3200 = 0 ∧ reached (u.tm.ft + 63999999) t0 = false ∧ bodyState p 0x0205 (le 8 t0.toNat ++ le 1 1) s = some u) ∧
    (∃ (p : Pkt) (t0 : BitVec 64) (s : State) (u : State), bodyState p 0x0205 (le 8 t0.toNat ++ le 1 0) s = some u ∧ u.job.st = .loaded ∧ u.job.startReq = none ∧ u.pwr.ps = .running ∧ u.pwr.target = none ∧ u.tm.valid = true ∧ (t0.toNat % 3200 ≠ 0 ∨ reached (u.tm.ft + 63999999) t0 = true)) ∧
    (∃ (p : Pkt) (v : BitVec 64) (s : State) (u : State), u.job.st = .strict ∧ bodyState p 0x0206 (le 1 0 ++ le 8 v.toNat) s = some u) ∧
    (∃ (p : Pkt) (v : BitVec 64) (s : State) (u : State), u.job.st = .strict ∧ bodyState p 0x0206 (le 1 1 ++ le 8 v.toNat) s = some u) ∧
    (∃ (p : Pkt) (v : BitVec 64) (s : State) (u : State), u.job.st = .loose ∧ bodyState p 0x0206 (le 1 0 ++ le 8 v.toNat) s = some u) ∧
    (∃ (p : Pkt) (v : BitVec 64) (s : State) (u : State), (u.job.st = .loaded ∨ u.job.st = .held ∨ u.job.st = .complete ∨ u.job.st = .noJob) ∧ bodyState p 0x0206 (le 1 1 ++ le 8 v.toNat) s = some u) ∧
    (∃ (p : Pkt) (v : BitVec 64) (s : State) (u : State), u.job.st = .loose ∧ bodyState p 0x0206 (le 1 1 ++ le 8 v.toNat) s = some u) ∧
    (∃ (p : Pkt) (tr : BitVec 64) (w : BitVec 64) (s : State) (u : State), bodyState p 0x0207 (le 1 0 ++ le 8 tr.toNat ++ le 8 w.toNat) s = some u ∧ canResume u = true ∧ u.tm.valid = true ∧ (tr - u.job.tb).toNat % max 1 (periodLen u) = 0 ∧ reached (u.tm.ft + 63999999) tr = false ∧ u.job.wper ≤ w.toNat) ∧
    (∃ (p : Pkt) (tr : BitVec 64) (w : BitVec 64) (s : State) (u : State), bodyState p 0x0207 (le 1 1 ++ le 8 tr.toNat ++ le 8 w.toNat) s = some u ∧ canResume u = true ∧ lastPeriod u = none ∧ u.job.holds = []) ∧
    (∃ (p : Pkt) (tr : BitVec 64) (w : BitVec 64) (s : State) (u : State), canResume u = false ∧ bodyState p 0x0207 (le 1 0 ++ le 8 tr.toNat ++ le 8 w.toNat) s = some u) ∧
    (∃ (p : Pkt) (tr : BitVec 64) (w : BitVec 64) (s : State) (u : State), canResume u = false ∧ bodyState p 0x0207 (le 1 1 ++ le 8 tr.toNat ++ le 8 w.toNat) s = some u) ∧
    (∃ (u : State), (u.job.noResume = true ∨ u.job.tripped = true ∨ u.job.st ≠ .held)) :=
  ⟨⟨(pk : Pkt), (64000000 : BitVec 64), (((run.modJob fun zz => { zz with st := .loaded }).modTm fun zz => { zz with valid := true }) : State), (begun (pk : Pkt) 0x0205 (le 8 (64000000 : BitVec 64).toNat ++ le 1 0) (((run.modJob fun zz => { zz with st := .loaded }).modTm fun zz => { zz with valid := true }) : State) : State), by decide +kernel⟩,
   ⟨(pk : Pkt), (64000000 : BitVec 64), (((run.modJob fun zz => { zz with st := .loaded }).modTm fun zz => { zz with valid := true }) : State), (begun (pk : Pkt) 0x0205 (le 8 (64000000 : BitVec 64).toNat ++ le 1 1) (((run.modJob fun zz => { zz with st := .loaded }).modTm fun zz => { zz with valid := true }) : State) : State), by decide +kernel⟩,
   ⟨(pk : Pkt), (63996800 : BitVec 64), (((run.modJob fun zz => { zz with st := .loaded }).modTm fun zz => { zz with valid := true }) : State), (begun (pk : Pkt) 0x0205 (le 8 (63996800 : BitVec 64).toNat ++ le 1 0) (((run.modJob fun zz => { zz with st := .loaded }).modTm fun zz => { zz with valid := true }) : State) : State), by decide +kernel⟩,
   ⟨(pk : Pkt), (5 : BitVec 64), (((run.modJob fun zz => { zz with st := .strict, bell := 5 }).modTm fun zz => { zz with valid := true }) : State), (begun (pk : Pkt) 0x0206 (le 1 0 ++ le 8 (5 : BitVec 64).toNat) (((run.modJob fun zz => { zz with st := .strict, bell := 5 }).modTm fun zz => { zz with valid := true }) : State) : State), by decide +kernel⟩,
   ⟨(pk : Pkt), (5 : BitVec 64), (((run.modJob fun zz => { zz with st := .strict, wper := 5 }).modTm fun zz => { zz with valid := true }) : State), (begun (pk : Pkt) 0x0206 (le 1 1 ++ le 8 (5 : BitVec 64).toNat) (((run.modJob fun zz => { zz with st := .strict, wper := 5 }).modTm fun zz => { zz with valid := true }) : State) : State), by decide +kernel⟩,
   ⟨(pk : Pkt), (0 : BitVec 64), (((run.modJob fun zz => { zz with st := .loose }).modTm fun zz => { zz with valid := true }) : State), (begun (pk : Pkt) 0x0206 (le 1 0 ++ le 8 (0 : BitVec 64).toNat) (((run.modJob fun zz => { zz with st := .loose }).modTm fun zz => { zz with valid := true }) : State) : State), by decide +kernel⟩,
   ⟨(pk : Pkt), (0 : BitVec 64), (((run.modJob fun zz => { zz with st := .loaded }).modTm fun zz => { zz with valid := true }) : State), (begun (pk : Pkt) 0x0206 (le 1 1 ++ le 8 (0 : BitVec 64).toNat) (((run.modJob fun zz => { zz with st := .loaded }).modTm fun zz => { zz with valid := true }) : State) : State), by decide +kernel⟩,
   ⟨(pk : Pkt), (0 : BitVec 64), (((run.modJob fun zz => { zz with st := .loose }).modTm fun zz => { zz with valid := true }) : State), (begun (pk : Pkt) 0x0206 (le 1 1 ++ le 8 (0 : BitVec 64).toNat) (((run.modJob fun zz => { zz with st := .loose }).modTm fun zz => { zz with valid := true }) : State) : State), by decide +kernel⟩,
   ⟨(pk : Pkt), (64000000 : BitVec 64), (3 : BitVec 64), (((run.modJob fun zz => { zz with st := .held, image := some { periodNs := 20000 }, wper := 3 }).modTm fun zz => { zz with valid := true }) : State), (begun (pk : Pkt) 0x0207 (le 1 0 ++ le 8 (64000000 : BitVec 64).toNat ++ le 8 (3 : BitVec 64).toNat) (((run.modJob fun zz => { zz with st := .held, image := some { periodNs := 20000 }, wper := 3 }).modTm fun zz => { zz with valid := true }) : State) : State), by decide +kernel⟩,
   ⟨(pk : Pkt), (0 : BitVec 64), (0 : BitVec 64), (((run.modJob fun zz => { zz with st := .held, image := some { periodNs := 20000 } }).modTm fun zz => { zz with valid := true }) : State), (begun (pk : Pkt) 0x0207 (le 1 1 ++ le 8 (0 : BitVec 64).toNat ++ le 8 (0 : BitVec 64).toNat) (((run.modJob fun zz => { zz with st := .held, image := some { periodNs := 20000 } }).modTm fun zz => { zz with valid := true }) : State) : State), by decide +kernel⟩,
   ⟨(pk : Pkt), (0 : BitVec 64), (0 : BitVec 64), (((run.modJob fun zz => { zz with st := .held, noResume := true }).modTm fun zz => { zz with valid := true }) : State), (begun (pk : Pkt) 0x0207 (le 1 0 ++ le 8 (0 : BitVec 64).toNat ++ le 8 (0 : BitVec 64).toNat) (((run.modJob fun zz => { zz with st := .held, noResume := true }).modTm fun zz => { zz with valid := true }) : State) : State), by decide +kernel⟩,
   ⟨(pk : Pkt), (0 : BitVec 64), (0 : BitVec 64), (((run.modJob fun zz => { zz with st := .held, noResume := true }).modTm fun zz => { zz with valid := true }) : State), (begun (pk : Pkt) 0x0207 (le 1 1 ++ le 8 (0 : BitVec 64).toNat ++ le 8 (0 : BitVec 64).toNat) (((run.modJob fun zz => { zz with st := .held, noResume := true }).modTm fun zz => { zz with valid := true }) : State) : State), by decide +kernel⟩,
   ⟨(lit : State), by decide +kernel⟩⟩

theorem witness_PeriodBellAndStretchNotices :
    (∃ (s : State) (loose : Bool) (ref : PktRef), litUp s = true ∧ s.pwr.ps = .running ∧ imageLoaded s = true ∧ s.job.gridOn = false ∧ s.job.startReq = some (loose, ref) ∧ reached s.tm.ft s.job.t0 = true) ∧
    (∃ (s : State), litUp s = true ∧ s.pwr.ps = .running ∧ imageLoaded s = true ∧ s.job.gridOn = true ∧ reached s.tm.ft (bellDue s) = true) ∧
    (∃ (s : State), reached s.tm.ft (bellDue s) = false) ∧
    (∃ (port : Nat) (b : Bytes) (s : State) (u : State), litUp s = true ∧ (readNotice b).kind = 1 ∧ takeNotice (readNotice b) port s = some (true, u) ∧ imageLoaded u = true ∧ (readNotice b).jobTag = jobTag u ∧ (u.job.gridOn = false ∨ u.job.bell < rd (readNotice b).body 0 8)) ∧
    (∃ (port : Nat) (b : Bytes) (s : State) (u : State), litUp s = true ∧ (readNotice b).kind = 1 ∧ takeNotice (readNotice b) port s = some (true, u) ∧ imageLoaded u = true ∧ (readNotice b).jobTag = jobTag u ∧ u.job.gridOn = true ∧ rd (readNotice b).body 0 8 ≤ u.job.bell) ∧
    (∃ (port : Nat) (b : Bytes) (s : State) (u : State), litUp s = true ∧ (readNotice b).kind = 2 ∧ takeNotice (readNotice b) port s = some (true, u) ∧ imageLoaded u = true ∧ (readNotice b).jobTag = jobTag u ∧ (u.job.gridOn = false ∨ u.job.bell < rd (readNotice b).body 0 8) ∧ ((u.job.reqs.any fun r => decide (r.module = (readNotice b).src) && r.close.isNone) = true)) ∧
    (∃ (port : Nat) (b : Bytes) (s : State) (u : State), litUp s = true ∧ (readNotice b).kind = 1 ∧ takeNotice (readNotice b) port s = some (true, u) ∧ imageLoaded u = true ∧ (readNotice b).jobTag ≠ jobTag u) :=
  ⟨⟨(((run.modJob fun zz => { zz with st := .loaded, startReq := some (true, {}), image := some { periodNs := 20000 } }).modTm fun zz => { zz with valid := true }) : State), (true : Bool), ({} : PktRef), by decide +kernel⟩,
   ⟨(((run.modJob fun zz => { zz with st := .strict, gridOn := true, image := some { periodNs := 20000 } }).modTm fun zz => { zz with ft := 1280000 }) : State), by decide +kernel⟩,
   ⟨(((run.modJob fun zz => { zz with st := .strict, gridOn := true, image := some { periodNs := 20000 } }).modTm fun zz => { zz with valid := true }) : State), by decide +kernel⟩,
   ⟨(0 : Nat), ((zeros 4 ++ le 4 7 ++ le 8 72127958638133249 ++ le 8 6) : Bytes), ((run.modJob fun zz => { zz with number := 7, st := .strict, gridOn := true, bell := 5 }) : State), (((takeNotice (readNotice ((zeros 4 ++ le 4 7 ++ le 8 72127958638133249 ++ le 8 6) : Bytes)) (0 : Nat) ((run.modJob fun zz => { zz with number := 7, st := .strict, gridOn := true, bell := 5 }) : State)).map fun zz => zz.2).getD ((run.modJob fun zz => { zz with number := 7, st := .strict, gridOn := true, bell := 5 }) : State) : State), by decide +kernel⟩,
   ⟨(0 : Nat), ((zeros 4 ++ le 4 7 ++ le 8 72127958638133249 ++ le 8 5) : Bytes), ((run.modJob fun zz => { zz with number := 7, st := .strict, gridOn := true, bell := 5 }) : State), (((takeNotice (readNotice ((zeros 4 ++ le 4 7 ++ le 8 72127958638133249 ++ le 8 5) : Bytes)) (0 : Nat) ((run.modJob fun zz => { zz with number := 7, st := .strict, gridOn := true, bell := 5 }) : State)).map fun zz => zz.2).getD ((run.modJob fun zz => { zz with number := 7, st := .strict, gridOn := true, bell := 5 }) : State) : State), by decide +kernel⟩,
   ⟨(0 : Nat), ((zeros 4 ++ le 4 7 ++ le 8 144185552676061185 ++ le 8 6) : Bytes), ((run.modJob fun zz => { zz with number := 7, st := .strict, gridOn := true, bell := 5, reqs := [{ module := 3, first := 2, close := none }] }) : State), (((takeNotice (readNotice ((zeros 4 ++ le 4 7 ++ le 8 144185552676061185 ++ le 8 6) : Bytes)) (0 : Nat) ((run.modJob fun zz => { zz with number := 7, st := .strict, gridOn := true, bell := 5, reqs := [{ module := 3, first := 2, close := none }] }) : State)).map fun zz => zz.2).getD ((run.modJob fun zz => { zz with number := 7, st := .strict, gridOn := true, bell := 5, reqs := [{ module := 3, first := 2, close := none }] }) : State) : State), by decide +kernel⟩,
   ⟨(0 : Nat), ((zeros 4 ++ le 4 8 ++ le 8 72127958638133249 ++ le 8 6) : Bytes), ((run.modJob fun zz => { zz with number := 7, st := .strict }) : State), (((takeNotice (readNotice ((zeros 4 ++ le 4 8 ++ le 8 72127958638133249 ++ le 8 6) : Bytes)) (0 : Nat) ((run.modJob fun zz => { zz with number := 7, st := .strict }) : State)).map fun zz => zz.2).getD ((run.modJob fun zz => { zz with number := 7, st := .strict }) : State) : State), by decide +kernel⟩⟩

theorem witness_SyncAndJobReadOpcodes :
    (∃ (p : Pkt) (obj : BitVec 16) (n : BitVec 16) (s : State) (u : State), bodyState p 0x020B (le 2 obj.toNat ++ le 2 n.toNat) s = some u ∧ litUp u = true ∧ 1 ≤ n.toNat) ∧
    (∃ (p : Pkt) (obj : BitVec 16) (s : State) (u : State), bodyState p 0x020D (le 2 obj.toNat) s = some u ∧ litUp u = true) ∧
    (∃ (p : Pkt) (obj : BitVec 16) (s : State) (u : State), bodyState p 0x020E (le 2 obj.toNat) s = some u ∧ litUp u = true ∧ twf {} u.sync = true ∧ (u.job.st = .held ∨ u.job.st = .noJob)) ∧
    (∃ (p : Pkt) (obj : BitVec 16) (s : State) (u : State), bodyState p 0x020E (le 2 obj.toNat) s = some u ∧ litUp u = true ∧ twf {} u.sync = true ∧ (u.job.st = .strict ∨ u.job.st = .loose ∨ u.job.st = .loaded)) ∧
    (∃ (p : Pkt) (obj : BitVec 16) (thresh : BitVec 16) (vec : BitVec 8) (s : State) (u : State), bodyState p 0x020C (le 2 obj.toNat ++ le 2 thresh.toNat ++ le 1 vec.toNat) s = some u ∧ litUp u = true ∧ vec.toNat < 64 ∧ twf {} u.sync = true) ∧
    (∃ (p : Pkt) (s : State) (u : State), bodyState p 0x0209 [] s = some u) ∧
    (∃ (p : Pkt) (stn : BitVec 16) (buf : Buf) (s : State) (u : State), bodyState p 0x020A (le 2 stn.toNat ++ buf.bytes) s = some u ∧ stnValid stn = true ∧ (stnOf u stn).trap = none) ∧
    (∃ (p : Pkt) (stn : BitVec 16) (buf : Buf) (s : State) (u : State) (r : TrapRec), bodyState p 0x020A (le 2 stn.toNat ++ buf.bytes) s = some u ∧ stnValid stn = true ∧ (stnOf u stn).trap = some r ∧ 40 ≤ buf.len.toNat) ∧
    (∃ (p : Pkt) (first : BitVec 32) (count : BitVec 32) (buf : Buf) (s : State) (u : State), bodyState p 0x020F (le 4 first.toNat ++ le 4 count.toNat ++ buf.bytes) s = some u ∧ litUp u = true ∧ 1 ≤ count.toNat ∧ first.toNat + count.toNat ≤ 2 ^ 20 ∧ buf.len.toNat < 64 * count.toNat) ∧
    (∃ (p : Pkt) (first : BitVec 32) (count : BitVec 32) (buf : Buf) (s : State) (u : State), bodyState p 0x020F (le 4 first.toNat ++ le 4 count.toNat ++ buf.bytes) s = some u ∧ litUp u = true ∧ 1 ≤ count.toNat ∧ first.toNat + count.toNat ≤ 2 ^ 20 ∧ 64 * count.toNat ≤ buf.len.toNat) :=
  ⟨⟨(pk : Pkt), (0xFFFF : BitVec 16), (0xFFFF : BitVec 16), (lit : State), (begun (pk : Pkt) 0x020B (le 2 (0xFFFF : BitVec 16).toNat ++ le 2 (0xFFFF : BitVec 16).toNat) (lit : State) : State), by decide +kernel⟩,
   ⟨(pk : Pkt), (0 : BitVec 16), (lit : State), (begun (pk : Pkt) 0x020D (le 2 (0 : BitVec 16).toNat) (lit : State) : State), by decide +kernel⟩,
   ⟨(pk : Pkt), (3 : BitVec 16), (lit : State), (begun (pk : Pkt) 0x020E (le 2 (3 : BitVec 16).toNat) (lit : State) : State), by decide +kernel⟩,
   ⟨(pk : Pkt), (0 : BitVec 16), ((lit.modJob fun zz => { zz with st := .strict }) : State), (begun (pk : Pkt) 0x020E (le 2 (0 : BitVec 16).toNat) ((lit.modJob fun zz => { zz with st := .strict }) : State) : State), by decide +kernel⟩,
   ⟨(pk : Pkt), (3 : BitVec 16), (2 : BitVec 16), (63 : BitVec 8), (lit : State), (begun (pk : Pkt) 0x020C (le 2 (3 : BitVec 16).toNat ++ le 2 (2 : BitVec 16).toNat ++ le 1 (63 : BitVec 8).toNat) (lit : State) : State), by decide +kernel⟩,
   ⟨(pk : Pkt), (lit : State), (begun (pk : Pkt) 0x0209 [] (lit : State) : State), by decide +kernel⟩,
   ⟨(pk : Pkt), (0x311F : BitVec 16), ({ addr := 0x1000, len := 0xFFFFFFFF } : Buf), (lit : State), (begun (pk : Pkt) 0x020A (le 2 (0x311F : BitVec 16).toNat ++ ({ addr := 0x1000, len := 0xFFFFFFFF } : Buf).bytes) (lit : State) : State), by decide +kernel⟩,
   ⟨(pk : Pkt), (0x311F : BitVec 16), ({ addr := 0, len := 40 } : Buf), ((lit.modStn fun zz => { zz with st := [(0x311F, ({ trap := some {} } : StnState))] }) : State), (begun (pk : Pkt) 0x020A (le 2 (0x311F : BitVec 16).toNat ++ ({ addr := 0, len := 40 } : Buf).bytes) ((lit.modStn fun zz => { zz with st := [(0x311F, ({ trap := some {} } : StnState))] }) : State) : State), ({} : TrapRec), by decide +kernel⟩,
   ⟨(px : Pkt), (1048575 : BitVec 32), (1 : BitVec 32), ({ addr := 0, len := 63 } : Buf), (lit : State), (begun (px : Pkt) 0x020F (le 4 (1048575 : BitVec 32).toNat ++ le 4 (1 : BitVec 32).toNat ++ ({ addr := 0, len := 63 } : Buf).bytes) (lit : State) : State), by decide +kernel⟩,
   ⟨(px : Pkt), (1048575 : BitVec 32), (1 : BitVec 32), ({ addr := 0, len := 64 } : Buf), (lit : State), (begun (px : Pkt) 0x020F (le 4 (1048575 : BitVec 32).toNat ++ le 4 (1 : BitVec 32).toNat ++ ({ addr := 0, len := 64 } : Buf).bytes) (lit : State) : State), by decide +kernel⟩⟩

theorem witness_BellsAreSetAndRing :
    (∃ (p : Pkt) (index : BitVec 8) (d : BitVec 256) (s : State) (u : State), bodyState p 0x0506 (le 1 index.toNat ++ le 32 d.toNat) s = some u ∧ hostBell index.toNat = false) ∧
    (∃ (p : Pkt) (index : BitVec 8) (d : BitVec 256) (s : State) (u : State), bodyState p 0x0506 (le 1 index.toNat ++ le 32 d.toNat) s = some u ∧ hostBell index.toNat = true ∧ u.tm.valid = false) ∧
    (∃ (p : Pkt) (index : BitVec 8) (d : BitVec 256) (s : State) (u : State), bodyState p 0x0506 (le 1 index.toNat ++ le 32 d.toNat) s = some u ∧ hostBell index.toNat = true ∧ u.tm.valid = true ∧ ringFar u (readBell d) = false) ∧
    (∃ (p : Pkt) (index : BitVec 8) (d : BitVec 256) (s : State) (u : State), bodyState p 0x0506 (le 1 index.toNat ++ le 32 d.toNat) s = some u ∧ hostBell index.toNat = true ∧ u.tm.valid = true ∧ ringFar u (readBell d) = true ∧ bellPeriodOk index.toNat (readBell d) = false) ∧
    (∃ (p : Pkt) (index : BitVec 8) (d : BitVec 256) (s : State) (u : State), bodyState p 0x0506 (le 1 index.toNat ++ le 32 d.toNat) s = some u ∧ hostBell index.toNat = true ∧ u.tm.valid = true ∧ ringFar u (readBell d) = true ∧ bellPeriodOk index.toNat (readBell d) = true ∧ bellFieldsOk index.toNat d = true ∧ ((bellOf u index.toNat).st ≠ .armed ∨ ringFar u (bellOf u index.toNat) = true)) ∧
    (∃ (p : Pkt) (index : BitVec 8) (d : BitVec 256) (s : State) (u : State), bodyState p 0x0506 (le 1 index.toNat ++ le 32 d.toNat) s = some u ∧ hostBell index.toNat = true ∧ u.tm.valid = true ∧ ringFar u (readBell d) = true ∧ bellPeriodOk index.toNat (readBell d) = true ∧ bellFieldsOk index.toNat d = false) ∧
    (∃ (p : Pkt) (index : BitVec 8) (d : BitVec 256) (s : State) (u : State), bodyState p 0x0506 (le 1 index.toNat ++ le 32 d.toNat) s = some u ∧ hostBell index.toNat = true ∧ u.tm.valid = true ∧ ringFar u (readBell d) = true ∧ bellPeriodOk index.toNat (readBell d) = true ∧ bellFieldsOk index.toNat d = true ∧ (bellOf u index.toNat).st = .armed ∧ ringFar u (bellOf u index.toNat) = false) ∧
    (∃ (p : Pkt) (index : BitVec 8) (s : State) (u : State), bodyState p 0x0507 (le 1 index.toNat) s = some u ∧ hostBell index.toNat = true ∧ twf {} u.bells.bells = true ∧ ((bellOf u index.toNat).st ≠ .armed ∨ ringFar u (bellOf u index.toNat) = true)) ∧
    (∃ (i : Nat) (s : State), svOn s = true ∧ 8 ≤ i ∧ i < 64 ∧ (bellOf s i).st = .armed ∧ tget none s.bells.next i = none ∧ twf {} s.bells.bells = true) ∧
    (∃ (i : Nat) (s : State), svOn s = true ∧ i < 8 ∧ (bellOf s (64 + i)).st = .armed ∧ tget none s.bells.next (64 + i) = none ∧ s.pins.pinsDriven = true ∧ twf {} s.bells.bells = true) ∧
    (∃ (i : Nat) (s : State) (b : Bell), svOn s = true ∧ 8 ≤ i ∧ i < 64 ∧ (bellOf s i).st = .armed ∧ tget none s.bells.next i = some b ∧ twf {} s.bells.bells = true ∧ twf none s.bells.next = true) ∧
    (∃ (i : Nat) (s : State) (b : Bell), svOn s = true ∧ i < 8 ∧ (bellOf s (64 + i)).st = .armed ∧ tget none s.bells.next (64 + i) = some b ∧ twf {} s.bells.bells = true ∧ twf none s.bells.next = true) ∧
    (∃ (p : Pkt) (index : BitVec 8) (s : State) (u : State), bodyState p 0x0507 (le 1 index.toNat) s = some u ∧ hostBell index.toNat = true ∧ (bellOf u index.toNat).st = .armed ∧ ringFar u (bellOf u index.toNat) = false) :=
  ⟨⟨(pk : Pkt), (7 : BitVec 8), (0 : BitVec 256), (lit : State), (begun (pk : Pkt) 0x0506 (le 1 (7 : BitVec 8).toNat ++ le 32 (0 : BitVec 256).toNat) (lit : State) : State), by decide +kernel⟩,
   ⟨(pk : Pkt), (8 : BitVec 8), (0 : BitVec 256), (lit : State), (begun (pk : Pkt) 0x0506 (le 1 (8 : BitVec 8).toNat ++ le 32 (0 : BitVec 256).toNat) (lit : State) : State), by decide +kernel⟩,
   ⟨(pk : Pkt), (71 : BitVec 8), (0x9c3ff000000000000000000000000000000000000000000000000 : BitVec 256), ((lit.modTm fun zz => { zz with valid := true }) : State), (begun (pk : Pkt) 0x0506 (le 1 (71 : BitVec 8).toNat ++ le 32 (0x9c3ff000000000000000000000000000000000000000000000000 : BitVec 256).toNat) ((lit.modTm fun zz => { zz with valid := true }) : State) : State), by decide +kernel⟩,
   ⟨(pk : Pkt), (71 : BitVec 8), (0x9c400000000000000000000000000700000000000000000000000 : BitVec 256), ((lit.modTm fun zz => { zz with valid := true }) : State), (begun (pk : Pkt) 0x0506 (le 1 (71 : BitVec 8).toNat ++ le 32 (0x9c400000000000000000000000000700000000000000000000000 : BitVec 256).toNat) ((lit.modTm fun zz => { zz with valid := true }) : State) : State), by decide +kernel⟩,
   ⟨(pk : Pkt), (71 : BitVec 8), (0x9c400000000000000000000000000800000000000000000000000 : BitVec 256), ((lit.modTm fun zz => { zz with valid := true }) : State), (begun (pk : Pkt) 0x0506 (le 1 (71 : BitVec 8).toNat ++ le 32 (0x9c400000000000000000000000000800000000000000000000000 : BitVec 256).toNat) ((lit.modTm fun zz => { zz with valid := true }) : State) : State), by decide +kernel⟩,
   ⟨(pk : Pkt), (8 : BitVec 8), (0x9c400000000000000000000000000000000000000000000000001 : BitVec 256), ((lit.modTm fun zz => { zz with valid := true }) : State), (begun (pk : Pkt) 0x0506 (le 1 (8 : BitVec 8).toNat ++ le 32 (0x9c400000000000000000000000000000000000000000000000001 : BitVec 256).toNat) ((lit.modTm fun zz => { zz with valid := true }) : State) : State), by decide +kernel⟩,
   ⟨(pk : Pkt), (8 : BitVec 8), (0x9c400000000000000000000000000000000000000000000000000 : BitVec 256), (((lit.modBells fun zz => { zz with bells := [(8, ({ st := .armed } : Bell))] }).modTm fun zz => { zz with valid := true }) : State), (begun (pk : Pkt) 0x0506 (le 1 (8 : BitVec 8).toNat ++ le 32 (0x9c400000000000000000000000000000000000000000000000000 : BitVec 256).toNat) (((lit.modBells fun zz => { zz with bells := [(8, ({ st := .armed } : Bell))] }).modTm fun zz => { zz with valid := true }) : State) : State), by decide +kernel⟩,
   ⟨(pk : Pkt), (8 : BitVec 8), ((lit.modTm fun zz => { zz with valid := true }) : State), (begun (pk : Pkt) 0x0507 (le 1 (8 : BitVec 8).toNat) ((lit.modTm fun zz => { zz with valid := true }) : State) : State), by decide +kernel⟩,
   ⟨(63 : Nat), ((lit.modBells fun zz => { zz with bells := [(63, ({ st := .armed } : Bell))] }) : State), by decide +kernel⟩,
   ⟨(7 : Nat), (((lit.modBells fun zz => { zz with bells := [(71, ({ st := .armed } : Bell))] }).modPins fun zz => { zz with pinsDriven := true }) : State), by decide +kernel⟩,
   ⟨(63 : Nat), ((lit.modBells fun zz => { zz with bells := [(63, ({ st := .armed } : Bell))], next := [(63, some { time := 10000000 })] }) : State), ({ time := 10000000 } : Bell), by decide +kernel⟩,
   ⟨(7 : Nat), ((lit.modBells fun zz => { zz with bells := [(71, ({ st := .armed } : Bell))], next := [(71, some { time := 10000000 })] }) : State), ({ time := 10000000 } : Bell), by decide +kernel⟩,
   ⟨(pk : Pkt), (8 : BitVec 8), ((lit.modBells fun zz => { zz with bells := [(8, ({ st := .armed } : Bell))] }) : State), (begun (pk : Pkt) 0x0507 (le 1 (8 : BitVec 8).toNat) ((lit.modBells fun zz => { zz with bells := [(8, ({ st := .armed } : Bell))] }) : State) : State), by decide +kernel⟩⟩

theorem witness_SyncWordsWaitsAndTraps :
    (∃ (x : BitVec 16) (err : ReadErr) (s : State) (u : State) (e : Ew), ((err.prog = [] ∧ err.ctx = [])) ∧ gridWordAt 0x00 x s = none ∧ stnKind x ≠ 7 ∧ wordDue 0x00 x s = some (e, u)) ∧
    (∃ (x : BitVec 16) (err : ReadErr) (s : State) (e : Ew), ((err.prog = [] ∧ err.ctx = [])) ∧ gridWordAt 0x00 x s = some e) ∧
    (∃ (x : BitVec 16) (err : ReadErr) (s : State) (u : State) (e : Ew), ((err.prog = [] ∧ err.ctx = [])) ∧ wordDue 0x02 x s = some (e, u)) ∧
    (∃ (x : BitVec 16) (err : ReadErr) (s : State) (u : State) (e : Ew), ((err.prog = [] ∧ err.ctx = [])) ∧ wordDue 0x03 x s = some (e, u)) ∧
    (∃ (x : BitVec 16) (err : ReadErr) (s : State) (u : State) (e : Ew), ((err.prog = [] ∧ err.ctx = [])) ∧ wordDue 0x04 x s = some (e, u)) ∧
    (∃ (x : BitVec 16) (err : ReadErr) (s : State) (u : State) (e : Ew), ((err.prog = [] ∧ err.ctx = [])) ∧ wordDue 0x05 x s = some (e, u) ∧ twf {} u.sync = true ∧ iwArg e.w 1 ≤ (syncOf u (BitVec.ofNat 16 (iwArg e.w 0))).count.toNat ∧ takeTurn x (BitVec.ofNat 16 (iwArg e.w 0)) u = true) ∧
    (∃ (x : BitVec 16) (err : ReadErr) (s : State) (u : State) (e : Ew), ((err.prog = [] ∧ err.ctx = [])) ∧ wordDue 0x05 x s = some (e, u) ∧ twf {} u.sync = true ∧ ((syncOf u (BitVec.ofNat 16 (iwArg e.w 0))).count.toNat < iwArg e.w 1 ∨ takeTurn x (BitVec.ofNat 16 (iwArg e.w 0)) u = false)) ∧
    (∃ (x : BitVec 16) (err : ReadErr) (s : State) (u : State) (e : Ew) (k : Nat), ((err.prog = [] ∧ err.ctx = [])) ∧ wordDue 0x06 x s = some (e, u) ∧ consBit x = some k ∧ twf 0 u.strm.rel = true ∧ tileReady u (bindAt u x (iwArg e.w 0)).stream (relOf u (bindAt u x (iwArg e.w 0)).stream k) = true) ∧
    (∃ (x : BitVec 16) (err : ReadErr) (s : State) (u : State) (e : Ew) (k : Nat), ((err.prog = [] ∧ err.ctx = [])) ∧ wordDue 0x06 x s = some (e, u) ∧ consBit x = some k ∧ twf 0 u.strm.rel = true ∧ tileReady u (bindAt u x (iwArg e.w 0)).stream (relOf u (bindAt u x (iwArg e.w 0)).stream k) = false) ∧
    (∃ (x : BitVec 16) (err : ReadErr) (s : State) (e : Ew), ((err.prog = [] ∧ err.ctx = [])) ∧ gridWordAt 0x70 x s = some e) ∧
    (∃ (q : Nat × (BitVec 16 → ReadErr → Instr)) (x : BitVec 16) (s : State), q ∈ programWords ∧ wordAt q.1 x (advanceStn x s) = none) ∧
    (∃ (q : Nat × (BitVec 16 → ReadErr → Instr)) (x : BitVec 16) (s : State), q ∈ programWords ∧ (stnOf s x).trap.isSome = true) ∧
    (∃ (q : Nat × (BitVec 16 → ReadErr → Instr)) (x : BitVec 16) (err : ReadErr) (s : State) (e : Ew) (st : BitVec 20), q ∈ programWords ∧ wordAt q.1 x (advanceStn x s) = some e ∧ ((err.prog = [] ∧ err.ctx = [])) ∧ st ∈ wordStreams (advanceStn x s) x e.w ∧ (ctxOf (advanceStn x s) st).state = .invalid) ∧
    (∃ (q : Nat × (BitVec 16 → ReadErr → Instr)) (x : BitVec 16) (err : ReadErr) (s : State) (e : Ew), q ∈ programWords ∧ wordAt q.1 x (advanceStn x s) = some e ∧ err.prog = [(x.toNat * 65536 + e.idx, .uncorrectable)]) ∧
    (∃ (x : BitVec 16) (y : Nat), y ≠ x) ∧
    (∃ (s : State), s.job.st = .strict) ∧
    (∃ (q : Nat × (BitVec 16 → ReadErr → Instr)) (x : BitVec 16) (err : ReadErr) (s : State) (e : Ew), q ∈ [(0x00, Instr.stationNop), (0x45, fun y d => .refab ⟨y, d⟩), (0x46, fun y d => .refpb ⟨y, d⟩), (0x70, .pphase)] ∧ gridWordAt q.1 x s = some e ∧ s.mem.selfRef = false ∧ (stnOf s x).trap = none ∧ err.prog = [(x.toNat * 65536 + e.idx, .uncorrectable)]) :=
  ⟨⟨(0x0100 : BitVec 16), ({} : ReadErr), ((job1 0x0100 [(iw 0x0 0 [])] []) : State), (((job1 0x0100 [(iw 0x0 0 [])] []) : State) : State), (ew (iw 0x0 0 []) : Ew), by decide +kernel⟩,
   ⟨(0x0400 : BitVec 16), ({} : ReadErr), ((job1 0x0400 [(iw 0x0 0 [])] []) : State), (ew (iw 0x0 0 []) : Ew), by decide +kernel⟩,
   ⟨(0x0100 : BitVec 16), ({} : ReadErr), ((job1 0x0100 [(iw 0x2 0 [9, 5])] []) : State), (((job1 0x0100 [(iw 0x2 0 [9, 5])] []) : State) : State), (ew (iw 0x2 0 [9, 5]) : Ew), by decide +kernel⟩,
   ⟨(0x0100 : BitVec 16), ({} : ReadErr), ((job1 0x0100 [(iw 0x3 0 [4095, 9, 5])] []) : State), (((job1 0x0100 [(iw 0x3 0 [4095, 9, 5])] []) : State) : State), (ew (iw 0x3 0 [4095, 9, 5]) : Ew), by decide +kernel⟩,
   ⟨(0x0100 : BitVec 16), ({} : ReadErr), ((job1 0x0100 [(iw 0x4 0 [9, 5])] []) : State), (((job1 0x0100 [(iw 0x4 0 [9, 5])] []) : State) : State), (ew (iw 0x4 0 [9, 5]) : Ew), by decide +kernel⟩,
   ⟨(0x0100 : BitVec 16), ({} : ReadErr), ({ (job1 0x0100 [(iw 0x5 0 [9, 5])] []) with sync := [(9, ({ count := 5 } : SyncObj))] } : State), (({ (job1 0x0100 [(iw 0x5 0 [9, 5])] []) with sync := [(9, ({ count := 5 } : SyncObj))] } : State) : State), (ew (iw 0x5 0 [9, 5]) : Ew), by decide +kernel⟩,
   ⟨(0x0100 : BitVec 16), ({} : ReadErr), ((job1 0x0100 [(iw 0x5 0 [9, 5])] []) : State), (((job1 0x0100 [(iw 0x5 0 [9, 5])] []) : State) : State), (ew (iw 0x5 0 [9, 5]) : Ew), by decide +kernel⟩,
   ⟨(0x0100 : BitVec 16), ({} : ReadErr), ((job1 0x0100 [(iw 0x6 0 [0])] [(1, 0)]) : State), (((job1 0x0100 [(iw 0x6 0 [0])] [(1, 0)]) : State) : State), (ew (iw 0x6 0 [0]) : Ew), (0 : Nat), by decide +kernel⟩,
   ⟨(0x0100 : BitVec 16), ({} : ReadErr), (((job1 0x0100 [(iw 0x6 0 [0])] [(1, 0)]).modStrm fun zz => { zz with rel := [(128, (1 : BitVec 32))] }) : State), ((((job1 0x0100 [(iw 0x6 0 [0])] [(1, 0)]).modStrm fun zz => { zz with rel := [(128, (1 : BitVec 32))] }) : State) : State), (ew (iw 0x6 0 [0]) : Ew), (0 : Nat), by decide +kernel⟩,
   ⟨(0x9704 : BitVec 16), ({} : ReadErr), ((job1 0x9704 [(iw 0x70 0 [63])] []) : State), (ew (iw 0x70 0 [63]) : Ew), by decide +kernel⟩,
   ⟨((0x02, .signal) : Nat × (BitVec 16 → ReadErr → Instr)), (0 : BitVec 16), (lit : State), ⟨by simp [programWords], by decide +kernel⟩⟩,
   ⟨((0x02, .signal) : Nat × (BitVec 16 → ReadErr → Instr)), (0x0100 : BitVec 16), ((run.modStn fun zz => { zz with st := [(0x0100, ({ trap := some {} } : StnState))] }) : State), ⟨by simp [programWords], by decide +kernel⟩⟩,
   ⟨((0x06, .release) : Nat × (BitVec 16 → ReadErr → Instr)), (0x0100 : BitVec 16), ({} : ReadErr), (((job1 0x0100 [(iw 0x6 0 [0])] [(1, 0)]).modStrm fun zz => { zz with ctx := [] }) : State), (ew (iw 0x6 0 [0]) : Ew), (1 : BitVec 20), ⟨by simp [programWords], by decide +kernel⟩⟩,
   ⟨((0x02, .signal) : Nat × (BitVec 16 → ReadErr → Instr)), (0x0100 : BitVec 16), ({ prog := [(0x1000000, .uncorrectable)] } : ReadErr), ((job1 0x0100 [(iw 0x2 0 [9, 5])] []) : State), (ew (iw 0x2 0 [9, 5]) : Ew), ⟨by simp [programWords], by decide +kernel⟩⟩,
   ⟨(0 : BitVec 16), (1 : Nat), by decide +kernel⟩,
   ⟨(job1 0 [] [] : State), by decide +kernel⟩,
   ⟨((0x70, .pphase) : Nat × (BitVec 16 → ReadErr → Instr)), (0x9704 : BitVec 16), ({ prog := [(0x97040000, .uncorrectable)] } : ReadErr), ((job1 0x9704 [(iw 0x70 0 [63])] []) : State), (ew (iw 0x70 0 [63]) : Ew), ⟨by simp, by decide +kernel⟩⟩⟩

theorem witness_MatrixWords :
    (∃ (x : BitVec 16) (err : ReadErr) (s : State) (u : State) (v : State) (e : Ew) (a : TileIn) (b : TileIn) (cs : List TileIn) (p : Pair), ((err.prog = [] ∧ err.ctx = [])) ∧ wordDue 0x10 x s = some (e, u) ∧ inputsReady x e u = true ∧ outFree x e u = true ∧ readTiles err x e (usesOf u x e.w) u = (none, a :: b :: cs, v) ∧ pairOf a.shape.format b.shape.format = some p ∧ bit (iwMod e.w) 0 = !(mxOf v x (iwArg e.w 4)).isOpen ∧ bit (iwMod e.w) 1 = false) ∧
    (∃ (x : BitVec 16) (err : ReadErr) (s : State) (u : State) (v : State) (e : Ew) (a : TileIn) (b : TileIn) (cs : List TileIn) (p : Pair), ((err.prog = [] ∧ err.ctx = [])) ∧ wordDue 0x10 x s = some (e, u) ∧ inputsReady x e u = true ∧ outFree x e u = true ∧ readTiles err x e (usesOf u x e.w) u = (none, a :: b :: cs, v) ∧ pairOf a.shape.format b.shape.format = some p ∧ bit (iwMod e.w) 0 = !(mxOf v x (iwArg e.w 4)).isOpen ∧ bit (iwMod e.w) 1 = true ∧ ((isXs (bindAt v x (iwArg e.w 3)).shape.format = true → (if bit (iwMod e.w) 0 then isXs (iwArg e.w 5) else (mxOf v x (iwArg e.w 4)).xs) = true)) ∧ twf {} v.stn.mx = true) ∧
    (∃ (x : BitVec 16) (err : ReadErr) (s : State) (u : State) (v : State) (e : Ew) (a : TileIn) (b : TileIn) (cs : List TileIn), ((err.prog = [] ∧ err.ctx = [])) ∧ wordDue 0x10 x s = some (e, u) ∧ inputsReady x e u = true ∧ outFree x e u = true ∧ readTiles err x e (usesOf u x e.w) u = (none, a :: b :: cs, v) ∧ pairOf a.shape.format b.shape.format = none) ∧
    (∃ (x : BitVec 16) (err : ReadErr) (s : State) (u : State) (v : State) (e : Ew) (a : TileIn) (b : TileIn) (cs : List TileIn) (p : Pair), ((err.prog = [] ∧ err.ctx = [])) ∧ wordDue 0x10 x s = some (e, u) ∧ inputsReady x e u = true ∧ outFree x e u = true ∧ readTiles err x e (usesOf u x e.w) u = (none, a :: b :: cs, v) ∧ pairOf a.shape.format b.shape.format = some p ∧ bit (iwMod e.w) 0 = (mxOf v x (iwArg e.w 4)).isOpen) ∧
    (∃ (x : BitVec 16) (err : ReadErr) (s : State) (u : State) (e : Ew), ((err.prog = [] ∧ err.ctx = [])) ∧ wordDue 0x11 x s = some (e, u) ∧ outFree x e u = true ∧ (mxOf u x (iwArg e.w 0)).isOpen = true ∧ ((isXs (bindAt u x (iwArg e.w 1)).shape.format = true → (mxOf u x (iwArg e.w 0)).xs = true)) ∧ twf {} u.stn.mx = true) ∧
    (∃ (x : BitVec 16) (err : ReadErr) (s : State) (u : State) (e : Ew), ((err.prog = [] ∧ err.ctx = [])) ∧ wordDue 0x11 x s = some (e, u) ∧ outFree x e u = true ∧ (mxOf u x (iwArg e.w 0)).isOpen = false) ∧
    (∃ (x : BitVec 16) (err : ReadErr) (s : State) (u : State) (e : Ew), ((err.prog = [] ∧ err.ctx = [])) ∧ wordDue 0x11 x s = some (e, u) ∧ outFree x e u = true ∧ (mxOf u x (iwArg e.w 0)).isOpen = true ∧ isXs (bindAt u x (iwArg e.w 1)).shape.format = true ∧ (mxOf u x (iwArg e.w 0)).xs = false) :=
  ⟨⟨(0x0100 : BitVec 16), ({} : ReadErr), ((job1 0x0100 [(iw 0x10 1 [0, 1, 63, 2, 0, 1, 0])] [(5, 0), (5, 0), (1, 0)]) : State), (((job1 0x0100 [(iw 0x10 1 [0, 1, 63, 2, 0, 1, 0])] [(5, 0), (5, 0), (1, 0)]) : State) : State), (rdDone (0x0100 : BitVec 16) (iw 0x10 1 [0, 1, 63, 2, 0, 1, 0]) (((job1 0x0100 [(iw 0x10 1 [0, 1, 63, 2, 0, 1, 0])] [(5, 0), (5, 0), (1, 0)]) : State) : State) : State), (ew (iw 0x10 1 [0, 1, 63, 2, 0, 1, 0]) : Ew), (tin 0 (ins (0x0100 : BitVec 16) (iw 0x10 1 [0, 1, 63, 2, 0, 1, 0]) (((job1 0x0100 [(iw 0x10 1 [0, 1, 63, 2, 0, 1, 0])] [(5, 0), (5, 0), (1, 0)]) : State) : State)) : TileIn), (tin 1 (ins (0x0100 : BitVec 16) (iw 0x10 1 [0, 1, 63, 2, 0, 1, 0]) (((job1 0x0100 [(iw 0x10 1 [0, 1, 63, 2, 0, 1, 0])] [(5, 0), (5, 0), (1, 0)]) : State) : State)) : TileIn), ((ins (0x0100 : BitVec 16) (iw 0x10 1 [0, 1, 63, 2, 0, 1, 0]) (((job1 0x0100 [(iw 0x10 1 [0, 1, 63, 2, 0, 1, 0])] [(5, 0), (5, 0), (1, 0)]) : State) : State)).drop 2 : List TileIn), (⟨-18, 23, false, false⟩ : Pair), by decide +kernel⟩,
   ⟨(0x0100 : BitVec 16), ({} : ReadErr), ((job1 0x0100 [(iw 0x10 3 [0, 1, 63, 2, 0, 1, 0])] [(5, 0), (5, 0), (1, 0)]) : State), (((job1 0x0100 [(iw 0x10 3 [0, 1, 63, 2, 0, 1, 0])] [(5, 0), (5, 0), (1, 0)]) : State) : State), (rdDone (0x0100 : BitVec 16) (iw 0x10 3 [0, 1, 63, 2, 0, 1, 0]) (((job1 0x0100 [(iw 0x10 3 [0, 1, 63, 2, 0, 1, 0])] [(5, 0), (5, 0), (1, 0)]) : State) : State) : State), (ew (iw 0x10 3 [0, 1, 63, 2, 0, 1, 0]) : Ew), (tin 0 (ins (0x0100 : BitVec 16) (iw 0x10 3 [0, 1, 63, 2, 0, 1, 0]) (((job1 0x0100 [(iw 0x10 3 [0, 1, 63, 2, 0, 1, 0])] [(5, 0), (5, 0), (1, 0)]) : State) : State)) : TileIn), (tin 1 (ins (0x0100 : BitVec 16) (iw 0x10 3 [0, 1, 63, 2, 0, 1, 0]) (((job1 0x0100 [(iw 0x10 3 [0, 1, 63, 2, 0, 1, 0])] [(5, 0), (5, 0), (1, 0)]) : State) : State)) : TileIn), ((ins (0x0100 : BitVec 16) (iw 0x10 3 [0, 1, 63, 2, 0, 1, 0]) (((job1 0x0100 [(iw 0x10 3 [0, 1, 63, 2, 0, 1, 0])] [(5, 0), (5, 0), (1, 0)]) : State) : State)).drop 2 : List TileIn), (⟨-18, 23, false, false⟩ : Pair), by decide +kernel⟩,
   ⟨(0x0100 : BitVec 16), ({} : ReadErr), ((job1 0x0100 [(iw 0x10 1 [0, 1, 63, 2, 0, 1, 0])] [(5, 0), (7, 0), (1, 0)]) : State), (((job1 0x0100 [(iw 0x10 1 [0, 1, 63, 2, 0, 1, 0])] [(5, 0), (7, 0), (1, 0)]) : State) : State), (rdDone (0x0100 : BitVec 16) (iw 0x10 1 [0, 1, 63, 2, 0, 1, 0]) (((job1 0x0100 [(iw 0x10 1 [0, 1, 63, 2, 0, 1, 0])] [(5, 0), (7, 0), (1, 0)]) : State) : State) : State), (ew (iw 0x10 1 [0, 1, 63, 2, 0, 1, 0]) : Ew), (tin 0 (ins (0x0100 : BitVec 16) (iw 0x10 1 [0, 1, 63, 2, 0, 1, 0]) (((job1 0x0100 [(iw 0x10 1 [0, 1, 63, 2, 0, 1, 0])] [(5, 0), (7, 0), (1, 0)]) : State) : State)) : TileIn), (tin 1 (ins (0x0100 : BitVec 16) (iw 0x10 1 [0, 1, 63, 2, 0, 1, 0]) (((job1 0x0100 [(iw 0x10 1 [0, 1, 63, 2, 0, 1, 0])] [(5, 0), (7, 0), (1, 0)]) : State) : State)) : TileIn), ((ins (0x0100 : BitVec 16) (iw 0x10 1 [0, 1, 63, 2, 0, 1, 0]) (((job1 0x0100 [(iw 0x10 1 [0, 1, 63, 2, 0, 1, 0])] [(5, 0), (7, 0), (1, 0)]) : State) : State)).drop 2 : List TileIn), by decide +kernel⟩,
   ⟨(0x0100 : BitVec 16), ({} : ReadErr), (((job1 0x0100 [(iw 0x10 1 [0, 1, 63, 2, 0, 1, 0])] [(5, 0), (5, 0), (1, 0)]).modStn fun zz => { zz with mx := [(0x400, ({ isOpen := true, rows := 1, cols := 1 } : MxAcc))] }) : State), ((((job1 0x0100 [(iw 0x10 1 [0, 1, 63, 2, 0, 1, 0])] [(5, 0), (5, 0), (1, 0)]).modStn fun zz => { zz with mx := [(0x400, ({ isOpen := true, rows := 1, cols := 1 } : MxAcc))] }) : State) : State), (rdDone (0x0100 : BitVec 16) (iw 0x10 1 [0, 1, 63, 2, 0, 1, 0]) ((((job1 0x0100 [(iw 0x10 1 [0, 1, 63, 2, 0, 1, 0])] [(5, 0), (5, 0), (1, 0)]).modStn fun zz => { zz with mx := [(0x400, ({ isOpen := true, rows := 1, cols := 1 } : MxAcc))] }) : State) : State) : State), (ew (iw 0x10 1 [0, 1, 63, 2, 0, 1, 0]) : Ew), (tin 0 (ins (0x0100 : BitVec 16) (iw 0x10 1 [0, 1, 63, 2, 0, 1, 0]) ((((job1 0x0100 [(iw 0x10 1 [0, 1, 63, 2, 0, 1, 0])] [(5, 0), (5, 0), (1, 0)]).modStn fun zz => { zz with mx := [(0x400, ({ isOpen := true, rows := 1, cols := 1 } : MxAcc))] }) : State) : State)) : TileIn), (tin 1 (ins (0x0100 : BitVec 16) (iw 0x10 1 [0, 1, 63, 2, 0, 1, 0]) ((((job1 0x0100 [(iw 0x10 1 [0, 1, 63, 2, 0, 1, 0])] [(5, 0), (5, 0), (1, 0)]).modStn fun zz => { zz with mx := [(0x400, ({ isOpen := true, rows := 1, cols := 1 } : MxAcc))] }) : State) : State)) : TileIn), ((ins (0x0100 : BitVec 16) (iw 0x10 1 [0, 1, 63, 2, 0, 1, 0]) ((((job1 0x0100 [(iw 0x10 1 [0, 1, 63, 2, 0, 1, 0])] [(5, 0), (5, 0), (1, 0)]).modStn fun zz => { zz with mx := [(0x400, ({ isOpen := true, rows := 1, cols := 1 } : MxAcc))] }) : State) : State)).drop 2 : List TileIn), (⟨-18, 23, false, false⟩ : Pair), by decide +kernel⟩,
   ⟨(0x0100 : BitVec 16), ({} : ReadErr), (((job1 0x0100 [(iw 0x11 0 [0, 2])] [(5, 0), (5, 0), (1, 0)]).modStn fun zz => { zz with mx := [(0x400, ({ isOpen := true, rows := 1, cols := 1 } : MxAcc))] }) : State), ((((job1 0x0100 [(iw 0x11 0 [0, 2])] [(5, 0), (5, 0), (1, 0)]).modStn fun zz => { zz with mx := [(0x400, ({ isOpen := true, rows := 1, cols := 1 } : MxAcc))] }) : State) : State), (ew (iw 0x11 0 [0, 2]) : Ew), by decide +kernel⟩,
   ⟨(0x0100 : BitVec 16), ({} : ReadErr), ((job1 0x0100 [(iw 0x11 0 [0, 2])] [(5, 0), (5, 0), (1, 0)]) : State), (((job1 0x0100 [(iw 0x11 0 [0, 2])] [(5, 0), (5, 0), (1, 0)]) : State) : State), (ew (iw 0x11 0 [0, 2]) : Ew), by decide +kernel⟩,
   ⟨(0x0100 : BitVec 16), ({} : ReadErr), (((job1 0x0100 [(iw 0x11 0 [0, 2])] [(5, 0), (5, 0), (32, 1)]).modStn fun zz => { zz with mx := [(0x400, ({ isOpen := true, rows := 1, cols := 1 } : MxAcc))] }) : State), ((((job1 0x0100 [(iw 0x11 0 [0, 2])] [(5, 0), (5, 0), (32, 1)]).modStn fun zz => { zz with mx := [(0x400, ({ isOpen := true, rows := 1, cols := 1 } : MxAcc))] }) : State) : State), (ew (iw 0x11 0 [0, 2]) : Ew), by decide +kernel⟩⟩

theorem witness_VectorWords :
    (∃ (x : BitVec 16) (err : ReadErr) (s : State) (u : State) (v : State) (e : Ew) (us : List InUse) (a : TileIn) (r : List TileIn), ((err.prog = [] ∧ err.ctx = [])) ∧ inputsReady x e u = true ∧ outFree x e u = true ∧ us = usesOf u x e.w ∧ readTiles err x e us u = (none, a :: r, v) ∧ wordDue 0x20 x s = some (e, u) ∧ iwArg e.w 0 ≠ 0x10) ∧
    (∃ (x : BitVec 16) (err : ReadErr) (s : State) (u : State) (v : State) (e : Ew) (us : List InUse) (a : TileIn) (r : List TileIn), ((err.prog = [] ∧ err.ctx = [])) ∧ inputsReady x e u = true ∧ outFree x e u = true ∧ us = usesOf u x e.w ∧ readTiles err x e us u = (none, a :: r, v) ∧ wordDue 0x20 x s = some (e, u) ∧ iwArg e.w 0 = 0x10) ∧
    (∃ (x : BitVec 16) (err : ReadErr) (s : State) (u : State) (v : State) (e : Ew) (us : List InUse) (a : TileIn) (r : List TileIn), ((err.prog = [] ∧ err.ctx = [])) ∧ inputsReady x e u = true ∧ outFree x e u = true ∧ us = usesOf u x e.w ∧ readTiles err x e us u = (none, a :: r, v) ∧ wordDue 0x21 x s = some (e, u)) ∧
    (∃ (x : BitVec 16) (err : ReadErr) (s : State) (u : State) (v : State) (e : Ew) (us : List InUse) (a : TileIn) (r : List TileIn), ((err.prog = [] ∧ err.ctx = [])) ∧ inputsReady x e u = true ∧ outFree x e u = true ∧ us = usesOf u x e.w ∧ readTiles err x e us u = (none, a :: r, v) ∧ wordDue 0x22 x s = some (e, u)) ∧
    (∃ (x : BitVec 16) (err : ReadErr) (s : State) (u : State) (v : State) (e : Ew) (us : List InUse) (a : TileIn) (r : List TileIn) (f : Vf), ((err.prog = [] ∧ err.ctx = [])) ∧ inputsReady x e u = true ∧ outFree x e u = true ∧ us = usesOf u x e.w ∧ readTiles err x e us u = (none, a :: r, v) ∧ wordDue 0x26 x s = some (e, u) ∧ vfOf (iwArg e.w 0) = some f) ∧
    (∃ (x : BitVec 16) (err : ReadErr) (s : State) (u : State) (v : State) (e : Ew) (us : List InUse) (a : TileIn) (r : List TileIn), ((err.prog = [] ∧ err.ctx = [])) ∧ inputsReady x e u = true ∧ outFree x e u = true ∧ us = usesOf u x e.w ∧ readTiles err x e us u = (none, a :: r, v) ∧ wordDue 0x23 x s = some (e, u)) ∧
    (∃ (x : BitVec 16) (err : ReadErr) (s : State) (u : State) (v : State) (e : Ew) (us : List InUse) (a : TileIn) (r : List TileIn) (b : TileIn) (r' : List TileIn), ((err.prog = [] ∧ err.ctx = [])) ∧ inputsReady x e u = true ∧ outFree x e u = true ∧ us = usesOf u x e.w ∧ readTiles err x e us u = (none, a :: r, v) ∧ r = b :: r' ∧ wordDue 0x24 x s = some (e, u)) ∧
    (∃ (x : BitVec 16) (err : ReadErr) (s : State) (u : State) (v : State) (e : Ew) (us : List InUse) (a : TileIn) (r : List TileIn) (b : TileIn) (r' : List TileIn), ((err.prog = [] ∧ err.ctx = [])) ∧ inputsReady x e u = true ∧ outFree x e u = true ∧ us = usesOf u x e.w ∧ readTiles err x e us u = (none, a :: r, v) ∧ r = b :: r' ∧ wordDue 0x25 x s = some (e, u) ∧ fmtMx (bindAt v x (iwArg e.w 2)).shape.format = true) ∧
    (∃ (x : BitVec 16) (err : ReadErr) (s : State) (u : State) (v : State) (e : Ew) (us : List InUse) (a : TileIn) (r : List TileIn) (b : TileIn) (r' : List TileIn) (to_ : Nat), ((err.prog = [] ∧ err.ctx = [])) ∧ inputsReady x e u = true ∧ outFree x e u = true ∧ us = usesOf u x e.w ∧ readTiles err x e us u = (none, a :: r, v) ∧ r = b :: r' ∧ wordDue 0x25 x s = some (e, u) ∧ fmtMx (bindAt v x (iwArg e.w 2)).shape.format = false ∧ (bindAt v x (iwArg e.w 2)).gridMode ≠ 2 ∧ Memory.wf v.ts.cells = true ∧ (v.ts.merge.map (·.key)).Nodup ∧ to_ = slotAddr (bindAt v x (iwArg e.w 2)).stream (ctxOf v (bindAt v x (iwArg e.w 2)).stream) (nextOut v (bindAt v x (iwArg e.w 2)).stream) + 32) ∧
    (∃ (v : State), Memory.wf v.ts.cells = true ∧ (v.ts.merge.map (·.key)).Nodup) :=
  ⟨⟨(0x0200 : BitVec 16), ({} : ReadErr), ((job1 0x0200 [(iw 0x20 0 [0, 0, 1, 63, 2])] [(1, 0), (1, 0), (1, 0), (1, 0)]) : State), (((job1 0x0200 [(iw 0x20 0 [0, 0, 1, 63, 2])] [(1, 0), (1, 0), (1, 0), (1, 0)]) : State) : State), (rdDone (0x0200 : BitVec 16) (iw 0x20 0 [0, 0, 1, 63, 2]) (((job1 0x0200 [(iw 0x20 0 [0, 0, 1, 63, 2])] [(1, 0), (1, 0), (1, 0), (1, 0)]) : State) : State) : State), (ew (iw 0x20 0 [0, 0, 1, 63, 2]) : Ew), (usesOf (((job1 0x0200 [(iw 0x20 0 [0, 0, 1, 63, 2])] [(1, 0), (1, 0), (1, 0), (1, 0)]) : State) : State) (0x0200 : BitVec 16) (iw 0x20 0 [0, 0, 1, 63, 2]) : List InUse), (tin 0 (ins (0x0200 : BitVec 16) (iw 0x20 0 [0, 0, 1, 63, 2]) (((job1 0x0200 [(iw 0x20 0 [0, 0, 1, 63, 2])] [(1, 0), (1, 0), (1, 0), (1, 0)]) : State) : State)) : TileIn), ((ins (0x0200 : BitVec 16) (iw 0x20 0 [0, 0, 1, 63, 2]) (((job1 0x0200 [(iw 0x20 0 [0, 0, 1, 63, 2])] [(1, 0), (1, 0), (1, 0), (1, 0)]) : State) : State)).drop 1 : List TileIn), by decide +kernel⟩,
   ⟨(0x0200 : BitVec 16), ({} : ReadErr), ((job1 0x0200 [(iw 0x20 0 [16, 0, 1, 63, 2])] [(32, 1), (32, 1), (32, 1)]) : State), (((job1 0x0200 [(iw 0x20 0 [16, 0, 1, 63, 2])] [(32, 1), (32, 1), (32, 1)]) : State) : State), (rdDone (0x0200 : BitVec 16) (iw 0x20 0 [16, 0, 1, 63, 2]) (((job1 0x0200 [(iw 0x20 0 [16, 0, 1, 63, 2])] [(32, 1), (32, 1), (32, 1)]) : State) : State) : State), (ew (iw 0x20 0 [16, 0, 1, 63, 2]) : Ew), (usesOf (((job1 0x0200 [(iw 0x20 0 [16, 0, 1, 63, 2])] [(32, 1), (32, 1), (32, 1)]) : State) : State) (0x0200 : BitVec 16) (iw 0x20 0 [16, 0, 1, 63, 2]) : List InUse), (tin 0 (ins (0x0200 : BitVec 16) (iw 0x20 0 [16, 0, 1, 63, 2]) (((job1 0x0200 [(iw 0x20 0 [16, 0, 1, 63, 2])] [(32, 1), (32, 1), (32, 1)]) : State) : State)) : TileIn), ((ins (0x0200 : BitVec 16) (iw 0x20 0 [16, 0, 1, 63, 2]) (((job1 0x0200 [(iw 0x20 0 [16, 0, 1, 63, 2])] [(32, 1), (32, 1), (32, 1)]) : State) : State)).drop 1 : List TileIn), by decide +kernel⟩,
   ⟨(0x0200 : BitVec 16), ({} : ReadErr), ((job1 0x0200 [(iw 0x21 0 [0, 0, 1, 0])] [(1, 0), (1, 0), (1, 0), (1, 0)]) : State), (((job1 0x0200 [(iw 0x21 0 [0, 0, 1, 0])] [(1, 0), (1, 0), (1, 0), (1, 0)]) : State) : State), (rdDone (0x0200 : BitVec 16) (iw 0x21 0 [0, 0, 1, 0]) (((job1 0x0200 [(iw 0x21 0 [0, 0, 1, 0])] [(1, 0), (1, 0), (1, 0), (1, 0)]) : State) : State) : State), (ew (iw 0x21 0 [0, 0, 1, 0]) : Ew), (usesOf (((job1 0x0200 [(iw 0x21 0 [0, 0, 1, 0])] [(1, 0), (1, 0), (1, 0), (1, 0)]) : State) : State) (0x0200 : BitVec 16) (iw 0x21 0 [0, 0, 1, 0]) : List InUse), (tin 0 (ins (0x0200 : BitVec 16) (iw 0x21 0 [0, 0, 1, 0]) (((job1 0x0200 [(iw 0x21 0 [0, 0, 1, 0])] [(1, 0), (1, 0), (1, 0), (1, 0)]) : State) : State)) : TileIn), ((ins (0x0200 : BitVec 16) (iw 0x21 0 [0, 0, 1, 0]) (((job1 0x0200 [(iw 0x21 0 [0, 0, 1, 0])] [(1, 0), (1, 0), (1, 0), (1, 0)]) : State) : State)).drop 1 : List TileIn), by decide +kernel⟩,
   ⟨(0x0200 : BitVec 16), ({} : ReadErr), ((job1 0x0200 [(iw 0x22 0 [0, 1])] [(1, 0), (1, 0), (1, 0), (1, 0)]) : State), (((job1 0x0200 [(iw 0x22 0 [0, 1])] [(1, 0), (1, 0), (1, 0), (1, 0)]) : State) : State), (rdDone (0x0200 : BitVec 16) (iw 0x22 0 [0, 1]) (((job1 0x0200 [(iw 0x22 0 [0, 1])] [(1, 0), (1, 0), (1, 0), (1, 0)]) : State) : State) : State), (ew (iw 0x22 0 [0, 1]) : Ew), (usesOf (((job1 0x0200 [(iw 0x22 0 [0, 1])] [(1, 0), (1, 0), (1, 0), (1, 0)]) : State) : State) (0x0200 : BitVec 16) (iw 0x22 0 [0, 1]) : List InUse), (tin 0 (ins (0x0200 : BitVec 16) (iw 0x22 0 [0, 1]) (((job1 0x0200 [(iw 0x22 0 [0, 1])] [(1, 0), (1, 0), (1, 0), (1, 0)]) : State) : State)) : TileIn), ((ins (0x0200 : BitVec 16) (iw 0x22 0 [0, 1]) (((job1 0x0200 [(iw 0x22 0 [0, 1])] [(1, 0), (1, 0), (1, 0), (1, 0)]) : State) : State)).drop 1 : List TileIn), by decide +kernel⟩,
   ⟨(0x0200 : BitVec 16), ({} : ReadErr), ((job1 0x0200 [(iw 0x26 0 [0, 0, 1])] [(1, 0), (1, 0), (1, 0), (1, 0)]) : State), (((job1 0x0200 [(iw 0x26 0 [0, 0, 1])] [(1, 0), (1, 0), (1, 0), (1, 0)]) : State) : State), (rdDone (0x0200 : BitVec 16) (iw 0x26 0 [0, 0, 1]) (((job1 0x0200 [(iw 0x26 0 [0, 0, 1])] [(1, 0), (1, 0), (1, 0), (1, 0)]) : State) : State) : State), (ew (iw 0x26 0 [0, 0, 1]) : Ew), (usesOf (((job1 0x0200 [(iw 0x26 0 [0, 0, 1])] [(1, 0), (1, 0), (1, 0), (1, 0)]) : State) : State) (0x0200 : BitVec 16) (iw 0x26 0 [0, 0, 1]) : List InUse), (tin 0 (ins (0x0200 : BitVec 16) (iw 0x26 0 [0, 0, 1]) (((job1 0x0200 [(iw 0x26 0 [0, 0, 1])] [(1, 0), (1, 0), (1, 0), (1, 0)]) : State) : State)) : TileIn), ((ins (0x0200 : BitVec 16) (iw 0x26 0 [0, 0, 1]) (((job1 0x0200 [(iw 0x26 0 [0, 0, 1])] [(1, 0), (1, 0), (1, 0), (1, 0)]) : State) : State)).drop 1 : List TileIn), (.exp : Vf), by decide +kernel⟩,
   ⟨(0x0200 : BitVec 16), ({} : ReadErr), ((job1 0x0200 [(iw 0x23 0 [0, 1])] [(1, 0), (1, 0), (1, 0), (1, 0)]) : State), (((job1 0x0200 [(iw 0x23 0 [0, 1])] [(1, 0), (1, 0), (1, 0), (1, 0)]) : State) : State), (rdDone (0x0200 : BitVec 16) (iw 0x23 0 [0, 1]) (((job1 0x0200 [(iw 0x23 0 [0, 1])] [(1, 0), (1, 0), (1, 0), (1, 0)]) : State) : State) : State), (ew (iw 0x23 0 [0, 1]) : Ew), (usesOf (((job1 0x0200 [(iw 0x23 0 [0, 1])] [(1, 0), (1, 0), (1, 0), (1, 0)]) : State) : State) (0x0200 : BitVec 16) (iw 0x23 0 [0, 1]) : List InUse), (tin 0 (ins (0x0200 : BitVec 16) (iw 0x23 0 [0, 1]) (((job1 0x0200 [(iw 0x23 0 [0, 1])] [(1, 0), (1, 0), (1, 0), (1, 0)]) : State) : State)) : TileIn), ((ins (0x0200 : BitVec 16) (iw 0x23 0 [0, 1]) (((job1 0x0200 [(iw 0x23 0 [0, 1])] [(1, 0), (1, 0), (1, 0), (1, 0)]) : State) : State)).drop 1 : List TileIn), by decide +kernel⟩,
   ⟨(0x0200 : BitVec 16), ({} : ReadErr), ((job1 0x0200 [(iw 0x24 0 [0, 1, 2])] [(1, 0), (1, 0), (1, 0), (1, 0)]) : State), (((job1 0x0200 [(iw 0x24 0 [0, 1, 2])] [(1, 0), (1, 0), (1, 0), (1, 0)]) : State) : State), (rdDone (0x0200 : BitVec 16) (iw 0x24 0 [0, 1, 2]) (((job1 0x0200 [(iw 0x24 0 [0, 1, 2])] [(1, 0), (1, 0), (1, 0), (1, 0)]) : State) : State) : State), (ew (iw 0x24 0 [0, 1, 2]) : Ew), (usesOf (((job1 0x0200 [(iw 0x24 0 [0, 1, 2])] [(1, 0), (1, 0), (1, 0), (1, 0)]) : State) : State) (0x0200 : BitVec 16) (iw 0x24 0 [0, 1, 2]) : List InUse), (tin 0 (ins (0x0200 : BitVec 16) (iw 0x24 0 [0, 1, 2]) (((job1 0x0200 [(iw 0x24 0 [0, 1, 2])] [(1, 0), (1, 0), (1, 0), (1, 0)]) : State) : State)) : TileIn), ((ins (0x0200 : BitVec 16) (iw 0x24 0 [0, 1, 2]) (((job1 0x0200 [(iw 0x24 0 [0, 1, 2])] [(1, 0), (1, 0), (1, 0), (1, 0)]) : State) : State)).drop 1 : List TileIn), (tin 1 (ins (0x0200 : BitVec 16) (iw 0x24 0 [0, 1, 2]) (((job1 0x0200 [(iw 0x24 0 [0, 1, 2])] [(1, 0), (1, 0), (1, 0), (1, 0)]) : State) : State)) : TileIn), ((ins (0x0200 : BitVec 16) (iw 0x24 0 [0, 1, 2]) (((job1 0x0200 [(iw 0x24 0 [0, 1, 2])] [(1, 0), (1, 0), (1, 0), (1, 0)]) : State) : State)).drop 2 : List TileIn), by decide +kernel⟩,
   ⟨(0x0200 : BitVec 16), ({} : ReadErr), ((job1 0x0200 [(iw 0x25 0 [0, 1, 2])] [(1, 0), (1, 0), (21, 0), (1, 0)]) : State), (((job1 0x0200 [(iw 0x25 0 [0, 1, 2])] [(1, 0), (1, 0), (21, 0), (1, 0)]) : State) : State), (rdDone (0x0200 : BitVec 16) (iw 0x25 0 [0, 1, 2]) (((job1 0x0200 [(iw 0x25 0 [0, 1, 2])] [(1, 0), (1, 0), (21, 0), (1, 0)]) : State) : State) : State), (ew (iw 0x25 0 [0, 1, 2]) : Ew), (usesOf (((job1 0x0200 [(iw 0x25 0 [0, 1, 2])] [(1, 0), (1, 0), (21, 0), (1, 0)]) : State) : State) (0x0200 : BitVec 16) (iw 0x25 0 [0, 1, 2]) : List InUse), (tin 0 (ins (0x0200 : BitVec 16) (iw 0x25 0 [0, 1, 2]) (((job1 0x0200 [(iw 0x25 0 [0, 1, 2])] [(1, 0), (1, 0), (21, 0), (1, 0)]) : State) : State)) : TileIn), ((ins (0x0200 : BitVec 16) (iw 0x25 0 [0, 1, 2]) (((job1 0x0200 [(iw 0x25 0 [0, 1, 2])] [(1, 0), (1, 0), (21, 0), (1, 0)]) : State) : State)).drop 1 : List TileIn), (tin 1 (ins (0x0200 : BitVec 16) (iw 0x25 0 [0, 1, 2]) (((job1 0x0200 [(iw 0x25 0 [0, 1, 2])] [(1, 0), (1, 0), (21, 0), (1, 0)]) : State) : State)) : TileIn), ((ins (0x0200 : BitVec 16) (iw 0x25 0 [0, 1, 2]) (((job1 0x0200 [(iw 0x25 0 [0, 1, 2])] [(1, 0), (1, 0), (21, 0), (1, 0)]) : State) : State)).drop 2 : List TileIn), by decide +kernel⟩,
   ⟨(0x0200 : BitVec 16), ({} : ReadErr), ((job1 0x0200 [(iw 0x25 0 [0, 1, 2])] [(1, 0), (1, 0), (1, 0), (1, 0)]) : State), (((job1 0x0200 [(iw 0x25 0 [0, 1, 2])] [(1, 0), (1, 0), (1, 0), (1, 0)]) : State) : State), (rdDone (0x0200 : BitVec 16) (iw 0x25 0 [0, 1, 2]) (((job1 0x0200 [(iw 0x25 0 [0, 1, 2])] [(1, 0), (1, 0), (1, 0), (1, 0)]) : State) : State) : State), (ew (iw 0x25 0 [0, 1, 2]) : Ew), (usesOf (((job1 0x0200 [(iw 0x25 0 [0, 1, 2])] [(1, 0), (1, 0), (1, 0), (1, 0)]) : State) : State) (0x0200 : BitVec 16) (iw 0x25 0 [0, 1, 2]) : List InUse), (tin 0 (ins (0x0200 : BitVec 16) (iw 0x25 0 [0, 1, 2]) (((job1 0x0200 [(iw 0x25 0 [0, 1, 2])] [(1, 0), (1, 0), (1, 0), (1, 0)]) : State) : State)) : TileIn), ((ins (0x0200 : BitVec 16) (iw 0x25 0 [0, 1, 2]) (((job1 0x0200 [(iw 0x25 0 [0, 1, 2])] [(1, 0), (1, 0), (1, 0), (1, 0)]) : State) : State)).drop 1 : List TileIn), (tin 1 (ins (0x0200 : BitVec 16) (iw 0x25 0 [0, 1, 2]) (((job1 0x0200 [(iw 0x25 0 [0, 1, 2])] [(1, 0), (1, 0), (1, 0), (1, 0)]) : State) : State)) : TileIn), ((ins (0x0200 : BitVec 16) (iw 0x25 0 [0, 1, 2]) (((job1 0x0200 [(iw 0x25 0 [0, 1, 2])] [(1, 0), (1, 0), (1, 0), (1, 0)]) : State) : State)).drop 2 : List TileIn), (slotAddr (bindAt (rdDone (0x0200 : BitVec 16) (iw 0x25 0 [0, 1, 2]) (((job1 0x0200 [(iw 0x25 0 [0, 1, 2])] [(1, 0), (1, 0), (1, 0), (1, 0)]) : State) : State) : State) (0x0200 : BitVec 16) (iwArg (ew (iw 0x25 0 [0, 1, 2]) : Ew).w 2)).stream (ctxOf (rdDone (0x0200 : BitVec 16) (iw 0x25 0 [0, 1, 2]) (((job1 0x0200 [(iw 0x25 0 [0, 1, 2])] [(1, 0), (1, 0), (1, 0), (1, 0)]) : State) : State) : State) (bindAt (rdDone (0x0200 : BitVec 16) (iw 0x25 0 [0, 1, 2]) (((job1 0x0200 [(iw 0x25 0 [0, 1, 2])] [(1, 0), (1, 0), (1, 0), (1, 0)]) : State) : State) : State) (0x0200 : BitVec 16) (iwArg (ew (iw 0x25 0 [0, 1, 2]) : Ew).w 2)).stream) (nextOut (rdDone (0x0200 : BitVec 16) (iw 0x25 0 [0, 1, 2]) (((job1 0x0200 [(iw 0x25 0 [0, 1, 2])] [(1, 0), (1, 0), (1, 0), (1, 0)]) : State) : State) : State) (bindAt (rdDone (0x0200 : BitVec 16) (iw 0x25 0 [0, 1, 2]) (((job1 0x0200 [(iw 0x25 0 [0, 1, 2])] [(1, 0), (1, 0), (1, 0), (1, 0)]) : State) : State) : State) (0x0200 : BitVec 16) (iwArg (ew (iw 0x25 0 [0, 1, 2]) : Ew).w 2)).stream) + 32 : Nat), by decide +kernel⟩,
   ⟨(lit : State), by decide +kernel⟩⟩

theorem witness_ExactSumWords :
    (∃ (x : BitVec 16) (err : ReadErr) (s : State) (u : State) (e : Ew), ((err.prog = [] ∧ err.ctx = [])) ∧ wordDue 0x30 x s = some (e, u) ∧ (iwArg e.w 1 ≠ 2 ∨ expmaxDone x u = true) ∧ (sxOf u x (iwArg e.w 0)).isOpen = false) ∧
    (∃ (x : BitVec 16) (err : ReadErr) (s : State) (u : State) (e : Ew), ((err.prog = [] ∧ err.ctx = [])) ∧ wordDue 0x30 x s = some (e, u) ∧ (iwArg e.w 1 ≠ 2 ∨ expmaxDone x u = true) ∧ (sxOf u x (iwArg e.w 0)).isOpen = true) ∧
    (∃ (x : BitVec 16) (err : ReadErr) (s : State) (u : State) (v : State) (e : Ew) (a : TileIn) (r : List TileIn) (mode : Nat) (g : List Int), ((err.prog = [] ∧ err.ctx = [])) ∧ wordDue 0x31 x s = some (e, u) ∧ inputsReady x e u = true ∧ usesOf u x e.w ≠ [] ∧ readTiles err x e (usesOf u x e.w) u = (none, a :: r, v) ∧ (sxOf v x (iwArg e.w 0)).isOpen = true ∧ (sxOf v x (iwArg e.w 0)).added = false ∧ firstGrids (sxOf v x (iwArg e.w 0)) a = some (mode, g)) ∧
    (∃ (x : BitVec 16) (err : ReadErr) (s : State) (u : State) (v : State) (e : Ew) (a : TileIn) (r : List TileIn), ((err.prog = [] ∧ err.ctx = [])) ∧ wordDue 0x31 x s = some (e, u) ∧ inputsReady x e u = true ∧ usesOf u x e.w ≠ [] ∧ readTiles err x e (usesOf u x e.w) u = (none, a :: r, v) ∧ (sxOf v x (iwArg e.w 0)).isOpen = true ∧ (sxOf v x (iwArg e.w 0)).added = true ∧ (((sxOf v x (iwArg e.w 0)).src = 1 → gridDiff (sxOf v x (iwArg e.w 0)) a = none)) ∧ a.shape.rows = (sxOf v x (iwArg e.w 0)).rows ∧ a.shape.cols = (sxOf v x (iwArg e.w 0)).cols) ∧
    (∃ (x : BitVec 16) (err : ReadErr) (s : State) (u : State) (v : State) (e : Ew) (a : TileIn) (r : List TileIn), ((err.prog = [] ∧ err.ctx = [])) ∧ wordDue 0x31 x s = some (e, u) ∧ inputsReady x e u = true ∧ usesOf u x e.w ≠ [] ∧ readTiles err x e (usesOf u x e.w) u = (none, a :: r, v) ∧ (sxOf v x (iwArg e.w 0)).isOpen = false) ∧
    (∃ (x : BitVec 16) (err : ReadErr) (s : State) (u : State) (v : State) (e : Ew) (a : TileIn) (r : List TileIn), ((err.prog = [] ∧ err.ctx = [])) ∧ wordDue 0x31 x s = some (e, u) ∧ inputsReady x e u = true ∧ usesOf u x e.w ≠ [] ∧ readTiles err x e (usesOf u x e.w) u = (none, a :: r, v) ∧ (sxOf v x (iwArg e.w 0)).isOpen = true ∧ (sxOf v x (iwArg e.w 0)).added = false ∧ firstGrids (sxOf v x (iwArg e.w 0)) a = none) ∧
    (∃ (x : BitVec 16) (err : ReadErr) (s : State) (u : State) (v : State) (e : Ew) (a : TileIn) (r : List TileIn), ((err.prog = [] ∧ err.ctx = [])) ∧ wordDue 0x31 x s = some (e, u) ∧ inputsReady x e u = true ∧ usesOf u x e.w ≠ [] ∧ readTiles err x e (usesOf u x e.w) u = (none, a :: r, v) ∧ (sxOf v x (iwArg e.w 0)).isOpen = true ∧ (sxOf v x (iwArg e.w 0)).added = true ∧ (a.shape.rows ≠ (sxOf v x (iwArg e.w 0)).rows ∨ a.shape.cols ≠ (sxOf v x (iwArg e.w 0)).cols)) ∧
    (∃ (x : BitVec 16) (err : ReadErr) (s : State) (u : State) (v : State) (e : Ew) (a : TileIn) (r : List TileIn) (d : Int × Int), ((err.prog = [] ∧ err.ctx = [])) ∧ wordDue 0x31 x s = some (e, u) ∧ inputsReady x e u = true ∧ usesOf u x e.w ≠ [] ∧ readTiles err x e (usesOf u x e.w) u = (none, a :: r, v) ∧ (sxOf v x (iwArg e.w 0)).isOpen = true ∧ (sxOf v x (iwArg e.w 0)).added = true ∧ (sxOf v x (iwArg e.w 0)).src = 1 ∧ a.shape.rows = (sxOf v x (iwArg e.w 0)).rows ∧ a.shape.cols = (sxOf v x (iwArg e.w 0)).cols ∧ gridDiff (sxOf v x (iwArg e.w 0)) a = some d) ∧
    (∃ (x : BitVec 16) (err : ReadErr) (s : State) (u : State) (e : Ew), ((err.prog = [] ∧ err.ctx = [])) ∧ wordDue 0x32 x s = some (e, u) ∧ outFree x e u = true ∧ (sxOf u x (iwArg e.w 0)).isOpen = true ∧ (sxOf u x (iwArg e.w 0)).added = true ∧ twf {} u.stn.sx = true) ∧
    (∃ (x : BitVec 16) (err : ReadErr) (s : State) (u : State) (e : Ew), ((err.prog = [] ∧ err.ctx = [])) ∧ wordDue 0x32 x s = some (e, u) ∧ outFree x e u = true ∧ ((sxOf u x (iwArg e.w 0)).isOpen = false ∨ (sxOf u x (iwArg e.w 0)).added = false)) ∧
    (∃ (x : BitVec 16) (err : ReadErr) (s : State) (u : State) (v : State) (e : Ew) (a : TileIn) (r : List TileIn), ((err.prog = [] ∧ err.ctx = [])) ∧ wordDue 0x33 x s = some (e, u) ∧ inputsReady x e u = true ∧ outFree x e u = true ∧ readTiles err x e (usesOf u x e.w) u = (none, a :: r, v) ∧ twf [] v.stn.expmax = true) ∧
    (∃ (x : BitVec 16) (err : ReadErr) (s : State) (u : State) (e : Ew), ((err.prog = [] ∧ err.ctx = [])) ∧ wordDue 0x30 x s = some (e, u) ∧ iwArg e.w 1 = 2 ∧ expmaxDone x u = false) :=
  ⟨⟨(0x0300 : BitVec 16), ({} : ReadErr), ((job1 0x0300 [(iw 0x30 0 [3, 0])] [(1, 0)]) : State), (((job1 0x0300 [(iw 0x30 0 [3, 0])] [(1, 0)]) : State) : State), (ew (iw 0x30 0 [3, 0]) : Ew), by decide +kernel⟩,
   ⟨(0x0300 : BitVec 16), ({} : ReadErr), (((job1 0x0300 [(iw 0x30 0 [0, 0])] [(1, 0)]).modStn fun zz => { zz with sx := [(0xC00, ({ isOpen := true } : SxAcc))] }) : State), ((((job1 0x0300 [(iw 0x30 0 [0, 0])] [(1, 0)]).modStn fun zz => { zz with sx := [(0xC00, ({ isOpen := true } : SxAcc))] }) : State) : State), (ew (iw 0x30 0 [0, 0]) : Ew), by decide +kernel⟩,
   ⟨(0x0300 : BitVec 16), ({} : ReadErr), (((job1 0x0300 [(iw 0x31 0 [0, 0])] [(1, 1)]).modStn fun zz => { zz with sx := [(0xC00, ({ isOpen := true } : SxAcc))] }) : State), ((((job1 0x0300 [(iw 0x31 0 [0, 0])] [(1, 1)]).modStn fun zz => { zz with sx := [(0xC00, ({ isOpen := true } : SxAcc))] }) : State) : State), (rdDone (0x0300 : BitVec 16) (iw 0x31 0 [0, 0]) ((((job1 0x0300 [(iw 0x31 0 [0, 0])] [(1, 1)]).modStn fun zz => { zz with sx := [(0xC00, ({ isOpen := true } : SxAcc))] }) : State) : State) : State), (ew (iw 0x31 0 [0, 0]) : Ew), (tin 0 (ins (0x0300 : BitVec 16) (iw 0x31 0 [0, 0]) ((((job1 0x0300 [(iw 0x31 0 [0, 0])] [(1, 1)]).modStn fun zz => { zz with sx := [(0xC00, ({ isOpen := true } : SxAcc))] }) : State) : State)) : TileIn), ((ins (0x0300 : BitVec 16) (iw 0x31 0 [0, 0]) ((((job1 0x0300 [(iw 0x31 0 [0, 0])] [(1, 1)]).modStn fun zz => { zz with sx := [(0xC00, ({ isOpen := true } : SxAcc))] }) : State) : State)).drop 1 : List TileIn), (1 : Nat), (((firstGrids (sxOf (rdDone (0x0300 : BitVec 16) (iw 0x31 0 [0, 0]) ((((job1 0x0300 [(iw 0x31 0 [0, 0])] [(1, 1)]).modStn fun zz => { zz with sx := [(0xC00, ({ isOpen := true } : SxAcc))] }) : State) : State) : State) (0x0300 : BitVec 16) 0) (tin 0 (ins (0x0300 : BitVec 16) (iw 0x31 0 [0, 0]) ((((job1 0x0300 [(iw 0x31 0 [0, 0])] [(1, 1)]).modStn fun zz => { zz with sx := [(0xC00, ({ isOpen := true } : SxAcc))] }) : State) : State)) : TileIn)).map fun zz => zz.2).getD [] : List Int), by decide +kernel⟩,
   ⟨(0x0300 : BitVec 16), ({} : ReadErr), (((job1 0x0300 [(iw 0x31 0 [0, 0])] [(1, 1)]).modStn fun zz => { zz with sx := [(0xC00, ({ isOpen := true, added := true, rows := 1, cols := 1, gridMode := 1 } : SxAcc))] }) : State), ((((job1 0x0300 [(iw 0x31 0 [0, 0])] [(1, 1)]).modStn fun zz => { zz with sx := [(0xC00, ({ isOpen := true, added := true, rows := 1, cols := 1, gridMode := 1 } : SxAcc))] }) : State) : State), (rdDone (0x0300 : BitVec 16) (iw 0x31 0 [0, 0]) ((((job1 0x0300 [(iw 0x31 0 [0, 0])] [(1, 1)]).modStn fun zz => { zz with sx := [(0xC00, ({ isOpen := true, added := true, rows := 1, cols := 1, gridMode := 1 } : SxAcc))] }) : State) : State) : State), (ew (iw 0x31 0 [0, 0]) : Ew), (tin 0 (ins (0x0300 : BitVec 16) (iw 0x31 0 [0, 0]) ((((job1 0x0300 [(iw 0x31 0 [0, 0])] [(1, 1)]).modStn fun zz => { zz with sx := [(0xC00, ({ isOpen := true, added := true, rows := 1, cols := 1, gridMode := 1 } : SxAcc))] }) : State) : State)) : TileIn), ((ins (0x0300 : BitVec 16) (iw 0x31 0 [0, 0]) ((((job1 0x0300 [(iw 0x31 0 [0, 0])] [(1, 1)]).modStn fun zz => { zz with sx := [(0xC00, ({ isOpen := true, added := true, rows := 1, cols := 1, gridMode := 1 } : SxAcc))] }) : State) : State)).drop 1 : List TileIn), by decide +kernel⟩,
   ⟨(0x0300 : BitVec 16), ({} : ReadErr), ((job1 0x0300 [(iw 0x31 0 [0, 0])] [(1, 0)]) : State), (((job1 0x0300 [(iw 0x31 0 [0, 0])] [(1, 0)]) : State) : State), (rdDone (0x0300 : BitVec 16) (iw 0x31 0 [0, 0]) (((job1 0x0300 [(iw 0x31 0 [0, 0])] [(1, 0)]) : State) : State) : State), (ew (iw 0x31 0 [0, 0]) : Ew), (tin 0 (ins (0x0300 : BitVec 16) (iw 0x31 0 [0, 0]) (((job1 0x0300 [(iw 0x31 0 [0, 0])] [(1, 0)]) : State) : State)) : TileIn), ((ins (0x0300 : BitVec 16) (iw 0x31 0 [0, 0]) (((job1 0x0300 [(iw 0x31 0 [0, 0])] [(1, 0)]) : State) : State)).drop 1 : List TileIn), by decide +kernel⟩,
   ⟨(0x0300 : BitVec 16), ({} : ReadErr), (((job1 0x0300 [(iw 0x31 0 [0, 0])] [(1, 0)]).modStn fun zz => { zz with sx := [(0xC00, ({ isOpen := true } : SxAcc))] }) : State), ((((job1 0x0300 [(iw 0x31 0 [0, 0])] [(1, 0)]).modStn fun zz => { zz with sx := [(0xC00, ({ isOpen := true } : SxAcc))] }) : State) : State), (rdDone (0x0300 : BitVec 16) (iw 0x31 0 [0, 0]) ((((job1 0x0300 [(iw 0x31 0 [0, 0])] [(1, 0)]).modStn fun zz => { zz with sx := [(0xC00, ({ isOpen := true } : SxAcc))] }) : State) : State) : State), (ew (iw 0x31 0 [0, 0]) : Ew), (tin 0 (ins (0x0300 : BitVec 16) (iw 0x31 0 [0, 0]) ((((job1 0x0300 [(iw 0x31 0 [0, 0])] [(1, 0)]).modStn fun zz => { zz with sx := [(0xC00, ({ isOpen := true } : SxAcc))] }) : State) : State)) : TileIn), ((ins (0x0300 : BitVec 16) (iw 0x31 0 [0, 0]) ((((job1 0x0300 [(iw 0x31 0 [0, 0])] [(1, 0)]).modStn fun zz => { zz with sx := [(0xC00, ({ isOpen := true } : SxAcc))] }) : State) : State)).drop 1 : List TileIn), by decide +kernel⟩,
   ⟨(0x0300 : BitVec 16), ({} : ReadErr), (((job1 0x0300 [(iw 0x31 0 [0, 0])] [(1, 1)]).modStn fun zz => { zz with sx := [(0xC00, ({ isOpen := true, added := true, rows := 2, cols := 1, gridMode := 1 } : SxAcc))] }) : State), ((((job1 0x0300 [(iw 0x31 0 [0, 0])] [(1, 1)]).modStn fun zz => { zz with sx := [(0xC00, ({ isOpen := true, added := true, rows := 2, cols := 1, gridMode := 1 } : SxAcc))] }) : State) : State), (rdDone (0x0300 : BitVec 16) (iw 0x31 0 [0, 0]) ((((job1 0x0300 [(iw 0x31 0 [0, 0])] [(1, 1)]).modStn fun zz => { zz with sx := [(0xC00, ({ isOpen := true, added := true, rows := 2, cols := 1, gridMode := 1 } : SxAcc))] }) : State) : State) : State), (ew (iw 0x31 0 [0, 0]) : Ew), (tin 0 (ins (0x0300 : BitVec 16) (iw 0x31 0 [0, 0]) ((((job1 0x0300 [(iw 0x31 0 [0, 0])] [(1, 1)]).modStn fun zz => { zz with sx := [(0xC00, ({ isOpen := true, added := true, rows := 2, cols := 1, gridMode := 1 } : SxAcc))] }) : State) : State)) : TileIn), ((ins (0x0300 : BitVec 16) (iw 0x31 0 [0, 0]) ((((job1 0x0300 [(iw 0x31 0 [0, 0])] [(1, 1)]).modStn fun zz => { zz with sx := [(0xC00, ({ isOpen := true, added := true, rows := 2, cols := 1, gridMode := 1 } : SxAcc))] }) : State) : State)).drop 1 : List TileIn), by decide +kernel⟩,
   ⟨(0x0300 : BitVec 16), ({} : ReadErr), (((job1 0x0300 [(iw 0x31 0 [0, 0])] [(1, 1)]).modStn fun zz => { zz with sx := [(0xC00, ({ isOpen := true, added := true, rows := 1, cols := 1, gridMode := 1, src := 1, grids := [5] } : SxAcc))] }) : State), ((((job1 0x0300 [(iw 0x31 0 [0, 0])] [(1, 1)]).modStn fun zz => { zz with sx := [(0xC00, ({ isOpen := true, added := true, rows := 1, cols := 1, gridMode := 1, src := 1, grids := [5] } : SxAcc))] }) : State) : State), (rdDone (0x0300 : BitVec 16) (iw 0x31 0 [0, 0]) ((((job1 0x0300 [(iw 0x31 0 [0, 0])] [(1, 1)]).modStn fun zz => { zz with sx := [(0xC00, ({ isOpen := true, added := true, rows := 1, cols := 1, gridMode := 1, src := 1, grids := [5] } : SxAcc))] }) : State) : State) : State), (ew (iw 0x31 0 [0, 0]) : Ew), (tin 0 (ins (0x0300 : BitVec 16) (iw 0x31 0 [0, 0]) ((((job1 0x0300 [(iw 0x31 0 [0, 0])] [(1, 1)]).modStn fun zz => { zz with sx := [(0xC00, ({ isOpen := true, added := true, rows := 1, cols := 1, gridMode := 1, src := 1, grids := [5] } : SxAcc))] }) : State) : State)) : TileIn), ((ins (0x0300 : BitVec 16) (iw 0x31 0 [0, 0]) ((((job1 0x0300 [(iw 0x31 0 [0, 0])] [(1, 1)]).modStn fun zz => { zz with sx := [(0xC00, ({ isOpen := true, added := true, rows := 1, cols := 1, gridMode := 1, src := 1, grids := [5] } : SxAcc))] }) : State) : State)).drop 1 : List TileIn), ((5, 0) : Int × Int), by decide +kernel⟩,
   ⟨(0x0300 : BitVec 16), ({} : ReadErr), (((job1 0x0300 [(iw 0x32 0 [0, 0])] [(1, 0)]).modStn fun zz => { zz with sx := [(0xC00, ({ isOpen := true, added := true, rows := 1, cols := 1, gridMode := 1, grids := [0], sum := [0] } : SxAcc))] }) : State), ((((job1 0x0300 [(iw 0x32 0 [0, 0])] [(1, 0)]).modStn fun zz => { zz with sx := [(0xC00, ({ isOpen := true, added := true, rows := 1, cols := 1, gridMode := 1, grids := [0], sum := [0] } : SxAcc))] }) : State) : State), (ew (iw 0x32 0 [0, 0]) : Ew), by decide +kernel⟩,
   ⟨(0x0300 : BitVec 16), ({} : ReadErr), ((job1 0x0300 [(iw 0x32 0 [0, 0])] [(1, 0)]) : State), (((job1 0x0300 [(iw 0x32 0 [0, 0])] [(1, 0)]) : State) : State), (ew (iw 0x32 0 [0, 0]) : Ew), by decide +kernel⟩,
   ⟨(0x0300 : BitVec 16), ({} : ReadErr), ((job1 0x0300 [(iw 0x33 7 [0, 1])] [(1, 0), (1, 0)]) : State), (((job1 0x0300 [(iw 0x33 7 [0, 1])] [(1, 0), (1, 0)]) : State) : State), (rdDone (0x0300 : BitVec 16) (iw 0x33 7 [0, 1]) (((job1 0x0300 [(iw 0x33 7 [0, 1])] [(1, 0), (1, 0)]) : State) : State) : State), (ew (iw 0x33 7 [0, 1]) : Ew), (tin 0 (ins (0x0300 : BitVec 16) (iw 0x33 7 [0, 1]) (((job1 0x0300 [(iw 0x33 7 [0, 1])] [(1, 0), (1, 0)]) : State) : State)) : TileIn), ((ins (0x0300 : BitVec 16) (iw 0x33 7 [0, 1]) (((job1 0x0300 [(iw 0x33 7 [0, 1])] [(1, 0), (1, 0)]) : State) : State)).drop 1 : List TileIn), by decide +kernel⟩,
   ⟨(0x0300 : BitVec 16), ({} : ReadErr), (((job1 0x0300 [iw 0x33 7 [0, 1], iw 0x30 0 [0, 2]] [(1, 0), (1, 0)]).modStn fun zz => { zz with st := [(0x300, ({ pc := 1 } : StnState))], outst := [({ stn := 0x0300, idx := 0 } : Outst)] }) : State), ((((job1 0x0300 [iw 0x33 7 [0, 1], iw 0x30 0 [0, 2]] [(1, 0), (1, 0)]).modStn fun zz => { zz with st := [(0x300, ({ pc := 1 } : StnState))], outst := [({ stn := 0x0300, idx := 0 } : Outst)] }) : State) : State), (⟨0, iw 0x30 0 [0, 2], 1, 0, 0, 0⟩ : Ew), by decide +kernel⟩⟩

theorem witness_MemoryWords :
    (∃ (x : BitVec 16) (err : ReadErr) (s : State) (u : State) (e : Ew), ((err.prog = [] ∧ err.ctx = [])) ∧ wordDue 0x40 x s = some (e, u) ∧ lpOk x e u = true ∧ (subOf u (chSub x e).1 (chSub x e).2).emDue = 0) ∧
    (∃ (x : BitVec 16) (err : ReadErr) (s : State) (u : State) (e : Ew), ((err.prog = [] ∧ err.ctx = [])) ∧ wordDue 0x40 x s = some (e, u) ∧ lpOk x e u = true ∧ 0 < (subOf u (chSub x e).1 (chSub x e).2).emDue) ∧
    (∃ (x : BitVec 16) (err : ReadErr) (s : State) (u : State) (e : Ew), ((err.prog = [] ∧ err.ctx = [])) ∧ lpOk x e u = true ∧ twf {} u.mem.sub = true ∧ twf 0 (lpOf u x e).open_ = true ∧ wordDue 0x43 x s = some (e, u)) ∧
    (∃ (x : BitVec 16) (err : ReadErr) (s : State) (u : State) (e : Ew), ((err.prog = [] ∧ err.ctx = [])) ∧ lpOk x e u = true ∧ twf {} u.mem.sub = true ∧ twf 0 (lpOf u x e).open_ = true ∧ wordDue 0x44 x s = some (e, u)) ∧
    (∃ (x : BitVec 16) (err : ReadErr) (s : State) (u : State) (e : Ew), ((err.prog = [] ∧ err.ctx = [])) ∧ wordDue 0x41 x s = some (e, u) ∧ lpOk x e u = true ∧ (iwArg e.w 6 ≠ 0 ∨ outFree x e u = true)) ∧
    (∃ (x : BitVec 16) (err : ReadErr) (s : State) (u : State) (v : State) (e : Ew) (a : TileIn) (r : List TileIn), ((err.prog = [] ∧ err.ctx = [])) ∧ wordDue 0x42 x s = some (e, u) ∧ lpOk x e u = true ∧ inputsReady x e u = true ∧ readTiles err x e (usesOf u x e.w) u = (none, a :: r, v) ∧ Memory.wf v.mem.cells = true) ∧
    (∃ (x : BitVec 16) (err : ReadErr) (s : State) (e : Ew), ((err.prog = [] ∧ err.ctx = [])) ∧ s.mem.selfRef = false ∧ (lpEarliest (mmT s x) (lpCloseFor (mmT s x) (lpOf s x e) (nowCc s)) (lpWord e)).any (fun a => decide (a ≤ nowCc s)) = true ∧ gridWordAt 0x45 x s = some e) ∧
    (∃ (x : BitVec 16) (err : ReadErr) (s : State) (e : Ew), ((err.prog = [] ∧ err.ctx = [])) ∧ s.mem.selfRef = false ∧ (lpEarliest (mmT s x) (lpCloseFor (mmT s x) (lpOf s x e) (nowCc s)) (lpWord e)).any (fun a => decide (a ≤ nowCc s)) = true ∧ gridWordAt 0x46 x s = some e) ∧
    (∃ (x : BitVec 16) (err : ReadErr) (s : State) (e : Ew), ((err.prog = [] ∧ err.ctx = [])) ∧ s.mem.selfRef = false ∧ (lpEarliest (mmT s x) (lpCloseFor (mmT s x) (lpOf s x e) (nowCc s)) (lpWord e)).any (fun a => decide (a ≤ nowCc s)) = false ∧ gridWordAt 0x45 x s = some e) ∧
    (∃ (x : BitVec 16) (err : ReadErr) (s : State) (e : Ew), ((err.prog = [] ∧ err.ctx = [])) ∧ s.mem.selfRef = false ∧ (lpEarliest (mmT s x) (lpCloseFor (mmT s x) (lpOf s x e) (nowCc s)) (lpWord e)).any (fun a => decide (a ≤ nowCc s)) = false ∧ gridWordAt 0x46 x s = some e) :=
  ⟨⟨(0x0400 : BitVec 16), ({} : ReadErr), ((job1 0x0400 [(iw 0x40 0 [0, 0, 1, 5])] [(1, 0)]) : State), (((job1 0x0400 [(iw 0x40 0 [0, 0, 1, 5])] [(1, 0)]) : State) : State), (ew (iw 0x40 0 [0, 0, 1, 5]) : Ew), by decide +kernel⟩,
   ⟨(0x0400 : BitVec 16), ({} : ReadErr), (((job1 0x0400 [(iw 0x40 0 [0, 0, 1, 5])] [(1, 0)]).modMem fun zz => { zz with sub := [(0, ({ emDue := 1 } : SubCh))] }) : State), ((((job1 0x0400 [(iw 0x40 0 [0, 0, 1, 5])] [(1, 0)]).modMem fun zz => { zz with sub := [(0, ({ emDue := 1 } : SubCh))] }) : State) : State), (ew (iw 0x40 0 [0, 0, 1, 5]) : Ew), by decide +kernel⟩,
   ⟨(0x0400 : BitVec 16), ({} : ReadErr), (((job1 0x0400 [(iw 0x43 0 [0, 0, 1])] [(1, 0)]).modMem fun zz => { zz with sub := [(0, ({ t := { open_ := [(1, 6)], want := [(1, 6)] } } : SubCh))] }) : State), ((((job1 0x0400 [(iw 0x43 0 [0, 0, 1])] [(1, 0)]).modMem fun zz => { zz with sub := [(0, ({ t := { open_ := [(1, 6)], want := [(1, 6)] } } : SubCh))] }) : State) : State), (ew (iw 0x43 0 [0, 0, 1]) : Ew), by decide +kernel⟩,
   ⟨(0x0400 : BitVec 16), ({} : ReadErr), (((job1 0x0400 [(iw 0x44 0 [0, 0])] [(1, 0)]).modMem fun zz => { zz with sub := [(0, ({ t := { open_ := [(1, 6)], want := [(1, 6)] } } : SubCh))] }) : State), ((((job1 0x0400 [(iw 0x44 0 [0, 0])] [(1, 0)]).modMem fun zz => { zz with sub := [(0, ({ t := { open_ := [(1, 6)], want := [(1, 6)] } } : SubCh))] }) : State) : State), (ew (iw 0x44 0 [0, 0]) : Ew), by decide +kernel⟩,
   ⟨(0x0400 : BitVec 16), ({} : ReadErr), (((job1 0x0400 [(iw 0x41 0 [0, 0, 1, 0, 1, 0, 0])] [(1, 0)]).modMem fun zz => { zz with sub := [(0, ({ t := { open_ := [(1, 6)], want := [(1, 6)] } } : SubCh))] }) : State), ((((job1 0x0400 [(iw 0x41 0 [0, 0, 1, 0, 1, 0, 0])] [(1, 0)]).modMem fun zz => { zz with sub := [(0, ({ t := { open_ := [(1, 6)], want := [(1, 6)] } } : SubCh))] }) : State) : State), (ew (iw 0x41 0 [0, 0, 1, 0, 1, 0, 0]) : Ew), by decide +kernel⟩,
   ⟨(0x0400 : BitVec 16), ({} : ReadErr), (((job1 0x0400 [(iw 0x42 0 [0, 0, 1, 0, 1, 0, 0])] [(1, 0)]).modMem fun zz => { zz with sub := [(0, ({ t := { open_ := [(1, 6)], want := [(1, 6)] } } : SubCh))] }) : State), ((((job1 0x0400 [(iw 0x42 0 [0, 0, 1, 0, 1, 0, 0])] [(1, 0)]).modMem fun zz => { zz with sub := [(0, ({ t := { open_ := [(1, 6)], want := [(1, 6)] } } : SubCh))] }) : State) : State), (rdDone (0x0400 : BitVec 16) (iw 0x42 0 [0, 0, 1, 0, 1, 0, 0]) ((((job1 0x0400 [(iw 0x42 0 [0, 0, 1, 0, 1, 0, 0])] [(1, 0)]).modMem fun zz => { zz with sub := [(0, ({ t := { open_ := [(1, 6)], want := [(1, 6)] } } : SubCh))] }) : State) : State) : State), (ew (iw 0x42 0 [0, 0, 1, 0, 1, 0, 0]) : Ew), (tin 0 (ins (0x0400 : BitVec 16) (iw 0x42 0 [0, 0, 1, 0, 1, 0, 0]) ((((job1 0x0400 [(iw 0x42 0 [0, 0, 1, 0, 1, 0, 0])] [(1, 0)]).modMem fun zz => { zz with sub := [(0, ({ t := { open_ := [(1, 6)], want := [(1, 6)] } } : SubCh))] }) : State) : State)) : TileIn), ((ins (0x0400 : BitVec 16) (iw 0x42 0 [0, 0, 1, 0, 1, 0, 0]) ((((job1 0x0400 [(iw 0x42 0 [0, 0, 1, 0, 1, 0, 0])] [(1, 0)]).modMem fun zz => { zz with sub := [(0, ({ t := { open_ := [(1, 6)], want := [(1, 6)] } } : SubCh))] }) : State) : State)).drop 1 : List TileIn), by decide +kernel⟩,
   ⟨(0x0400 : BitVec 16), ({} : ReadErr), ((job1 0x0400 [(iw 0x45 0 [0, 0])] [(1, 0)]) : State), (ew (iw 0x45 0 [0, 0]) : Ew), by decide +kernel⟩,
   ⟨(0x0400 : BitVec 16), ({} : ReadErr), ((job1 0x0400 [(iw 0x46 0 [0, 0, 1])] [(1, 0)]) : State), (ew (iw 0x46 0 [0, 0, 1]) : Ew), by decide +kernel⟩,
   ⟨(0x0400 : BitVec 16), ({} : ReadErr), (((job1 0x0400 [(iw 0x45 0 [0, 0])] [(1, 0)]).modMem fun zz => { zz with sub := [(0, ({ t := { refAt := 1000000000 } } : SubCh))] }) : State), (ew (iw 0x45 0 [0, 0]) : Ew), by decide +kernel⟩,
   ⟨(0x0400 : BitVec 16), ({} : ReadErr), (((job1 0x0400 [(iw 0x46 0 [0, 0, 1])] [(1, 0)]).modMem fun zz => { zz with sub := [(0, ({ t := { refAt := 1000000000 } } : SubCh))] }) : State), (ew (iw 0x46 0 [0, 0, 1]) : Ew), by decide +kernel⟩⟩

theorem witness_TransportWords :
    (∃ (x : BitVec 16) (err : ReadErr) (s : State) (u : State) (v : State) (e : Ew) (st : BitVec 20) (i : Nat) (n : BitVec 32) (h : TileHdr) (pay : Bytes), ((err.prog = [] ∧ err.ctx = [])) ∧ wordDue 0x50 x s = some (e, u) ∧ fxReady u x (iwArg e.w 0) (iwArg e.w 1) = some (st, i, n) ∧ slotTile err (wordSrc x e) st n u = (h, pay, v) ∧ hdrCheck (bindAt v x (iwArg e.w 0)).shape h n = 0) ∧
    (∃ (x : BitVec 16) (err : ReadErr) (s : State) (u : State) (v : State) (e : Ew) (st : BitVec 20) (i : Nat) (n : BitVec 32) (h : TileHdr) (pay : Bytes), ((err.prog = [] ∧ err.ctx = [])) ∧ wordDue 0x51 x s = some (e, u) ∧ fxReady u x (iwArg e.w 1) (iwArg e.w 2) = some (st, i, n) ∧ ((iwRel e.w = true → inputsReady x e u = true)) ∧ slotTile err (wordSrc x e) st n u = (h, pay, v) ∧ hdrCheck (bindAt v x (iwArg e.w 1)).shape h n = 0) ∧
    (∃ (x : BitVec 16) (err : ReadErr) (s : State) (u : State) (v : State) (e : Ew) (d : TileIn) (r : List TileIn), ((err.prog = [] ∧ err.ctx = [])) ∧ wordDue 0x60 x s = some (e, u) ∧ inputsReady x e u = true ∧ hxFree u x e = true ∧ outFree x e u = true ∧ readTiles err x e (usesOf u x e.w) u = (none, d :: r, v)) ∧
    (∃ (x : BitVec 16) (err : ReadErr) (s : State) (u : State) (v : State) (e : Ew) (w : InUse) (ws : List InUse) (a : TileIn) (d : TileIn) (r : List TileIn), ((err.prog = [] ∧ err.ctx = [])) ∧ wordDue 0x61 x s = some (e, u) ∧ inputsReady x e u = true ∧ hxFree u x e = true ∧ usesOf u x e.w = w :: ws ∧ readTiles err x e (w :: ws) u = (none, a :: d :: r, v)) ∧
    (∃ (die : Nat) (ch : Nat) (s : State), litUp s = true ∧ die < 2 ∧ ch < 16 ∧ twf {} s.stn.hx = true ∧ (hxOf s (hxKey (mkStn die 6 0) ch)).busy = true) ∧
    (∃ (x : BitVec 16) (err : ReadErr) (s : State) (u : State) (v : State) (e : Ew) (st : BitVec 20) (i : Nat) (n : BitVec 32) (h : TileHdr) (pay : Bytes), ((err.prog = [] ∧ err.ctx = [])) ∧ slotTile err (wordSrc x e) st n u = (h, pay, v) ∧ wordDue 0x50 x s = some (e, u) ∧ fxReady u x (iwArg e.w 0) (iwArg e.w 1) = some (st, i, n) ∧ hdrCheck (bindAt v x (iwArg e.w 0)).shape h n ≠ 0) ∧
    (∃ (x : BitVec 16) (err : ReadErr) (s : State) (u : State) (v : State) (e : Ew) (st : BitVec 20) (i : Nat) (n : BitVec 32) (h : TileHdr) (pay : Bytes), ((err.prog = [] ∧ err.ctx = [])) ∧ slotTile err (wordSrc x e) st n u = (h, pay, v) ∧ wordDue 0x51 x s = some (e, u) ∧ fxReady u x (iwArg e.w 1) (iwArg e.w 2) = some (st, i, n) ∧ ((iwRel e.w = true → inputsReady x e u = true)) ∧ hdrCheck (bindAt v x (iwArg e.w 1)).shape h n ≠ 0) :=
  ⟨⟨(0x0500 : BitVec 16), ({} : ReadErr), (((((job1 0x0500 [(iw 0x50 0 [0, 0])] [(1, 0)]).modStrm fun zz => { zz with ctx := [(1, { ring2 1 with fwd0 := { kind := 2, module := 5 } })] }).modProf fun zz => { zz with logLinks := [({ peer := 5 } : LogLink)] }).modOpt fun zz => { zz with links := [({ inService := true } : PhysLink)] }) : State), ((((((job1 0x0500 [(iw 0x50 0 [0, 0])] [(1, 0)]).modStrm fun zz => { zz with ctx := [(1, { ring2 1 with fwd0 := { kind := 2, module := 5 } })] }).modProf fun zz => { zz with logLinks := [({ peer := 5 } : LogLink)] }).modOpt fun zz => { zz with links := [({ inService := true } : PhysLink)] }) : State) : State), ((slotTile ({} : ReadErr) (wordSrc (0x0500 : BitVec 16) (ew (iw 0x50 0 [0, 0]) : Ew)) (1 : BitVec 20) (0 : BitVec 32) ((((((job1 0x0500 [(iw 0x50 0 [0, 0])] [(1, 0)]).modStrm fun zz => { zz with ctx := [(1, { ring2 1 with fwd0 := { kind := 2, module := 5 } })] }).modProf fun zz => { zz with logLinks := [({ peer := 5 } : LogLink)] }).modOpt fun zz => { zz with links := [({ inService := true } : PhysLink)] }) : State) : State)).2.2 : State), (ew (iw 0x50 0 [0, 0]) : Ew), (1 : BitVec 20), (0 : Nat), (0 : BitVec 32), ((slotTile ({} : ReadErr) (wordSrc (0x0500 : BitVec 16) (ew (iw 0x50 0 [0, 0]) : Ew)) (1 : BitVec 20) (0 : BitVec 32) ((((((job1 0x0500 [(iw 0x50 0 [0, 0])] [(1, 0)]).modStrm fun zz => { zz with ctx := [(1, { ring2 1 with fwd0 := { kind := 2, module := 5 } })] }).modProf fun zz => { zz with logLinks := [({ peer := 5 } : LogLink)] }).modOpt fun zz => { zz with links := [({ inService := true } : PhysLink)] }) : State) : State)).1 : TileHdr), ((slotTile ({} : ReadErr) (wordSrc (0x0500 : BitVec 16) (ew (iw 0x50 0 [0, 0]) : Ew)) (1 : BitVec 20) (0 : BitVec 32) ((((((job1 0x0500 [(iw 0x50 0 [0, 0])] [(1, 0)]).modStrm fun zz => { zz with ctx := [(1, { ring2 1 with fwd0 := { kind := 2, module := 5 } })] }).modProf fun zz => { zz with logLinks := [({ peer := 5 } : LogLink)] }).modOpt fun zz => { zz with links := [({ inService := true } : PhysLink)] }) : State) : State)).2.1 : Bytes), by decide +kernel⟩,
   ⟨(0x0500 : BitVec 16), ({} : ReadErr), (((((job1 0x0500 [(iw 0x51 0 [0, 0, 0])] [(1, 0)]).modStrm fun zz => { zz with ctx := [(1, { ring2 1 with fwd0 := { kind := 2, module := 5 } })] }).modProf fun zz => { zz with logLinks := [({ peer := 5 } : LogLink)] }).modOpt fun zz => { zz with links := [({ inService := true } : PhysLink)] }) : State), ((((((job1 0x0500 [(iw 0x51 0 [0, 0, 0])] [(1, 0)]).modStrm fun zz => { zz with ctx := [(1, { ring2 1 with fwd0 := { kind := 2, module := 5 } })] }).modProf fun zz => { zz with logLinks := [({ peer := 5 } : LogLink)] }).modOpt fun zz => { zz with links := [({ inService := true } : PhysLink)] }) : State) : State), ((slotTile ({} : ReadErr) (wordSrc (0x0500 : BitVec 16) (ew (iw 0x51 0 [0, 0, 0]) : Ew)) (1 : BitVec 20) (0 : BitVec 32) ((((((job1 0x0500 [(iw 0x51 0 [0, 0, 0])] [(1, 0)]).modStrm fun zz => { zz with ctx := [(1, { ring2 1 with fwd0 := { kind := 2, module := 5 } })] }).modProf fun zz => { zz with logLinks := [({ peer := 5 } : LogLink)] }).modOpt fun zz => { zz with links := [({ inService := true } : PhysLink)] }) : State) : State)).2.2 : State), (ew (iw 0x51 0 [0, 0, 0]) : Ew), (1 : BitVec 20), (0 : Nat), (0 : BitVec 32), ((slotTile ({} : ReadErr) (wordSrc (0x0500 : BitVec 16) (ew (iw 0x51 0 [0, 0, 0]) : Ew)) (1 : BitVec 20) (0 : BitVec 32) ((((((job1 0x0500 [(iw 0x51 0 [0, 0, 0])] [(1, 0)]).modStrm fun zz => { zz with ctx := [(1, { ring2 1 with fwd0 := { kind := 2, module := 5 } })] }).modProf fun zz => { zz with logLinks := [({ peer := 5 } : LogLink)] }).modOpt fun zz => { zz with links := [({ inService := true } : PhysLink)] }) : State) : State)).1 : TileHdr), ((slotTile ({} : ReadErr) (wordSrc (0x0500 : BitVec 16) (ew (iw 0x51 0 [0, 0, 0]) : Ew)) (1 : BitVec 20) (0 : BitVec 32) ((((((job1 0x0500 [(iw 0x51 0 [0, 0, 0])] [(1, 0)]).modStrm fun zz => { zz with ctx := [(1, { ring2 1 with fwd0 := { kind := 2, module := 5 } })] }).modProf fun zz => { zz with logLinks := [({ peer := 5 } : LogLink)] }).modOpt fun zz => { zz with links := [({ inService := true } : PhysLink)] }) : State) : State)).2.1 : Bytes), by decide +kernel⟩,
   ⟨(0x0600 : BitVec 16), ({} : ReadErr), ((job1 0x0600 [(iw 0x60 0 [15, 0, 1])] [(1, 0), (1, 0)]) : State), (((job1 0x0600 [(iw 0x60 0 [15, 0, 1])] [(1, 0), (1, 0)]) : State) : State), (rdDone (0x0600 : BitVec 16) (iw 0x60 0 [15, 0, 1]) (((job1 0x0600 [(iw 0x60 0 [15, 0, 1])] [(1, 0), (1, 0)]) : State) : State) : State), (ew (iw 0x60 0 [15, 0, 1]) : Ew), (tin 0 (ins (0x0600 : BitVec 16) (iw 0x60 0 [15, 0, 1]) (((job1 0x0600 [(iw 0x60 0 [15, 0, 1])] [(1, 0), (1, 0)]) : State) : State)) : TileIn), ((ins (0x0600 : BitVec 16) (iw 0x60 0 [15, 0, 1]) (((job1 0x0600 [(iw 0x60 0 [15, 0, 1])] [(1, 0), (1, 0)]) : State) : State)).drop 1 : List TileIn), by decide +kernel⟩,
   ⟨(0x0600 : BitVec 16), ({} : ReadErr), ((job1 0x0600 [(iw 0x61 0 [15, 0, 1])] [(1, 0), (1, 0)]) : State), (((job1 0x0600 [(iw 0x61 0 [15, 0, 1])] [(1, 0), (1, 0)]) : State) : State), (rdDone (0x0600 : BitVec 16) (iw 0x61 0 [15, 0, 1]) (((job1 0x0600 [(iw 0x61 0 [15, 0, 1])] [(1, 0), (1, 0)]) : State) : State) : State), (ew (iw 0x61 0 [15, 0, 1]) : Ew), ((usesOf (((job1 0x0600 [(iw 0x61 0 [15, 0, 1])] [(1, 0), (1, 0)]) : State) : State) (0x0600 : BitVec 16) (iw 0x61 0 [15, 0, 1])).headD ⟨0, 0, 0⟩ : InUse), ((usesOf (((job1 0x0600 [(iw 0x61 0 [15, 0, 1])] [(1, 0), (1, 0)]) : State) : State) (0x0600 : BitVec 16) (iw 0x61 0 [15, 0, 1])).drop 1 : List InUse), (tin 0 (ins (0x0600 : BitVec 16) (iw 0x61 0 [15, 0, 1]) (((job1 0x0600 [(iw 0x61 0 [15, 0, 1])] [(1, 0), (1, 0)]) : State) : State)) : TileIn), (tin 1 (ins (0x0600 : BitVec 16) (iw 0x61 0 [15, 0, 1]) (((job1 0x0600 [(iw 0x61 0 [15, 0, 1])] [(1, 0), (1, 0)]) : State) : State)) : TileIn), ((ins (0x0600 : BitVec 16) (iw 0x61 0 [15, 0, 1]) (((job1 0x0600 [(iw 0x61 0 [15, 0, 1])] [(1, 0), (1, 0)]) : State) : State)).drop 2 : List TileIn), by decide +kernel⟩,
   ⟨(1 : Nat), (15 : Nat), ((lit.modStn fun zz => { zz with hx := [(31, ({ busy := true } : HxCh))] }) : State), by decide +kernel⟩,
   ⟨(0x0500 : BitVec 16), ({} : ReadErr), ((((((job1 0x0500 [(iw 0x50 0 [0, 0])] [(1, 0)]).modStrm fun zz => { zz with ctx := [(1, { ring2 1 with fwd0 := { kind := 2, module := 5 } })] }).modProf fun zz => { zz with logLinks := [({ peer := 5 } : LogLink)] }).modOpt fun zz => { zz with links := [({ inService := true } : PhysLink)] }).modTs fun zz => { zz with cells := [] }) : State), (((((((job1 0x0500 [(iw 0x50 0 [0, 0])] [(1, 0)]).modStrm fun zz => { zz with ctx := [(1, { ring2 1 with fwd0 := { kind := 2, module := 5 } })] }).modProf fun zz => { zz with logLinks := [({ peer := 5 } : LogLink)] }).modOpt fun zz => { zz with links := [({ inService := true } : PhysLink)] }).modTs fun zz => { zz with cells := [] }) : State) : State), ((slotTile ({} : ReadErr) (wordSrc (0x0500 : BitVec 16) (ew (iw 0x50 0 [0, 0]) : Ew)) (1 : BitVec 20) (0 : BitVec 32) (((((((job1 0x0500 [(iw 0x50 0 [0, 0])] [(1, 0)]).modStrm fun zz => { zz with ctx := [(1, { ring2 1 with fwd0 := { kind := 2, module := 5 } })] }).modProf fun zz => { zz with logLinks := [({ peer := 5 } : LogLink)] }).modOpt fun zz => { zz with links := [({ inService := true } : PhysLink)] }).modTs fun zz => { zz with cells := [] }) : State) : State)).2.2 : State), (ew (iw 0x50 0 [0, 0]) : Ew), (1 : BitVec 20), (0 : Nat), (0 : BitVec 32), ((slotTile ({} : ReadErr) (wordSrc (0x0500 : BitVec 16) (ew (iw 0x50 0 [0, 0]) : Ew)) (1 : BitVec 20) (0 : BitVec 32) (((((((job1 0x0500 [(iw 0x50 0 [0, 0])] [(1, 0)]).modStrm fun zz => { zz with ctx := [(1, { ring2 1 with fwd0 := { kind := 2, module := 5 } })] }).modProf fun zz => { zz with logLinks := [({ peer := 5 } : LogLink)] }).modOpt fun zz => { zz with links := [({ inService := true } : PhysLink)] }).modTs fun zz => { zz with cells := [] }) : State) : State)).1 : TileHdr), ((slotTile ({} : ReadErr) (wordSrc (0x0500 : BitVec 16) (ew (iw 0x50 0 [0, 0]) : Ew)) (1 : BitVec 20) (0 : BitVec 32) (((((((job1 0x0500 [(iw 0x50 0 [0, 0])] [(1, 0)]).modStrm fun zz => { zz with ctx := [(1, { ring2 1 with fwd0 := { kind := 2, module := 5 } })] }).modProf fun zz => { zz with logLinks := [({ peer := 5 } : LogLink)] }).modOpt fun zz => { zz with links := [({ inService := true } : PhysLink)] }).modTs fun zz => { zz with cells := [] }) : State) : State)).2.1 : Bytes), by decide +kernel⟩,
   ⟨(0x0500 : BitVec 16), ({} : ReadErr), ((((((job1 0x0500 [(iw 0x51 0 [0, 0, 0])] [(1, 0)]).modStrm fun zz => { zz with ctx := [(1, { ring2 1 with fwd0 := { kind := 2, module := 5 } })] }).modProf fun zz => { zz with logLinks := [({ peer := 5 } : LogLink)] }).modOpt fun zz => { zz with links := [({ inService := true } : PhysLink)] }).modTs fun zz => { zz with cells := [] }) : State), (((((((job1 0x0500 [(iw 0x51 0 [0, 0, 0])] [(1, 0)]).modStrm fun zz => { zz with ctx := [(1, { ring2 1 with fwd0 := { kind := 2, module := 5 } })] }).modProf fun zz => { zz with logLinks := [({ peer := 5 } : LogLink)] }).modOpt fun zz => { zz with links := [({ inService := true } : PhysLink)] }).modTs fun zz => { zz with cells := [] }) : State) : State), ((slotTile ({} : ReadErr) (wordSrc (0x0500 : BitVec 16) (ew (iw 0x51 0 [0, 0, 0]) : Ew)) (1 : BitVec 20) (0 : BitVec 32) (((((((job1 0x0500 [(iw 0x51 0 [0, 0, 0])] [(1, 0)]).modStrm fun zz => { zz with ctx := [(1, { ring2 1 with fwd0 := { kind := 2, module := 5 } })] }).modProf fun zz => { zz with logLinks := [({ peer := 5 } : LogLink)] }).modOpt fun zz => { zz with links := [({ inService := true } : PhysLink)] }).modTs fun zz => { zz with cells := [] }) : State) : State)).2.2 : State), (ew (iw 0x51 0 [0, 0, 0]) : Ew), (1 : BitVec 20), (0 : Nat), (0 : BitVec 32), ((slotTile ({} : ReadErr) (wordSrc (0x0500 : BitVec 16) (ew (iw 0x51 0 [0, 0, 0]) : Ew)) (1 : BitVec 20) (0 : BitVec 32) (((((((job1 0x0500 [(iw 0x51 0 [0, 0, 0])] [(1, 0)]).modStrm fun zz => { zz with ctx := [(1, { ring2 1 with fwd0 := { kind := 2, module := 5 } })] }).modProf fun zz => { zz with logLinks := [({ peer := 5 } : LogLink)] }).modOpt fun zz => { zz with links := [({ inService := true } : PhysLink)] }).modTs fun zz => { zz with cells := [] }) : State) : State)).1 : TileHdr), ((slotTile ({} : ReadErr) (wordSrc (0x0500 : BitVec 16) (ew (iw 0x51 0 [0, 0, 0]) : Ew)) (1 : BitVec 20) (0 : BitVec 32) (((((((job1 0x0500 [(iw 0x51 0 [0, 0, 0])] [(1, 0)]).modStrm fun zz => { zz with ctx := [(1, { ring2 1 with fwd0 := { kind := 2, module := 5 } })] }).modProf fun zz => { zz with logLinks := [({ peer := 5 } : LogLink)] }).modOpt fun zz => { zz with links := [({ inService := true } : PhysLink)] }).modTs fun zz => { zz with cells := [] }) : State) : State)).2.1 : Bytes), by decide +kernel⟩⟩

theorem witness_TilesComplete :
    (∃ (x : BitVec 16) (st : BitVec 20) (n : BitVec 32) (s : State) (o : Outst), litUp s = true ∧ (s.job.st = .strict ∨ looseMode s = true) ∧ stnKind x ≠ 6 ∧ ((s.stn.outst.find? fun q => decide (q.stn = x) && decide (q.stream = st) && decide (q.tseq = n)) = some o) ∧ o.doneCc ≤ nowCc s ∧ o.left = 0 ∧ o.noTile = false ∧ n = (ctxOf s st).tseqHead ∧ (ctxOf s st).state ≠ .invalid) ∧
    (∃ (x : BitVec 16) (st : BitVec 20) (n : BitVec 32) (s : State) (o : Outst), litUp s = true ∧ (s.job.st = .strict ∨ looseMode s = true) ∧ stnKind x ≠ 6 ∧ ((s.stn.outst.find? fun q => decide (q.stn = x) && decide (q.stream = st) && decide (q.tseq = n)) = some o) ∧ o.doneCc ≤ nowCc s ∧ o.left = 0 ∧ o.noTile = true) ∧
    (∃ (x : BitVec 16) (st : BitVec 20) (n : BitVec 32) (s : State) (o : Outst), litUp s = true ∧ (s.job.st = .strict ∨ looseMode s = true) ∧ stnKind x ≠ 6 ∧ ((s.stn.outst.find? fun q => decide (q.stn = x) && decide (q.stream = st) && decide (q.tseq = n)) = some o) ∧ o.doneCc ≤ nowCc s ∧ o.left = 0 ∧ o.noTile = false ∧ n ≠ (ctxOf s st).tseqHead) ∧
    (∃ (x : BitVec 16) (st : BitVec 20) (n : BitVec 32) (s : State) (o : Outst), ((s.stn.outst.find? fun q => decide (q.stn = x) && decide (q.stream = st) && decide (q.tseq = n)) = some o) ∧ nowCc s < o.doneCc) ∧
    (∃ (st : BitVec 20) (i : Nat) (s : State), litUp s = true ∧ imageLoaded s = true ∧ i < 2 ∧ ((ctxOf s st).fwd i).kind = 1 ∧ ((ctxOf s st).fwd i).dstStream ≠ st ∧ tileReady s st (fwdOf s st i).doneTile = true ∧ (ctxOf s ((ctxOf s st).fwd i).dstStream).state ≠ .invalid ∧ slotFree s ((ctxOf s st).fwd i).dstStream (ctxOf s ((ctxOf s st).fwd i).dstStream).tseqHead = true ∧ twf {} s.strm.fwd = true) :=
  ⟨⟨(0x0100 : BitVec 16), (1 : BitVec 20), (1 : BitVec 32), (((job1 0x0100 [] [(1, 0)]).modStn fun zz => { zz with outst := [({ stn := 0x0100, stream := 1, tseq := 1 } : Outst)] }) : State), (({ stn := 0x0100, stream := 1, tseq := 1 } : Outst) : Outst), by decide +kernel⟩,
   ⟨(0x0100 : BitVec 16), (1 : BitVec 20), (1 : BitVec 32), (((job1 0x0100 [] [(1, 0)]).modStn fun zz => { zz with outst := [({ stn := 0x0100, stream := 1, tseq := 1, noTile := true } : Outst)] }) : State), (({ stn := 0x0100, stream := 1, tseq := 1, noTile := true } : Outst) : Outst), by decide +kernel⟩,
   ⟨(0x0100 : BitVec 16), (1 : BitVec 20), (2 : BitVec 32), (((job1 0x0100 [] [(1, 0)]).modStn fun zz => { zz with outst := [({ stn := 0x0100, stream := 1, tseq := 2 } : Outst)] }) : State), (({ stn := 0x0100, stream := 1, tseq := 2 } : Outst) : Outst), by decide +kernel⟩,
   ⟨(0x0100 : BitVec 16), (1 : BitVec 20), (1 : BitVec 32), (((job1 0x0100 [] [(1, 0)]).modStn fun zz => { zz with outst := [({ stn := 0x0100, stream := 1, tseq := 1, doneCc := 3000 } : Outst)] }) : State), (({ stn := 0x0100, stream := 1, tseq := 1, doneCc := 3000 } : Outst) : Outst), by decide +kernel⟩,
   ⟨(1 : BitVec 20), (1 : Nat), (((job1 0x0100 [] [(1, 0), (1, 0)]).modStrm fun zz => { zz with ctx := [(1, { ring2 1 with fwd1 := { kind := 1, dstStream := 2 } }), (2, ring2 2)] }) : State), by decide +kernel⟩⟩

theorem witness_BackgroundMemory :
    (∃ (die : Nat) (mm : Nat) (s : State), memUp s = true ∧ s.mem.idleRef = true ∧ die < 4 ∧ mm < 16) ∧
    (∃ (s : State), s.mem.idleRef = false) ∧
    (∃ (die : Nat) (mm : Nat) (s : State), memUp s = true ∧ imageLoaded s = false ∧ die < 4 ∧ mm < 16) ∧
    (∃ (s : State), twf {} s.mem.sub = true) ∧
    (∃ (s : State), litUp s = true) ∧
    (∃ (k : SramKind) (s : State), litUp s = true ∧ k = .correctable ∧ s.db.svDown = false ∧ suppressed evMemCorrected s.db = false ∧ s.pwr.nvInhibit = false) ∧
    (∃ (pkg : Nat) (temp : Int) (s : State), memUp s = true ∧ pkg < 64 ∧ temp ≤ ceilTemp (ceilCode s) ∧ twf {} s.mem.pkg = true) ∧
    (∃ (pkg : Nat) (temp : Int) (s : State), memUp s = true ∧ pkg < 64 ∧ ceilTemp (ceilCode s) < temp ∧ (pkgOf s pkg).hot = false) ∧
    (∃ (pkg : Nat) (s : State), memUp s = true ∧ pkg < 64 ∧ (pkgOf s pkg).hot = true ∧ imageLoaded s = true) ∧
    (∃ (pkg : Nat) (s : State), memUp s = true ∧ pkg < 64 ∧ (pkgOf s pkg).hot = true ∧ imageLoaded s = false) ∧
    (∃ (key : Nat) (err : ReadErr) (s : State) (m : MergeEnt), memUp s = true ∧ mergeOf s.ts.merge key = some m ∧ wordMark err s m.key = none) ∧
    (∃ (s : State) (a : PortAcc), memUp s = true ∧ portPick s [] s.hi.hostPort = some a ∧ a.kind = 0 ∧ a.len ≤ a.done + a.next s ∧ writeWaits s = false ∧ s.hi.heldWrites = []) ∧
    (∃ (stn : BitVec 16) (chan : Nat) (src : Nat) (s : State), svOn s = true ∧ (src = (if stn = 0xFFFF then 32 else stnDie stn * 16 + chan)) ∧ 4096 ≤ ((hotOf s src).map (·.2)).sum ∧ 3 * ((hotOf s src).map (·.2)).sum < 4 * ((hotOf s src).foldl (fun m e => if m.2 < e.2 then e else m) (0, 0)).2 ∧ (tget 0 s.mem.hotAt src = 0 ∨ tget 0 s.mem.hotAt src + 4000000000 ≤ s.sc + 1) ∧ s.db.svDown = false ∧ suppressed evChannelHotspot s.db = false ∧ s.pwr.nvInhibit = false) ∧
    (∃ (k : Nat) (s : State) (i : Image) (w : RecessWin), s.job.image = some i ∧ i.recess[k]? = some w ∧ litUp s = true ∧ s.job.gridOn = true ∧ (s.job.stretched = true ∨ w.start < i.pcc) ∧ w.kind = 1) ∧
    (∃ (k : Nat) (err : ReadErr) (s : State) (i : Image) (w : RecessWin), s.job.image = some i ∧ i.recess[k]? = some w ∧ litUp s = true ∧ s.job.gridOn = true ∧ (s.job.stretched = true ∨ w.start < i.pcc) ∧ w.kind = 3 ∧ err.sr = []) ∧
    (∃ (k : Nat) (test : RunStats) (s : State) (i : Image) (w : RecessWin), s.job.image = some i ∧ i.recess[k]? = some w ∧ litUp s = true ∧ s.job.gridOn = true ∧ (s.job.stretched = true ∨ w.start < i.pcc) ∧ w.kind = 2 ∧ s.cal.eoRun = none ∧ test.failed false 0 = 0) ∧
    (∃ (stn : BitVec 16) (chan : Nat) (src : Nat) (s : State), svOn s = true ∧ (src = (if stn = 0xFFFF then 32 else stnDie stn * 16 + chan)) ∧ (((hotOf s src).map (·.2)).sum < 4096 ∨ 4 * ((hotOf s src).foldl (fun m e => if m.2 < e.2 then e else m) (0, 0)).2 ≤ 3 * ((hotOf s src).map (·.2)).sum)) ∧
    (∃ (key : Nat) (s : State) (m : MergeEnt), memUp s = true ∧ mergeOf s.mem.merge key = some m ∧ imageLoaded s = false) ∧
    (∃ (key : Nat) (s : State) (m : MergeEnt), memUp s = true ∧ mergeOf s.mem.merge key = some m ∧ imageLoaded s = true) ∧
    (∃ (s : State), portPick s [] s.hi.hostPort = none) ∧
    (∃ (s : State) (a : PortAcc) (rest : List PortAcc), s.hi.hostPort = a :: rest ∧ a.room s = true) :=
  ⟨⟨(3 : Nat), (15 : Nat), ((lit.modMem fun zz => { zz with idleRef := true }) : State), by decide +kernel⟩,
   ⟨((lit.modMem fun zz => { zz with idleRef := false }) : State), by decide +kernel⟩,
   ⟨(3 : Nat), (15 : Nat), (lit : State), by decide +kernel⟩,
   ⟨(lit : State), by decide +kernel⟩,
   ⟨(lit : State), by decide +kernel⟩,
   ⟨(.correctable : SramKind), (lit : State), by decide +kernel⟩,
   ⟨(63 : Nat), (95 : Int), (lit : State), by decide +kernel⟩,
   ⟨(63 : Nat), (96 : Int), ((lit.modJob fun zz => { zz with st := .loaded }) : State), by decide +kernel⟩,
   ⟨(63 : Nat), (((lit.modJob fun zz => { zz with st := .loaded }).modMem fun zz => { zz with pkg := [(63, ({ hot := true } : Pkg))] }) : State), by decide +kernel⟩,
   ⟨(63 : Nat), ((lit.modMem fun zz => { zz with pkg := [(63, ({ hot := true } : Pkg))] }) : State), by decide +kernel⟩,
   ⟨(5 : Nat), ({} : ReadErr), ((lit.modTs fun zz => { zz with merge := [({ key := 5, mask := 3, bytes := [7, 8] } : MergeEnt)] }) : State), ({ key := 5, mask := 3, bytes := [7, 8] } : MergeEnt), by decide +kernel⟩,
   ⟨((lit.modHi fun zz => { zz with hostPort := [({ kind := 0, mpa := 0x80000000000, len := 8 } : PortAcc)] }) : State), (({ kind := 0, mpa := 0x80000000000, len := 8 } : PortAcc) : PortAcc), by decide +kernel⟩,
   ⟨(0xFFFF : BitVec 16), (0 : Nat), (32 : Nat), ((lit.modMem fun zz => { zz with hot := [(32 * 256 + 5, 3073), (32 * 256 + 6, 1023)] }) : State), by decide +kernel⟩,
   ⟨(0 : Nat), ((lit.modJob fun zz => { zz with st := .strict, gridOn := true, image := some { periodNs := 20000, recess := [{ kind := 1, stn := 0x340F, start := 42399, len := 100 }] } }) : State), ({ periodNs := 20000, recess := [{ kind := 1, stn := 0x340F, start := 42399, len := 100 }] } : Image), ({ kind := 1, stn := 0x340F, start := 42399, len := 100 } : RecessWin), by decide +kernel⟩,
   ⟨(0 : Nat), ({} : ReadErr), ((lit.modJob fun zz => { zz with st := .strict, gridOn := true, image := some { periodNs := 20000, recess := [{ kind := 3, stn := 0x3000, start := 42399, len := 100 }] } }) : State), ({ periodNs := 20000, recess := [{ kind := 3, stn := 0x3000, start := 42399, len := 100 }] } : Image), ({ kind := 3, stn := 0x3000, start := 42399, len := 100 } : RecessWin), by decide +kernel⟩,
   ⟨(0 : Nat), ({ tag := true } : RunStats), ((lit.modJob fun zz => { zz with st := .strict, gridOn := true, image := some { periodNs := 20000, recess := [{ kind := 2, stn := 0x9704, start := 42399, len := 100 }] } }) : State), ({ periodNs := 20000, recess := [{ kind := 2, stn := 0x9704, start := 42399, len := 100 }] } : Image), ({ kind := 2, stn := 0x9704, start := 42399, len := 100 } : RecessWin), by decide +kernel⟩,
   ⟨(0 : BitVec 16), (0 : Nat), (0 : Nat), (lit : State), by decide +kernel⟩,
   ⟨(5 : Nat), ((lit.modMem fun zz => { zz with merge := [({ key := 5, mask := 3, bytes := [7, 8] } : MergeEnt)] }) : State), (({ key := 5, mask := 3, bytes := [7, 8] } : MergeEnt) : MergeEnt), by decide +kernel⟩,
   ⟨(5 : Nat), (((lit.modMem fun zz => { zz with merge := [({ key := 5, mask := 3, bytes := [7, 8] } : MergeEnt)] }).modJob fun zz => { zz with st := .loaded, image := some { periodNs := 20000 } }) : State), (({ key := 5, mask := 3, bytes := [7, 8] } : MergeEnt) : MergeEnt), by decide +kernel⟩,
   ⟨(lit : State), by decide +kernel⟩,
   ⟨((lit.modHi fun zz => { zz with hostPort := [({ kind := 0, mpa := 0x80000000000, len := 8 } : PortAcc)] }) : State), (({ kind := 0, mpa := 0x80000000000, len := 8 } : PortAcc) : PortAcc), ([] : List PortAcc), by decide +kernel⟩⟩

theorem witness_MemoryOpcodesAndBar2 :
    (∃ (p : Pkt) (mpa : BitVec 64) (host : BitVec 64) (len : BitVec 32) (s : State) (u : State), bodyState p 0x0301 (le 8 mpa.toNat ++ le 4 len.toNat ++ le 8 host.toNat) s = some u ∧ memLenOk len = false) ∧
    (∃ (p : Pkt) (mpa : BitVec 64) (host : BitVec 64) (len : BitVec 32) (s : State) (u : State), bodyState p 0x0301 (le 8 mpa.toNat ++ le 4 len.toNat ++ le 8 host.toNat) s = some u ∧ memLenOk len = true ∧ memUp u = false) ∧
    (∃ (p : Pkt) (mpa : BitVec 64) (host : BitVec 64) (len : BitVec 32) (s : State) (u : State), bodyState p 0x0301 (le 8 mpa.toNat ++ le 4 len.toNat ++ le 8 host.toNat) s = some u ∧ memLenOk len = true ∧ memUp u = true ∧ mapped mpa.toNat len.toNat = false) ∧
    (∃ (p : Pkt) (mpa : BitVec 64) (host : BitVec 64) (len : BitVec 32) (s : State) (u : State), bodyState p 0x0301 (le 8 mpa.toNat ++ le 4 len.toNat ++ le 8 host.toNat) s = some u ∧ memLenOk len = true ∧ memUp u = true ∧ mapped mpa.toNat len.toNat = true ∧ (imageLoaded u = false ∨ 0x60000000000 ≤ mpa.toNat)) ∧
    (∃ (p : Pkt) (mpa : BitVec 64) (host : BitVec 64) (len : BitVec 32) (s : State) (u : State), bodyState p 0x0301 (le 8 mpa.toNat ++ le 4 len.toNat ++ le 8 host.toNat) s = some u ∧ memLenOk len = true ∧ memUp u = true ∧ mapped mpa.toNat len.toNat = true ∧ imageLoaded u = true ∧ mpa.toNat < 0x60000000000) ∧
    (∃ (p : Pkt) (mpa : BitVec 64) (host : BitVec 64) (len : BitVec 32) (s : State) (u : State), bodyState p 0x0302 (le 8 mpa.toNat ++ le 4 len.toNat ++ le 8 host.toNat) s = some u ∧ memLenOk len = true ∧ memUp u = false) ∧
    (∃ (p : Pkt) (mpa : BitVec 64) (host : BitVec 64) (len : BitVec 32) (s : State) (u : State), bodyState p 0x0302 (le 8 mpa.toNat ++ le 4 len.toNat ++ le 8 host.toNat) s = some u ∧ memLenOk len = true ∧ memUp u = true ∧ mapped mpa.toNat len.toNat = false) ∧
    (∃ (p : Pkt) (mpa : BitVec 64) (host : BitVec 64) (len : BitVec 32) (s : State) (u : State), bodyState p 0x0302 (le 8 mpa.toNat ++ le 4 len.toNat ++ le 8 host.toNat) s = some u ∧ memLenOk len = true ∧ memUp u = true ∧ mapped mpa.toNat len.toNat = true ∧ (imageLoaded u = false ∨ 0x60000000000 ≤ mpa.toNat)) ∧
    (∃ (p : Pkt) (mpa : BitVec 64) (host : BitVec 64) (len : BitVec 32) (s : State) (u : State), bodyState p 0x0302 (le 8 mpa.toNat ++ le 4 len.toNat ++ le 8 host.toNat) s = some u ∧ memLenOk len = true ∧ memUp u = true ∧ mapped mpa.toNat len.toNat = true ∧ imageLoaded u = true ∧ mpa.toNat < 0x60000000000) ∧
    (∃ (p : Pkt) (mpa : BitVec 64) (host : BitVec 64) (len : BitVec 32) (s : State) (u : State), bodyState p 0x0302 (le 8 mpa.toNat ++ le 4 len.toNat ++ le 8 host.toNat) s = some u ∧ memLenOk len = false) ∧
    (∃ (p : Pkt) (mpa : BitVec 64) (len : BitVec 64) (pattern : BitVec 64) (s : State) (u : State), bodyState p 0x0303 (le 8 mpa.toNat ++ le 8 len.toNat ++ le 8 pattern.toNat) s = some u ∧ len = 0) ∧
    (∃ (p : Pkt) (mpa : BitVec 64) (len : BitVec 64) (pattern : BitVec 64) (s : State) (u : State), bodyState p 0x0303 (le 8 mpa.toNat ++ le 8 len.toNat ++ le 8 pattern.toNat) s = some u ∧ len ≠ 0 ∧ memUp u = true ∧ mapped mpa.toNat len.toNat = false) ∧
    (∃ (p : Pkt) (mpa : BitVec 64) (len : BitVec 64) (pattern : BitVec 64) (s : State) (u : State), bodyState p 0x0303 (le 8 mpa.toNat ++ le 8 len.toNat ++ le 8 pattern.toNat) s = some u ∧ len ≠ 0 ∧ memUp u = true ∧ mapped mpa.toNat len.toNat = true ∧ (imageLoaded u = false ∨ 0x60000000000 ≤ mpa.toNat)) ∧
    (∃ (p : Pkt) (mpa : BitVec 64) (len : BitVec 64) (pattern : BitVec 64) (s : State) (u : State), bodyState p 0x0303 (le 8 mpa.toNat ++ le 8 len.toNat ++ le 8 pattern.toNat) s = some u ∧ len ≠ 0 ∧ memUp u = true ∧ mapped mpa.toNat len.toNat = true ∧ imageLoaded u = true ∧ mpa.toNat < 0x60000000000) ∧
    (∃ (p : Pkt) (mpa : BitVec 64) (len : BitVec 64) (pattern : BitVec 64) (s : State) (u : State), bodyState p 0x0303 (le 8 mpa.toNat ++ le 8 len.toNat ++ le 8 pattern.toNat) s = some u ∧ len ≠ 0 ∧ memUp u = false) ∧
    (∃ (p : Pkt) (die : BitVec 8) (chan : BitVec 8) (s : State) (u : State), bodyState p 0x0304 (le 1 die.toNat ++ le 1 chan.toNat) s = some u ∧ die.toNat ≤ 1 ∧ chan.toNat < 16 ∧ twf {} u.stn.hx = true) ∧
    (∃ (p : Pkt) (die : BitVec 8) (chan : BitVec 8) (s : State) (u : State), bodyState p 0x0304 (le 1 die.toNat ++ le 1 chan.toNat) s = some u ∧ (1 < die.toNat ∨ 16 ≤ chan.toNat)) ∧
    (∃ (off : Nat) (len : Nat) (s : State), hostUp s = true ∧ 1 ≤ len ∧ memUp s = true ∧ mapped (bar2Mpa s off) len = true ∧ (bar2Mpa s off < 0x60000000000 ∨ writeWaits s = true)) ∧
    (∃ (off : Nat) (len : Nat) (err : ReadErr) (s : State) (d : Bytes) (bad : Bool) (v : State), hostUp s = true ∧ 1 ≤ len ∧ memUp s = true ∧ mapped (bar2Mpa s off) len = true ∧ 0x80000000000 ≤ bar2Mpa s off ∧ writeWaits s = false ∧ mpaRead err { kind := 1 } (some 32) (bar2Mpa s off) len s = (⟨d, bad⟩, v)) ∧
    (∃ (off : Nat) (len : Nat) (s : State), hostUp s = true ∧ 1 ≤ len ∧ (memUp s = false ∨ mapped (bar2Mpa s off) len = false)) ∧
    (∃ (off : Nat) (data : Bytes) (s : State), hostUp s = true ∧ memUp s = true ∧ data ≠ [] ∧ mapped (bar2Mpa s off) data.length = true ∧ writeWaits s = false ∧ (imageLoaded s = false ∨ 0x80000000000 ≤ bar2Mpa s off)) ∧
    (∃ (off : Nat) (data : Bytes) (s : State), hostUp s = true ∧ memUp s = true ∧ data ≠ [] ∧ mapped (bar2Mpa s off) data.length = false) ∧
    (∃ (off : Nat) (data : Bytes) (s : State), hostUp s = true ∧ memUp s = true ∧ data ≠ [] ∧ mapped (bar2Mpa s off) data.length = true ∧ (writeWaits s = true ∨ (imageLoaded s = true ∧ bar2Mpa s off < 0x60000000000))) ∧
    (∃ (s : State) (a : PortAcc), (s.hi.hostPort.find? (fun x => decide (x.kind = 0)) = some a)) :=
  ⟨⟨(pk : Pkt), (0 : BitVec 64), (0 : BitVec 64), (0x40000001 : BitVec 32), (lit : State), (begun (pk : Pkt) 0x0301 (le 8 (0 : BitVec 64).toNat ++ le 4 (0x40000001 : BitVec 32).toNat ++ le 8 (0 : BitVec 64).toNat) (lit : State) : State), by decide +kernel⟩,
   ⟨(pk : Pkt), (0 : BitVec 64), (0 : BitVec 64), (1 : BitVec 32), (awake : State), (begun (pk : Pkt) 0x0301 (le 8 (0 : BitVec 64).toNat ++ le 4 (1 : BitVec 32).toNat ++ le 8 (0 : BitVec 64).toNat) (awake : State) : State), by decide +kernel⟩,
   ⟨(pk : Pkt), (0x5FFFFFFFFFF : BitVec 64), (0 : BitVec 64), (2 : BitVec 32), (lit : State), (begun (pk : Pkt) 0x0301 (le 8 (0x5FFFFFFFFFF : BitVec 64).toNat ++ le 4 (2 : BitVec 32).toNat ++ le 8 (0 : BitVec 64).toNat) (lit : State) : State), by decide +kernel⟩,
   ⟨(pk : Pkt), (0 : BitVec 64), (0 : BitVec 64), (2 : BitVec 32), (lit : State), (begun (pk : Pkt) 0x0301 (le 8 (0 : BitVec 64).toNat ++ le 4 (2 : BitVec 32).toNat ++ le 8 (0 : BitVec 64).toNat) (lit : State) : State), by decide +kernel⟩,
   ⟨(pk : Pkt), (7 : BitVec 64), (0 : BitVec 64), (5 : BitVec 32), ((lit.modJob fun zz => { zz with st := .loaded, image := some { periodNs := 20000 } }) : State), (begun (pk : Pkt) 0x0301 (le 8 (7 : BitVec 64).toNat ++ le 4 (5 : BitVec 32).toNat ++ le 8 (0 : BitVec 64).toNat) ((lit.modJob fun zz => { zz with st := .loaded, image := some { periodNs := 20000 } }) : State) : State), by decide +kernel⟩,
   ⟨(pk : Pkt), (0 : BitVec 64), (0 : BitVec 64), (1 : BitVec 32), (awake : State), (begun (pk : Pkt) 0x0302 (le 8 (0 : BitVec 64).toNat ++ le 4 (1 : BitVec 32).toNat ++ le 8 (0 : BitVec 64).toNat) (awake : State) : State), by decide +kernel⟩,
   ⟨(pk : Pkt), (0x5FFFFFFFFFF : BitVec 64), (0 : BitVec 64), (2 : BitVec 32), (lit : State), (begun (pk : Pkt) 0x0302 (le 8 (0x5FFFFFFFFFF : BitVec 64).toNat ++ le 4 (2 : BitVec 32).toNat ++ le 8 (0 : BitVec 64).toNat) (lit : State) : State), by decide +kernel⟩,
   ⟨(pk : Pkt), (0x5FFFFFFFFFE : BitVec 64), (0 : BitVec 64), (2 : BitVec 32), (lit : State), (begun (pk : Pkt) 0x0302 (le 8 (0x5FFFFFFFFFE : BitVec 64).toNat ++ le 4 (2 : BitVec 32).toNat ++ le 8 (0 : BitVec 64).toNat) (lit : State) : State), by decide +kernel⟩,
   ⟨(pk : Pkt), (7 : BitVec 64), (0 : BitVec 64), (5 : BitVec 32), ((lit.modJob fun zz => { zz with st := .loaded, image := some { periodNs := 20000 } }) : State), (begun (pk : Pkt) 0x0302 (le 8 (7 : BitVec 64).toNat ++ le 4 (5 : BitVec 32).toNat ++ le 8 (0 : BitVec 64).toNat) ((lit.modJob fun zz => { zz with st := .loaded, image := some { periodNs := 20000 } }) : State) : State), by decide +kernel⟩,
   ⟨(pk : Pkt), (0 : BitVec 64), (0 : BitVec 64), (0 : BitVec 32), (lit : State), (begun (pk : Pkt) 0x0302 (le 8 (0 : BitVec 64).toNat ++ le 4 (0 : BitVec 32).toNat ++ le 8 (0 : BitVec 64).toNat) (lit : State) : State), by decide +kernel⟩,
   ⟨(pk : Pkt), (0 : BitVec 64), (0 : BitVec 64), (0 : BitVec 64), (lit : State), (begun (pk : Pkt) 0x0303 (le 8 (0 : BitVec 64).toNat ++ le 8 (0 : BitVec 64).toNat ++ le 8 (0 : BitVec 64).toNat) (lit : State) : State), by decide +kernel⟩,
   ⟨(pk : Pkt), (0x5FFFFFFFFFF : BitVec 64), (2 : BitVec 64), (0 : BitVec 64), (lit : State), (begun (pk : Pkt) 0x0303 (le 8 (0x5FFFFFFFFFF : BitVec 64).toNat ++ le 8 (2 : BitVec 64).toNat ++ le 8 (0 : BitVec 64).toNat) (lit : State) : State), by decide +kernel⟩,
   ⟨(pk : Pkt), (0x5FFFFFFFFFE : BitVec 64), (2 : BitVec 64), (0 : BitVec 64), (lit : State), (begun (pk : Pkt) 0x0303 (le 8 (0x5FFFFFFFFFE : BitVec 64).toNat ++ le 8 (2 : BitVec 64).toNat ++ le 8 (0 : BitVec 64).toNat) (lit : State) : State), by decide +kernel⟩,
   ⟨(pk : Pkt), (8 : BitVec 64), (8 : BitVec 64), (0 : BitVec 64), ((lit.modJob fun zz => { zz with st := .loaded, image := some { periodNs := 20000 } }) : State), (begun (pk : Pkt) 0x0303 (le 8 (8 : BitVec 64).toNat ++ le 8 (8 : BitVec 64).toNat ++ le 8 (0 : BitVec 64).toNat) ((lit.modJob fun zz => { zz with st := .loaded, image := some { periodNs := 20000 } }) : State) : State), by decide +kernel⟩,
   ⟨(pk : Pkt), (0 : BitVec 64), (8 : BitVec 64), (0 : BitVec 64), (awake : State), (begun (pk : Pkt) 0x0303 (le 8 (0 : BitVec 64).toNat ++ le 8 (8 : BitVec 64).toNat ++ le 8 (0 : BitVec 64).toNat) (awake : State) : State), by decide +kernel⟩,
   ⟨(pk : Pkt), (1 : BitVec 8), (15 : BitVec 8), ((lit.modStn fun zz => { zz with hx := [(31, ({ halted := true } : HxCh))] }) : State), (begun (pk : Pkt) 0x0304 (le 1 (1 : BitVec 8).toNat ++ le 1 (15 : BitVec 8).toNat) ((lit.modStn fun zz => { zz with hx := [(31, ({ halted := true } : HxCh))] }) : State) : State), by decide +kernel⟩,
   ⟨(pk : Pkt), (1 : BitVec 8), (16 : BitVec 8), (lit : State), (begun (pk : Pkt) 0x0304 (le 1 (1 : BitVec 8).toNat ++ le 1 (16 : BitVec 8).toNat) (lit : State) : State), by decide +kernel⟩,
   ⟨(0 : Nat), (1 : Nat), (lit : State), by decide +kernel⟩,
   ⟨(0 : Nat), (8 : Nat), ({} : ReadErr), ((lit.modHi fun zz => { zz with bar2Win := 0x80 }) : State), (zeros 8 : Bytes), (false : Bool), (((lit.modHi fun zz => { zz with bar2Win := 0x80 }) : State) : State), by decide +kernel⟩,
   ⟨(0 : Nat), (1 : Nat), (awake : State), by decide +kernel⟩,
   ⟨(0 : Nat), ([1] : Bytes), (lit : State), by decide +kernel⟩,
   ⟨(0 : Nat), ([1] : Bytes), ((lit.modHi fun zz => { zz with bar2Win := 0xFF }) : State), by decide +kernel⟩,
   ⟨(0 : Nat), ([1] : Bytes), ((lit.modJob fun zz => { zz with st := .loaded, image := some { periodNs := 20000 } }) : State), by decide +kernel⟩,
   ⟨((lit.modHi fun zz => { zz with hostPort := [({ len := 8 } : PortAcc)] }) : State), (({ len := 8 } : PortAcc) : PortAcc), by decide +kernel⟩⟩

theorem witness_RepairAndChannels :
    (∃ (p : Pkt) (die : BitVec 8) (index : BitVec 8) (entry : BitVec 32) (s : State) (u : State), bodyState p 0x030A (le 1 die.toNat ++ le 1 index.toNat ++ le 4 entry.toNat) s = some u ∧ die.toNat ≤ 3 ∧ srOk entry = true ∧ u.pwr.nvInhibit = false ∧ twf 0 u.mem.soft = true) ∧
    (∃ (p : Pkt) (die : BitVec 8) (index : BitVec 8) (entry : BitVec 32) (s : State) (u : State), bodyState p 0x030A (le 1 die.toNat ++ le 1 index.toNat ++ le 4 entry.toNat) s = some u ∧ (3 < die.toNat ∨ srOk entry = false)) ∧
    (∃ (p : Pkt) (die : BitVec 8) (word : BitVec 8) (entry : BitVec 32) (s : State) (u : State), bodyState p 0x030B (le 1 die.toNat ++ le 1 word.toNat ++ le 4 entry.toNat) s = some u ∧ u.pwr.nvInhibit = false ∧ die = 4 ∧ word = 0 ∧ entry = 1) ∧
    (∃ (p : Pkt) (die : BitVec 8) (word : BitVec 8) (entry : BitVec 32) (s : State) (u : State), bodyState p 0x030B (le 1 die.toNat ++ le 1 word.toNat ++ le 4 entry.toNat) s = some u ∧ u.pwr.nvInhibit = false ∧ die.toNat ≤ 3 ∧ word.toNat < 32 ∧ srOk entry = true ∧ twf 0 u.mem.fuses = true) ∧
    (∃ (p : Pkt) (die : BitVec 8) (word : BitVec 8) (entry : BitVec 32) (s : State) (u : State), bodyState p 0x030B (le 1 die.toNat ++ le 1 word.toNat ++ le 4 entry.toNat) s = some u ∧ u.pwr.nvInhibit = false ∧ fuseOk die word entry = false) ∧
    (∃ (p : Pkt) (chan : BitVec 8) (sub : BitVec 8) (s : State) (u : State), bodyState p 0x0308 (le 1 chan.toNat ++ le 1 sub.toNat) s = some u ∧ sub.toNat ≤ 1 ∧ twf {} u.mem.sub = true) ∧
    (∃ (p : Pkt) (chan : BitVec 8) (sub : BitVec 8) (bank : BitVec 8) (row : BitVec 32) (s : State) (u : State), rowOk sub bank row = true ∧ imageLoaded u = true ∧ bodyState p 0x0306 (le 1 0 ++ le 1 chan.toNat ++ le 1 sub.toNat ++ le 1 bank.toNat ++ le 4 row.toNat) s = some u) ∧
    (∃ (p : Pkt) (chan : BitVec 8) (sub : BitVec 8) (bank : BitVec 8) (row : BitVec 32) (s : State) (u : State), rowOk sub bank row = true ∧ imageLoaded u = true ∧ bodyState p 0x0306 (le 1 1 ++ le 1 chan.toNat ++ le 1 sub.toNat ++ le 1 bank.toNat ++ le 4 row.toNat) s = some u) ∧
    (∃ (p : Pkt) (chan : BitVec 8) (sub : BitVec 8) (bank : BitVec 8) (row : BitVec 32) (s : State) (u : State) (i : Nat), rowOk sub bank row = true ∧ imageLoaded u = false ∧ memUp u = true ∧ u.pwr.nvInhibit = false ∧ bodyState p 0x0306 (le 1 0 ++ le 1 chan.toNat ++ le 1 sub.toNat ++ le 1 bank.toNat ++ le 4 row.toNat) s = some u ∧ ((bankRemaps u (bankKey chan.toNat sub.toNat bank.toNat)).any (fun r => decide (r.row = row.toNat)) = false) ∧ freeSpare u (bankKey chan.toNat sub.toNat bank.toNat) = some i ∧ (mmRemaps u (bankKey chan.toNat sub.toNat bank.toNat / 128)).length < 2048) ∧
    (∃ (p : Pkt) (chan : BitVec 8) (sub : BitVec 8) (bank : BitVec 8) (row : BitVec 32) (s : State) (u : State) (r : RowRemap), rowOk sub bank row = true ∧ imageLoaded u = false ∧ memUp u = true ∧ u.pwr.nvInhibit = false ∧ bodyState p 0x0306 (le 1 1 ++ le 1 chan.toNat ++ le 1 sub.toNat ++ le 1 bank.toNat ++ le 4 row.toNat) s = some u ∧ ((bankRemaps u (bankKey chan.toNat sub.toNat bank.toNat)).find? (fun q => decide (q.row = row.toNat)) = some r)) ∧
    (∃ (p : Pkt) (chan : BitVec 8) (sub : BitVec 8) (bank : BitVec 8) (row : BitVec 32) (s : State) (u : State), bodyState p 0x0309 (le 1 chan.toNat ++ le 1 sub.toNat ++ le 1 bank.toNat ++ le 4 row.toNat) s = some u ∧ rowOk sub bank row = true ∧ (imageLoaded u = true ∨ memUp u = false)) ∧
    (∃ (p : Pkt) (chan : BitVec 8) (sub : BitVec 8) (bank : BitVec 8) (row : BitVec 32) (s : State) (u : State), bodyState p 0x0309 (le 1 chan.toNat ++ le 1 sub.toNat ++ le 1 bank.toNat ++ le 4 row.toNat) s = some u ∧ rowOk sub bank row = true ∧ imageLoaded u = false ∧ memUp u = true ∧ ((bankRemaps u (bankKey chan.toNat sub.toNat bank.toNat)).find? (fun q => decide (q.row = row.toNat)) = none)) ∧
    (∃ (p : Pkt) (chan : BitVec 8) (sub : BitVec 8) (bank : BitVec 8) (row : BitVec 32) (s : State) (u : State) (r : RowRemap), bodyState p 0x0309 (le 1 chan.toNat ++ le 1 sub.toNat ++ le 1 bank.toNat ++ le 4 row.toNat) s = some u ∧ rowOk sub bank row = true ∧ imageLoaded u = false ∧ memUp u = true ∧ ((bankRemaps u (bankKey chan.toNat sub.toNat bank.toNat)).find? (fun q => decide (q.row = row.toNat)) = some r)) ∧
    (∃ (s : State) (r : RowRemap) (ref : PktRef) (rest : List (RowRemap × PktRef)), svOn s = true ∧ s.mem.ppr = (r, ref) :: rest) ∧
    (∃ (p : Pkt) (chan : BitVec 8) (s : State) (u : State), bodyState p 0x0305 (le 1 chan.toNat) s = some u ∧ imageLoaded u = true) ∧
    (∃ (p : Pkt) (chan : BitVec 8) (s : State) (u : State), bodyState p 0x0305 (le 1 chan.toNat) s = some u ∧ imageLoaded u = false ∧ u.pwr.nvInhibit = false ∧ chan.toNat ∉ u.mem.retired) ∧
    (∃ (p : Pkt) (chan : BitVec 8) (s : State) (u : State), bodyState p 0x0305 (le 1 chan.toNat) s = some u ∧ imageLoaded u = false ∧ chan.toNat ∈ u.mem.retired) ∧
    (∃ (p : Pkt) (chan : BitVec 8) (s : State) (u : State), bodyState p 0x030C (le 1 chan.toNat) s = some u ∧ imageLoaded u = true) ∧
    (∃ (p : Pkt) (chan : BitVec 8) (s : State) (u : State), bodyState p 0x030C (le 1 chan.toNat) s = some u ∧ imageLoaded u = false ∧ u.pwr.nvInhibit = false ∧ chan.toNat ∈ u.mem.retired) ∧
    (∃ (p : Pkt) (first : BitVec 8) (count : BitVec 16) (buf : Buf) (s : State) (u : State), bodyState p 0x0307 (le 1 first.toNat ++ le 2 count.toNat ++ buf.bytes) s = some u ∧ 1 ≤ count.toNat ∧ first.toNat + count.toNat ≤ 256 ∧ 100 * count.toNat ≤ buf.len.toNat) ∧
    (∃ (p : Pkt) (first : BitVec 8) (count : BitVec 16) (buf : Buf) (s : State) (u : State), bodyState p 0x0307 (le 1 first.toNat ++ le 2 count.toNat ++ buf.bytes) s = some u ∧ (count = 0 ∨ 256 < first.toNat + count.toNat)) :=
  ⟨⟨(px : Pkt), (3 : BitVec 8), (255 : BitVec 8), (0x80000000 : BitVec 32), (lit : State), (begun (px : Pkt) 0x030A (le 1 (3 : BitVec 8).toNat ++ le 1 (255 : BitVec 8).toNat ++ le 4 (0x80000000 : BitVec 32).toNat) (lit : State) : State), by decide +kernel⟩,
   ⟨(px : Pkt), (3 : BitVec 8), (0 : BitVec 8), (0xC000000 : BitVec 32), (lit : State), (begun (px : Pkt) 0x030A (le 1 (3 : BitVec 8).toNat ++ le 1 (0 : BitVec 8).toNat ++ le 4 (0xC000000 : BitVec 32).toNat) (lit : State) : State), by decide +kernel⟩,
   ⟨({ expert := true, sig := some { key := 0, nonce := 0, r := 0x8d999057ba3d2d969260045c55b97f089025959a6f434d651d207d19fb96e9e4fe0e86ebe0e64f85b96a9c75295df61, s := 0xb21c832fbbb405a44a8608d2309c4f49ea4f19824e767465d56959a12b4747cac62c4f317c68e684756c7f4ee1a8f011 } } : Pkt), (4 : BitVec 8), (0 : BitVec 8), (1 : BitVec 32), ((keyed lit) : State), (begun ({ expert := true, sig := some { key := 0, nonce := 0, r := 0x8d999057ba3d2d969260045c55b97f089025959a6f434d651d207d19fb96e9e4fe0e86ebe0e64f85b96a9c75295df61, s := 0xb21c832fbbb405a44a8608d2309c4f49ea4f19824e767465d56959a12b4747cac62c4f317c68e684756c7f4ee1a8f011 } } : Pkt) 0x030B (le 1 (4 : BitVec 8).toNat ++ le 1 (0 : BitVec 8).toNat ++ le 4 (1 : BitVec 32).toNat) ((keyed lit) : State) : State), by decide +kernel⟩,
   ⟨({ expert := true, sig := some { key := 0, nonce := 0, r := 0x8d999057ba3d2d969260045c55b97f089025959a6f434d651d207d19fb96e9e4fe0e86ebe0e64f85b96a9c75295df61, s := 0xcd32df4c2630ac2105c6ce98a1ec03e5123393adac88a0444f47de044fe711d857e217b2c815fa6fbc9c72963065929a } } : Pkt), (3 : BitVec 8), (31 : BitVec 8), (0x80000000 : BitVec 32), ((keyed lit) : State), (begun ({ expert := true, sig := some { key := 0, nonce := 0, r := 0x8d999057ba3d2d969260045c55b97f089025959a6f434d651d207d19fb96e9e4fe0e86ebe0e64f85b96a9c75295df61, s := 0xcd32df4c2630ac2105c6ce98a1ec03e5123393adac88a0444f47de044fe711d857e217b2c815fa6fbc9c72963065929a } } : Pkt) 0x030B (le 1 (3 : BitVec 8).toNat ++ le 1 (31 : BitVec 8).toNat ++ le 4 (0x80000000 : BitVec 32).toNat) ((keyed lit) : State) : State), by decide +kernel⟩,
   ⟨({ expert := true, sig := some { key := 0, nonce := 0, r := 0x8d999057ba3d2d969260045c55b97f089025959a6f434d651d207d19fb96e9e4fe0e86ebe0e64f85b96a9c75295df61, s := 0xeac2a828a06d0de2bd94f1d58faf04189e7bcd0cd38044f24703a307964bc8daeb80302ae2523388d7bcae8081d2469f } } : Pkt), (5 : BitVec 8), (0 : BitVec 8), (1 : BitVec 32), ((keyed lit) : State), (begun ({ expert := true, sig := some { key := 0, nonce := 0, r := 0x8d999057ba3d2d969260045c55b97f089025959a6f434d651d207d19fb96e9e4fe0e86ebe0e64f85b96a9c75295df61, s := 0xeac2a828a06d0de2bd94f1d58faf04189e7bcd0cd38044f24703a307964bc8daeb80302ae2523388d7bcae8081d2469f } } : Pkt) 0x030B (le 1 (5 : BitVec 8).toNat ++ le 1 (0 : BitVec 8).toNat ++ le 4 (1 : BitVec 32).toNat) ((keyed lit) : State) : State), by decide +kernel⟩,
   ⟨(px : Pkt), (255 : BitVec 8), (1 : BitVec 8), ((lit.modMem fun zz => { zz with sub := [(511, ({ degraded := true } : SubCh))] }) : State), (begun (px : Pkt) 0x0308 (le 1 (255 : BitVec 8).toNat ++ le 1 (1 : BitVec 8).toNat) ((lit.modMem fun zz => { zz with sub := [(511, ({ degraded := true } : SubCh))] }) : State) : State), by decide +kernel⟩,
   ⟨(pk : Pkt), (255 : BitVec 8), (1 : BitVec 8), (15 : BitVec 8), (98303 : BitVec 32), ((lit.modJob fun zz => { zz with st := .loaded }) : State), (begun (pk : Pkt) 0x0306 (le 1 0 ++ le 1 (255 : BitVec 8).toNat ++ le 1 (1 : BitVec 8).toNat ++ le 1 (15 : BitVec 8).toNat ++ le 4 (98303 : BitVec 32).toNat) ((lit.modJob fun zz => { zz with st := .loaded }) : State) : State), by decide +kernel⟩,
   ⟨(pk : Pkt), (255 : BitVec 8), (1 : BitVec 8), (15 : BitVec 8), (98303 : BitVec 32), ((lit.modJob fun zz => { zz with st := .loaded }) : State), (begun (pk : Pkt) 0x0306 (le 1 1 ++ le 1 (255 : BitVec 8).toNat ++ le 1 (1 : BitVec 8).toNat ++ le 1 (15 : BitVec 8).toNat ++ le 4 (98303 : BitVec 32).toNat) ((lit.modJob fun zz => { zz with st := .loaded }) : State) : State), by decide +kernel⟩,
   ⟨(pk : Pkt), (255 : BitVec 8), (1 : BitVec 8), (15 : BitVec 8), (98303 : BitVec 32), (lit : State), (begun (pk : Pkt) 0x0306 (le 1 0 ++ le 1 (255 : BitVec 8).toNat ++ le 1 (1 : BitVec 8).toNat ++ le 1 (15 : BitVec 8).toNat ++ le 4 (98303 : BitVec 32).toNat) (lit : State) : State), (0 : Nat), by decide +kernel⟩,
   ⟨(pk : Pkt), (255 : BitVec 8), (1 : BitVec 8), (15 : BitVec 8), (98303 : BitVec 32), ((lit.modMem fun zz => { zz with remaps := [({ bank := 0x1FFF, row := 98303, spare := 0 } : RowRemap)] }) : State), (begun (pk : Pkt) 0x0306 (le 1 1 ++ le 1 (255 : BitVec 8).toNat ++ le 1 (1 : BitVec 8).toNat ++ le 1 (15 : BitVec 8).toNat ++ le 4 (98303 : BitVec 32).toNat) ((lit.modMem fun zz => { zz with remaps := [({ bank := 0x1FFF, row := 98303, spare := 0 } : RowRemap)] }) : State) : State), (({ bank := 0x1FFF, row := 98303, spare := 0 } : RowRemap) : RowRemap), by decide +kernel⟩,
   ⟨(px : Pkt), (255 : BitVec 8), (1 : BitVec 8), (15 : BitVec 8), (98303 : BitVec 32), ((lit.modJob fun zz => { zz with st := .loaded }) : State), (begun (px : Pkt) 0x0309 (le 1 (255 : BitVec 8).toNat ++ le 1 (1 : BitVec 8).toNat ++ le 1 (15 : BitVec 8).toNat ++ le 4 (98303 : BitVec 32).toNat) ((lit.modJob fun zz => { zz with st := .loaded }) : State) : State), by decide +kernel⟩,
   ⟨(px : Pkt), (0 : BitVec 8), (0 : BitVec 8), (0 : BitVec 8), (0 : BitVec 32), (lit : State), (begun (px : Pkt) 0x0309 (le 1 (0 : BitVec 8).toNat ++ le 1 (0 : BitVec 8).toNat ++ le 1 (0 : BitVec 8).toNat ++ le 4 (0 : BitVec 32).toNat) (lit : State) : State), by decide +kernel⟩,
   ⟨(px : Pkt), (255 : BitVec 8), (1 : BitVec 8), (15 : BitVec 8), (98303 : BitVec 32), ((lit.modMem fun zz => { zz with remaps := [({ bank := 0x1FFF, row := 98303, spare := 0 } : RowRemap)] }) : State), (begun (px : Pkt) 0x0309 (le 1 (255 : BitVec 8).toNat ++ le 1 (1 : BitVec 8).toNat ++ le 1 (15 : BitVec 8).toNat ++ le 4 (98303 : BitVec 32).toNat) ((lit.modMem fun zz => { zz with remaps := [({ bank := 0x1FFF, row := 98303, spare := 0 } : RowRemap)] }) : State) : State), (({ bank := 0x1FFF, row := 98303, spare := 0 } : RowRemap) : RowRemap), by decide +kernel⟩,
   ⟨((lit.modMem fun zz => { zz with ppr := [(({ bank := 0x1FFF, row := 98303, spare := 0 } : RowRemap), {})] }) : State), (({ bank := 0x1FFF, row := 98303, spare := 0 } : RowRemap) : RowRemap), ({} : PktRef), ([] : List (RowRemap × PktRef)), by decide +kernel⟩,
   ⟨(pk : Pkt), (0 : BitVec 8), ((lit.modJob fun zz => { zz with st := .loaded }) : State), (begun (pk : Pkt) 0x0305 (le 1 (0 : BitVec 8).toNat) ((lit.modJob fun zz => { zz with st := .loaded }) : State) : State), by decide +kernel⟩,
   ⟨(pk : Pkt), (255 : BitVec 8), (lit : State), (begun (pk : Pkt) 0x0305 (le 1 (255 : BitVec 8).toNat) (lit : State) : State), by decide +kernel⟩,
   ⟨(pk : Pkt), (255 : BitVec 8), ((lit.modMem fun zz => { zz with retired := [255] }) : State), (begun (pk : Pkt) 0x0305 (le 1 (255 : BitVec 8).toNat) ((lit.modMem fun zz => { zz with retired := [255] }) : State) : State), by decide +kernel⟩,
   ⟨({ expert := true, sig := some { key := 0, nonce := 0, r := 0x8d999057ba3d2d969260045c55b97f089025959a6f434d651d207d19fb96e9e4fe0e86ebe0e64f85b96a9c75295df61, s := 0xdd2071d332869a0779ffddea0f168f771d7c4fd685ef0fe86f74f3718485b07f31b208d548fc6394c1f64a7c4b7a35e9 } } : Pkt), (255 : BitVec 8), ((keyed (lit.modJob fun zz => { zz with st := .loaded })) : State), (begun ({ expert := true, sig := some { key := 0, nonce := 0, r := 0x8d999057ba3d2d969260045c55b97f089025959a6f434d651d207d19fb96e9e4fe0e86ebe0e64f85b96a9c75295df61, s := 0xdd2071d332869a0779ffddea0f168f771d7c4fd685ef0fe86f74f3718485b07f31b208d548fc6394c1f64a7c4b7a35e9 } } : Pkt) 0x030C (le 1 (255 : BitVec 8).toNat) ((keyed (lit.modJob fun zz => { zz with st := .loaded })) : State) : State), by decide +kernel⟩,
   ⟨({ expert := true, sig := some { key := 0, nonce := 0, r := 0x8d999057ba3d2d969260045c55b97f089025959a6f434d651d207d19fb96e9e4fe0e86ebe0e64f85b96a9c75295df61, s := 0xdd2071d332869a0779ffddea0f168f771d7c4fd685ef0fe86f74f3718485b07f31b208d548fc6394c1f64a7c4b7a35e9 } } : Pkt), (255 : BitVec 8), ((keyed (lit.modMem fun zz => { zz with retired := [255] })) : State), (begun ({ expert := true, sig := some { key := 0, nonce := 0, r := 0x8d999057ba3d2d969260045c55b97f089025959a6f434d651d207d19fb96e9e4fe0e86ebe0e64f85b96a9c75295df61, s := 0xdd2071d332869a0779ffddea0f168f771d7c4fd685ef0fe86f74f3718485b07f31b208d548fc6394c1f64a7c4b7a35e9 } } : Pkt) 0x030C (le 1 (255 : BitVec 8).toNat) ((keyed (lit.modMem fun zz => { zz with retired := [255] })) : State) : State), by decide +kernel⟩,
   ⟨(pk : Pkt), (255 : BitVec 8), (1 : BitVec 16), ({ addr := 0, len := 100 } : Buf), (lit : State), (begun (pk : Pkt) 0x0307 (le 1 (255 : BitVec 8).toNat ++ le 2 (1 : BitVec 16).toNat ++ ({ addr := 0, len := 100 } : Buf).bytes) (lit : State) : State), by decide +kernel⟩,
   ⟨(pk : Pkt), (255 : BitVec 8), (2 : BitVec 16), ({ addr := 0x1000, len := 0xFFFFFFFF } : Buf), (lit : State), (begun (pk : Pkt) 0x0307 (le 1 (255 : BitVec 8).toNat ++ le 2 (2 : BitVec 16).toNat ++ ({ addr := 0x1000, len := 0xFFFFFFFF } : Buf).bytes) (lit : State) : State), by decide +kernel⟩⟩

theorem witness_CellsArriveAndAreAcknowledged :
    (∃ (fibre : Nat) (link : Nat) (cell : CellIn) (s : State) (st : BitVec 20) (c : StreamCtx) (h : TileHdr), litUp s = true ∧ physUp s fibre link false = true ∧ imageLoaded s = true ∧ cell.bytes.length = 1056 ∧ cellBad cell.place cell.words cell.bytes = false ∧ cellType cell.bytes = 1 ∧ st = BitVec.ofNat 20 (rd cell.bytes 0 28 >>> 182) ∧ c = ctxOf s st ∧ h = readCopy (rd cell.bytes 0 28) ∧ c.srcRemote = true ∧ c.state = .open ∧ fld (rd cell.bytes 0 28) 144 6 = 0 ∧ BitVec.ofNat 32 (rd cell.bytes 0 28 >>> 150) = c.cseq ∧ cellCount h.plen.toNat = 1 ∧ (rxOf s st).tiles = [] ∧ (rxOf s st).resync = false ∧ slotFree s st c.tseqHead = true ∧ (s.strm.sums.all fun r => decide (r.inStream ≠ st)) = true ∧ Memory.wf s.ts.cells = true) ∧
    (∃ (fibre : Nat) (link : Nat) (cell : CellIn) (s : State) (st : BitVec 20), litUp s = true ∧ physUp s fibre link false = true ∧ imageLoaded s = true ∧ cellBad cell.place cell.words cell.bytes = false ∧ cellType cell.bytes = 1 ∧ st = BitVec.ofNat 20 (rd cell.bytes 0 28 >>> 182) ∧ (ctxOf s st).srcRemote = true ∧ (ctxOf s st).state ≠ .invalid ∧ (ctxOf s st).state ≠ .closed ∧ later (ctxOf s st).cseq (BitVec.ofNat 32 (rd cell.bytes 0 28 >>> 150)) = true) ∧
    (∃ (fibre : Nat) (link : Nat) (cell : CellIn) (s : State), litUp s = true ∧ physUp s fibre link false = true ∧ (cellCrcOk cell.bytes = false ∨ cellType cell.bytes = 3 ∨ (∃ w ∈ cell.words, touches w cell.place = true))) ∧
    (∃ (fibre : Nat) (link : Nat) (cell : CellIn) (s : State), litUp s = true ∧ physUp s fibre link false = true ∧ cellBad cell.place cell.words cell.bytes = false ∧ cellType cell.bytes = 0) ∧
    (∃ (fibre : Nat) (link : Nat) (cell : CellIn) (s : State), litUp s = true ∧ physUp s fibre link false = true ∧ cellBad cell.place cell.words cell.bytes = false ∧ cellType cell.bytes = 1 ∧ (imageLoaded s = false ∨ (ctxOf s (BitVec.ofNat 20 (rd cell.bytes 0 28 >>> 182))).srcRemote = false)) ∧
    (∃ (fibre : Nat) (link : Nat) (cell : CellIn) (s : State), litUp s = true ∧ physUp s fibre link false = true ∧ cellBad cell.place cell.words cell.bytes = false ∧ cellType cell.bytes = 2) ∧
    (∃ (fibre : Nat) (link : Nat) (k : Nat) (cell : CellIn) (s : State) (st : BitVec 20) (c : StreamCtx) (h : TileHdr) (q : RxTile), litUp s = true ∧ physUp s fibre link false = true ∧ imageLoaded s = true ∧ cell.bytes.length = 1056 ∧ cellBad cell.place cell.words cell.bytes = false ∧ cellType cell.bytes = 1 ∧ st = BitVec.ofNat 20 (rd cell.bytes 0 28 >>> 182) ∧ c = ctxOf s st ∧ h = readCopy (rd cell.bytes 0 28) ∧ c.srcRemote = true ∧ c.state = .open ∧ k = fld (rd cell.bytes 0 28) 144 6 ∧ BitVec.ofNat 32 (rd cell.bytes 0 28 >>> 150) = q.base + BitVec.ofNat 32 k ∧ later c.cseq (BitVec.ofNat 32 (rd cell.bytes 0 28 >>> 150)) = false ∧ (rxOf s st).tiles = [q] ∧ k ∉ q.placed ∧ k < q.cells ∧ q.placed.length + 1 < q.cells ∧ (s.strm.sums.all fun r => decide (r.inStream ≠ st)) = true ∧ Memory.wf s.ts.cells = true) ∧
    (∃ (port : Nat) (b : Bytes) (s : State) (u : State) (st : BitVec 20) (i : Nat) (a : BitVec 32), litUp s = true ∧ (readNotice b).kind = 4 ∧ takeNotice (readNotice b) port s = some (true, u) ∧ imageLoaded u = true ∧ (readNotice b).body.length = 12 ∧ fwdTo u (readNotice b).src (BitVec.ofNat 20 (ofLe (readNotice b).body >>> 76)) = some (st, i) ∧ a = BitVec.ofNat 32 (ofLe (readNotice b).body >>> 44) ∧ later a (fwdOf u st i).ackA = true ∧ later a (fwdOf u st i).cseq = false ∧ twf {} u.strm.fwd = true) ∧
    (∃ (st : BitVec 20) (i : Nat) (s : State), litUp s = true ∧ i < 2 ∧ ((ctxOf s st).fwd i).kind = 2 ∧ ((ctxOf s st).fwd i).up s = true ∧ (fwdOf s st i).timerOn = true ∧ (fwdOf s st i).unacked = true) ∧
    (∃ (st : BitVec 20) (i : Nat) (s : State), (fwdOf s st i).unacked = false) ∧
    (∃ (port : Nat) (b : Bytes) (s : State) (u : State) (st : BitVec 20) (i : Nat), litUp s = true ∧ (readNotice b).kind = 5 ∧ takeNotice (readNotice b) port s = some (true, u) ∧ imageLoaded u = true ∧ (readNotice b).jobTag = jobTag u ∧ fwdTo u (readNotice b).src (BitVec.ofNat 20 (rd (readNotice b).body 0 4)) = some (st, i) ∧ twf {} u.strm.fwd = true ∧ later (BitVec.ofNat 32 (rd (readNotice b).body 8 4)) (fwdOf u st i).ackA = true ∧ later (BitVec.ofNat 32 (rd (readNotice b).body 8 4)) (fwdOf u st i).cseq = false) ∧
    (∃ (st : BitVec 20) (i : Nat) (s : State), litUp s = true ∧ imageLoaded s = true ∧ i < 2 ∧ ((ctxOf s st).fwd i).kind = 2 ∧ (fwdOf s st i).unacked = true ∧ (ctxOf s st).holdMs ≠ 0xFFFF ∧ (fwdOf s st i).stalledRaised = false) ∧
    (∃ (st : BitVec 20) (i : Nat) (s : State), litUp s = true ∧ imageLoaded s = true ∧ i < 2 ∧ ((ctxOf s st).fwd i).kind = 2 ∧ (fwdOf s st i).unacked = true ∧ (ctxOf s st).holdMs ≠ 0xFFFF ∧ (fwdOf s st i).stalledRaised = true) :=
  ⟨⟨(15 : Nat), (7 : Nat), ({ bytes := (mkCell (cellHdr ({ format := 1, plen := 32, prodMod := 5, prodStn := 0x0100 } : TileHdr) 3 9 0 0) [1, 2, 3]) } : CellIn), ((((lit.modJob fun zz => { zz with st := .loaded }).modOpt fun zz => { zz with links := [({ fibre := 15, link := 7, tx := false, inService := true } : PhysLink)] }).modStrm fun zz => { zz with ctx := [(3, { ring2 3 with tseqHead := 0, srcRemote := true, cseq := 9 })] }) : State), (3 : BitVec 20), (ctxOf ((((lit.modJob fun zz => { zz with st := .loaded }).modOpt fun zz => { zz with links := [({ fibre := 15, link := 7, tx := false, inService := true } : PhysLink)] }).modStrm fun zz => { zz with ctx := [(3, { ring2 3 with tseqHead := 0, srcRemote := true, cseq := 9 })] }) : State) 3 : StreamCtx), (readCopy (rd (mkCell (cellHdr ({ format := 1, plen := 32, prodMod := 5, prodStn := 0x0100 } : TileHdr) 3 9 0 0) [1, 2, 3]) 0 28) : TileHdr), by decide +kernel⟩,
   ⟨(15 : Nat), (7 : Nat), ({ bytes := (mkCell (cellHdr ({ format := 1, plen := 32, prodMod := 5, prodStn := 0x0100 } : TileHdr) 3 8 0 0) [1, 2, 3]) } : CellIn), ((((lit.modJob fun zz => { zz with st := .loaded }).modOpt fun zz => { zz with links := [({ fibre := 15, link := 7, tx := false, inService := true } : PhysLink)] }).modStrm fun zz => { zz with ctx := [(3, { ring2 3 with tseqHead := 0, srcRemote := true, cseq := 9 })] }) : State), (3 : BitVec 20), by decide +kernel⟩,
   ⟨(15 : Nat), (7 : Nat), ({ bytes := zeros 1056 } : CellIn), ((((lit.modJob fun zz => { zz with st := .loaded }).modOpt fun zz => { zz with links := [({ fibre := 15, link := 7, tx := false, inService := true } : PhysLink)] }).modStrm fun zz => { zz with ctx := [(3, { ring2 3 with tseqHead := 0, srcRemote := true, cseq := 9 })] }) : State), by decide +kernel⟩,
   ⟨(15 : Nat), (7 : Nat), ({ bytes := (mkCell 0 []) } : CellIn), ((((lit.modJob fun zz => { zz with st := .loaded }).modOpt fun zz => { zz with links := [({ fibre := 15, link := 7, tx := false, inService := true } : PhysLink)] }).modStrm fun zz => { zz with ctx := [(3, { ring2 3 with tseqHead := 0, srcRemote := true, cseq := 9 })] }) : State), by decide +kernel⟩,
   ⟨(15 : Nat), (7 : Nat), ({ bytes := (mkCell (cellHdr ({ format := 1, plen := 32, prodMod := 5, prodStn := 0x0100 } : TileHdr) 3 9 0 0) [1, 2, 3]) } : CellIn), (((lit.modJob fun zz => { zz with st := .loaded }).modOpt fun zz => { zz with links := [({ fibre := 15, link := 7, tx := false, inService := true } : PhysLink)] }) : State), by decide +kernel⟩,
   ⟨(15 : Nat), (7 : Nat), ({ bytes := (mkCell (2 * 2 ^ 222) []) } : CellIn), ((((lit.modJob fun zz => { zz with st := .loaded }).modOpt fun zz => { zz with links := [({ fibre := 15, link := 7, tx := false, inService := true } : PhysLink)] }).modStrm fun zz => { zz with ctx := [(3, { ring2 3 with tseqHead := 0, srcRemote := true, cseq := 9 })] }) : State), by decide +kernel⟩,
   ⟨(15 : Nat), (7 : Nat), (1 : Nat), ({ bytes := (mkCell (cellHdr ({ format := 1, plen := 2100, prodMod := 5, prodStn := 0x0100 } : TileHdr) 3 9 1 0) [1, 2, 3]) } : CellIn), ((((lit.modJob fun zz => { zz with st := .loaded }).modOpt fun zz => { zz with links := [({ fibre := 15, link := 7, tx := false, inService := true } : PhysLink)] }).modStrm fun zz => { zz with ctx := [(3, { ring2 3 with tseqHead := 0, srcRemote := true, cseq := 9 })], rx := [(3, ({ tiles := [{ base := 9, cells := 3, placed := [0] }] } : RxState))] }) : State), (3 : BitVec 20), (ctxOf ((((lit.modJob fun zz => { zz with st := .loaded }).modOpt fun zz => { zz with links := [({ fibre := 15, link := 7, tx := false, inService := true } : PhysLink)] }).modStrm fun zz => { zz with ctx := [(3, { ring2 3 with tseqHead := 0, srcRemote := true, cseq := 9 })], rx := [(3, ({ tiles := [{ base := 9, cells := 3, placed := [0] }] } : RxState))] }) : State) 3 : StreamCtx), (readCopy (rd (mkCell (cellHdr ({ format := 1, plen := 2100, prodMod := 5, prodStn := 0x0100 } : TileHdr) 3 9 1 0) [1, 2, 3]) 0 28) : TileHdr), ({ base := 9, cells := 3, placed := [0] } : RxTile), by decide +kernel⟩,
   ⟨(0 : Nat), ((zeros 3 ++ [0x80] ++ le 4 7 ++ le 8 288318337232928769 ++ le 12 (4 * 2 ^ 76 + 2 * 2 ^ 44)) : Bytes), (((((run.modJob fun zz => { zz with st := .strict, number := 7 }).modStrm fun zz => { zz with ctx := [(1, { ring2 1 with fwd0 := { kind := 2, module := 5, dstStream := 4 } })], fwd := [(2, ({ cseq := 3 } : FwdState))] }).modProf fun zz => { zz with logLinks := [({ peer := 5 } : LogLink)] }).modOpt fun zz => { zz with links := [({ inService := true } : PhysLink)] }) : State), (((takeNotice (readNotice ((zeros 3 ++ [0x80] ++ le 4 7 ++ le 8 288318337232928769 ++ le 12 (4 * 2 ^ 76 + 2 * 2 ^ 44)) : Bytes)) (0 : Nat) (((((run.modJob fun zz => { zz with st := .strict, number := 7 }).modStrm fun zz => { zz with ctx := [(1, { ring2 1 with fwd0 := { kind := 2, module := 5, dstStream := 4 } })], fwd := [(2, ({ cseq := 3 } : FwdState))] }).modProf fun zz => { zz with logLinks := [({ peer := 5 } : LogLink)] }).modOpt fun zz => { zz with links := [({ inService := true } : PhysLink)] }) : State)).map fun zz => zz.2).getD (((((run.modJob fun zz => { zz with st := .strict, number := 7 }).modStrm fun zz => { zz with ctx := [(1, { ring2 1 with fwd0 := { kind := 2, module := 5, dstStream := 4 } })], fwd := [(2, ({ cseq := 3 } : FwdState))] }).modProf fun zz => { zz with logLinks := [({ peer := 5 } : LogLink)] }).modOpt fun zz => { zz with links := [({ inService := true } : PhysLink)] }) : State) : State), (1 : BitVec 20), (0 : Nat), (2 : BitVec 32), by decide +kernel⟩,
   ⟨(1 : BitVec 20), (0 : Nat), (((((run.modJob fun zz => { zz with st := .strict, number := 7 }).modStrm fun zz => { zz with ctx := [(1, { ring2 1 with fwd0 := { kind := 2, module := 5, dstStream := 4 } })], fwd := [(2, ({ cseq := 3, timerOn := true, expiries := 2 } : FwdState))] }).modProf fun zz => { zz with logLinks := [({ peer := 5 } : LogLink)] }).modOpt fun zz => { zz with links := [({ inService := true } : PhysLink)] }) : State), by decide +kernel⟩,
   ⟨(1 : BitVec 20), (0 : Nat), (lit : State), by decide +kernel⟩,
   ⟨(0 : Nat), ((zeros 3 ++ [0x80] ++ le 4 7 ++ le 8 360375931270856705 ++ le 4 4 ++ zeros 4 ++ le 4 2) : Bytes), (((((run.modJob fun zz => { zz with st := .strict, number := 7 }).modStrm fun zz => { zz with ctx := [(1, { ring2 1 with fwd0 := { kind := 2, module := 5, dstStream := 4 } })], fwd := [(2, ({ cseq := 3 } : FwdState))] }).modProf fun zz => { zz with logLinks := [({ peer := 5 } : LogLink)] }).modOpt fun zz => { zz with links := [({ inService := true } : PhysLink)] }) : State), (((takeNotice (readNotice ((zeros 3 ++ [0x80] ++ le 4 7 ++ le 8 360375931270856705 ++ le 4 4 ++ zeros 4 ++ le 4 2) : Bytes)) (0 : Nat) (((((run.modJob fun zz => { zz with st := .strict, number := 7 }).modStrm fun zz => { zz with ctx := [(1, { ring2 1 with fwd0 := { kind := 2, module := 5, dstStream := 4 } })], fwd := [(2, ({ cseq := 3 } : FwdState))] }).modProf fun zz => { zz with logLinks := [({ peer := 5 } : LogLink)] }).modOpt fun zz => { zz with links := [({ inService := true } : PhysLink)] }) : State)).map fun zz => zz.2).getD (((((run.modJob fun zz => { zz with st := .strict, number := 7 }).modStrm fun zz => { zz with ctx := [(1, { ring2 1 with fwd0 := { kind := 2, module := 5, dstStream := 4 } })], fwd := [(2, ({ cseq := 3 } : FwdState))] }).modProf fun zz => { zz with logLinks := [({ peer := 5 } : LogLink)] }).modOpt fun zz => { zz with links := [({ inService := true } : PhysLink)] }) : State) : State), (1 : BitVec 20), (0 : Nat), by decide +kernel⟩,
   ⟨(1 : BitVec 20), (0 : Nat), (((((run.modJob fun zz => { zz with st := .strict, number := 7 }).modStrm fun zz => { zz with ctx := [(1, { ring2 1 with fwd0 := { kind := 2, module := 5, dstStream := 4 } })], fwd := [(2, ({ cseq := 3 } : FwdState))] }).modProf fun zz => { zz with logLinks := [({ peer := 5 } : LogLink)] }).modOpt fun zz => { zz with links := [({ inService := true } : PhysLink)] }) : State), by decide +kernel⟩,
   ⟨(1 : BitVec 20), (0 : Nat), (((((run.modJob fun zz => { zz with st := .strict, number := 7 }).modStrm fun zz => { zz with ctx := [(1, { ring2 1 with fwd0 := { kind := 2, module := 5, dstStream := 4 } })], fwd := [(2, ({ cseq := 3, stalledRaised := true } : FwdState))] }).modProf fun zz => { zz with logLinks := [({ peer := 5 } : LogLink)] }).modOpt fun zz => { zz with links := [({ inService := true } : PhysLink)] }) : State), by decide +kernel⟩⟩

theorem witness_StreamsServiceCellsAndNotices :
    (∃ (f : Nat) (s : State), litUp s = true ∧ f < 16) ∧
    (∃ (f : Nat) (s : State), litUp s = true ∧ f < 16 ∧ slotFibre s f = false ∧ twf {} s.opt.fibres = true) ∧
    (∃ (f : Nat) (s : State) (g : Nat), litUp s = true ∧ f < 16 ∧ slotFibre s f = false ∧ twf {} s.opt.fibres = true ∧ g ≠ f) ∧
    (∃ (f : Nat) (s : State), litUp s = true ∧ f < 16 ∧ slotFibre s f = true ∧ s.job.gridOn = true ∧ twf {} s.opt.fibres = true) ∧
    (∃ (f : Nat) (s : State) (k : Nat) (n : Nat), litUp s = true ∧ f < 16 ∧ fixedLanes s f = false ∧ k < 33 ∧ (laneOf s f k).txOn = true ∧ n < 64) ∧
    (∃ (f : Nat) (s : State) (st : BitVec 20), twf {} s.strm.rx = true ∧ (s.strm.rx.all fun e => decide (e.1 < 2 ^ 20)) = true ∧ (((rxOf s st).via = 0 ∧ 4 * stnDie (ctxOf s st).prodStn + stnIndex (ctxOf s st).prodStn = f) ∨ ((rxOf s st).via ≠ 0 ∧ ∃ l, logLink s (((rxOf s st).via - 1) / 64) (((rxOf s st).via - 1) % 64) false = some l ∧ l.pFibre.toNat = f)) ∧ (ctxOf s st).srcRemote = true ∧ (ctxOf s st).state = .open ∧ (rxOf s st).tiles.any (fun x => x.stalls s.tm.ft) = true) ∧
    (∃ (f : Nat) (s : State) (st : BitVec 20), twf {} s.strm.rx = true ∧ (s.strm.rx.all fun e => decide (e.1 < 2 ^ 20)) = true ∧ (((rxOf s st).via = 0 ∧ 4 * stnDie (ctxOf s st).prodStn + stnIndex (ctxOf s st).prodStn = f) ∨ ((rxOf s st).via ≠ 0 ∧ ∃ l, logLink s (((rxOf s st).via - 1) / 64) (((rxOf s st).via - 1) % 64) false = some l ∧ l.pFibre.toNat = f)) ∧ (ctxOf s st).srcRemote = true ∧ (ctxOf s st).state = .open ∧ (rxOf s st).tiles.any (fun x => x.stalls s.tm.ft) = false) ∧
    (∃ (st : BitVec 20) (s : State) (c : StreamCtx) (q : RxTile) (rest : List RxTile), litUp s = true ∧ holdRuns s = true ∧ c = ctxOf s st ∧ c.state = .stalled ∧ c.holdMs ≠ 0xFFFF ∧ (rxOf s st).tiles = q :: rest ∧ (s.strm.sums.all fun r => decide (r.inStream ≠ st)) = true ∧ Memory.wf s.ts.cells = true) ∧
    (∃ (st : BitVec 20) (s : State), ((ctxOf s st).state ≠ .stalled ∨ (ctxOf s st).holdMs = 0xFFFF)) ∧
    (∃ (fibre : Nat) (link : Nat) (s : State) (l : PhysLink), litUp s = true ∧ physLink s fibre link true = some l ∧ l.inService = true) ∧
    (∃ (fibre : Nat) (link : Nat) (s : State), ((∀ l, physLink s fibre link true = some l → l.inService = false))) ∧
    (∃ (fibre : Nat) (link : Nat) (entry : Bytes) (s : State) (l : PhysLink), litUp s = true ∧ physLink s fibre link false = some l ∧ fld (rd entry 0 8) 20 16 ≠ 0 ∧ BitVec.ofNat 20 (rd entry 0 8) ∉ tget [] s.net.rsSeen (nameOf s fibre link false) ∧ BitVec.ofNat 12 (rd entry 0 8 >>> 52) = moduleId s ∧ imageLoaded s = true) ∧
    (∃ (fibre : Nat) (link : Nat) (entry : Bytes) (s : State) (l : PhysLink) (r : LogLink), litUp s = true ∧ physLink s fibre link false = some l ∧ fld (rd entry 0 8) 20 16 ≠ 0 ∧ BitVec.ofNat 20 (rd entry 0 8) ∉ tget [] s.net.rsSeen (nameOf s fibre link false) ∧ BitVec.ofNat 12 (rd entry 0 8 >>> 52) ≠ moduleId s ∧ routeLink s (BitVec.ofNat 12 (rd entry 0 8 >>> 52)) = some r) ∧
    (∃ (fibre : Nat) (link : Nat) (entry : Bytes) (s : State) (l : PhysLink), litUp s = true ∧ physLink s fibre link false = some l ∧ fld (rd entry 0 8) 20 16 ≠ 0 ∧ BitVec.ofNat 20 (rd entry 0 8) ∈ tget [] s.net.rsSeen (nameOf s fibre link false)) ∧
    (∃ (s : State) (n : Notice) (k : Nat) (rest : List (Notice × Nat)), litUp s = true ∧ s.net.repeats = (n, k) :: rest) :=
  ⟨⟨(15 : Nat), (lit : State), by decide +kernel⟩,
   ⟨(15 : Nat), (lit : State), by decide +kernel⟩,
   ⟨(15 : Nat), (lit : State), (14 : Nat), by decide +kernel⟩,
   ⟨(15 : Nat), ((lit.modJob fun zz => { zz with gridOn := true, bell := 3, image := some { periodNs := 20000, slots := some {} } }) : State), by decide +kernel⟩,
   ⟨(15 : Nat), ((lit.modOpt fun zz => { zz with lanes := [(15 * 33 + 31, ({ txOn := true } : Lane))] }) : State), (31 : Nat), (63 : Nat), by decide +kernel⟩,
   ⟨(0 : Nat), (((lit.modTm fun zz => { zz with ft := 64000 }).modStrm fun zz => { zz with ctx := [(3, { ring2 3 with tseqHead := 0, srcRemote := true, cseq := 9, state := .open })], rx := [(3, ({ tiles := [{ base := 9, cells := 2, placed := [0] }] } : RxState))] }) : State), (3 : BitVec 20), by decide +kernel⟩,
   ⟨(0 : Nat), (((lit.modTm fun zz => { zz with ft := 64000 }).modStrm fun zz => { zz with ctx := [(3, { ring2 3 with tseqHead := 0, srcRemote := true, cseq := 9, state := .open })], rx := [(3, ({ tiles := [{ base := 9, cells := 2, placed := [] }] } : RxState))] }) : State), (3 : BitVec 20), by decide +kernel⟩,
   ⟨(3 : BitVec 20), (((lit.modJob fun zz => { zz with st := .strict }).modStrm fun zz => { zz with ctx := [(3, { ring2 3 with tseqHead := 0, srcRemote := true, cseq := 9, state := .stalled })], rx := [(3, ({ tiles := [{ base := 9, cells := 2, placed := [0] }] } : RxState))] }) : State), (ctxOf (((lit.modJob fun zz => { zz with st := .strict }).modStrm fun zz => { zz with ctx := [(3, { ring2 3 with tseqHead := 0, srcRemote := true, cseq := 9, state := .stalled })], rx := [(3, ({ tiles := [{ base := 9, cells := 2, placed := [0] }] } : RxState))] }) : State) 3 : StreamCtx), ({ base := 9, cells := 2, placed := [0] } : RxTile), ([] : List RxTile), by decide +kernel⟩,
   ⟨(1 : BitVec 20), (lit : State), by decide +kernel⟩,
   ⟨(15 : Nat), (7 : Nat), ((lit.modOpt fun zz => { zz with links := [({ fibre := 15, link := 7, inService := true } : PhysLink)] }) : State), ({ fibre := 15, link := 7, inService := true } : PhysLink), by decide +kernel⟩,
   ⟨(15 : Nat), (0 : Nat), (lit : State), fun l h => absurd h (by rw [show physLink lit 15 0 true = none by decide +kernel]; simp)⟩,
   ⟨(15 : Nat), (7 : Nat), (le 8 0xfff0009ffff00001 : Bytes), (((lit.modOpt fun zz => { zz with links := [({ fibre := 15, link := 7, tx := false } : PhysLink)] }).modJob fun zz => { zz with st := .loaded }) : State), ({ fibre := 15, link := 7, tx := false } : PhysLink), by decide +kernel⟩,
   ⟨(15 : Nat), (7 : Nat), (le 8 0x50009000100001 : Bytes), (((lit.modOpt fun zz => { zz with links := [({ fibre := 15, link := 7, tx := false } : PhysLink)] }).modProf fun zz => { zz with logLinks := [({ peer := 5 } : LogLink)], fab := some { modules := [5] } }) : State), ({ fibre := 15, link := 7, tx := false } : PhysLink), ({ peer := 5 } : LogLink), by decide +kernel⟩,
   ⟨(15 : Nat), (7 : Nat), (le 8 0x50009000100001 : Bytes), (((lit.modOpt fun zz => { zz with links := [({ fibre := 15, link := 7, tx := false } : PhysLink)] }).modNet fun zz => { zz with rsSeen := [(linkKey 15 7, [1])] }) : State), ({ fibre := 15, link := 7, tx := false } : PhysLink), by decide +kernel⟩,
   ⟨((lit.modNet fun zz => { zz with repeats := [({}, 1)] }) : State), ({} : Notice), (1 : Nat), ([] : List (Notice × Nat)), by decide +kernel⟩⟩

theorem witness_LanesFailAndSparesRelieveThem :
    (∃ (f : Nat) (x : Nat) (s : State), litUp s = true ∧ f < 16 ∧ x < 33 ∧ (laneOf s f x).failed = false) ∧
    (∃ (f : Nat) (x : Nat) (s : State), litUp s = true ∧ f < 16 ∧ x < 33 ∧ (laneOf s f x).failed = true) ∧
    (∃ (f : Nat) (x : Nat) (s : State) (l : PhysLink), litUp s = true ∧ f < 16 ∧ x < 33 ∧ rxLinkOf s f x = some l ∧ l.inService = true ∧ twf {} s.opt.lanes = true) ∧
    (∃ (f : Nat) (x : Nat) (k : Nat) (s : State) (l : PhysLink), f < 16 ∧ x < 33 ∧ (laneOf s f x).failed = false ∧ modeOf s f ≠ .xn5 ∧ (rotOf s f).step = none ∧ reliefOn s f = none ∧ txLinkOf s f x = some l ∧ l.inService = true ∧ ceReach s 0 = true ∧ twf {} s.opt.lanes = true ∧ spareOf s f = some k ∧ k ≠ x ∧ fixedLanes s f = false ∧ (lineFree (markFailed f x s) f k l).1 = true) ∧
    (∃ (f : Nat) (x : Nat) (s : State) (l : PhysLink), f < 16 ∧ x < 33 ∧ (laneOf s f x).failed = false ∧ modeOf s f ≠ .xn5 ∧ (rotOf s f).step = none ∧ reliefOn s f = none ∧ txLinkOf s f x = some l ∧ l.inService = true ∧ ceReach s 0 = true ∧ twf {} s.opt.lanes = true ∧ (spareOf s f = none ∨ spareOf s f = some x ∨ fixedLanes s f = true)) ∧
    (∃ (port : Nat) (msg : Bytes) (f : Nat) (x : Nat) (s : State) (v : State), litUp s = true ∧ port < 1024 ∧ f < 16 ∧ x < 33 ∧ v = (if pmAckReq msg then p2pAck msg (prefectInput s) else prefectInput s) ∧ pmDst msg = moduleId s ∧ p2pSeen msg s = false) ∧
    (∃ (port : Nat) (msg : Bytes) (f : Nat) (x : Nat) (s : State) (v : State), litUp s = true ∧ port < 1024 ∧ f < 16 ∧ x < 33 ∧ v = (if pmAckReq msg then p2pAck msg (prefectInput s) else prefectInput s) ∧ pmDst msg = moduleId s ∧ p2pSeen msg s = true) ∧
    (∃ (port : Nat) (msg : Bytes) (f : Nat) (x : Nat) (s : State) (v : State), litUp s = true ∧ port < 1024 ∧ f < 16 ∧ x < 33 ∧ v = (if pmAckReq msg then p2pAck msg (prefectInput s) else prefectInput s) ∧ pmDst msg ≠ moduleId s) ∧
    (∃ (p : Pkt) (fibre : BitVec 8) (lane : BitVec 8) (s : State) (u : State), bodyState p 0x040E (le 1 fibre.toNat ++ le 1 lane.toNat) s = some u ∧ fibre.toNat < 16 ∧ lane.toNat < 33 ∧ ceReach u 0 = true ∧ twf {} u.opt.lanes = true) ∧
    (∃ (p : Pkt) (fibre : BitVec 8) (lane : BitVec 8) (s : State) (u : State), bodyState p 0x040E (le 1 fibre.toNat ++ le 1 lane.toNat) s = some u ∧ fibre.toNat < 16 ∧ lane.toNat < 33 ∧ ceReach u 0 = false) ∧
    (∃ (f : Nat) (k : Nat) (errors : Nat) (bits : Nat) (s : State), litUp s = true ∧ f < 16 ∧ k < 33 ∧ 0 < bits ∧ errors ≤ bits ∧ twf {} s.opt.lanes = true ∧ rxCal s f k = false) ∧
    (∃ (f : Nat) (k : Nat) (errors : Nat) (bits : Nat) (s : State), litUp s = true ∧ f < 16 ∧ k < 33 ∧ 0 < bits ∧ errors ≤ bits ∧ twf {} s.opt.lanes = true ∧ rxCal s f k = true) ∧
    (∃ (errors : Nat) (bits : Nat), 0 < errors ∧ errors ≤ bits) ∧
    (∃ (errors : Nat) (bits : Nat), 0 < errors ∧ errors ≤ bits ∧ berLogOf errors bits < 1023) ∧
    (∃ (f : Nat) (x : Nat) (s : State), x < 33 ∧ (laneOf s f x).failed = false ∧ modeOf s f = .xn5) ∧
    (∃ (f : Nat) (s : State) (r : Relief) (l : PhysLink), litUp s = true ∧ reliefOn s f = some r ∧ r.step = 1 ∧ txLinkOf s f r.lane = some l ∧ r.forFail = false) ∧
    (∃ (f : Nat) (s : State) (r : Relief) (l : PhysLink), litUp s = true ∧ reliefOn s f = some r ∧ r.step = 1 ∧ txLinkOf s f r.lane = some l ∧ r.forFail = true ∧ r.spare ≠ r.lane) ∧
    (∃ (port : Nat) (msg : Bytes) (f : Nat) (k : Nat) (s : State) (r : Relief), litUp s = true ∧ port < 1024 ∧ pmDst msg = moduleId s ∧ p2pSeen msg s = false ∧ reliefOn s f = some r ∧ r.spare = k ∧ r.step = 2 ∧ r.spare ≠ r.lane) ∧
    (∃ (f : Nat) (s : State) (r : Relief), litUp s = true ∧ reliefOn s f = some r ∧ r.step = 2 ∧ (rotOf s f).step = none) ∧
    (∃ (p : Pkt) (fibre : BitVec 8) (lane : BitVec 8) (s : State) (u : State) (l : PhysLink) (k : Nat), bodyState p 0x040D (le 1 fibre.toNat ++ le 1 lane.toNat) s = some u ∧ fibre.toNat < 16 ∧ lane.toNat < 33 ∧ txLinkOf u fibre.toNat lane.toNat = some l ∧ spareOf u fibre.toNat = some k ∧ litUp u = true ∧ ceReach u 0 = true ∧ l.inService = true ∧ reliefOn u fibre.toNat = none ∧ (rotOf u fibre.toNat).step = none ∧ fixedLanes u fibre.toNat = false ∧ nativeFibre u fibre.toNat = true ∧ (fibreOf u fibre.toNat).apr = false ∧ (lineFree u fibre.toNat k l).1 = false) ∧
    (∃ (p : Pkt) (fibre : BitVec 8) (lane : BitVec 8) (s : State) (u : State) (l : PhysLink) (k : Nat), bodyState p 0x040D (le 1 fibre.toNat ++ le 1 lane.toNat) s = some u ∧ fibre.toNat < 16 ∧ lane.toNat < 33 ∧ txLinkOf u fibre.toNat lane.toNat = some l ∧ spareOf u fibre.toNat = some k ∧ litUp u = true ∧ ceReach u 0 = true ∧ l.inService = true ∧ reliefOn u fibre.toNat = none ∧ (rotOf u fibre.toNat).step = none ∧ fixedLanes u fibre.toNat = false ∧ nativeFibre u fibre.toNat = true ∧ (fibreOf u fibre.toNat).apr = false ∧ (lineFree u fibre.toNat k l).1 = true) ∧
    (∃ (p : Pkt) (fibre : BitVec 8) (lane : BitVec 8) (s : State) (u : State), bodyState p 0x040D (le 1 fibre.toNat ++ le 1 lane.toNat) s = some u ∧ fibre.toNat < 16 ∧ lane.toNat < 33 ∧ (spareOf u fibre.toNat = none ∨ txLinkOf u fibre.toNat lane.toNat = none ∨ litUp u = false ∨ ceReach u 0 = false ∨ (reliefOn u fibre.toNat).isSome = true ∨ (rotOf u fibre.toNat).step.isSome = true ∨ fixedLanes u fibre.toNat = true ∨ nativeFibre u fibre.toNat = false ∨ (fibreOf u fibre.toNat).apr = true)) ∧
    (∃ (a : Announce) (s : State), a.lane < 33 ∧ (laneOf s a.fibre a.lane).failed = false ∧ twf {} s.opt.lanes = true) ∧
    (∃ (a : Announce) (s : State) (k : Nat), a.lane < 33 ∧ (laneOf s a.fibre a.lane).failed = false ∧ twf {} s.opt.lanes = true ∧ k ≠ laneKey a.fibre a.lane) :=
  ⟨⟨(15 : Nat), (32 : Nat), (lit : State), by decide +kernel⟩,
   ⟨(15 : Nat), (32 : Nat), ((lit.modOpt fun zz => { zz with lanes := [(15 * 33 + 32, ({ failed := true } : Lane))] }) : State), by decide +kernel⟩,
   ⟨(15 : Nat), (32 : Nat), ((lit.modOpt fun zz => { zz with links := [({ fibre := 15, link := 7, tx := false, lanes := [32], inService := true } : PhysLink)] }) : State), ({ fibre := 15, link := 7, tx := false, lanes := [32], inService := true } : PhysLink), by decide +kernel⟩,
   ⟨(15 : Nat), (32 : Nat), (0 : Nat), ((lit.modOpt fun zz => { zz with lanes := [(15 * 33 + 0, ({ spare := true } : Lane))], links := [({ fibre := 15, link := 7, lanes := [31, 32], inService := true } : PhysLink)] }) : State), (({ fibre := 15, link := 7, lanes := [31, 32], inService := true } : PhysLink) : PhysLink), by decide +kernel⟩,
   ⟨(15 : Nat), (32 : Nat), ((lit.modOpt fun zz => { zz with links := [({ fibre := 15, link := 7, lanes := [31, 32], inService := true } : PhysLink)] }) : State), (({ fibre := 15, link := 7, lanes := [31, 32], inService := true } : PhysLink) : PhysLink), by decide +kernel⟩,
   ⟨(127 : Nat), (pmBytes 6 3 false 0xFFF 5 9 false [] : Bytes), (15 : Nat), (32 : Nat), (lit : State), ((if pmAckReq (pmBytes 6 3 false 0xFFF 5 9 false [] : Bytes) then p2pAck (pmBytes 6 3 false 0xFFF 5 9 false [] : Bytes) (prefectInput (lit : State)) else prefectInput (lit : State)) : State), by decide +kernel⟩,
   ⟨(127 : Nat), (pmBytes 6 3 false 0xFFF 5 9 false [] : Bytes), (15 : Nat), (32 : Nat), ((lit.modPfx fun zz => { zz with seen := [(3, 9)] }) : State), ((if pmAckReq (pmBytes 6 3 false 0xFFF 5 9 false [] : Bytes) then p2pAck (pmBytes 6 3 false 0xFFF 5 9 false [] : Bytes) (prefectInput ((lit.modPfx fun zz => { zz with seen := [(3, 9)] }) : State)) else prefectInput ((lit.modPfx fun zz => { zz with seen := [(3, 9)] }) : State)) : State), by decide +kernel⟩,
   ⟨(127 : Nat), (pmBytes 6 3 false 4 5 9 false [] : Bytes), (15 : Nat), (32 : Nat), (lit : State), ((if pmAckReq (pmBytes 6 3 false 4 5 9 false [] : Bytes) then p2pAck (pmBytes 6 3 false 4 5 9 false [] : Bytes) (prefectInput (lit : State)) else prefectInput (lit : State)) : State), by decide +kernel⟩,
   ⟨(px : Pkt), (15 : BitVec 8), (32 : BitVec 8), ((lit.modOpt fun zz => { zz with lanes := [(15 * 33 + 32, ({ failed := true } : Lane))] }) : State), (begun (px : Pkt) 0x040E (le 1 (15 : BitVec 8).toNat ++ le 1 (32 : BitVec 8).toNat) ((lit.modOpt fun zz => { zz with lanes := [(15 * 33 + 32, ({ failed := true } : Lane))] }) : State) : State), by decide +kernel⟩,
   ⟨(px : Pkt), (15 : BitVec 8), (32 : BitVec 8), ((lit.modPfx fun zz => { zz with noAccepted := true }) : State), (begun (px : Pkt) 0x040E (le 1 (15 : BitVec 8).toNat ++ le 1 (32 : BitVec 8).toNat) ((lit.modPfx fun zz => { zz with noAccepted := true }) : State) : State), by decide +kernel⟩,
   ⟨(15 : Nat), (32 : Nat), (1 : Nat), (1 : Nat), (lit : State), by decide +kernel⟩,
   ⟨(15 : Nat), (32 : Nat), (0 : Nat), (1 : Nat), ((lit.modCal fun zz => { zz with rot := [(15, ({ rx := some { lane := 32 } } : Rotation))] }) : State), by decide +kernel⟩,
   ⟨(1 : Nat), (1 : Nat), by decide +kernel⟩,
   ⟨(1 : Nat), (1 : Nat), by decide +kernel⟩,
   ⟨(15 : Nat), (32 : Nat), ((lit.modOpt fun zz => { zz with fibres := [(12, ({ mode := .xn5 } : Fibre))] }) : State), by decide +kernel⟩,
   ⟨(15 : Nat), ((lit.modOpt fun zz => { zz with links := [({ fibre := 15, link := 7, lanes := [31, 32], inService := true } : PhysLink)], reliefs := [({ fibre := 15, spare := 0, lane := 32, link := 7, pos := 1, forFail := false, step := 1 } : Relief)] }) : State), ({ fibre := 15, spare := 0, lane := 32, link := 7, pos := 1, forFail := false, step := 1 } : Relief), (({ fibre := 15, link := 7, lanes := [31, 32], inService := true } : PhysLink) : PhysLink), by decide +kernel⟩,
   ⟨(15 : Nat), ((lit.modOpt fun zz => { zz with links := [({ fibre := 15, link := 7, lanes := [31, 32], inService := true } : PhysLink)], reliefs := [({ fibre := 15, spare := 0, lane := 32, link := 7, pos := 1, forFail := true, step := 1 } : Relief)] }) : State), ({ fibre := 15, spare := 0, lane := 32, link := 7, pos := 1, forFail := true, step := 1 } : Relief), (({ fibre := 15, link := 7, lanes := [31, 32], inService := true } : PhysLink) : PhysLink), by decide +kernel⟩,
   ⟨(127 : Nat), (pmBytes 6 3 false 0xFFF 5 9 false [] : Bytes), (15 : Nat), (0 : Nat), ((lit.modOpt fun zz => { zz with links := [({ fibre := 15, link := 7, lanes := [31, 32], inService := true } : PhysLink)], reliefs := [({ fibre := 15, spare := 0, lane := 32, link := 7, pos := 1, forFail := false, step := 2 } : Relief)] }) : State), ({ fibre := 15, spare := 0, lane := 32, link := 7, pos := 1, forFail := false, step := 2 } : Relief), by decide +kernel⟩,
   ⟨(15 : Nat), ((lit.modOpt fun zz => { zz with links := [({ fibre := 15, link := 7, lanes := [31, 32], inService := true } : PhysLink)], reliefs := [({ fibre := 15, spare := 0, lane := 32, link := 7, pos := 1, forFail := false, step := 2 } : Relief)] }) : State), ({ fibre := 15, spare := 0, lane := 32, link := 7, pos := 1, forFail := false, step := 2 } : Relief), by decide +kernel⟩,
   ⟨(px : Pkt), (15 : BitVec 8), (32 : BitVec 8), (((lit.modOpt fun zz => { zz with lanes := [(15 * 33 + 0, ({ spare := true } : Lane))], links := [({ fibre := 15, link := 7, lanes := [31, 32], inService := true } : PhysLink)] }).modSw fun zz => { zz with xps := [({ line := 0, inp := 3, out := 15 } : Xp)] }) : State), (begun (px : Pkt) 0x040D (le 1 (15 : BitVec 8).toNat ++ le 1 (32 : BitVec 8).toNat) (((lit.modOpt fun zz => { zz with lanes := [(15 * 33 + 0, ({ spare := true } : Lane))], links := [({ fibre := 15, link := 7, lanes := [31, 32], inService := true } : PhysLink)] }).modSw fun zz => { zz with xps := [({ line := 0, inp := 3, out := 15 } : Xp)] }) : State) : State), (({ fibre := 15, link := 7, lanes := [31, 32], inService := true } : PhysLink) : PhysLink), (0 : Nat), by decide +kernel⟩,
   ⟨(px : Pkt), (15 : BitVec 8), (32 : BitVec 8), ((lit.modOpt fun zz => { zz with lanes := [(15 * 33 + 0, ({ spare := true } : Lane))], links := [({ fibre := 15, link := 7, lanes := [31, 32], inService := true } : PhysLink)] }) : State), (begun (px : Pkt) 0x040D (le 1 (15 : BitVec 8).toNat ++ le 1 (32 : BitVec 8).toNat) ((lit.modOpt fun zz => { zz with lanes := [(15 * 33 + 0, ({ spare := true } : Lane))], links := [({ fibre := 15, link := 7, lanes := [31, 32], inService := true } : PhysLink)] }) : State) : State), (({ fibre := 15, link := 7, lanes := [31, 32], inService := true } : PhysLink) : PhysLink), (0 : Nat), by decide +kernel⟩,
   ⟨(px : Pkt), (15 : BitVec 8), (32 : BitVec 8), (lit : State), (begun (px : Pkt) 0x040D (le 1 (15 : BitVec 8).toNat ++ le 1 (32 : BitVec 8).toNat) (lit : State) : State), by decide +kernel⟩,
   ⟨({ fibre := 15, lane := 32, role := .inService, pos := 3 } : Announce), (lit : State), by decide +kernel⟩,
   ⟨({ fibre := 15, lane := 32 } : Announce), (lit : State), (0 : Nat), by decide +kernel⟩⟩

theorem witness_LightAndCombSources :
    (∃ (f : Nat) (s : State), combsLit s = true ∧ f < 16 ∧ (fibreOf s f).los = false ∧ modeOf s f ≠ .faceplate ∧ twf {} s.opt.fibres = true ∧ (s.sw.fallbacks.all fun e => decide (e.2.sig ≠ sigOf 1 f 0)) = true) ∧
    (∃ (f : Nat) (s : State), combsLit s = true ∧ f < 16 ∧ (fibreOf s f).los = true ∧ (fibreOf s f).apr = false ∧ modeOf s f ≠ .faceplate ∧ twf {} s.opt.lanes = true) ∧
    (∃ (f : Nat) (s : State), combsLit s = true ∧ f < 16 ∧ (fibreOf s f).los = true ∧ (fibreOf s f).beaconOk = true ∧ twf {} s.opt.fibres = true ∧ twf {} s.opt.lanes = true) ∧
    (∃ (f : Nat) (frame : Bytes) (s : State), combsLit s = true ∧ f < 16 ∧ modeOf s f ≠ .faceplate ∧ s.sw.rcState ≠ 1 ∧ beaconGood frame = true) ∧
    (∃ (f : Nat) (frame : Bytes) (s : State), combsLit s = true ∧ f < 16 ∧ modeOf s f ≠ .faceplate ∧ s.sw.rcState ≠ 1 ∧ beaconGood frame = false) ∧
    (∃ (f : Nat), f < 16) ∧
    (∃ (k : Nat) (cause : Nat) (s : State), combsLit s = true ∧ k < 4 ∧ (combOf s k).lit = true ∧ (combOf s k).failed = false ∧ (cause = 1 ∨ cause = 2) ∧ s.opt.k4For = none ∧ s.opt.k4Swap = none) ∧
    (∃ (s : State) (w : K4Swap), combsLit s = true ∧ s.opt.k4Swap = some w ∧ (w.cause = 3 ∨ (s.sw.fallbacks.all fun e => decide (e.2.sig ≠ sigOf 3 w.src 0)) = true) ∧ w.back = false) ∧
    (∃ (s : State) (w : K4Swap), combsLit s = true ∧ s.opt.k4Swap = some w ∧ (w.cause = 3 ∨ (s.sw.fallbacks.all fun e => decide (e.2.sig ≠ sigOf 3 w.src 0)) = true) ∧ w.back = true) ∧
    (∃ (s : State) (w : K4Swap), combsLit s = true ∧ s.opt.k4Swap = some w ∧ (w.cause = 3 ∨ (s.sw.fallbacks.all fun e => decide (e.2.sig ≠ sigOf 3 w.src 0)) = true)) ∧
    (∃ (p : Pkt) (src : BitVec 8) (s : State) (u : State), src.toNat < 4 ∧ bodyState p 0x040B (le 1 src.toNat ++ le 1 0) s = some u ∧ litUp u = true ∧ groupUsed u src.toNat = false ∧ k4Free u = true) ∧
    (∃ (p : Pkt) (src : BitVec 8) (s : State) (u : State), src.toNat < 4 ∧ bodyState p 0x040B (le 1 src.toNat ++ le 1 0) s = some u ∧ (litUp u = false ∨ groupUsed u src.toNat = true ∨ k4Free u = false)) ∧
    (∃ (p : Pkt) (src : BitVec 8) (s : State) (u : State), src.toNat < 4 ∧ bodyState p 0x040B (le 1 src.toNat ++ le 1 1) s = some u ∧ litUp u = true ∧ groupUsed u src.toNat = false ∧ u.opt.k4For = some src.toNat ∧ u.opt.k4Swap = none ∧ ceReach u 0 = true) ∧
    (∃ (p : Pkt) (src : BitVec 8) (s : State) (u : State), src.toNat < 4 ∧ bodyState p 0x040B (le 1 src.toNat ++ le 1 1) s = some u ∧ (litUp u = false ∨ groupUsed u src.toNat = true ∨ u.opt.k4For ≠ some src.toNat ∨ u.opt.k4Swap ≠ none ∨ ceReach u 0 = false)) ∧
    (∃ (cause : Nat) (j : Nat) (s : State), combsLit s = true ∧ (combOf s 4).lit = true ∧ (combOf s 4).failed = false ∧ (cause = 1 ∨ cause = 2) ∧ s.opt.k4For = some j) :=
  ⟨⟨(15 : Nat), ((lit.modOpt fun zz => { zz with combs := [(0, ({ lit := true, locked := true } : Comb)), (3, { lit := true, locked := true }), (4, { lit := true, locked := true })], fibres := [(15, ({ los := false } : Fibre))], links := [({ fibre := 15, link := 7, lanes := [31, 32], inService := true } : PhysLink), ({ fibre := 15, link := 7, lanes := [31, 32], inService := true, tx := false } : PhysLink)] }) : State), by decide +kernel⟩,
   ⟨(15 : Nat), ((lit.modOpt fun zz => { zz with combs := [(0, ({ lit := true, locked := true } : Comb)), (3, { lit := true, locked := true }), (4, { lit := true, locked := true })], links := [({ fibre := 15, link := 7, lanes := [31, 32], inService := true } : PhysLink), ({ fibre := 15, link := 7, lanes := [31, 32], inService := true, tx := false } : PhysLink)] }) : State), by decide +kernel⟩,
   ⟨(15 : Nat), ((lit.modOpt fun zz => { zz with combs := [(0, ({ lit := true, locked := true } : Comb)), (3, { lit := true, locked := true }), (4, { lit := true, locked := true })], fibres := [(15, ({ apr := true, beaconOk := true } : Fibre))] }) : State), by decide +kernel⟩,
   ⟨(15 : Nat), (beaconFrame lit 15 : Bytes), ((lit.modOpt fun zz => { zz with combs := [(0, ({ lit := true, locked := true } : Comb)), (3, { lit := true, locked := true }), (4, { lit := true, locked := true })] }) : State), by decide +kernel⟩,
   ⟨(15 : Nat), (zeros 15 : Bytes), ((lit.modOpt fun zz => { zz with combs := [(0, ({ lit := true, locked := true } : Comb)), (3, { lit := true, locked := true }), (4, { lit := true, locked := true })] }) : State), by decide +kernel⟩,
   ⟨(15 : Nat), by decide +kernel⟩,
   ⟨(3 : Nat), (2 : Nat), ((lit.modOpt fun zz => { zz with combs := [(0, ({ lit := true, locked := true } : Comb)), (3, { lit := true, locked := true }), (4, { lit := true, locked := true })], links := [({ fibre := 15, link := 7, lanes := [31, 32], inService := true } : PhysLink)] }) : State), by decide +kernel⟩,
   ⟨((lit.modOpt fun zz => { zz with combs := [(0, ({ lit := true, locked := true } : Comb)), (3, { lit := true, locked := true }), (4, { lit := true, locked := true })], k4Swap := some { src := 3, cause := 3, back := false } }) : State), ({ src := 3, cause := 3, back := false } : K4Swap), by decide +kernel⟩,
   ⟨((lit.modOpt fun zz => { zz with combs := [(0, ({ lit := true, locked := true } : Comb)), (3, { lit := true, locked := true }), (4, { lit := true, locked := true })], k4Swap := some { src := 3, cause := 3, back := true } }) : State), ({ src := 3, cause := 3, back := true } : K4Swap), by decide +kernel⟩,
   ⟨((lit.modOpt fun zz => { zz with combs := [(0, ({ lit := true, locked := true } : Comb)), (3, { lit := true, locked := true }), (4, { lit := true, locked := true })], k4Swap := some { src := 3, cause := 3, back := true } }) : State), ({ src := 3, cause := 3, back := true } : K4Swap), by decide +kernel⟩,
   ⟨(px : Pkt), (3 : BitVec 8), ((lit.modOpt fun zz => { zz with combs := [(0, ({ lit := true, locked := true } : Comb)), (3, { lit := true, locked := true }), (4, { lit := true, locked := true })], links := [({ fibre := 15, link := 7, lanes := [31, 32], inService := true } : PhysLink)] }) : State), (begun (px : Pkt) 0x040B (le 1 (3 : BitVec 8).toNat ++ le 1 0) ((lit.modOpt fun zz => { zz with combs := [(0, ({ lit := true, locked := true } : Comb)), (3, { lit := true, locked := true }), (4, { lit := true, locked := true })], links := [({ fibre := 15, link := 7, lanes := [31, 32], inService := true } : PhysLink)] }) : State) : State), by decide +kernel⟩,
   ⟨(px : Pkt), (3 : BitVec 8), (lit : State), (begun (px : Pkt) 0x040B (le 1 (3 : BitVec 8).toNat ++ le 1 0) (lit : State) : State), by decide +kernel⟩,
   ⟨(px : Pkt), (3 : BitVec 8), ((lit.modOpt fun zz => { zz with combs := [(0, ({ lit := true, locked := true } : Comb)), (3, { lit := true, locked := true }), (4, { lit := true, locked := true })], k4For := some 3 }) : State), (begun (px : Pkt) 0x040B (le 1 (3 : BitVec 8).toNat ++ le 1 1) ((lit.modOpt fun zz => { zz with combs := [(0, ({ lit := true, locked := true } : Comb)), (3, { lit := true, locked := true }), (4, { lit := true, locked := true })], k4For := some 3 }) : State) : State), by decide +kernel⟩,
   ⟨(px : Pkt), (3 : BitVec 8), (lit : State), (begun (px : Pkt) 0x040B (le 1 (3 : BitVec 8).toNat ++ le 1 1) (lit : State) : State), by decide +kernel⟩,
   ⟨(1 : Nat), (3 : Nat), ((lit.modOpt fun zz => { zz with combs := [(0, ({ lit := true, locked := true } : Comb)), (3, { lit := true, locked := true }), (4, { lit := true, locked := true })], k4For := some 3 }) : State), by decide +kernel⟩⟩

theorem witness_LinesAreAssigned :
    (∃ (f : Nat) (dst : BitVec 12) (n : Nat) (s : State), xnFibre s f = true ∧ 1 ≤ n ∧ n ≤ 8 ∧ dst ∈ (ringOf s f).drop 1 ∧ isAssigner s f = false) ∧
    (∃ (f : Nat) (dst : BitVec 12) (n : Nat) (s : State), xnFibre s f = true ∧ 1 ≤ n ∧ n ≤ 8 ∧ dst ∈ (ringOf s f).drop 1 ∧ isAssigner s f = true) ∧
    (∃ (f : Nat) (b : Bytes) (s : State) (m : XaMsg), xnFibre s f = true ∧ m = readXa b ∧ m.op = 1 ∧ isAssigner s f = false) ∧
    (∃ (f : Nat) (b : Bytes) (s : State) (m : XaMsg), xnFibre s f = true ∧ m = readXa b ∧ m.op = 1 ∧ isAssigner s f = true ∧ twf allLines s.net.xaFree = true ∧ ((s.net.xaAnswers.any fun a => decide (a.src = m.src) && decide (a.txn = m.txn)) = false) ∧ m.src ∈ ringOf s f ∧ m.dst ∈ ringOf s f ∧ (grantable s f (arcSpans s f m.src m.dst)).take m.count.toNat ≠ []) ∧
    (∃ (f : Nat) (b : Bytes) (s : State) (m : XaMsg), xnFibre s f = true ∧ m = readXa b ∧ m.op = 1 ∧ isAssigner s f = true ∧ twf allLines s.net.xaFree = true ∧ ((s.net.xaAnswers.any fun a => decide (a.src = m.src) && decide (a.txn = m.txn)) = false) ∧ m.src ∈ ringOf s f ∧ m.dst ∈ ringOf s f ∧ (grantable s f (arcSpans s f m.src m.dst)).take m.count.toNat = []) ∧
    (∃ (f : Nat) (b : Bytes) (s : State) (m : XaMsg) (a : XaMsg), xnFibre s f = true ∧ m = readXa b ∧ m.op = 1 ∧ isAssigner s f = true ∧ twf allLines s.net.xaFree = true ∧ ((s.net.xaAnswers.find? fun a => decide (a.src = m.src) && decide (a.txn = m.txn) && decide (a.dst = m.dst)) = some a)) ∧
    (∃ (f : Nat) (b : Bytes) (s : State), xnFibre s f = true ∧ (readXa b).op = 2 ∧ lineUse s f (readXa b) ≠ 0) ∧
    (∃ (f : Nat) (b : Bytes) (s : State), xnFibre s f = true ∧ (readXa b).op = 2 ∧ lineUse s f (readXa b) = 0) ∧
    (∃ (f : Nat) (b : Bytes) (s : State), xnFibre s f = true ∧ (readXa b).op = 3 ∧ (readXa b).src = moduleId s) ∧
    (∃ (f : Nat) (b : Bytes) (s : State), xnFibre s f = true ∧ (readXa b).src ≠ moduleId s ∧ (readXa b).op = 3) ∧
    (∃ (f : Nat) (b : Bytes) (s : State), xnFibre s f = true ∧ (readXa b).src ≠ moduleId s ∧ (readXa b).op = 5 ∧ isAssigner s f = false) ∧
    (∃ (f : Nat) (b : Bytes) (s : State), xnFibre s f = true ∧ (readXa b).op = 4 ∧ isAssigner s f = false) ∧
    (∃ (f : Nat) (b : Bytes) (s : State), xnFibre s f = true ∧ (readXa b).op = 4 ∧ isAssigner s f = true ∧ ((s.net.xaAnswers.any fun a => decide (a = (readXa b).ack)) = false) ∧ twf allLines s.net.xaFree = true) ∧
    (∃ (f : Nat) (b : Bytes) (s : State), xnFibre s f = true ∧ (readXa b).op = 5 ∧ (readXa b).src = moduleId s) ∧
    (∃ (txn : BitVec 16) (s : State) (x : XaTxn), ((s.net.xaTxns.find? fun t => decide (t.msg.txn = txn)) = some x) ∧ xnFibre s x.fibre = false) ∧
    (∃ (txn : BitVec 16) (s : State) (x : XaTxn), ((s.net.xaTxns.find? fun t => decide (t.msg.txn = txn)) = some x) ∧ xnFibre s x.fibre = true ∧ x.repeats < 3) ∧
    (∃ (txn : BitVec 16) (s : State) (x : XaTxn), ((s.net.xaTxns.find? fun t => decide (t.msg.txn = txn)) = some x) ∧ xnFibre s x.fibre = true ∧ 3 ≤ x.repeats) ∧
    (∃ (txn : BitVec 16) (s : State) (m : XaMsg) (f : Nat) (k : Nat), ((s.net.xaPend.find? fun p => decide (p.1.txn = txn)) = some (m, f)) ∧ xnFibre s f = true ∧ k ∈ setBits m.lines.toNat 33 ∧ (laneOf s f k).failed = false ∧ lineUse s f m ≠ 0) ∧
    (∃ (f : Nat) (k : Nat) (s : State), xnFibre s f = true ∧ k < 33 ∧ tget 0 s.net.xaLines (laneKey f k) = 1 ∧ pinned s f k = false ∧ twf 0 s.net.xaLines = true ∧ isAssigner s f = false) ∧
    (∃ (f : Nat) (k : Nat) (s : State) (l : PhysLink), xnFibre s f = true ∧ k < 33 ∧ tget 0 s.net.xaLines (laneKey f k) = 1 ∧ pinned s f k = false ∧ twf 0 s.net.xaLines = true ∧ isAssigner s f = true ∧ ((s.opt.links.find? fun l => decide (l.fibre = f) && l.tx && decide (k ∈ l.lanes)) = some l) ∧ (s.net.xaAnswers.all fun a => decide (a.src ≠ moduleId s)) = true ∧ twf allLines s.net.xaFree = true) :=
  ⟨⟨(4 : Nat), (3 : BitVec 12), (8 : Nat), ((ringed 0xFFF) : State), by decide +kernel⟩,
   ⟨(4 : Nat), (3 : BitVec 12), (8 : Nat), ((ringed 1) : State), by decide +kernel⟩,
   ⟨(4 : Nat), (({ op := 1, txn := 7, src := 3, dst := 1, count := 8 } : XaMsg).bytes : Bytes), ((ringed 0xFFF) : State), (readXa (({ op := 1, txn := 7, src := 3, dst := 1, count := 8 } : XaMsg).bytes : Bytes) : XaMsg), by decide +kernel⟩,
   ⟨(4 : Nat), (({ op := 1, txn := 7, src := 3, dst := 1, count := 8 } : XaMsg).bytes : Bytes), ((ringed 1) : State), (readXa (({ op := 1, txn := 7, src := 3, dst := 1, count := 8 } : XaMsg).bytes : Bytes) : XaMsg), by decide +kernel⟩,
   ⟨(4 : Nat), (({ op := 1, txn := 7, src := 3, dst := 1, count := 8 } : XaMsg).bytes : Bytes), (((ringed 1).modNet fun zz => { zz with xaFree := [(4 * 4096 + 3, 0)] }) : State), (readXa (({ op := 1, txn := 7, src := 3, dst := 1, count := 8 } : XaMsg).bytes : Bytes) : XaMsg), by decide +kernel⟩,
   ⟨(4 : Nat), (({ op := 1, txn := 7, src := 3, dst := 1, count := 8 } : XaMsg).bytes : Bytes), (((ringed 1).modNet fun zz => { zz with xaAnswers := [{ op := 2, txn := 7, src := 3, dst := 1 }] }) : State), (readXa (({ op := 1, txn := 7, src := 3, dst := 1, count := 8 } : XaMsg).bytes : Bytes) : XaMsg), ({ op := 2, txn := 7, src := 3, dst := 1 } : XaMsg), by decide +kernel⟩,
   ⟨(4 : Nat), (({ op := 2, txn := 7, src := 3, dst := 1, count := 8 } : XaMsg).bytes : Bytes), ((ringed 1) : State), by decide +kernel⟩,
   ⟨(4 : Nat), (({ op := 2, txn := 7, src := 3, dst := 3 } : XaMsg).bytes : Bytes), ((ringed 0xFFF) : State), by decide +kernel⟩,
   ⟨(4 : Nat), (({ op := 3, txn := 7, src := 0xFFF, dst := 3 } : XaMsg).bytes : Bytes), ((ringed 0xFFF) : State), by decide +kernel⟩,
   ⟨(4 : Nat), (({ op := 3, txn := 7, src := 3, dst := 5 } : XaMsg).bytes : Bytes), ((ringed 0xFFF) : State), by decide +kernel⟩,
   ⟨(4 : Nat), (({ op := 5, txn := 7, src := 3, dst := 5 } : XaMsg).bytes : Bytes), ((ringed 0xFFF) : State), by decide +kernel⟩,
   ⟨(4 : Nat), (({ op := 4, txn := 7, src := 3, dst := 5 } : XaMsg).bytes : Bytes), ((ringed 0xFFF) : State), by decide +kernel⟩,
   ⟨(4 : Nat), (({ op := 4, txn := 7, src := 3, dst := 1, lines := 5 } : XaMsg).bytes : Bytes), (((ringed 1).modNet fun zz => { zz with xaFree := [(4 * 4096 + 3, 0)] }) : State), by decide +kernel⟩,
   ⟨(4 : Nat), (({ op := 5, txn := 7, src := 0xFFF, dst := 3 } : XaMsg).bytes : Bytes), (((ringed 0xFFF).modNet fun zz => { zz with xaTxns := [{ msg := { op := 4, txn := 7 } }] }) : State), by decide +kernel⟩,
   ⟨(7 : BitVec 16), (((ringed 0xFFF).modNet fun zz => { zz with xaTxns := [{ msg := { op := 4, txn := 7 }, repeats := 0 }] }) : State), ({ msg := { op := 4, txn := 7 }, repeats := 0 } : XaTxn), by decide +kernel⟩,
   ⟨(7 : BitVec 16), (((ringed 0xFFF).modNet fun zz => { zz with xaTxns := [{ msg := { op := 4, txn := 7 }, fibre := 4, repeats := 2 }] }) : State), ({ msg := { op := 4, txn := 7 }, fibre := 4, repeats := 2 } : XaTxn), by decide +kernel⟩,
   ⟨(7 : BitVec 16), (((ringed 0xFFF).modNet fun zz => { zz with xaTxns := [{ msg := { op := 4, txn := 7 }, fibre := 4, repeats := 3 }] }) : State), ({ msg := { op := 4, txn := 7 }, fibre := 4, repeats := 3 } : XaTxn), by decide +kernel⟩,
   ⟨(7 : BitVec 16), (((ringed 0xFFF).modNet fun zz => { zz with xaPend := [({ op := 2, txn := 7, src := 0xFFF, dst := 3, lines := 0x100000000 }, 4)] }) : State), ({ op := 2, txn := 7, src := 0xFFF, dst := 3, lines := 0x100000000 } : XaMsg), (4 : Nat), (32 : Nat), by decide +kernel⟩,
   ⟨(4 : Nat), (32 : Nat), (((ringed 0xFFF).modNet fun zz => { zz with xaLines := [(4 * 33 + 32, 1)] }) : State), by decide +kernel⟩,
   ⟨(4 : Nat), (32 : Nat), (({ (ringed 1) with net := { (ringed 1).net with xaLines := [(4 * 33 + 32, 1)] }, opt := { (ringed 1).opt with links := [({ fibre := 4, lanes := [32], peer := 3 } : PhysLink)] } } : State) : State), (({ fibre := 4, lanes := [32], peer := 3 } : PhysLink) : PhysLink), by decide +kernel⟩⟩

theorem witness_FaceplateGroups :
    (∃ (g : Nat) (c : Nat) (s : State), litUp s = true ∧ g < 4 ∧ c < 2 ∧ modeOf s (4 * g) = .faceplate ∧ (cageAt s (2 * g + c)).present = false) ∧
    (∃ (g : Nat) (c : Nat) (s : State), litUp s = true ∧ g < 4 ∧ c < 2 ∧ modeOf s (4 * g) = .faceplate ∧ s.net.cmisDown = false) ∧
    (∃ (g : Nat) (c : Nat) (s : State), litUp s = true ∧ g < 4 ∧ c < 2 ∧ modeOf s (4 * g) = .faceplate ∧ s.net.cmisDown = true) ∧
    (∃ (p : Nat) (s : State), litUp s = true ∧ facePort s p = true ∧ (cageAt s (p / 8)).present = true ∧ (cageAt s (p / 8)).dpStarted = true ∧ (cageAt s (p / 8)).up.getLsbD (p % 8) = false) ∧
    (∃ (p : Nat) (s : State), litUp s = true ∧ facePort s p = true ∧ (cageAt s (p / 8)).up.getLsbD (p % 8) = true ∧ twf {} s.net.cages = true) ∧
    (∃ (p : Nat) (frame : Bytes) (s : State), litUp s = true ∧ facePort s p = true ∧ (cageAt s (p / 8)).up.getLsbD (p % 8) = true ∧ fcsOk frame = false) ∧
    (∃ (p : Nat) (frame : Bytes) (s : State), litUp s = true ∧ facePort s p = true ∧ (cageAt s (p / 8)).up.getLsbD (p % 8) = true ∧ fcsOk frame = true ∧ etherType frame = 0x88F7 ∧ (p % 8 ≠ 0 ∨ frame.take 6 ≠ ptpMac)) ∧
    (∃ (p : Nat) (frame : Bytes) (s : State), litUp s = true ∧ facePort s p = true ∧ (cageAt s (p / 8)).up.getLsbD (p % 8) = true ∧ fcsOk frame = true ∧ etherType frame ≠ 0x88F7 ∧ (etherType frame ≠ (tget 0x88B5 s.net.etherType (p / 16)).toNat ∨ (frameBody frame).length < 1056)) ∧
    (∃ (p : Nat) (frame : Bytes) (s : State), litUp s = true ∧ facePort s p = true ∧ (cageAt s (p / 8)).up.getLsbD (p % 8) = true ∧ fcsOk frame = true ∧ etherType frame ≠ 0x88F7 ∧ etherType frame = (tget 0x88B5 s.net.etherType (p / 16)).toNat ∧ 1056 ≤ (frameBody frame).length ∧ cellBad 0 [] ((frameBody frame).take 1056) = true) ∧
    (∃ (p : Nat) (frame : Bytes) (s : State), litUp s = true ∧ facePort s p = true ∧ (cageAt s (p / 8)).up.getLsbD (p % 8) = true ∧ fcsOk frame = true ∧ etherType frame ≠ 0x88F7 ∧ etherType frame = (tget 0x88B5 s.net.etherType (p / 16)).toNat ∧ 1056 ≤ (frameBody frame).length ∧ cellBad 0 [] ((frameBody frame).take 1056) = false ∧ cellType ((frameBody frame).take 1056) ≠ 2) ∧
    (∃ (p : Nat) (frame : Bytes) (s : State), litUp s = true ∧ facePort s p = true ∧ (cageAt s (p / 8)).up.getLsbD (p % 8) = true ∧ fcsOk frame = true ∧ etherType frame ≠ 0x88F7 ∧ etherType frame = (tget 0x88B5 s.net.etherType (p / 16)).toNat ∧ 1056 ≤ (frameBody frame).length ∧ cellBad 0 [] ((frameBody frame).take 1056) = false ∧ cellType ((frameBody frame).take 1056) = 2 ∧ physUp s (portFibre p) (portLinkNo p) false = true) ∧
    (∃ (p : Pkt) (group : BitVec 8) (cage : BitVec 8) (ports : BitVec 8) (eg : BitVec 32) (ing : BitVec 32) (s : State) (u : State), bodyState p 0x0409 (le 1 group.toNat ++ le 1 cage.toNat ++ le 1 ports.toNat ++ le 4 eg.toNat ++ le 4 ing.toNat) s = some u ∧ group.toNat < 4 ∧ cage.toNat < 2 ∧ ports.toNat < 2 ∧ ceReach u 0 = true ∧ twf {} u.net.cages = true) ∧
    (∃ (p : Pkt) (group : BitVec 8) (cage : BitVec 8) (buf : Buf) (msg : Bytes) (s : State) (u : State), bodyState p 0x040A (le 1 group.toNat ++ le 1 cage.toNat ++ le 2 msg.length ++ buf.bytes ++ msg) s = some u ∧ group.toNat < 4 ∧ cage.toNat < 2 ∧ litUp u = true ∧ modeOf u ((2 * group.toNat + cage.toNat) / 2 * 4) = .faceplate ∧ (cageAt u (2 * group.toNat + cage.toNat)).present = true ∧ u.net.cmisDown = false ∧ ceReach u 0 = true) ∧
    (∃ (p : Pkt) (group : BitVec 8) (cage : BitVec 8) (buf : Buf) (msg : Bytes) (s : State) (u : State), bodyState p 0x040A (le 1 group.toNat ++ le 1 cage.toNat ++ le 2 msg.length ++ buf.bytes ++ msg) s = some u ∧ group.toNat < 4 ∧ cage.toNat < 2 ∧ (litUp u = false ∨ modeOf u ((2 * group.toNat + cage.toNat) / 2 * 4) ≠ .faceplate ∨ (cageAt u (2 * group.toNat + cage.toNat)).present = false ∨ u.net.cmisDown = true ∨ ceReach u 0 = false)) ∧
    (∃ (p : Pkt) (group : BitVec 8) (mode : BitVec 8) (ether : BitVec 16) (s : State) (u : State), bodyState p 0x0408 (le 1 group.toNat ++ le 1 mode.toNat ++ le 2 ether.toNat) s = some u ∧ group.toNat < 4 ∧ mode.toNat < 3 ∧ (imageLoaded u = true ∨ groupPaths u group.toNat = true ∨ ceReach u 0 = false ∨ (mode = 2 ∧ u.net.cmisDown = true))) ∧
    (∃ (p : Pkt) (group : BitVec 8) (mode : BitVec 8) (ether : BitVec 16) (s : State) (u : State), bodyState p 0x0408 (le 1 group.toNat ++ le 1 mode.toNat ++ le 2 ether.toNat) s = some u ∧ group.toNat < 4 ∧ mode.toNat < 3 ∧ imageLoaded u = false ∧ groupPaths u group.toNat = false ∧ ceReach u 0 = true ∧ (mode ≠ 2 ∨ u.net.cmisDown = false) ∧ twf {} u.opt.fibres = true ∧ twf 0x88B5 u.net.etherType = true) :=
  ⟨⟨(3 : Nat), (1 : Nat), (((lit.modOpt fun zz => { zz with fibres := [(12, ({ mode := .faceplate } : Fibre))] }).modNet fun zz => { zz with cages := [(7, ({ eight := true } : Cage))] }) : State), by decide +kernel⟩,
   ⟨(3 : Nat), (1 : Nat), (((lit.modOpt fun zz => { zz with fibres := [(12, ({ mode := .faceplate } : Fibre))] }).modNet fun zz => { zz with cages := [(7, ({ eight := true } : Cage))] }) : State), by decide +kernel⟩,
   ⟨(3 : Nat), (1 : Nat), ((((lit.modOpt fun zz => { zz with fibres := [(12, ({ mode := .faceplate } : Fibre))] }).modNet fun zz => { zz with cages := [(7, ({ eight := true } : Cage))] }).modNet fun zz => { zz with cmisDown := true }) : State), by decide +kernel⟩,
   ⟨(63 : Nat), (((lit.modOpt fun zz => { zz with fibres := [(12, ({ mode := .faceplate } : Fibre))] }).modNet fun zz => { zz with cages := [(7, ({ eight := true, present := true, dpStarted := true } : Cage))] }) : State), by decide +kernel⟩,
   ⟨(63 : Nat), (((lit.modOpt fun zz => { zz with fibres := [(12, ({ mode := .faceplate } : Fibre))] }).modNet fun zz => { zz with cages := [(7, ({ eight := true, up := 0x80 } : Cage))] }) : State), by decide +kernel⟩,
   ⟨(63 : Nat), (zeros 64 : Bytes), (((lit.modOpt fun zz => { zz with fibres := [(12, ({ mode := .faceplate } : Fibre))] }).modNet fun zz => { zz with cages := [(7, ({ eight := true, up := 0x80 } : Cage))] }) : State), by decide +kernel⟩,
   ⟨(63 : Nat), (frame 0x88F7 (zeros 46) : Bytes), (((lit.modOpt fun zz => { zz with fibres := [(12, ({ mode := .faceplate } : Fibre))] }).modNet fun zz => { zz with cages := [(7, ({ eight := true, up := 0x80 } : Cage))] }) : State), by decide +kernel⟩,
   ⟨(63 : Nat), (frame 0x88B6 (zeros 46) : Bytes), (((lit.modOpt fun zz => { zz with fibres := [(12, ({ mode := .faceplate } : Fibre))] }).modNet fun zz => { zz with cages := [(7, ({ eight := true, up := 0x80 } : Cage))] }) : State), by decide +kernel⟩,
   ⟨(63 : Nat), (frame 0x88B5 (zeros 1056) : Bytes), (((lit.modOpt fun zz => { zz with fibres := [(12, ({ mode := .faceplate } : Fibre))] }).modNet fun zz => { zz with cages := [(7, ({ eight := true, up := 0x80 } : Cage))] }) : State), by decide +kernel⟩,
   ⟨(63 : Nat), (frame 0x88B5 (mkCell 0 []) : Bytes), (((lit.modOpt fun zz => { zz with fibres := [(12, ({ mode := .faceplate } : Fibre))] }).modNet fun zz => { zz with cages := [(7, ({ eight := true, up := 0x80 } : Cage))] }) : State), by decide +kernel⟩,
   ⟨(63 : Nat), (frame 0x88B5 (mkCell (2 * 2 ^ 222) []) : Bytes), (((lit.modOpt fun zz => { zz with fibres := [(12, ({ mode := .faceplate } : Fibre))], links := [({ fibre := 15, link := 3, tx := false, inService := true } : PhysLink)] }).modNet fun zz => { zz with cages := [(7, ({ eight := true, up := 0x80 } : Cage))] }) : State), by decide +kernel⟩,
   ⟨(pk : Pkt), (3 : BitVec 8), (1 : BitVec 8), (1 : BitVec 8), (7 : BitVec 32), (0 : BitVec 32), (lit : State), (begun (pk : Pkt) 0x0409 (le 1 (3 : BitVec 8).toNat ++ le 1 (1 : BitVec 8).toNat ++ le 1 (1 : BitVec 8).toNat ++ le 4 (7 : BitVec 32).toNat ++ le 4 (0 : BitVec 32).toNat) (lit : State) : State), by decide +kernel⟩,
   ⟨(px : Pkt), (3 : BitVec 8), (1 : BitVec 8), ({ addr := 0x1000, len := 0xFFFFFFFF } : Buf), ([1] : Bytes), (((lit.modOpt fun zz => { zz with fibres := [(12, ({ mode := .faceplate } : Fibre))] }).modNet fun zz => { zz with cages := [(7, ({ eight := true, present := true } : Cage))] }) : State), (begun (px : Pkt) 0x040A (le 1 (3 : BitVec 8).toNat ++ le 1 (1 : BitVec 8).toNat ++ le 2 ([1] : Bytes).length ++ ({ addr := 0x1000, len := 0xFFFFFFFF } : Buf).bytes ++ ([1] : Bytes)) (((lit.modOpt fun zz => { zz with fibres := [(12, ({ mode := .faceplate } : Fibre))] }).modNet fun zz => { zz with cages := [(7, ({ eight := true, present := true } : Cage))] }) : State) : State), by decide +kernel⟩,
   ⟨(px : Pkt), (3 : BitVec 8), (1 : BitVec 8), ({ addr := 0x1000, len := 0xFFFFFFFF } : Buf), ([1] : Bytes), (awake : State), (begun (px : Pkt) 0x040A (le 1 (3 : BitVec 8).toNat ++ le 1 (1 : BitVec 8).toNat ++ le 2 ([1] : Bytes).length ++ ({ addr := 0x1000, len := 0xFFFFFFFF } : Buf).bytes ++ ([1] : Bytes)) (awake : State) : State), by decide +kernel⟩,
   ⟨(pk : Pkt), (3 : BitVec 8), (2 : BitVec 8), (0 : BitVec 16), ((lit.modJob fun zz => { zz with st := .loaded }) : State), (begun (pk : Pkt) 0x0408 (le 1 (3 : BitVec 8).toNat ++ le 1 (2 : BitVec 8).toNat ++ le 2 (0 : BitVec 16).toNat) ((lit.modJob fun zz => { zz with st := .loaded }) : State) : State), by decide +kernel⟩,
   ⟨(pk : Pkt), (3 : BitVec 8), (2 : BitVec 8), (0x88B6 : BitVec 16), (lit : State), (begun (pk : Pkt) 0x0408 (le 1 (3 : BitVec 8).toNat ++ le 1 (2 : BitVec 8).toNat ++ le 2 (0x88B6 : BitVec 16).toNat) (lit : State) : State), by decide +kernel⟩⟩

theorem witness_PlansOfTheHost :
    (∃ (p : Pkt) (plan : Bytes) (s : State) (u : State), bodyState p 0x0401 plan s = some u ∧ (u.sw.plan.isSome = true ∨ litUp u = false ∨ ceReach u 0 = false)) ∧
    (∃ (p : Pkt) (plan : Bytes) (s : State) (u : State), bodyState p 0x0401 plan s = some u ∧ u.sw.plan = none ∧ litUp u = true ∧ ceReach u 0 = true ∧ u.tm.valid = false) ∧
    (∃ (p : Pkt) (plan : Bytes) (s : State) (u : State), bodyState p 0x0401 plan s = some u ∧ u.sw.plan = none ∧ litUp u = true ∧ ceReach u 0 = true ∧ u.tm.valid = true ∧ planCheck false (readPlan plan) u ≠ 0) ∧
    (∃ (p : Pkt) (plan : Bytes) (s : State) (u : State), bodyState p 0x0401 plan s = some u ∧ u.sw.plan = none ∧ litUp u = true ∧ ceReach u 0 = true ∧ u.tm.valid = true ∧ planCheck false (readPlan plan) u = 0) ∧
    (∃ (p : Pkt) (num : BitVec 32) (s : State) (u : State) (r : PlanRun) (ref : PktRef), bodyState p 0x0402 (le 4 num.toNat) s = some u ∧ u.sw.plan = some r ∧ r.plan.planId = num ∧ r.phase = .waiting ∧ 64000000 < timeDiff r.plan.act u.tm.ft ∧ r.pkt = some ref) ∧
    (∃ (p : Pkt) (num : BitVec 32) (s : State) (u : State) (r : PlanRun), bodyState p 0x0402 (le 4 num.toNat) s = some u ∧ u.sw.plan = some r ∧ (r.plan.planId ≠ num ∨ r.phase = .active ∨ timeDiff r.plan.act u.tm.ft ≤ 64000000)) ∧
    (∃ (p : Pkt) (num : BitVec 32) (s : State) (u : State), bodyState p 0x0402 (le 4 num.toNat) s = some u ∧ u.sw.plan = none) ∧
    (∃ (s : State) (r : PlanRun), litUp s = true ∧ ceReach s 0 = true ∧ s.sw.plan = some r ∧ r.phase = .waiting ∧ ((planSets s r.plan.mode.toNat (liveEnts s r.plan false)).all fun a => (planSets s r.plan.mode.toNat (liveEnts s r.plan false)).all fun b => !a.clash b) = true) ∧
    (∃ (s : State), s.sw.plan = none) ∧
    (∃ (s : State) (r : PlanRun) (ref : PktRef), litUp s = true ∧ s.sw.fbRun = none ∧ s.sw.plan = some r ∧ r.phase = .active ∧ r.pkt = some ref ∧ s.sw.fbNext = [] ∧ ((s.opt.links.all fun l => !(decide ((l.fibre, l.link.toNat, l.tx) ∈ r.links) && !l.inService && decide (l.verified = none))) = true)) :=
  ⟨⟨(pk : Pkt), (le 32 (100000000 * 2 ^ 192 + 9 * 2 ^ 160 + 0xFFF * 2 ^ 148 + 0 * 2 ^ 130) : Bytes), (awake : State), (begun (pk : Pkt) 0x0401 (le 32 (100000000 * 2 ^ 192 + 9 * 2 ^ 160 + 0xFFF * 2 ^ 148 + 0 * 2 ^ 130) : Bytes) (awake : State) : State), by decide +kernel⟩,
   ⟨(pk : Pkt), (le 32 (100000000 * 2 ^ 192 + 9 * 2 ^ 160 + 0xFFF * 2 ^ 148 + 0 * 2 ^ 130) : Bytes), (lit : State), (begun (pk : Pkt) 0x0401 (le 32 (100000000 * 2 ^ 192 + 9 * 2 ^ 160 + 0xFFF * 2 ^ 148 + 0 * 2 ^ 130) : Bytes) (lit : State) : State), by decide +kernel⟩,
   ⟨(pk : Pkt), (le 32 (1 * 2 ^ 192 + 9 * 2 ^ 160 + 0xFFF * 2 ^ 148 + 0 * 2 ^ 130) : Bytes), ((lit.modTm fun zz => { zz with valid := true }) : State), (begun (pk : Pkt) 0x0401 (le 32 (1 * 2 ^ 192 + 9 * 2 ^ 160 + 0xFFF * 2 ^ 148 + 0 * 2 ^ 130) : Bytes) ((lit.modTm fun zz => { zz with valid := true }) : State) : State), by decide +kernel⟩,
   ⟨(pk : Pkt), (le 32 (100000000 * 2 ^ 192 + 9 * 2 ^ 160 + 0xFFF * 2 ^ 148 + 0 * 2 ^ 130) : Bytes), ((lit.modTm fun zz => { zz with valid := true }) : State), (begun (pk : Pkt) 0x0401 (le 32 (100000000 * 2 ^ 192 + 9 * 2 ^ 160 + 0xFFF * 2 ^ 148 + 0 * 2 ^ 130) : Bytes) ((lit.modTm fun zz => { zz with valid := true }) : State) : State), by decide +kernel⟩,
   ⟨(pk : Pkt), (9 : BitVec 32), ((lit.modSw fun zz => { zz with plan := some ({ plan := { planId := 9, act := 100000000 }, pkt := some {} } : PlanRun) }) : State), (begun (pk : Pkt) 0x0402 (le 4 (9 : BitVec 32).toNat) ((lit.modSw fun zz => { zz with plan := some ({ plan := { planId := 9, act := 100000000 }, pkt := some {} } : PlanRun) }) : State) : State), (({ plan := { planId := 9, act := 100000000 }, pkt := some {} } : PlanRun) : PlanRun), ({} : PktRef), by decide +kernel⟩,
   ⟨(pk : Pkt), (8 : BitVec 32), ((lit.modSw fun zz => { zz with plan := some ({ plan := { planId := 9, act := 100000000 }, pkt := some {} } : PlanRun) }) : State), (begun (pk : Pkt) 0x0402 (le 4 (8 : BitVec 32).toNat) ((lit.modSw fun zz => { zz with plan := some ({ plan := { planId := 9, act := 100000000 }, pkt := some {} } : PlanRun) }) : State) : State), (({ plan := { planId := 9, act := 100000000 }, pkt := some {} } : PlanRun) : PlanRun), by decide +kernel⟩,
   ⟨(pk : Pkt), (8 : BitVec 32), (lit : State), (begun (pk : Pkt) 0x0402 (le 4 (8 : BitVec 32).toNat) (lit : State) : State), by decide +kernel⟩,
   ⟨(((lit.modTm fun zz => { zz with valid := true }).modSw fun zz => { zz with plan := some ({ plan := { planId := 9, act := 100000000, nent := 1, ents := [{ kind := 2, outFibre := 5, tag := 6, lines := 0xF, peer := 3 }] }, pkt := some {} } : PlanRun) }) : State), (({ plan := { planId := 9, act := 100000000, nent := 1, ents := [{ kind := 2, outFibre := 5, tag := 6, lines := 0xF, peer := 3 }] }, pkt := some {} } : PlanRun) : PlanRun), by decide +kernel⟩,
   ⟨(lit : State), by decide +kernel⟩,
   ⟨(((lit.modSw fun zz => { zz with plan := some ({ plan := { planId := 9 }, phase := .active, pkt := some {}, links := [(5, 0, true)], okLinks := 1 } : PlanRun) }).modOpt fun zz => { zz with links := [({ fibre := 5, lanes := [0, 1, 2, 3], inService := true } : PhysLink)] }) : State), (({ plan := { planId := 9 }, phase := .active, pkt := some {}, links := [(5, 0, true)], okLinks := 1 } : PlanRun) : PlanRun), ({} : PktRef), by decide +kernel⟩⟩

theorem witness_RingsAndVerification :
    (∃ (line : Nat) (inp : Nat) (out : Nat) (count : Nat) (spaced : Bool) (s : State) (x : Xp), litUp s = true ∧ out ≠ 14 ∧ out ≠ 15 ∧ ((s.sw.xps.find? fun x => decide (x.line = line) && decide (x.inp = inp) && decide (x.out = out) && decide (x.st = .stepping)) = some x) ∧ count = lockCount line ∧ spaced = true) ∧
    (∃ (line : Nat) (inp : Nat) (out : Nat) (count : Nat) (spaced : Bool) (s : State) (x : Xp), litUp s = true ∧ out ≠ 14 ∧ out ≠ 15 ∧ ((s.sw.xps.find? fun x => decide (x.line = line) && decide (x.inp = inp) && decide (x.out = out) && decide (x.st = .stepping)) = some x) ∧ (count ≠ lockCount line ∨ spaced = false) ∧ x.relocks < 2) ∧
    (∃ (line : Nat) (inp : Nat) (out : Nat) (count : Nat) (spaced : Bool) (s : State) (x : Xp), litUp s = true ∧ out ≠ 14 ∧ out ≠ 15 ∧ ((s.sw.xps.find? fun x => decide (x.line = line) && decide (x.inp = inp) && decide (x.out = out) && decide (x.st = .stepping)) = some x) ∧ (count ≠ lockCount line ∨ spaced = false) ∧ 2 ≤ x.relocks) ∧
    (∃ (f : Nat) (x : Nat) (count : Nat) (spaced : Bool) (s : State), litUp s = true ∧ f < 16 ∧ x < 33 ∧ twf 0 s.ce.rings = true ∧ count = lockCount x ∧ spaced = true) ∧
    (∃ (f : Nat) (x : Nat) (count : Nat) (spaced : Bool) (s : State), litUp s = true ∧ f < 16 ∧ x < 33 ∧ twf 0 s.ce.rings = true ∧ (count ≠ lockCount x ∨ spaced = false) ∧ tget 0 s.ce.rings (photonKey true f x) < 2) ∧
    (∃ (f : Nat) (x : Nat) (count : Nat) (spaced : Bool) (s : State), litUp s = true ∧ f < 16 ∧ x < 33 ∧ twf 0 s.ce.rings = true ∧ (count ≠ lockCount x ∨ spaced = false) ∧ 2 ≤ tget 0 s.ce.rings (photonKey false f x) ∧ (laneOf s f x).failed = false) ∧
    (∃ (fibre : Nat) (link : Nat) (skew : Nat) (s : State) (l : PhysLink), litUp s = true ∧ physLink s fibre link false = some l ∧ l.inService = false ∧ l.locked = false ∧ linkLit s l = true ∧ (fibreOf s fibre).los = false ∧ skew ≤ 64) ∧
    (∃ (fibre : Nat) (link : Nat) (skew : Nat) (s : State) (l : PhysLink), litUp s = true ∧ physLink s fibre link false = some l ∧ l.inService = false ∧ l.locked = false ∧ linkLit s l = true ∧ (fibreOf s fibre).los = false ∧ 64 < skew) ∧
    (∃ (fibre : Nat) (link : Nat) (tx : Bool) (tags : List Nat) (s : State) (l : PhysLink), litUp s = true ∧ physLink s fibre link tx = some l ∧ l.inService = false ∧ l.verified = none ∧ (if tx then mayLight s fibre else l.locked) = true ∧ linkLit s l = true ∧ wrongTags l tags = []) ∧
    (∃ (fibre : Nat) (link : Nat) (tx : Bool) (tags : List Nat) (s : State) (l : PhysLink), litUp s = true ∧ physLink s fibre link tx = some l ∧ l.inService = false ∧ l.verified = none ∧ (if tx then mayLight s fibre else l.locked) = true ∧ linkLit s l = true ∧ wrongTags l tags ≠ [] ∧ (tx = true ∨ (s.sw.fallbacks.all fun e => decide (e.2.sig.toNat / 512 ≠ (sigOf 5 fibre link).toNat / 512)) = true)) ∧
    (∃ (port : Nat) (b : Bytes) (s : State) (u : State), litUp s = true ∧ (readNotice b).kind = 3 ∧ takeNotice (readNotice b) port s = some (true, u)) ∧
    (∃ (s : State), heaterPower s ≤ allotment s) ∧
    (∃ (p : Pkt) (line : BitVec 8) (inp : BitVec 8) (out : BitVec 8) (s : State) (u : State) (x : Xp), x = { line := line.toNat, inp := inp.toNat, out := out.toNat, st := .waiting } ∧ xpOk line.toNat inp.toNat out.toNat = true ∧ bodyState p 0x040C (le 1 line.toNat ++ le 1 inp.toNat ++ le 1 out.toNat ++ le 1 1) s = some u ∧ xpAllowed x u = false) ∧
    (∃ (p : Pkt) (line : BitVec 8) (inp : BitVec 8) (out : BitVec 8) (s : State) (u : State) (x : Xp), x = { line := line.toNat, inp := inp.toNat, out := out.toNat, st := .waiting } ∧ xpOk line.toNat inp.toNat out.toNat = true ∧ bodyState p 0x040C (le 1 line.toNat ++ le 1 inp.toNat ++ le 1 out.toNat ++ le 1 1) s = some u ∧ (u.sw.xps.any fun y => y.clash x && decide (y.st ≠ .failed)) = true) ∧
    (∃ (p : Pkt) (line : BitVec 8) (inp : BitVec 8) (out : BitVec 8) (s : State) (u : State) (x : Xp), x = { line := line.toNat, inp := inp.toNat, out := out.toNat, st := .waiting } ∧ xpOk line.toNat inp.toNat out.toNat = true ∧ bodyState p 0x040C (le 1 line.toNat ++ le 1 inp.toNat ++ le 1 out.toNat ++ le 1 1) s = some u ∧ xpAllowed x u = true ∧ (u.sw.xps.any fun y => y.clash x && decide (y.st ≠ .failed)) = false) ∧
    (∃ (p : Pkt) (line : BitVec 8) (inp : BitVec 8) (out : BitVec 8) (s : State) (u : State) (x : Xp), x = { line := line.toNat, inp := inp.toNat, out := out.toNat, st := .waiting } ∧ xpOk line.toNat inp.toNat out.toNat = true ∧ bodyState p 0x040C (le 1 line.toNat ++ le 1 inp.toNat ++ le 1 out.toNat ++ le 1 0) s = some u ∧ xpAllowed x u = true) :=
  ⟨⟨(31 : Nat), (16 : Nat), (5 : Nat), (3 : Nat), (true : Bool), ((lit.modSw fun zz => { zz with xps := [({ line := 31, inp := 16, out := 5, tag := 6, st := .stepping } : Xp)] }) : State), (({ line := 31, inp := 16, out := 5, tag := 6, st := .stepping } : Xp) : Xp), by decide +kernel⟩,
   ⟨(31 : Nat), (16 : Nat), (5 : Nat), (2 : Nat), (true : Bool), ((lit.modSw fun zz => { zz with xps := [({ line := 31, inp := 16, out := 5, tag := 6, st := .stepping } : Xp)] }) : State), (({ line := 31, inp := 16, out := 5, tag := 6, st := .stepping } : Xp) : Xp), by decide +kernel⟩,
   ⟨(31 : Nat), (16 : Nat), (5 : Nat), (2 : Nat), (true : Bool), ((lit.modSw fun zz => { zz with xps := [({ line := 31, inp := 16, out := 5, tag := 6, st := .stepping, relocks := 2 } : Xp)] }) : State), (({ line := 31, inp := 16, out := 5, tag := 6, st := .stepping, relocks := 2 } : Xp) : Xp), by decide +kernel⟩,
   ⟨(15 : Nat), (32 : Nat), (2 : Nat), (true : Bool), ((lit.modCe fun zz => { zz with rings := [(528 + 15 * 33 + 32, 1)] }) : State), by decide +kernel⟩,
   ⟨(0 : Nat), (0 : Nat), (0 : Nat), (false : Bool), (lit : State), by decide +kernel⟩,
   ⟨(15 : Nat), (32 : Nat), (3 : Nat), (true : Bool), ((lit.modCe fun zz => { zz with rings := [(15 * 33 + 32, 2)] }) : State), by decide +kernel⟩,
   ⟨(5 : Nat), (0 : Nat), (64 : Nat), (((lit.modSw fun zz => { zz with xps := [({ line := 31, inp := 5, out := 16, tag := 6 } : Xp)] }).modOpt fun zz => { zz with fibres := [(5, ({ los := false } : Fibre))], links := [({ fibre := 5, lanes := [31], tx := false, tag := 6 } : PhysLink)] }) : State), (({ fibre := 5, lanes := [31], tx := false, tag := 6 } : PhysLink) : PhysLink), by decide +kernel⟩,
   ⟨(5 : Nat), (0 : Nat), (65 : Nat), (((lit.modSw fun zz => { zz with xps := [({ line := 31, inp := 5, out := 16, tag := 6 } : Xp)] }).modOpt fun zz => { zz with fibres := [(5, ({ los := false } : Fibre))], links := [({ fibre := 5, lanes := [31], tx := false, tag := 6 } : PhysLink)] }) : State), (({ fibre := 5, lanes := [31], tx := false, tag := 6 } : PhysLink) : PhysLink), by decide +kernel⟩,
   ⟨(5 : Nat), (0 : Nat), (true : Bool), ([laneTag 6 31] : List Nat), (((lit.modSw fun zz => { zz with xps := [({ line := 31, inp := 16, out := 5, tag := 6 } : Xp)] }).modOpt fun zz => { zz with links := [({ fibre := 5, lanes := [31], tx := true, tag := 6 } : PhysLink)] }) : State), (({ fibre := 5, lanes := [31], tx := true, tag := 6 } : PhysLink) : PhysLink), by decide +kernel⟩,
   ⟨(5 : Nat), (0 : Nat), (false : Bool), ([laneTag 6 30] : List Nat), (((lit.modSw fun zz => { zz with xps := [({ line := 31, inp := 5, out := 16, tag := 6 } : Xp)] }).modOpt fun zz => { zz with links := [({ fibre := 5, lanes := [31], tx := false, tag := 6, locked := true } : PhysLink)] }) : State), (({ fibre := 5, lanes := [31], tx := false, tag := 6, locked := true } : PhysLink) : PhysLink), by decide +kernel⟩,
   ⟨(0 : Nat), ((zeros 3 ++ [0x80] ++ le 4 7 ++ le 8 216260743195000833 ++ le 4 (31 * 2 ^ 16 + 6)) : Bytes), ((lit.modSw fun zz => { zz with xps := [({ line := 31, inp := 16, out := 5, tag := 6, st := .held } : Xp)] }) : State), (((takeNotice (readNotice ((zeros 3 ++ [0x80] ++ le 4 7 ++ le 8 216260743195000833 ++ le 4 (31 * 2 ^ 16 + 6)) : Bytes)) (0 : Nat) ((lit.modSw fun zz => { zz with xps := [({ line := 31, inp := 16, out := 5, tag := 6, st := .held } : Xp)] }) : State)).getD (true, lit)).2 : State), by decide +kernel⟩,
   ⟨(lit : State), (by have h : heaterBase ≤ 752 := Nat.min_le_right _ _; show heaterBase + 4 * 0 + 14 * 0 ≤ 8000; omega)⟩,
   ⟨(px : Pkt), (31 : BitVec 8), (16 : BitVec 8), (5 : BitVec 8), ((lit.modPfx fun zz => { zz with noAccepted := true }) : State), (begun (px : Pkt) 0x040C (le 1 (31 : BitVec 8).toNat ++ le 1 (16 : BitVec 8).toNat ++ le 1 (5 : BitVec 8).toNat ++ le 1 1) ((lit.modPfx fun zz => { zz with noAccepted := true }) : State) : State), ({ line := (31 : BitVec 8).toNat, inp := (16 : BitVec 8).toNat, out := (5 : BitVec 8).toNat, st := .waiting } : Xp), by decide +kernel⟩,
   ⟨(px : Pkt), (31 : BitVec 8), (16 : BitVec 8), (5 : BitVec 8), ((lit.modSw fun zz => { zz with xps := [({ line := 31, inp := 16, out := 5, st := .held } : Xp), { line := 31, inp := 4, out := 5 }] }) : State), (begun (px : Pkt) 0x040C (le 1 (31 : BitVec 8).toNat ++ le 1 (16 : BitVec 8).toNat ++ le 1 (5 : BitVec 8).toNat ++ le 1 1) ((lit.modSw fun zz => { zz with xps := [({ line := 31, inp := 16, out := 5, st := .held } : Xp), { line := 31, inp := 4, out := 5 }] }) : State) : State), ({ line := (31 : BitVec 8).toNat, inp := (16 : BitVec 8).toNat, out := (5 : BitVec 8).toNat, st := .waiting } : Xp), by decide +kernel⟩,
   ⟨(px : Pkt), (31 : BitVec 8), (16 : BitVec 8), (5 : BitVec 8), (lit : State), (begun (px : Pkt) 0x040C (le 1 (31 : BitVec 8).toNat ++ le 1 (16 : BitVec 8).toNat ++ le 1 (5 : BitVec 8).toNat ++ le 1 1) (lit : State) : State), ({ line := (31 : BitVec 8).toNat, inp := (16 : BitVec 8).toNat, out := (5 : BitVec 8).toNat, st := .waiting } : Xp), by decide +kernel⟩,
   ⟨(px : Pkt), (31 : BitVec 8), (16 : BitVec 8), (5 : BitVec 8), ((lit.modSw fun zz => { zz with xps := [({ line := 31, inp := 16, out := 5, tag := 6 } : Xp)] }) : State), (begun (px : Pkt) 0x040C (le 1 (31 : BitVec 8).toNat ++ le 1 (16 : BitVec 8).toNat ++ le 1 (5 : BitVec 8).toNat ++ le 1 0) ((lit.modSw fun zz => { zz with xps := [({ line := 31, inp := 16, out := 5, tag := 6 } : Xp)] }) : State) : State), ({ line := (31 : BitVec 8).toNat, inp := (16 : BitVec 8).toNat, out := (5 : BitVec 8).toNat, st := .waiting } : Xp), by decide +kernel⟩⟩

theorem witness_FallbackPlans :
    (∃ (p : Pkt) (index : BitVec 8) (sig : BitVec 32) (plan : Bytes) (s : State) (u : State), bodyState p 0x0403 (le 1 index.toNat ++ le 4 sig.toNat ++ plan) s = some u ∧ index.toNat < 16 ∧ 1 ≤ fld sig.toNat 28 4 ∧ fld sig.toNat 28 4 ≤ 5 ∧ planCheck true (readPlan plan) u = 0) ∧
    (∃ (p : Pkt) (index : BitVec 8) (sig : BitVec 32) (plan : Bytes) (s : State) (u : State), bodyState p 0x0403 (le 1 index.toNat ++ le 4 sig.toNat ++ plan) s = some u ∧ index.toNat < 16 ∧ 1 ≤ fld sig.toNat 28 4 ∧ fld sig.toNat 28 4 ≤ 5 ∧ planCheck true (readPlan plan) u ≠ 0) ∧
    (∃ (p : Pkt) (index : BitVec 8) (sig : BitVec 32) (plan : Bytes) (s : State) (u : State), bodyState p 0x0403 (le 1 index.toNat ++ le 4 sig.toNat ++ plan) s = some u ∧ (16 ≤ index.toNat ∨ fld sig.toNat 28 4 = 0 ∨ 5 < fld sig.toNat 28 4)) ∧
    (∃ (p : Pkt) (mask : BitVec 16) (s : State) (u : State), bodyState p 0x0404 (le 2 mask.toNat ++ le 1 1) s = some u) ∧
    (∃ (p : Pkt) (mask : BitVec 16) (s : State) (u : State), bodyState p 0x0404 (le 2 mask.toNat ++ le 1 1) s = some u) ∧
    (∃ (p : Pkt) (mask : BitVec 16) (s : State) (u : State), bodyState p 0x0404 (le 2 mask.toNat ++ le 1 0) s = some u) ∧
    (∃ (p : Pkt) (index : BitVec 8) (buf : Buf) (s : State) (u : State) (e : Nat × Fallback), bodyState p 0x0405 (le 1 index.toNat ++ buf.bytes) s = some u ∧ index.toNat < 16 ∧ ((u.sw.fallbacks.find? fun e => decide (e.1 = index.toNat)) = some e)) ∧
    (∃ (p : Pkt) (index : BitVec 8) (buf : Buf) (s : State) (u : State), bodyState p 0x0405 (le 1 index.toNat ++ buf.bytes) s = some u ∧ index.toNat < 16 ∧ ((u.sw.fallbacks.find? fun e => decide (e.1 = index.toNat)) = none)) ∧
    (∃ (sig : BitVec 32) (s : State), prefectsDown s = false ∧ ceReach s 0 = true ∧ (s.sw.fallbacks.all fun e => decide (e.2.sig.toNat / 512 ≠ sig.toNat / 512)) = true) ∧
    (∃ (sig : BitVec 32) (s : State) (i : Nat) (f : Fallback), prefectsDown s = false ∧ ceReach s 0 = true ∧ (((s.sw.fallbacks.filter fun e => decide (e.2.sig.toNat / 512 = sig.toNat / 512) && decide (e.2.profId = s.prof.fabId) && !xnFault sig s).find? fun e => e.2.armed) = some (i, f)) ∧ twf {} s.sw.fallbacks = true) ∧
    (∃ (sig : BitVec 32) (s : State) (i : Nat) (f : Fallback) (j : Nat) (g : Fallback), prefectsDown s = false ∧ ceReach s 0 = true ∧ (((s.sw.fallbacks.filter fun e => decide (e.2.sig.toNat / 512 = sig.toNat / 512) && decide (e.2.profId = s.prof.fabId) && !xnFault sig s).find? fun e => e.2.armed) = some (i, f)) ∧ twf {} s.sw.fallbacks = true ∧ j < i ∧ (j, g) ∈ s.sw.fallbacks ∧ g.sig.toNat / 512 = sig.toNat / 512 ∧ g.profId = s.prof.fabId) ∧
    (∃ (sig : BitVec 32) (s : State) (i : Nat) (f : Fallback), prefectsDown s = false ∧ ceReach s 0 = true ∧ (((s.sw.fallbacks.filter fun e => decide (e.2.sig.toNat / 512 = sig.toNat / 512) && decide (e.2.profId = s.prof.fabId) && !xnFault sig s).find? fun e => e.2.armed) = some (i, f)) ∧ twf {} s.sw.fallbacks = true ∧ s.sw.plan = none ∧ s.sw.fbRun = none) ∧
    (∃ (sig : BitVec 32) (s : State) (i : Nat) (f : Fallback), prefectsDown s = false ∧ ceReach s 0 = true ∧ (((s.sw.fallbacks.filter fun e => decide (e.2.sig.toNat / 512 = sig.toNat / 512) && decide (e.2.profId = s.prof.fabId) && !xnFault sig s).find? fun e => e.2.armed) = some (i, f)) ∧ twf {} s.sw.fallbacks = true ∧ s.sw.fbRun.isSome = true) ∧
    (∃ (s : State), prefectsDown s = true) ∧
    (∃ (s : State), prefectsDown s = false ∧ ceReach s 0 = false) ∧
    (∃ (port : Nat) (msg : Bytes) (s : State), litUp s = true ∧ pmKind msg = 1 ∧ port < 1024 ∧ pmDst msg = moduleId s ∧ p2pSeen msg s = false) ∧
    (∃ (port : Nat) (msg : Bytes) (s : State), litUp s = true ∧ pmKind msg = 1 ∧ port < 1024 ∧ pmDst msg = moduleId s ∧ p2pSeen msg s = true) ∧
    (∃ (port : Nat) (msg : Bytes) (s : State), litUp s = true ∧ pmKind msg = 1 ∧ port < 1024 ∧ pmDst msg ≠ moduleId s) :=
  ⟨⟨(pk : Pkt), (2 : BitVec 8), (0x10005000 : BitVec 32), (le 32 (0 * 2 ^ 192 + 9 * 2 ^ 160 + 0xFFF * 2 ^ 148 + 0 * 2 ^ 130) : Bytes), (lit : State), (begun (pk : Pkt) 0x0403 (le 1 (2 : BitVec 8).toNat ++ le 4 (0x10005000 : BitVec 32).toNat ++ (le 32 (0 * 2 ^ 192 + 9 * 2 ^ 160 + 0xFFF * 2 ^ 148 + 0 * 2 ^ 130) : Bytes)) (lit : State) : State), by decide +kernel⟩,
   ⟨(pk : Pkt), (2 : BitVec 8), (0x10005000 : BitVec 32), (le 32 (0 * 2 ^ 192 + 9 * 2 ^ 160 + 0xFFF * 2 ^ 148 + 3 * 2 ^ 130) : Bytes), (lit : State), (begun (pk : Pkt) 0x0403 (le 1 (2 : BitVec 8).toNat ++ le 4 (0x10005000 : BitVec 32).toNat ++ (le 32 (0 * 2 ^ 192 + 9 * 2 ^ 160 + 0xFFF * 2 ^ 148 + 3 * 2 ^ 130) : Bytes)) (lit : State) : State), by decide +kernel⟩,
   ⟨(pk : Pkt), (16 : BitVec 8), (0x10005000 : BitVec 32), (le 32 (0 * 2 ^ 192 + 9 * 2 ^ 160 + 0xFFF * 2 ^ 148 + 0 * 2 ^ 130) : Bytes), (lit : State), (begun (pk : Pkt) 0x0403 (le 1 (16 : BitVec 8).toNat ++ le 4 (0x10005000 : BitVec 32).toNat ++ (le 32 (0 * 2 ^ 192 + 9 * 2 ^ 160 + 0xFFF * 2 ^ 148 + 0 * 2 ^ 130) : Bytes)) (lit : State) : State), by decide +kernel⟩,
   ⟨(pk : Pkt), (5 : BitVec 16), ((lit.modSw fun zz => { zz with fallbacks := [(2, ({ sig := 0x10005000, armed := true } : Fallback)), (3, { sig := 0x10006000, armed := true })] }) : State), (begun (pk : Pkt) 0x0404 (le 2 (5 : BitVec 16).toNat ++ le 1 1) ((lit.modSw fun zz => { zz with fallbacks := [(2, ({ sig := 0x10005000, armed := true } : Fallback)), (3, { sig := 0x10006000, armed := true })] }) : State) : State), by decide +kernel⟩,
   ⟨(pk : Pkt), (0 : BitVec 16), (lit : State), (begun (pk : Pkt) 0x0404 (le 2 (0 : BitVec 16).toNat ++ le 1 1) (lit : State) : State), by decide +kernel⟩,
   ⟨(pk : Pkt), (5 : BitVec 16), ((lit.modSw fun zz => { zz with fallbacks := [(2, ({ sig := 0x10005000, armed := true } : Fallback)), (3, { sig := 0x10006000, armed := true })] }) : State), (begun (pk : Pkt) 0x0404 (le 2 (5 : BitVec 16).toNat ++ le 1 0) ((lit.modSw fun zz => { zz with fallbacks := [(2, ({ sig := 0x10005000, armed := true } : Fallback)), (3, { sig := 0x10006000, armed := true })] }) : State) : State), by decide +kernel⟩,
   ⟨(pk : Pkt), (2 : BitVec 8), ({ addr := 0x1000, len := 0xFFFFFFFF } : Buf), ((lit.modSw fun zz => { zz with fallbacks := [(2, ({ sig := 0x10005000, armed := true } : Fallback))] }) : State), (begun (pk : Pkt) 0x0405 (le 1 (2 : BitVec 8).toNat ++ ({ addr := 0x1000, len := 0xFFFFFFFF } : Buf).bytes) ((lit.modSw fun zz => { zz with fallbacks := [(2, ({ sig := 0x10005000, armed := true } : Fallback))] }) : State) : State), ((2, { sig := 0x10005000, armed := true }) : Nat × Fallback), by decide +kernel⟩,
   ⟨(pk : Pkt), (2 : BitVec 8), ({ addr := 0x1000, len := 0xFFFFFFFF } : Buf), (lit : State), (begun (pk : Pkt) 0x0405 (le 1 (2 : BitVec 8).toNat ++ ({ addr := 0x1000, len := 0xFFFFFFFF } : Buf).bytes) (lit : State) : State), by decide +kernel⟩,
   ⟨(0x10005000 : BitVec 32), (lit : State), by decide +kernel⟩,
   ⟨(0x10005000 : BitVec 32), ((lit.modSw fun zz => { zz with fallbacks := [(2, ({ sig := 0x10005000, armed := true } : Fallback))] }) : State), (2 : Nat), (({ sig := 0x10005000, armed := true } : Fallback) : Fallback), by decide +kernel⟩,
   ⟨(0x10005000 : BitVec 32), ((lit.modSw fun zz => { zz with fallbacks := [(1, ({ sig := 0x10005000, used := true } : Fallback)), (2, { sig := 0x10005000, armed := true })] }) : State), (2 : Nat), (({ sig := 0x10005000, armed := true } : Fallback) : Fallback), (1 : Nat), ({ sig := 0x10005000, used := true } : Fallback), by decide +kernel⟩,
   ⟨(0x10005000 : BitVec 32), ((lit.modSw fun zz => { zz with fallbacks := [(2, ({ sig := 0x10005000, armed := true } : Fallback))] }) : State), (2 : Nat), (({ sig := 0x10005000, armed := true } : Fallback) : Fallback), by decide +kernel⟩,
   ⟨(0x10005000 : BitVec 32), ((lit.modSw fun zz => { zz with fallbacks := [(2, ({ sig := 0x10005000, armed := true } : Fallback))], fbRun := some { fallback := some 4 } }) : State), (2 : Nat), (({ sig := 0x10005000, armed := true } : Fallback) : Fallback), by decide +kernel⟩,
   ⟨((lit.modBoot fun zz => { zz with starting := true, kind := 1, fwRunning := false }) : State), by decide +kernel⟩,
   ⟨((lit.modPfx fun zz => { zz with noAccepted := true }) : State), by decide +kernel⟩,
   ⟨(127 : Nat), (pmBytes 1 3 false 0xFFF 5 9 false (le 4 0x4000C000) : Bytes), (lit : State), by decide +kernel⟩,
   ⟨(127 : Nat), (pmBytes 1 3 false 0xFFF 5 9 false (le 4 0x4000C000) : Bytes), ((lit.modPfx fun zz => { zz with seen := [(3, 9)] }) : State), by decide +kernel⟩,
   ⟨(127 : Nat), (pmBytes 1 3 false 4 5 9 false ([]) : Bytes), (lit : State), by decide +kernel⟩⟩

theorem witness_PrefectMessagesRollCallAndSlots :
    (∃ (port : Nat) (msg : Bytes) (s : State), litUp s = true ∧ pmKind msg = 2 ∧ port < 1024 ∧ pmDst msg = moduleId s) ∧
    (∃ (port : Nat) (msg : Bytes) (s : State) (l : LogLink), litUp s = true ∧ pmKind msg = 2 ∧ port < 1024 ∧ pmDst msg ≠ moduleId s ∧ pmTtl msg ≠ 0 ∧ routeLink s (pmDst msg) = some l ∧ l.up s = true) ∧
    (∃ (port : Nat) (msg : Bytes) (s : State), litUp s = true ∧ pmKind msg = 2 ∧ port < 1024 ∧ pmDst msg ≠ moduleId s ∧ pmTtl msg = 0) ∧
    (∃ (q : BitVec 24) (s : State) (m : P2pMsg), litUp s = true ∧ ((s.pfx.outbox.find? fun m => decide (m.mseq = q)) = some m) ∧ m.copies < 3) ∧
    (∃ (q : BitVec 24) (s : State) (m : P2pMsg), litUp s = true ∧ ((s.pfx.outbox.find? fun m => decide (m.mseq = q)) = some m) ∧ 3 ≤ m.copies) ∧
    (∃ (p : Pkt) (ident : BitVec 32) (s : State) (u : State), bodyState p 0x0406 (le 1 0 ++ le 4 ident.toNat) s = some u ∧ litUp u = true) ∧
    (∃ (p : Pkt) (ident : BitVec 32) (s : State) (u : State), bodyState p 0x0406 (le 1 0 ++ le 4 ident.toNat) s = some u ∧ litUp u = false) ∧
    (∃ (p : Pkt) (ident : BitVec 32) (s : State) (u : State), bodyState p 0x0406 (le 1 1 ++ le 4 ident.toNat) s = some u) ∧
    (∃ (s : State), litUp s = true ∧ s.sw.rcState = 1) ∧
    (∃ (s : State), s.sw.rcState ≠ 1) ∧
    (∃ (fibre : Nat) (link : Nat) (msg : Bytes) (s : State) (l : PhysLink), litUp s = true ∧ physLink s fibre link false = some l ∧ l.hops = 0 ∧ s.sw.rcState = 1 ∧ rd msg 28 4 = s.sw.rcId.toNat) ∧
    (∃ (fibre : Nat) (link : Nat) (msg : Bytes) (s : State) (l : PhysLink), litUp s = true ∧ physLink s fibre link false = some l ∧ l.hops = 0 ∧ s.sw.rcState = 1 ∧ rd msg 28 4 ≠ s.sw.rcId.toNat) ∧
    (∃ (s : State) (ref : PktRef), litUp s = true ∧ s.sw.rcState = 1 ∧ s.sw.rcPkt = some ref) ∧
    (∃ (p : Pkt) (fibre : BitVec 8) (s : State) (u : State), bodyState p 0x0407 (le 1 fibre.toNat) s = some u ∧ fibre.toNat < 16) ∧
    (∃ (p : Pkt) (fibre : BitVec 8) (s : State) (u : State), bodyState p 0x0407 (le 1 fibre.toNat) s = some u ∧ 16 ≤ fibre.toNat) ∧
    (∃ (s : State) (i : Image) (t : SlotTable), s.job.image = some i ∧ i.slots = some t ∧ litUp s = true ∧ s.job.gridOn = true) ∧
    (∃ (s : State), slotMode s = false) :=
  ⟨⟨(127 : Nat), (pmBytes 2 3 false 0xFFF 5 9 false ([]) : Bytes), ((lit.modPfx fun zz => { zz with outbox := [({ dst := 3, kind := 1, mseq := 9, copies := 1 } : P2pMsg)] }) : State), by decide +kernel⟩,
   ⟨(127 : Nat), (pmBytes 2 3 false 3 5 9 false ([]) : Bytes), ((((ringed 0xFFF).modProf fun zz => { zz with logLinks := [({ peer := 3, tag := 6, fibre := 4, pFibre := 4 } : LogLink)] }).modOpt fun zz => { zz with links := [({ fibre := 4, lanes := [0], inService := true } : PhysLink)] }) : State), (({ peer := 3, tag := 6, fibre := 4, pFibre := 4 } : LogLink) : LogLink), by decide +kernel⟩,
   ⟨(127 : Nat), (pmBytes 2 3 false 3 0 9 false ([]) : Bytes), (lit : State), by decide +kernel⟩,
   ⟨(9 : BitVec 24), ((lit.modPfx fun zz => { zz with outbox := [({ dst := 3, kind := 1, mseq := 9, copies := 2 } : P2pMsg)] }) : State), (({ dst := 3, kind := 1, mseq := 9, copies := 2 } : P2pMsg) : P2pMsg), by decide +kernel⟩,
   ⟨(9 : BitVec 24), ((lit.modPfx fun zz => { zz with outbox := [({ dst := 3, kind := 1, mseq := 9, copies := 3 } : P2pMsg)] }) : State), (({ dst := 3, kind := 1, mseq := 9, copies := 3 } : P2pMsg) : P2pMsg), by decide +kernel⟩,
   ⟨(pk : Pkt), (77 : BitVec 32), (lit : State), (begun (pk : Pkt) 0x0406 (le 1 0 ++ le 4 (77 : BitVec 32).toNat) (lit : State) : State), by decide +kernel⟩,
   ⟨(pk : Pkt), (77 : BitVec 32), (awake : State), (begun (pk : Pkt) 0x0406 (le 1 0 ++ le 4 (77 : BitVec 32).toNat) (awake : State) : State), by decide +kernel⟩,
   ⟨(pk : Pkt), (77 : BitVec 32), (lit : State), (begun (pk : Pkt) 0x0406 (le 1 1 ++ le 4 (77 : BitVec 32).toNat) (lit : State) : State), by decide +kernel⟩,
   ⟨(((lit.modSw fun zz => { zz with rcState := 1, rcId := 77 }).modOpt fun zz => { zz with links := [({ fibre := 4, tx := true, lanes := [0], inService := true } : PhysLink)] }) : State), by decide +kernel⟩,
   ⟨(lit : State), by decide +kernel⟩,
   ⟨(4 : Nat), (0 : Nat), (le 28 0 ++ le 4 77 : Bytes), (((lit.modSw fun zz => { zz with rcState := 1, rcId := 77 }).modOpt fun zz => { zz with links := [({ fibre := 4, tx := false, lanes := [0], inService := true } : PhysLink)] }) : State), (({ fibre := 4, tx := false, lanes := [0], inService := true } : PhysLink) : PhysLink), by decide +kernel⟩,
   ⟨(4 : Nat), (0 : Nat), (le 28 0 ++ le 4 78 : Bytes), (((lit.modSw fun zz => { zz with rcState := 1, rcId := 77 }).modOpt fun zz => { zz with links := [({ fibre := 4, tx := false, lanes := [0], inService := true } : PhysLink)] }) : State), (({ fibre := 4, tx := false, lanes := [0], inService := true } : PhysLink) : PhysLink), by decide +kernel⟩,
   ⟨((lit.modSw fun zz => { zz with rcState := 1, rcPkt := some {} }) : State), ({} : PktRef), by decide +kernel⟩,
   ⟨(pk : Pkt), (15 : BitVec 8), (lit : State), (begun (pk : Pkt) 0x0407 (le 1 (15 : BitVec 8).toNat) (lit : State) : State), by decide +kernel⟩,
   ⟨(pk : Pkt), (16 : BitVec 8), (lit : State), (begun (pk : Pkt) 0x0407 (le 1 (16 : BitVec 8).toNat) (lit : State) : State), by decide +kernel⟩,
   ⟨((run.modJob fun zz => { zz with image := some ({ periodNs := 20000, stretchNs := 30000, slots := some { nslot := 2, confs := [0, 0x10], slots := [1, 0] } } : Image), gridOn := true }) : State), (({ periodNs := 20000, stretchNs := 30000, slots := some { nslot := 2, confs := [0, 0x10], slots := [1, 0] } } : Image) : Image), ({ nslot := 2, confs := [0, 0x10], slots := [1, 0] } : SlotTable), by decide +kernel⟩,
   ⟨(lit : State), by decide +kernel⟩⟩

theorem witness_PtpMessages :
    (∃ (port : Nat) (s : State) (l : PhysLink) (m : BitVec 12), ptpPort s port = true ∧ port ≤ 16 ∧ ptpLink s (port - 1) = some (l, m) ∧ twf {} s.tm.ports = true ∧ portState s port = .master) ∧
    (∃ (port : Nat) (s : State) (l : PhysLink) (m : BitVec 12), ptpPort s port = true ∧ port ≤ 16 ∧ ptpLink s (port - 1) = some (l, m) ∧ twf {} s.tm.ports = true) ∧
    (∃ (port : Nat) (s : State) (l : PhysLink) (m : BitVec 12) (msg : Bytes), ptpPort s port = true ∧ port ≤ 16 ∧ ptpLink s (port - 1) = some (l, m) ∧ twf {} s.tm.ports = true ∧ ptpOk msg 2 = true) ∧
    (∃ (port : Nat) (s : State), ptpPort s port = true ∧ 17 ≤ port ∧ twf {} s.tm.ports = true ∧ portState s port = .master) ∧
    (∃ (port : Nat) (s : State), ptpPort s port = true ∧ 17 ≤ port ∧ twf {} s.tm.ports = true) ∧
    (∃ (port : Nat) (s : State) (msg : Bytes), ptpPort s port = true ∧ 17 ≤ port ∧ twf {} s.tm.ports = true ∧ ptpOk msg 2 = true) ∧
    (∃ (port : Nat) (s : State), portState s port ≠ .master) ∧
    (∃ (port : Nat) (msg : Bytes) (t2 : BitVec 64) (s : State) (off : Int), ptpPort s port = true ∧ ptpOk msg 0 = true ∧ sx 64 (ptpFld msg 8 8) % 1024 = 0 ∧ off = timeDiff (rxTime port t2 s) (stampOf msg 34) - sx 64 (ptpFld msg 8 8) / 1024 - (portAt s port).delay ∧ portState s port = .slave ∧ s.tm.gm = false ∧ s.tm.valid = false ∧ s.tm.stepped = false) ∧
    (∃ (port : Nat) (msg : Bytes) (t2 : BitVec 64) (s : State) (off : Int), ptpPort s port = true ∧ ptpOk msg 0 = true ∧ sx 64 (ptpFld msg 8 8) % 1024 = 0 ∧ off = timeDiff (rxTime port t2 s) (stampOf msg 34) - sx 64 (ptpFld msg 8 8) / 1024 - (portAt s port).delay ∧ portState s port = .slave ∧ s.tm.gm = false ∧ s.tm.valid = false ∧ s.tm.stepped = true) ∧
    (∃ (port : Nat) (msg : Bytes) (t2 : BitVec 64) (s : State) (off : Int), ptpPort s port = true ∧ ptpOk msg 0 = true ∧ sx 64 (ptpFld msg 8 8) % 1024 = 0 ∧ off = timeDiff (rxTime port t2 s) (stampOf msg 34) - sx 64 (ptpFld msg 8 8) / 1024 - (portAt s port).delay ∧ portState s port = .slave ∧ s.tm.gm = false ∧ s.tm.valid = true ∧ off.natAbs ≤ 320 ∧ s.tm.rank ≠ 15 ∧ (parentValid s = true ∨ combsLocked s = true)) ∧
    (∃ (port : Nat) (msg : Bytes) (t2 : BitVec 64) (s : State) (off : Int), ptpPort s port = true ∧ ptpOk msg 0 = true ∧ sx 64 (ptpFld msg 8 8) % 1024 = 0 ∧ off = timeDiff (rxTime port t2 s) (stampOf msg 34) - sx 64 (ptpFld msg 8 8) / 1024 - (portAt s port).delay ∧ portState s port = .slave ∧ s.tm.gm = false ∧ s.tm.valid = true ∧ 320 < off.natAbs) ∧
    (∃ (port : Nat) (msg : Bytes) (s : State), ptpPort s port = true ∧ ptpOk msg 0 = false) ∧
    (∃ (port : Nat) (msg : Bytes) (s : State), ptpPort s port = true ∧ ptpOk msg 2 = false) ∧
    (∃ (port : Nat) (msg : Bytes) (s : State), ptpPort s port = true ∧ ptpOk msg 3 = false) ∧
    (∃ (port : Nat) (msg : Bytes) (s : State), ptpPort s port = true ∧ (ptpOk msg 11 = false ∨ msg.length < 64)) ∧
    (∃ (port : Nat) (msg : Bytes) (t1 : BitVec 64) (t4 : BitVec 64) (s : State), ptpPort s port = true ∧ ptpOk msg 3 = true ∧ (portAt s port).reqTx = some t1 ∧ ptpFld msg 30 2 = ((portAt s port).reqSeq - 1).toNat ∧ ptpFld msg 44 8 = clockId (moduleId s) ∧ ptpFld msg 52 2 = port ∧ sx 64 (ptpFld msg 8 8) % 1024 = 0 ∧ (timeDiff (rxTime port t4 s) t1 - sx 64 (ptpFld msg 8 8) / 1024) % 2 = 0 ∧ twf {} s.tm.ports = true) ∧
    (∃ (port : Nat) (msg : Bytes) (s : State), ptpOk msg 3 = true ∧ (portAt s port).reqTx = none) ∧
    (∃ (port : Nat) (msg : Bytes) (s : State), ptpPort s port = true ∧ ptpOk msg 11 = true ∧ 64 ≤ msg.length) ∧
    (∃ (port : Nat) (s : State), litUp s = true ∧ 1 ≤ port ∧ port ≤ 24 ∧ twf {} s.tm.ports = true) ∧
    (∃ (s : State), combsLocked s = true ∧ bestKey s = ownKey s) ∧
    (∃ (s : State), combsLocked s = true ∧ bestKey s ≠ ownKey s) ∧
    (∃ (s : State), s.tm.valid = true ∧ s.tm.holdover = true) ∧
    (∃ (s : State), (s.tm.valid = false ∨ s.tm.holdover = false)) :=
  ⟨⟨(16 : Nat), (((lit.modOpt fun zz => { zz with links := [({ fibre := 15, tx := true, lanes := [0], tag := 5, peer := 3, inService := true } : PhysLink), ({ fibre := 15, tx := false, lanes := [0], tag := 5, peer := 3, inService := true } : PhysLink)] }).modTm fun zz => { zz with ports := [(16, ({ delay := 5 } : Port))], rank := 3 }) : State), (({ fibre := 15, tx := true, lanes := [0], tag := 5, peer := 3, inService := true } : PhysLink) : PhysLink), (3 : BitVec 12), by decide +kernel⟩,
   ⟨(16 : Nat), (((lit.modOpt fun zz => { zz with links := [({ fibre := 15, tx := true, lanes := [0], tag := 5, peer := 3, inService := true } : PhysLink), ({ fibre := 15, tx := false, lanes := [0], tag := 5, peer := 3, inService := true } : PhysLink)] }).modTm fun zz => { zz with ports := [(16, ({ delay := 5 } : Port))] }) : State), (({ fibre := 15, tx := true, lanes := [0], tag := 5, peer := 3, inService := true } : PhysLink) : PhysLink), (3 : BitVec 12), by decide +kernel⟩,
   ⟨(16 : Nat), (((lit.modOpt fun zz => { zz with links := [({ fibre := 15, tx := true, lanes := [0], tag := 5, peer := 3, inService := true } : PhysLink), ({ fibre := 15, tx := false, lanes := [0], tag := 5, peer := 3, inService := true } : PhysLink)] }).modTm fun zz => { zz with ports := [(16, ({ delay := 5 } : Port))] }) : State), (({ fibre := 15, tx := true, lanes := [0], tag := 5, peer := 3, inService := true } : PhysLink) : PhysLink), (3 : BitVec 12), (([2, 2] ++ zeros 62) : Bytes), by decide +kernel⟩,
   ⟨(17 : Nat), ((((lit.modOpt fun zz => { zz with fibres := [(0, ({ mode := .faceplate } : Fibre))] }).modNet fun zz => { zz with cages := [(0, ({ up := 1 } : Cage))] }).modTm fun zz => { zz with ports := [(17, ({ annSeen := true, annSteps := 7 } : Port))], rank := 3 }) : State), by decide +kernel⟩,
   ⟨(17 : Nat), ((((lit.modOpt fun zz => { zz with fibres := [(0, ({ mode := .faceplate } : Fibre))] }).modNet fun zz => { zz with cages := [(0, ({ up := 1 } : Cage))] }).modTm fun zz => { zz with ports := [(17, ({ delay := 1 } : Port))] }) : State), by decide +kernel⟩,
   ⟨(17 : Nat), ((((lit.modOpt fun zz => { zz with fibres := [(0, ({ mode := .faceplate } : Fibre))] }).modNet fun zz => { zz with cages := [(0, ({ up := 1 } : Cage))] }).modTm fun zz => { zz with ports := [(17, ({ delay := 1 } : Port))] }) : State), (([2, 2] ++ zeros 62) : Bytes), by decide +kernel⟩,
   ⟨(16 : Nat), (((lit.modOpt fun zz => { zz with links := [({ fibre := 15, tx := true, lanes := [0], tag := 5, peer := 3, inService := true } : PhysLink), ({ fibre := 15, tx := false, lanes := [0], tag := 5, peer := 3, inService := true } : PhysLink)] }).modTm fun zz => { zz with ports := [(16, ({  } : Port))], rank := 15 }) : State), by decide +kernel⟩,
   ⟨(17 : Nat), (([0, 2] ++ zeros 62) : Bytes), (50 : BitVec 64), ((((lit.modOpt fun zz => { zz with fibres := [(0, ({ mode := .faceplate } : Fibre))] }).modNet fun zz => { zz with cages := [(0, ({ up := 1 } : Cage))] }).modTm fun zz => { zz with ports := [(17, ({ delay := 10 } : Port))], timePort := 17, rank := 4, gm := false, valid := false, stepped := false }) : State), ((timeDiff (rxTime (17 : Nat) (50 : BitVec 64) ((((lit.modOpt fun zz => { zz with fibres := [(0, ({ mode := .faceplate } : Fibre))] }).modNet fun zz => { zz with cages := [(0, ({ up := 1 } : Cage))] }).modTm fun zz => { zz with ports := [(17, ({ delay := 10 } : Port))], timePort := 17, rank := 4, gm := false, valid := false, stepped := false }) : State)) (stampOf (([0, 2] ++ zeros 62) : Bytes) 34) - sx 64 (ptpFld (([0, 2] ++ zeros 62) : Bytes) 8 8) / 1024 - (portAt ((((lit.modOpt fun zz => { zz with fibres := [(0, ({ mode := .faceplate } : Fibre))] }).modNet fun zz => { zz with cages := [(0, ({ up := 1 } : Cage))] }).modTm fun zz => { zz with ports := [(17, ({ delay := 10 } : Port))], timePort := 17, rank := 4, gm := false, valid := false, stepped := false }) : State) (17 : Nat)).delay) : Int), by decide +kernel⟩,
   ⟨(17 : Nat), (([0, 2] ++ zeros 62) : Bytes), (50 : BitVec 64), ((((lit.modOpt fun zz => { zz with fibres := [(0, ({ mode := .faceplate } : Fibre))] }).modNet fun zz => { zz with cages := [(0, ({ up := 1 } : Cage))] }).modTm fun zz => { zz with ports := [(17, ({ delay := 10 } : Port))], timePort := 17, rank := 4, gm := false, valid := false, stepped := true }) : State), ((timeDiff (rxTime (17 : Nat) (50 : BitVec 64) ((((lit.modOpt fun zz => { zz with fibres := [(0, ({ mode := .faceplate } : Fibre))] }).modNet fun zz => { zz with cages := [(0, ({ up := 1 } : Cage))] }).modTm fun zz => { zz with ports := [(17, ({ delay := 10 } : Port))], timePort := 17, rank := 4, gm := false, valid := false, stepped := true }) : State)) (stampOf (([0, 2] ++ zeros 62) : Bytes) 34) - sx 64 (ptpFld (([0, 2] ++ zeros 62) : Bytes) 8 8) / 1024 - (portAt ((((lit.modOpt fun zz => { zz with fibres := [(0, ({ mode := .faceplate } : Fibre))] }).modNet fun zz => { zz with cages := [(0, ({ up := 1 } : Cage))] }).modTm fun zz => { zz with ports := [(17, ({ delay := 10 } : Port))], timePort := 17, rank := 4, gm := false, valid := false, stepped := true }) : State) (17 : Nat)).delay) : Int), by decide +kernel⟩,
   ⟨(17 : Nat), (([0, 2] ++ zeros 62) : Bytes), (330 : BitVec 64), (({ (((lit.modOpt fun zz => { zz with fibres := [(0, ({ mode := .faceplate } : Fibre))] }).modNet fun zz => { zz with cages := [(0, ({ up := 1 } : Cage))] }).modTm fun zz => { zz with ports := [(17, ({ delay := 10 } : Port))], timePort := 17, rank := 4, gm := false, valid := true }) with opt := { combs := [(0, ({ locked := true } : Comb))], fibres := [(0, ({ mode := .faceplate } : Fibre))] } } : State) : State), ((timeDiff (rxTime (17 : Nat) (330 : BitVec 64) (({ (((lit.modOpt fun zz => { zz with fibres := [(0, ({ mode := .faceplate } : Fibre))] }).modNet fun zz => { zz with cages := [(0, ({ up := 1 } : Cage))] }).modTm fun zz => { zz with ports := [(17, ({ delay := 10 } : Port))], timePort := 17, rank := 4, gm := false, valid := true }) with opt := { combs := [(0, ({ locked := true } : Comb))], fibres := [(0, ({ mode := .faceplate } : Fibre))] } } : State) : State)) (stampOf (([0, 2] ++ zeros 62) : Bytes) 34) - sx 64 (ptpFld (([0, 2] ++ zeros 62) : Bytes) 8 8) / 1024 - (portAt (({ (((lit.modOpt fun zz => { zz with fibres := [(0, ({ mode := .faceplate } : Fibre))] }).modNet fun zz => { zz with cages := [(0, ({ up := 1 } : Cage))] }).modTm fun zz => { zz with ports := [(17, ({ delay := 10 } : Port))], timePort := 17, rank := 4, gm := false, valid := true }) with opt := { combs := [(0, ({ locked := true } : Comb))], fibres := [(0, ({ mode := .faceplate } : Fibre))] } } : State) : State) (17 : Nat)).delay) : Int), by decide +kernel⟩,
   ⟨(17 : Nat), (([0, 2] ++ zeros 62) : Bytes), (331 : BitVec 64), ((((lit.modOpt fun zz => { zz with fibres := [(0, ({ mode := .faceplate } : Fibre))] }).modNet fun zz => { zz with cages := [(0, ({ up := 1 } : Cage))] }).modTm fun zz => { zz with ports := [(17, ({ delay := 10 } : Port))], timePort := 17, rank := 4, gm := false, valid := true }) : State), ((timeDiff (rxTime (17 : Nat) (331 : BitVec 64) ((((lit.modOpt fun zz => { zz with fibres := [(0, ({ mode := .faceplate } : Fibre))] }).modNet fun zz => { zz with cages := [(0, ({ up := 1 } : Cage))] }).modTm fun zz => { zz with ports := [(17, ({ delay := 10 } : Port))], timePort := 17, rank := 4, gm := false, valid := true }) : State)) (stampOf (([0, 2] ++ zeros 62) : Bytes) 34) - sx 64 (ptpFld (([0, 2] ++ zeros 62) : Bytes) 8 8) / 1024 - (portAt ((((lit.modOpt fun zz => { zz with fibres := [(0, ({ mode := .faceplate } : Fibre))] }).modNet fun zz => { zz with cages := [(0, ({ up := 1 } : Cage))] }).modTm fun zz => { zz with ports := [(17, ({ delay := 10 } : Port))], timePort := 17, rank := 4, gm := false, valid := true }) : State) (17 : Nat)).delay) : Int), by decide +kernel⟩,
   ⟨(16 : Nat), ([9] : Bytes), (((lit.modOpt fun zz => { zz with links := [({ fibre := 15, tx := true, lanes := [0], tag := 5, peer := 3, inService := true } : PhysLink), ({ fibre := 15, tx := false, lanes := [0], tag := 5, peer := 3, inService := true } : PhysLink)] }).modTm fun zz => { zz with ports := [(16, ({  } : Port))] }) : State), by decide +kernel⟩,
   ⟨(16 : Nat), ([9] : Bytes), (((lit.modOpt fun zz => { zz with links := [({ fibre := 15, tx := true, lanes := [0], tag := 5, peer := 3, inService := true } : PhysLink), ({ fibre := 15, tx := false, lanes := [0], tag := 5, peer := 3, inService := true } : PhysLink)] }).modTm fun zz => { zz with ports := [(16, ({  } : Port))] }) : State), by decide +kernel⟩,
   ⟨(16 : Nat), ([9] : Bytes), (((lit.modOpt fun zz => { zz with links := [({ fibre := 15, tx := true, lanes := [0], tag := 5, peer := 3, inService := true } : PhysLink), ({ fibre := 15, tx := false, lanes := [0], tag := 5, peer := 3, inService := true } : PhysLink)] }).modTm fun zz => { zz with ports := [(16, ({  } : Port))] }) : State), by decide +kernel⟩,
   ⟨(16 : Nat), ([9] : Bytes), (((lit.modOpt fun zz => { zz with links := [({ fibre := 15, tx := true, lanes := [0], tag := 5, peer := 3, inService := true } : PhysLink), ({ fibre := 15, tx := false, lanes := [0], tag := 5, peer := 3, inService := true } : PhysLink)] }).modTm fun zz => { zz with ports := [(16, ({  } : Port))] }) : State), by decide +kernel⟩,
   ⟨(17 : Nat), (([3, 2] ++ zeros 28 ++ [0, 0] ++ zeros 12 ++ (le 8 0x4B584E3800000FFF).reverse ++ [0, 17]) : Bytes), (0 : BitVec 64), (100 : BitVec 64), ((((lit.modOpt fun zz => { zz with fibres := [(0, ({ mode := .faceplate } : Fibre))] }).modNet fun zz => { zz with cages := [(0, ({ up := 1 } : Cage))] }).modTm fun zz => { zz with ports := [(17, ({ reqSeq := 1, reqTx := some 0 } : Port))] }) : State), by decide +kernel⟩,
   ⟨(16 : Nat), (([3, 2] ++ zeros 28 ++ [0, 0] ++ zeros 12 ++ (le 8 0x4B584E3800000FFF).reverse ++ [0, 16]) : Bytes), (((lit.modOpt fun zz => { zz with links := [({ fibre := 15, tx := true, lanes := [0], tag := 5, peer := 3, inService := true } : PhysLink), ({ fibre := 15, tx := false, lanes := [0], tag := 5, peer := 3, inService := true } : PhysLink)] }).modTm fun zz => { zz with ports := [(16, ({  } : Port))] }) : State), by decide +kernel⟩,
   ⟨(16 : Nat), (([11, 2] ++ zeros 62) : Bytes), (((lit.modOpt fun zz => { zz with links := [({ fibre := 15, tx := true, lanes := [0], tag := 5, peer := 3, inService := true } : PhysLink), ({ fibre := 15, tx := false, lanes := [0], tag := 5, peer := 3, inService := true } : PhysLink)] }).modTm fun zz => { zz with ports := [(16, ({  } : Port))] }) : State), by decide +kernel⟩,
   ⟨(16 : Nat), (((lit.modOpt fun zz => { zz with links := [({ fibre := 15, tx := true, lanes := [0], tag := 5, peer := 3, inService := true } : PhysLink), ({ fibre := 15, tx := false, lanes := [0], tag := 5, peer := 3, inService := true } : PhysLink)] }).modTm fun zz => { zz with ports := [(16, ({ delay := 5 } : Port))] }) : State), by decide +kernel⟩,
   ⟨(combLit : State), ⟨by decide +kernel, best_own⟩⟩,
   ⟨(heardLit : State), ⟨by decide +kernel, best_other⟩⟩,
   ⟨((lit.modTm fun zz => { zz with valid := true, holdover := true }) : State), by decide +kernel⟩,
   ⟨(lit : State), by decide +kernel⟩⟩

theorem witness_TimeForTheHost :
    (∃ (p : Pkt) (t0 : BitVec 64) (s : State) (u : State), bodyState p 0x0501 (le 8 t0.toNat ++ le 1 0) s = some u ∧ litUp u = true ∧ u.tm.gm = true ∧ u.tm.valid = false) ∧
    (∃ (p : Pkt) (t0 : BitVec 64) (s : State) (u : State), bodyState p 0x0501 (le 8 t0.toNat ++ le 1 0) s = some u ∧ (litUp u = false ∨ u.tm.gm = false ∨ u.tm.valid = true)) ∧
    (∃ (p : Pkt) (t0 : BitVec 64) (s : State) (u : State), bodyState p 0x0501 (le 8 t0.toNat ++ le 1 1) s = some u ∧ litUp u = true ∧ u.tm.gm = true ∧ u.tm.valid = false) ∧
    (∃ (p : Pkt) (t0 : BitVec 64) (s : State) (u : State), bodyState p 0x0501 (le 8 t0.toNat ++ le 1 1) s = some u ∧ (litUp u = false ∨ u.tm.gm = false ∨ u.tm.valid = true)) ∧
    (∃ (p : Pkt) (off : BitVec 64) (s : State) (u : State), bodyState p 0x0502 (le 8 off.toNat) s = some u ∧ litUp u = true ∧ u.tm.gm = true) ∧
    (∃ (p : Pkt) (off : BitVec 64) (s : State) (u : State), bodyState p 0x0502 (le 8 off.toNat) s = some u ∧ (litUp u = false ∨ u.tm.gm = false)) ∧
    (∃ (p : Pkt) (source : BitVec 8) (port : BitVec 8) (prio : BitVec 8) (s : State) (u : State), bodyState p 0x0503 (le 1 source.toNat ++ le 1 port.toNat ++ le 1 prio.toNat) s = some u ∧ (source.toNat < 2 ∨ (source = 2 ∧ 17 ≤ port.toNat ∧ port.toNat ≤ 24))) ∧
    (∃ (p : Pkt) (source : BitVec 8) (port : BitVec 8) (prio : BitVec 8) (s : State) (u : State), bodyState p 0x0503 (le 1 source.toNat ++ le 1 port.toNat ++ le 1 prio.toNat) s = some u ∧ (2 < source.toNat ∨ (source = 2 ∧ (port.toNat < 17 ∨ 24 < port.toNat)))) ∧
    (∃ (p : Pkt) (port : BitVec 8) (asym : BitVec 64) (s : State) (u : State), bodyState p 0x0504 (le 1 port.toNat ++ le 8 asym.toNat) s = some u ∧ 1 ≤ port.toNat ∧ port.toNat ≤ 24 ∧ twf {} u.tm.ports = true) ∧
    (∃ (p : Pkt) (port : BitVec 8) (asym : BitVec 64) (s : State) (u : State), bodyState p 0x0504 (le 1 port.toNat ++ le 8 asym.toNat) s = some u ∧ (port.toNat = 0 ∨ 24 < port.toNat)) ∧
    (∃ (p : Pkt) (s : State) (u : State), bodyState p 0x0505 [] s = some u) ∧
    (∃ (s : State), svOn s = true) ∧
    (∃ (s : State), svOn s = true ∧ s.tm.ppsLost = false) ∧
    (∃ (s : State), svOn s = true ∧ s.tm.ppsLost = true) ∧
    (∃ (s : State), svOn s = true ∧ s.tm.valid = true ∧ s.pins.pinsDriven = true) ∧
    (∃ (s : State), svOn s = true ∧ (s.tm.valid = false ∨ s.pins.pinsDriven = false)) :=
  ⟨⟨(pk : Pkt), (77 : BitVec 64), ((lit.modTm fun zz => { zz with gm := true, valid := false }) : State), (begun (pk : Pkt) 0x0501 (le 8 (77 : BitVec 64).toNat ++ le 1 0) ((lit.modTm fun zz => { zz with gm := true, valid := false }) : State) : State), by decide +kernel⟩,
   ⟨(pk : Pkt), (77 : BitVec 64), ((lit.modTm fun zz => { zz with gm := true, valid := true }) : State), (begun (pk : Pkt) 0x0501 (le 8 (77 : BitVec 64).toNat ++ le 1 0) ((lit.modTm fun zz => { zz with gm := true, valid := true }) : State) : State), by decide +kernel⟩,
   ⟨(pk : Pkt), (77 : BitVec 64), ((lit.modTm fun zz => { zz with gm := true, valid := false }) : State), (begun (pk : Pkt) 0x0501 (le 8 (77 : BitVec 64).toNat ++ le 1 1) ((lit.modTm fun zz => { zz with gm := true, valid := false }) : State) : State), by decide +kernel⟩,
   ⟨(pk : Pkt), (77 : BitVec 64), ((lit.modTm fun zz => { zz with gm := false, valid := false }) : State), (begun (pk : Pkt) 0x0501 (le 8 (77 : BitVec 64).toNat ++ le 1 1) ((lit.modTm fun zz => { zz with gm := false, valid := false }) : State) : State), by decide +kernel⟩,
   ⟨(pk : Pkt), (-640 : BitVec 64), ((lit.modTm fun zz => { zz with gm := true, valid := true }) : State), (begun (pk : Pkt) 0x0502 (le 8 (-640 : BitVec 64).toNat) ((lit.modTm fun zz => { zz with gm := true, valid := true }) : State) : State), by decide +kernel⟩,
   ⟨(pk : Pkt), (1 : BitVec 64), (lit : State), (begun (pk : Pkt) 0x0502 (le 8 (1 : BitVec 64).toNat) (lit : State) : State), by decide +kernel⟩,
   ⟨(pk : Pkt), (2 : BitVec 8), (17 : BitVec 8), (0 : BitVec 8), (lit : State), (begun (pk : Pkt) 0x0503 (le 1 (2 : BitVec 8).toNat ++ le 1 (17 : BitVec 8).toNat ++ le 1 (0 : BitVec 8).toNat) (lit : State) : State), by decide +kernel⟩,
   ⟨(pk : Pkt), (2 : BitVec 8), (16 : BitVec 8), (0 : BitVec 8), (lit : State), (begun (pk : Pkt) 0x0503 (le 1 (2 : BitVec 8).toNat ++ le 1 (16 : BitVec 8).toNat ++ le 1 (0 : BitVec 8).toNat) (lit : State) : State), by decide +kernel⟩,
   ⟨(pk : Pkt), (24 : BitVec 8), (5 : BitVec 64), (lit : State), (begun (pk : Pkt) 0x0504 (le 1 (24 : BitVec 8).toNat ++ le 8 (5 : BitVec 64).toNat) (lit : State) : State), by decide +kernel⟩,
   ⟨(pk : Pkt), (25 : BitVec 8), (0 : BitVec 64), (lit : State), (begun (pk : Pkt) 0x0504 (le 1 (25 : BitVec 8).toNat ++ le 8 (0 : BitVec 64).toNat) (lit : State) : State), by decide +kernel⟩,
   ⟨(pk : Pkt), (lit : State), (begun (pk : Pkt) 0x0505 [] (lit : State) : State), by decide +kernel⟩,
   ⟨(lit : State), by decide +kernel⟩,
   ⟨((lit.modTm fun zz => { zz with ppsLost := false }) : State), by decide +kernel⟩,
   ⟨((lit.modTm fun zz => { zz with ppsLost := true }) : State), by decide +kernel⟩,
   ⟨(((lit.modTm fun zz => { zz with valid := true }).modPins fun zz => { zz with pinsDriven := true }) : State), by decide +kernel⟩,
   ⟨(lit : State), by decide +kernel⟩⟩

theorem witness_ControlLoopsAndRoteTables :
    (∃ (eng : Nat) (n : Nat) (vs : List Int) (scheds : List Int) (rails : List Nat) (s : State) (s0 : State) (l : Loop) (v : Int) (m : Member), (if eng < 5 then litUp s else svOn s) = true ∧ eng < 6 ∧ n < 512 ∧ ldEn (loopOf s eng n).desc = true ∧ sampleTurn s eng n = true ∧ ldGroup (loopOf s eng n).desc = 0 ∧ s0 = (if isSlot eng (loopOf s eng n).desc then otherCrosspoint n s else s) ∧ l = loopOf s0 eng n ∧ l.setsNew = [] ∧ (if l.fresh then regionOf l.desc (schedOf s0 eng l.desc (scheds.getD 0 0)) else regionNext l.desc l.region (schedOf s0 eng l.desc (scheds.getD 0 0))) = l.region ∧ l.stale = false ∧ l.faulted = false ∧ sensorStale s eng (ldInput l.desc) = false ∧ v = reading s0 eng l (vs.getD 0 0) ∧ implausible eng (ldInput l.desc) (l.set.firstX (ldNstage l.desc)) v = false ∧ (ldInput l.desc / 4096 = 5 ∨ (0 ∉ rails ∧ -131072 < v ∧ v < 131071)) ∧ m = member n { l with sp := l.spNew.getD l.sp } v (powerOf s eng (ldFf l.desc)) (roteTerm s eng l.desc) (ringShift (ringApply eng l.desc s) eng l.desc)) ∧
    (∃ (w : Member), 0 ≤ mant w.c.slew) ∧
    (∃ (ms : List Member) (w : Member), winner ms = some w) ∧
    (∃ (eng : Nat) (n : Nat) (s : State), (if eng < 5 then litUp s else svOn s) = true ∧ eng < 6 ∧ n < 512 ∧ ldEn (loopOf s eng n).desc = true ∧ sampleTurn s eng n = true) ∧
    (∃ (eng : Nat) (n : Nat) (s : State), (ldEn (loopOf s eng n).desc = false ∨ sampleTurn s eng n = false)) ∧
    (∃ (p : Pkt) (loop : BitVec 16) (sp : BitVec 32) (s : State) (u : State), bodyState p 0x0602 (le 2 loop.toNat ++ le 4 sp.toNat) s = some u ∧ loop.toNat < 512 ∧ sp.toNat < 2 ^ 18 ∧ spOk (loopOf s p.eng loop.toNat) (sp.setWidth 18) = true ∧ ceReach u p.eng = true) ∧
    (∃ (p : Pkt) (loop : BitVec 16) (sp : BitVec 32) (s : State) (u : State), bodyState p 0x0602 (le 2 loop.toNat ++ le 4 sp.toNat) s = some u ∧ loop.toNat < 512 ∧ sp.toNat < 2 ^ 18 ∧ spOk (loopOf s p.eng loop.toNat) (sp.setWidth 18) = true ∧ ceReach u p.eng = false) ∧
    (∃ (p : Pkt) (first : BitVec 16) (count : BitVec 8) (s : State) (u : State), bodyState p 0x0603 (le 2 first.toNat ++ le 1 count.toNat) s = some u ∧ 1 ≤ count.toNat ∧ count.toNat ≤ 32 ∧ first.toNat + count.toNat ≤ 512 ∧ twf {} u.ce.loops = true) ∧
    (∃ (p : Pkt) (loop : BitVec 16) (buf : Buf) (s : State) (u : State), bodyState p 0x0601 (le 2 loop.toNat ++ buf.bytes) s = some u ∧ loop.toNat < 512 ∧ 1336 ≤ buf.len.toNat) ∧
    (∃ (p : Pkt) (loop : BitVec 16) (desc : BitVec 256) (s : State) (u : State), bodyState p 0x0606 (le 2 loop.toNat ++ le 32 desc.toNat) s = some u ∧ loop.toNat < 512 ∧ descRange desc = false) ∧
    (∃ (p : Pkt) (loop : BitVec 16) (desc : BitVec 256) (s : State) (u : State), bodyState p 0x0606 (le 2 loop.toNat ++ le 32 desc.toNat) s = some u ∧ loop.toNat < 512 ∧ descRange desc = true ∧ ldEn (loopOf u p.eng loop.toNat).desc = true) ∧
    (∃ (p : Pkt) (loop : BitVec 16) (desc : BitVec 256) (s : State) (u : State), bodyState p 0x0606 (le 2 loop.toNat ++ le 32 desc.toNat) s = some u ∧ loop.toNat < 512 ∧ descRange desc = true ∧ ldEn (loopOf u p.eng loop.toNat).desc = false ∧ descStatus u p.eng loop.toNat desc ≠ 0) ∧
    (∃ (p : Pkt) (loop : BitVec 16) (desc : BitVec 256) (s : State) (u : State), bodyState p 0x0606 (le 2 loop.toNat ++ le 32 desc.toNat) s = some u ∧ loop.toNat < 512 ∧ descRange desc = true ∧ ldEn (loopOf u p.eng loop.toNat).desc = false ∧ ceReach u p.eng = true ∧ descStatus u p.eng loop.toNat desc = 0) ∧
    (∃ (p : Pkt) (loop : BitVec 16) (region : BitVec 8) (coefs : Bytes) (s : State) (u : State), bodyState p 0x0607 (le 2 loop.toNat ++ le 1 region.toNat ++ padTo 160 coefs) s = some u ∧ loop.toNat < 512 ∧ region.toNat < 8 ∧ coefOk (padTo 160 coefs) = true ∧ ceReach u p.eng = true ∧ twf {} (loopOf u p.eng loop.toNat).sets = true ∧ twf {} u.ce.loops = true) ∧
    (∃ (p : Pkt) (loop : BitVec 16) (region : BitVec 8) (coefs : Bytes) (s : State) (u : State), bodyState p 0x0607 (le 2 loop.toNat ++ le 1 region.toNat ++ padTo 160 coefs) s = some u ∧ (512 ≤ loop.toNat ∨ 8 ≤ region.toNat ∨ coefOk (padTo 160 coefs) = false)) ∧
    (∃ (p : Pkt) (loop : BitVec 16) (s : State) (u : State), loop.toNat < 512 ∧ ceReach u p.eng = true ∧ bodyState p 0x0608 (le 2 loop.toNat ++ le 1 1) s = some u ∧ descStatus u p.eng loop.toNat ((loopOf u p.eng loop.toNat).desc ||| ((1 : BitVec 256) <<< 255)) = 0) ∧
    (∃ (p : Pkt) (loop : BitVec 16) (s : State) (u : State), loop.toNat < 512 ∧ ceReach u p.eng = true ∧ bodyState p 0x0608 (le 2 loop.toNat ++ le 1 1) s = some u ∧ descStatus u p.eng loop.toNat ((loopOf u p.eng loop.toNat).desc ||| ((1 : BitVec 256) <<< 255)) ≠ 0) ∧
    (∃ (p : Pkt) (loop : BitVec 16) (s : State) (u : State), loop.toNat < 512 ∧ ceReach u p.eng = true ∧ bodyState p 0x0608 (le 2 loop.toNat ++ le 1 0) s = some u ∧ twf {} u.ce.loops = true) ∧
    (∃ (p : Pkt) (mask : BitVec 8) (buf : Buf) (s : State) (u : State), bodyState p 0x0604 (le 1 mask.toNat ++ buf.bytes) s = some u ∧ mask.toNat < 64 ∧ mask ≠ 0 ∧ u.job.image = none) ∧
    (∃ (p : Pkt) (mask : BitVec 8) (buf : Buf) (s : State) (u : State) (i : Image) (b : Bytes), bodyState p 0x0604 (le 1 mask.toNat ++ buf.bytes) s = some u ∧ mask.toNat < 64 ∧ mask ≠ 0 ∧ u.job.image = some i ∧ b = le 48 i.digest.toNat ++ ((u.ce.rote.filter fun e => bit mask.toNat (e.1 / 64) && decide (e.2.src ≠ .empty)).map fun e => roteBytes e (roteN u e.1)).flatten ∧ b.length ≤ buf.len.toNat) ∧
    (∃ (p : Pkt) (addr : BitVec 64) (len : BitVec 32) (data : Bytes) (s : State) (u : State), bodyState p 0x0605 (le 8 addr.toNat ++ le 4 len.toNat) s = some u ∧ 48 ≤ len.toNat ∧ data.length = len.toNat ∧ (u.job.image = none ∨ u.job.st ≠ .loaded)) ∧
    (∃ (p : Pkt) (addr : BitVec 64) (len : BitVec 32) (data : Bytes) (s : State) (u : State) (i : Image), bodyState p 0x0605 (le 8 addr.toNat ++ le 4 len.toNat) s = some u ∧ 48 ≤ len.toNat ∧ data.length = len.toNat ∧ u.job.image = some i ∧ u.job.st = .loaded ∧ rd data 0 48 ≠ i.digest.toNat) ∧
    (∃ (p : Pkt) (addr : BitVec 64) (len : BitVec 32) (data : Bytes) (s : State) (u : State) (i : Image), bodyState p 0x0605 (le 8 addr.toNat ++ le 4 len.toNat) s = some u ∧ 48 ≤ len.toNat ∧ data.length = len.toNat ∧ u.job.image = some i ∧ u.job.st = .loaded ∧ rd data 0 48 = i.digest.toNat ∧ len = 48) ∧
    (∃ (p : Pkt) (addr : BitVec 64) (len : BitVec 32) (data : Bytes) (s : State) (u : State) (i : Image) (eng : Nat) (slot : Nat) (n : Nat), bodyState p 0x0605 (le 8 addr.toNat ++ le 4 len.toNat) s = some u ∧ 48 ≤ len.toNat ∧ data.length = len.toNat ∧ u.job.image = some i ∧ u.job.st = .loaded ∧ rd data 0 48 = i.digest.toNat ∧ len.toNat = 56 + 4 * n ∧ rd data 48 1 = eng ∧ rd data 49 1 = slot ∧ rd data 50 2 = n ∧ 0 < n ∧ roteUser u eng slot n = true) :=
  ⟨⟨(0 : Nat), (5 : Nat), ([5] : List Int), ([0] : List Int), ([] : List Nat), ((lit.modCe fun zz => { zz with loops := [(5, ({ desc := BitVec.ofNat 256 (2 ^ 255), fresh := false, sp := 9, sets := [(0, ({ kp := 3, slew := 2, omax := 100 } : CoefSet))] } : Loop))] }) : State), ((if isSlot (0 : Nat) (loopOf ((lit.modCe fun zz => { zz with loops := [(5, ({ desc := BitVec.ofNat 256 (2 ^ 255), fresh := false, sp := 9, sets := [(0, ({ kp := 3, slew := 2, omax := 100 } : CoefSet))] } : Loop))] }) : State) (0 : Nat) (5 : Nat)).desc then otherCrosspoint (5 : Nat) ((lit.modCe fun zz => { zz with loops := [(5, ({ desc := BitVec.ofNat 256 (2 ^ 255), fresh := false, sp := 9, sets := [(0, ({ kp := 3, slew := 2, omax := 100 } : CoefSet))] } : Loop))] }) : State) else ((lit.modCe fun zz => { zz with loops := [(5, ({ desc := BitVec.ofNat 256 (2 ^ 255), fresh := false, sp := 9, sets := [(0, ({ kp := 3, slew := 2, omax := 100 } : CoefSet))] } : Loop))] }) : State)) : State), (loopOf ((if isSlot (0 : Nat) (loopOf ((lit.modCe fun zz => { zz with loops := [(5, ({ desc := BitVec.ofNat 256 (2 ^ 255), fresh := false, sp := 9, sets := [(0, ({ kp := 3, slew := 2, omax := 100 } : CoefSet))] } : Loop))] }) : State) (0 : Nat) (5 : Nat)).desc then otherCrosspoint (5 : Nat) ((lit.modCe fun zz => { zz with loops := [(5, ({ desc := BitVec.ofNat 256 (2 ^ 255), fresh := false, sp := 9, sets := [(0, ({ kp := 3, slew := 2, omax := 100 } : CoefSet))] } : Loop))] }) : State) else ((lit.modCe fun zz => { zz with loops := [(5, ({ desc := BitVec.ofNat 256 (2 ^ 255), fresh := false, sp := 9, sets := [(0, ({ kp := 3, slew := 2, omax := 100 } : CoefSet))] } : Loop))] }) : State)) : State) (0 : Nat) (5 : Nat) : Loop), (reading ((if isSlot (0 : Nat) (loopOf ((lit.modCe fun zz => { zz with loops := [(5, ({ desc := BitVec.ofNat 256 (2 ^ 255), fresh := false, sp := 9, sets := [(0, ({ kp := 3, slew := 2, omax := 100 } : CoefSet))] } : Loop))] }) : State) (0 : Nat) (5 : Nat)).desc then otherCrosspoint (5 : Nat) ((lit.modCe fun zz => { zz with loops := [(5, ({ desc := BitVec.ofNat 256 (2 ^ 255), fresh := false, sp := 9, sets := [(0, ({ kp := 3, slew := 2, omax := 100 } : CoefSet))] } : Loop))] }) : State) else ((lit.modCe fun zz => { zz with loops := [(5, ({ desc := BitVec.ofNat 256 (2 ^ 255), fresh := false, sp := 9, sets := [(0, ({ kp := 3, slew := 2, omax := 100 } : CoefSet))] } : Loop))] }) : State)) : State) (0 : Nat) (loopOf ((if isSlot (0 : Nat) (loopOf ((lit.modCe fun zz => { zz with loops := [(5, ({ desc := BitVec.ofNat 256 (2 ^ 255), fresh := false, sp := 9, sets := [(0, ({ kp := 3, slew := 2, omax := 100 } : CoefSet))] } : Loop))] }) : State) (0 : Nat) (5 : Nat)).desc then otherCrosspoint (5 : Nat) ((lit.modCe fun zz => { zz with loops := [(5, ({ desc := BitVec.ofNat 256 (2 ^ 255), fresh := false, sp := 9, sets := [(0, ({ kp := 3, slew := 2, omax := 100 } : CoefSet))] } : Loop))] }) : State) else ((lit.modCe fun zz => { zz with loops := [(5, ({ desc := BitVec.ofNat 256 (2 ^ 255), fresh := false, sp := 9, sets := [(0, ({ kp := 3, slew := 2, omax := 100 } : CoefSet))] } : Loop))] }) : State)) : State) (0 : Nat) (5 : Nat) : Loop) (([5] : List Int).getD 0 0) : Int), (member (5 : Nat) { (loopOf ((if isSlot (0 : Nat) (loopOf ((lit.modCe fun zz => { zz with loops := [(5, ({ desc := BitVec.ofNat 256 (2 ^ 255), fresh := false, sp := 9, sets := [(0, ({ kp := 3, slew := 2, omax := 100 } : CoefSet))] } : Loop))] }) : State) (0 : Nat) (5 : Nat)).desc then otherCrosspoint (5 : Nat) ((lit.modCe fun zz => { zz with loops := [(5, ({ desc := BitVec.ofNat 256 (2 ^ 255), fresh := false, sp := 9, sets := [(0, ({ kp := 3, slew := 2, omax := 100 } : CoefSet))] } : Loop))] }) : State) else ((lit.modCe fun zz => { zz with loops := [(5, ({ desc := BitVec.ofNat 256 (2 ^ 255), fresh := false, sp := 9, sets := [(0, ({ kp := 3, slew := 2, omax := 100 } : CoefSet))] } : Loop))] }) : State)) : State) (0 : Nat) (5 : Nat) : Loop) with sp := (loopOf ((if isSlot (0 : Nat) (loopOf ((lit.modCe fun zz => { zz with loops := [(5, ({ desc := BitVec.ofNat 256 (2 ^ 255), fresh := false, sp := 9, sets := [(0, ({ kp := 3, slew := 2, omax := 100 } : CoefSet))] } : Loop))] }) : State) (0 : Nat) (5 : Nat)).desc then otherCrosspoint (5 : Nat) ((lit.modCe fun zz => { zz with loops := [(5, ({ desc := BitVec.ofNat 256 (2 ^ 255), fresh := false, sp := 9, sets := [(0, ({ kp := 3, slew := 2, omax := 100 } : CoefSet))] } : Loop))] }) : State) else ((lit.modCe fun zz => { zz with loops := [(5, ({ desc := BitVec.ofNat 256 (2 ^ 255), fresh := false, sp := 9, sets := [(0, ({ kp := 3, slew := 2, omax := 100 } : CoefSet))] } : Loop))] }) : State)) : State) (0 : Nat) (5 : Nat) : Loop).spNew.getD (loopOf ((if isSlot (0 : Nat) (loopOf ((lit.modCe fun zz => { zz with loops := [(5, ({ desc := BitVec.ofNat 256 (2 ^ 255), fresh := false, sp := 9, sets := [(0, ({ kp := 3, slew := 2, omax := 100 } : CoefSet))] } : Loop))] }) : State) (0 : Nat) (5 : Nat)).desc then otherCrosspoint (5 : Nat) ((lit.modCe fun zz => { zz with loops := [(5, ({ desc := BitVec.ofNat 256 (2 ^ 255), fresh := false, sp := 9, sets := [(0, ({ kp := 3, slew := 2, omax := 100 } : CoefSet))] } : Loop))] }) : State) else ((lit.modCe fun zz => { zz with loops := [(5, ({ desc := BitVec.ofNat 256 (2 ^ 255), fresh := false, sp := 9, sets := [(0, ({ kp := 3, slew := 2, omax := 100 } : CoefSet))] } : Loop))] }) : State)) : State) (0 : Nat) (5 : Nat) : Loop).sp } (reading ((if isSlot (0 : Nat) (loopOf ((lit.modCe fun zz => { zz with loops := [(5, ({ desc := BitVec.ofNat 256 (2 ^ 255), fresh := false, sp := 9, sets := [(0, ({ kp := 3, slew := 2, omax := 100 } : CoefSet))] } : Loop))] }) : State) (0 : Nat) (5 : Nat)).desc then otherCrosspoint (5 : Nat) ((lit.modCe fun zz => { zz with loops := [(5, ({ desc := BitVec.ofNat 256 (2 ^ 255), fresh := false, sp := 9, sets := [(0, ({ kp := 3, slew := 2, omax := 100 } : CoefSet))] } : Loop))] }) : State) else ((lit.modCe fun zz => { zz with loops := [(5, ({ desc := BitVec.ofNat 256 (2 ^ 255), fresh := false, sp := 9, sets := [(0, ({ kp := 3, slew := 2, omax := 100 } : CoefSet))] } : Loop))] }) : State)) : State) (0 : Nat) (loopOf ((if isSlot (0 : Nat) (loopOf ((lit.modCe fun zz => { zz with loops := [(5, ({ desc := BitVec.ofNat 256 (2 ^ 255), fresh := false, sp := 9, sets := [(0, ({ kp := 3, slew := 2, omax := 100 } : CoefSet))] } : Loop))] }) : State) (0 : Nat) (5 : Nat)).desc then otherCrosspoint (5 : Nat) ((lit.modCe fun zz => { zz with loops := [(5, ({ desc := BitVec.ofNat 256 (2 ^ 255), fresh := false, sp := 9, sets := [(0, ({ kp := 3, slew := 2, omax := 100 } : CoefSet))] } : Loop))] }) : State) else ((lit.modCe fun zz => { zz with loops := [(5, ({ desc := BitVec.ofNat 256 (2 ^ 255), fresh := false, sp := 9, sets := [(0, ({ kp := 3, slew := 2, omax := 100 } : CoefSet))] } : Loop))] }) : State)) : State) (0 : Nat) (5 : Nat) : Loop) (([5] : List Int).getD 0 0) : Int) (powerOf ((lit.modCe fun zz => { zz with loops := [(5, ({ desc := BitVec.ofNat 256 (2 ^ 255), fresh := false, sp := 9, sets := [(0, ({ kp := 3, slew := 2, omax := 100 } : CoefSet))] } : Loop))] }) : State) (0 : Nat) (ldFf (loopOf ((if isSlot (0 : Nat) (loopOf ((lit.modCe fun zz => { zz with loops := [(5, ({ desc := BitVec.ofNat 256 (2 ^ 255), fresh := false, sp := 9, sets := [(0, ({ kp := 3, slew := 2, omax := 100 } : CoefSet))] } : Loop))] }) : State) (0 : Nat) (5 : Nat)).desc then otherCrosspoint (5 : Nat) ((lit.modCe fun zz => { zz with loops := [(5, ({ desc := BitVec.ofNat 256 (2 ^ 255), fresh := false, sp := 9, sets := [(0, ({ kp := 3, slew := 2, omax := 100 } : CoefSet))] } : Loop))] }) : State) else ((lit.modCe fun zz => { zz with loops := [(5, ({ desc := BitVec.ofNat 256 (2 ^ 255), fresh := false, sp := 9, sets := [(0, ({ kp := 3, slew := 2, omax := 100 } : CoefSet))] } : Loop))] }) : State)) : State) (0 : Nat) (5 : Nat) : Loop).desc)) (roteTerm ((lit.modCe fun zz => { zz with loops := [(5, ({ desc := BitVec.ofNat 256 (2 ^ 255), fresh := false, sp := 9, sets := [(0, ({ kp := 3, slew := 2, omax := 100 } : CoefSet))] } : Loop))] }) : State) (0 : Nat) (loopOf ((if isSlot (0 : Nat) (loopOf ((lit.modCe fun zz => { zz with loops := [(5, ({ desc := BitVec.ofNat 256 (2 ^ 255), fresh := false, sp := 9, sets := [(0, ({ kp := 3, slew := 2, omax := 100 } : CoefSet))] } : Loop))] }) : State) (0 : Nat) (5 : Nat)).desc then otherCrosspoint (5 : Nat) ((lit.modCe fun zz => { zz with loops := [(5, ({ desc := BitVec.ofNat 256 (2 ^ 255), fresh := false, sp := 9, sets := [(0, ({ kp := 3, slew := 2, omax := 100 } : CoefSet))] } : Loop))] }) : State) else ((lit.modCe fun zz => { zz with loops := [(5, ({ desc := BitVec.ofNat 256 (2 ^ 255), fresh := false, sp := 9, sets := [(0, ({ kp := 3, slew := 2, omax := 100 } : CoefSet))] } : Loop))] }) : State)) : State) (0 : Nat) (5 : Nat) : Loop).desc) (ringShift (ringApply (0 : Nat) (loopOf ((if isSlot (0 : Nat) (loopOf ((lit.modCe fun zz => { zz with loops := [(5, ({ desc := BitVec.ofNat 256 (2 ^ 255), fresh := false, sp := 9, sets := [(0, ({ kp := 3, slew := 2, omax := 100 } : CoefSet))] } : Loop))] }) : State) (0 : Nat) (5 : Nat)).desc then otherCrosspoint (5 : Nat) ((lit.modCe fun zz => { zz with loops := [(5, ({ desc := BitVec.ofNat 256 (2 ^ 255), fresh := false, sp := 9, sets := [(0, ({ kp := 3, slew := 2, omax := 100 } : CoefSet))] } : Loop))] }) : State) else ((lit.modCe fun zz => { zz with loops := [(5, ({ desc := BitVec.ofNat 256 (2 ^ 255), fresh := false, sp := 9, sets := [(0, ({ kp := 3, slew := 2, omax := 100 } : CoefSet))] } : Loop))] }) : State)) : State) (0 : Nat) (5 : Nat) : Loop).desc ((lit.modCe fun zz => { zz with loops := [(5, ({ desc := BitVec.ofNat 256 (2 ^ 255), fresh := false, sp := 9, sets := [(0, ({ kp := 3, slew := 2, omax := 100 } : CoefSet))] } : Loop))] }) : State)) (0 : Nat) (loopOf ((if isSlot (0 : Nat) (loopOf ((lit.modCe fun zz => { zz with loops := [(5, ({ desc := BitVec.ofNat 256 (2 ^ 255), fresh := false, sp := 9, sets := [(0, ({ kp := 3, slew := 2, omax := 100 } : CoefSet))] } : Loop))] }) : State) (0 : Nat) (5 : Nat)).desc then otherCrosspoint (5 : Nat) ((lit.modCe fun zz => { zz with loops := [(5, ({ desc := BitVec.ofNat 256 (2 ^ 255), fresh := false, sp := 9, sets := [(0, ({ kp := 3, slew := 2, omax := 100 } : CoefSet))] } : Loop))] }) : State) else ((lit.modCe fun zz => { zz with loops := [(5, ({ desc := BitVec.ofNat 256 (2 ^ 255), fresh := false, sp := 9, sets := [(0, ({ kp := 3, slew := 2, omax := 100 } : CoefSet))] } : Loop))] }) : State)) : State) (0 : Nat) (5 : Nat) : Loop).desc) : Member), by decide +kernel⟩,
   ⟨({ n := 1, l := { out := 10 }, c := { slew := 3 }, ef := 0, ic := 0, r := 0, u := 20, past := 0, flags := 0 } : Member), by decide +kernel⟩,
   ⟨([{ n := 1, l := {}, c := {}, ef := 0, ic := 0, r := 0, u := 20, past := 0, flags := 0 }, { n := 2, l := {}, c := {}, ef := 0, ic := 0, r := 0, u := 20, past := 0, flags := 0 }] : List Member), ((winner ([{ n := 1, l := {}, c := {}, ef := 0, ic := 0, r := 0, u := 20, past := 0, flags := 0 }, { n := 2, l := {}, c := {}, ef := 0, ic := 0, r := 0, u := 20, past := 0, flags := 0 }] : List Member)).getD (([{ n := 1, l := {}, c := {}, ef := 0, ic := 0, r := 0, u := 20, past := 0, flags := 0 }, { n := 2, l := {}, c := {}, ef := 0, ic := 0, r := 0, u := 20, past := 0, flags := 0 }] : List Member).getD 0 { n := 1, l := {}, c := {}, ef := 0, ic := 0, r := 0, u := 20, past := 0, flags := 0 }) : Member), rfl⟩,
   ⟨(0 : Nat), (5 : Nat), ((lit.modCe fun zz => { zz with loops := [(5, ({ desc := BitVec.ofNat 256 (2 ^ 255) } : Loop))] }) : State), by decide +kernel⟩,
   ⟨(0 : Nat), (0 : Nat), (lit : State), by decide +kernel⟩,
   ⟨({ target := 5 } : Pkt), (511 : BitVec 16), (0x3FFFF : BitVec 32), (lit : State), (begun ({ target := 5 } : Pkt) 0x0602 (le 2 (511 : BitVec 16).toNat ++ le 4 (0x3FFFF : BitVec 32).toNat) (lit : State) : State), by decide +kernel⟩,
   ⟨({ target := 0 } : Pkt), (511 : BitVec 16), (5 : BitVec 32), ((lit.modPfx fun zz => { zz with noAccepted := true }) : State), (begun ({ target := 0 } : Pkt) 0x0602 (le 2 (511 : BitVec 16).toNat ++ le 4 (5 : BitVec 32).toNat) ((lit.modPfx fun zz => { zz with noAccepted := true }) : State) : State), by decide +kernel⟩,
   ⟨({ target := 0 } : Pkt), (511 : BitVec 16), (1 : BitVec 8), ((lit.modCe fun zz => { zz with loops := [(5, ({ desc := BitVec.ofNat 256 (2 ^ 255) } : Loop))] }) : State), (begun ({ target := 0 } : Pkt) 0x0603 (le 2 (511 : BitVec 16).toNat ++ le 1 (1 : BitVec 8).toNat) ((lit.modCe fun zz => { zz with loops := [(5, ({ desc := BitVec.ofNat 256 (2 ^ 255) } : Loop))] }) : State) : State), by decide +kernel⟩,
   ⟨({ target := 5 } : Pkt), (511 : BitVec 16), ({ addr := 0x1000, len := 0xFFFFFFFF } : Buf), (lit : State), (begun ({ target := 5 } : Pkt) 0x0601 (le 2 (511 : BitVec 16).toNat ++ ({ addr := 0x1000, len := 0xFFFFFFFF } : Buf).bytes) (lit : State) : State), by decide +kernel⟩,
   ⟨({ expert := true, target := 0 } : Pkt), (511 : BitVec 16), (BitVec.ofNat 256 (5 * 2 ^ 250) : BitVec 256), (lit : State), (begun ({ expert := true, target := 0 } : Pkt) 0x0606 (le 2 (511 : BitVec 16).toNat ++ le 32 (BitVec.ofNat 256 (5 * 2 ^ 250) : BitVec 256).toNat) (lit : State) : State), by decide +kernel⟩,
   ⟨({ expert := true, target := 0 } : Pkt), (5 : BitVec 16), (BitVec.ofNat 256 (8 * 2 ^ 220) : BitVec 256), ((lit.modCe fun zz => { zz with loops := [(5, ({ desc := BitVec.ofNat 256 (2 ^ 255) } : Loop))] }) : State), (begun ({ expert := true, target := 0 } : Pkt) 0x0606 (le 2 (5 : BitVec 16).toNat ++ le 32 (BitVec.ofNat 256 (8 * 2 ^ 220) : BitVec 256).toNat) ((lit.modCe fun zz => { zz with loops := [(5, ({ desc := BitVec.ofNat 256 (2 ^ 255) } : Loop))] }) : State) : State), by decide +kernel⟩,
   ⟨({ expert := true, target := 0 } : Pkt), (5 : BitVec 16), (BitVec.ofNat 256 1 : BitVec 256), (lit : State), (begun ({ expert := true, target := 0 } : Pkt) 0x0606 (le 2 (5 : BitVec 16).toNat ++ le 32 (BitVec.ofNat 256 1 : BitVec 256).toNat) (lit : State) : State), by decide +kernel⟩,
   ⟨({ expert := true, target := 0 } : Pkt), (5 : BitVec 16), (BitVec.ofNat 256 (8 * 2 ^ 220) : BitVec 256), (lit : State), (begun ({ expert := true, target := 0 } : Pkt) 0x0606 (le 2 (5 : BitVec 16).toNat ++ le 32 (BitVec.ofNat 256 (8 * 2 ^ 220) : BitVec 256).toNat) (lit : State) : State), by decide +kernel⟩,
   ⟨({ expert := true, target := 0 } : Pkt), (511 : BitVec 16), (7 : BitVec 8), ([1] : Bytes), (lit : State), (begun ({ expert := true, target := 0 } : Pkt) 0x0607 (le 2 (511 : BitVec 16).toNat ++ le 1 (7 : BitVec 8).toNat ++ padTo 160 ([1] : Bytes)) (lit : State) : State), by decide +kernel⟩,
   ⟨({ expert := true, target := 0 } : Pkt), (511 : BitVec 16), (7 : BitVec 8), (zeros 122 ++ [2] : Bytes), (lit : State), (begun ({ expert := true, target := 0 } : Pkt) 0x0607 (le 2 (511 : BitVec 16).toNat ++ le 1 (7 : BitVec 8).toNat ++ padTo 160 (zeros 122 ++ [2] : Bytes)) (lit : State) : State), by decide +kernel⟩,
   ⟨({ expert := true, target := 0 } : Pkt), (5 : BitVec 16), ((lit.modCe fun zz => { zz with loops := [(5, ({ desc := BitVec.ofNat 256 (8 * 2 ^ 220) } : Loop))] }) : State), (begun ({ expert := true, target := 0 } : Pkt) 0x0608 (le 2 (5 : BitVec 16).toNat ++ le 1 1) ((lit.modCe fun zz => { zz with loops := [(5, ({ desc := BitVec.ofNat 256 (8 * 2 ^ 220) } : Loop))] }) : State) : State), by decide +kernel⟩,
   ⟨({ expert := true, target := 0 } : Pkt), (5 : BitVec 16), ((lit.modCe fun zz => { zz with loops := [(5, ({ desc := BitVec.ofNat 256 (1) } : Loop))] }) : State), (begun ({ expert := true, target := 0 } : Pkt) 0x0608 (le 2 (5 : BitVec 16).toNat ++ le 1 1) ((lit.modCe fun zz => { zz with loops := [(5, ({ desc := BitVec.ofNat 256 (1) } : Loop))] }) : State) : State), by decide +kernel⟩,
   ⟨({ expert := true, target := 0 } : Pkt), (5 : BitVec 16), ((lit.modCe fun zz => { zz with loops := [(5, ({ desc := BitVec.ofNat 256 (2 ^ 255) } : Loop))] }) : State), (begun ({ expert := true, target := 0 } : Pkt) 0x0608 (le 2 (5 : BitVec 16).toNat ++ le 1 0) ((lit.modCe fun zz => { zz with loops := [(5, ({ desc := BitVec.ofNat 256 (2 ^ 255) } : Loop))] }) : State) : State), by decide +kernel⟩,
   ⟨(pk : Pkt), (63 : BitVec 8), ({ addr := 0x1000, len := 0xFFFFFFFF } : Buf), (lit : State), (begun (pk : Pkt) 0x0604 (le 1 (63 : BitVec 8).toNat ++ ({ addr := 0x1000, len := 0xFFFFFFFF } : Buf).bytes) (lit : State) : State), by decide +kernel⟩,
   ⟨(pk : Pkt), (32 : BitVec 8), ({ addr := 0x1000, len := 48 } : Buf), (((run.modJob fun zz => { zz with st := .loaded, image := some ({ periodNs := 20000, stretchNs := 30000, digest := 77 } : Image) }).modCe fun zz => { zz with rote := [] }) : State), (begun (pk : Pkt) 0x0604 (le 1 (32 : BitVec 8).toNat ++ ({ addr := 0x1000, len := 48 } : Buf).bytes) (((run.modJob fun zz => { zz with st := .loaded, image := some ({ periodNs := 20000, stretchNs := 30000, digest := 77 } : Image) }).modCe fun zz => { zz with rote := [] }) : State) : State), (({ periodNs := 20000, stretchNs := 30000, digest := 77 } : Image) : Image), (le 48 77 : Bytes), by decide +kernel⟩,
   ⟨(pk : Pkt), (0 : BitVec 64), (48 : BitVec 32), (le 48 77 : Bytes), (lit : State), (begun (pk : Pkt) 0x0605 (le 8 (0 : BitVec 64).toNat ++ le 4 (48 : BitVec 32).toNat) (lit : State) : State), by decide +kernel⟩,
   ⟨(pk : Pkt), (0 : BitVec 64), (48 : BitVec 32), (zeros 48 : Bytes), (((run.modJob fun zz => { zz with st := .loaded, image := some ({ periodNs := 20000, stretchNs := 30000, digest := 77 } : Image) }).modCe fun zz => { zz with rote := [] }) : State), (begun (pk : Pkt) 0x0605 (le 8 (0 : BitVec 64).toNat ++ le 4 (48 : BitVec 32).toNat) (((run.modJob fun zz => { zz with st := .loaded, image := some ({ periodNs := 20000, stretchNs := 30000, digest := 77 } : Image) }).modCe fun zz => { zz with rote := [] }) : State) : State), (({ periodNs := 20000, stretchNs := 30000, digest := 77 } : Image) : Image), by decide +kernel⟩,
   ⟨(pk : Pkt), (0 : BitVec 64), (48 : BitVec 32), (le 48 77 : Bytes), (((run.modJob fun zz => { zz with st := .loaded, image := some ({ periodNs := 20000, stretchNs := 30000, digest := 77 } : Image) }).modCe fun zz => { zz with rote := [] }) : State), (begun (pk : Pkt) 0x0605 (le 8 (0 : BitVec 64).toNat ++ le 4 (48 : BitVec 32).toNat) (((run.modJob fun zz => { zz with st := .loaded, image := some ({ periodNs := 20000, stretchNs := 30000, digest := 77 } : Image) }).modCe fun zz => { zz with rote := [] }) : State) : State), (({ periodNs := 20000, stretchNs := 30000, digest := 77 } : Image) : Image), by decide +kernel⟩,
   ⟨(pk : Pkt), (0 : BitVec 64), (60 : BitVec 32), (le 48 77 ++ [0, 3, 1, 0, 0, 0, 0, 0, 9, 0, 0, 0] : Bytes), (((run.modJob fun zz => { zz with st := .loaded, image := some ({ periodNs := 20000, stretchNs := 30000, digest := 77 } : Image) }).modCe fun zz => { zz with loops := [(5, ({ desc := BitVec.ofNat 256 (2 ^ 255 + 8 * 2 ^ 220 + 2 ^ 157 + 3 * 2 ^ 151) } : Loop))] }) : State), (begun (pk : Pkt) 0x0605 (le 8 (0 : BitVec 64).toNat ++ le 4 (60 : BitVec 32).toNat) (((run.modJob fun zz => { zz with st := .loaded, image := some ({ periodNs := 20000, stretchNs := 30000, digest := 77 } : Image) }).modCe fun zz => { zz with loops := [(5, ({ desc := BitVec.ofNat 256 (2 ^ 255 + 8 * 2 ^ 220 + 2 ^ 157 + 3 * 2 ^ 151) } : Loop))] }) : State) : State), (({ periodNs := 20000, stretchNs := 30000, digest := 77 } : Image) : Image), (0 : Nat), (3 : Nat), (1 : Nat), by decide +kernel⟩⟩

theorem witness_CalibrationRuns :
    (∃ (f : Nat) (s : State), (litUp s = false ∨ rotates s f = false ∨ (rotOf s f).running = true)) ∧
    (∃ (f : Nat) (s : State), litUp s = true ∧ f < 16 ∧ rotates s f = true ∧ (rotOf s f).running = false ∧ calReady s f = false) ∧
    (∃ (f : Nat) (x : Nat) (s : State), litUp s = true ∧ f < 16 ∧ rotates s f = true ∧ (rotOf s f).running = false ∧ calReady s f = true ∧ (fibreOf s f).apr = false ∧ (rotOf s f).paused = false ∧ (rotOf s f).want = [] ∧ x = ((rotOf s f).line + 1) % 33 ∧ (laneOf s f x).failed = false ∧ calMode s f = 2 ∧ (txLinkOf s f x).isSome = true) ∧
    (∃ (f : Nat) (x : Nat) (s : State) (l : PhysLink) (k : Nat), litUp s = true ∧ f < 16 ∧ rotates s f = true ∧ (rotOf s f).running = false ∧ calReady s f = true ∧ (fibreOf s f).apr = false ∧ (rotOf s f).paused = false ∧ (rotOf s f).want = [] ∧ x = ((rotOf s f).line + 1) % 33 ∧ (laneOf s f x).failed = false ∧ calMode s f = 1 ∧ txLinkOf s f x = some l ∧ spareOf s f = some k ∧ l.inService = true ∧ (laneOf s f x).inService = true ∧ (lineFree s f k l).1 = true) ∧
    (∃ (f : Nat) (x : Nat) (s : State), litUp s = true ∧ f < 16 ∧ rotates s f = true ∧ (rotOf s f).running = false ∧ calReady s f = true ∧ (fibreOf s f).apr = false ∧ (rotOf s f).paused = false ∧ (rotOf s f).want = [] ∧ x = ((rotOf s f).line + 1) % 33 ∧ (laneOf s f x).failed = false ∧ calMode s f = 3 ∧ tget 0 s.net.xaLines (laneKey f x) = 0) ∧
    (∃ (f : Nat) (rx : Bool) (s : State), ((rx = false ∨ calMode s f = 2)) ∧ (rotOf s f).step = none) ∧
    (∃ (f : Nat) (test : RunStats) (s : State) (st : LaneStep) (k : Nat), litUp s = true ∧ f < 16 ∧ calMode s f ≠ 2 ∧ (rotOf s f).step = some st ∧ st.rolled = true ∧ st.phase = .tx ∧ k = RunStats.failed false 65536 { test with lost := test.lost || (fibreOf s f).apr } ∧ k = 0 ∧ st.runs % 2 = 0) ∧
    (∃ (f : Nat) (test : RunStats) (s : State) (st : LaneStep) (k : Nat), litUp s = true ∧ f < 16 ∧ calMode s f ≠ 2 ∧ (rotOf s f).step = some st ∧ st.rolled = true ∧ st.phase = .tx ∧ k = RunStats.failed false 65536 { test with lost := test.lost || (fibreOf s f).apr } ∧ k ≠ 0) ∧
    (∃ (f : Nat) (test : RunStats) (means : List Int) (s : State) (st : LaneStep) (k : Nat), litUp s = true ∧ f < 16 ∧ calMode s f ≠ 2 ∧ (rotOf s f).step = some st ∧ st.rolled = true ∧ st.phase = .tx ∧ k = RunStats.failed false 65536 { test with lost := test.lost || (fibreOf s f).apr } ∧ k = 0 ∧ st.runs % 2 = 1 ∧ st.dead = false ∧ st.hasA = true ∧ ((∀ i, i < 8 → (st.runA.getD i 0 - means.getD i 0).natAbs ≤ agreeLimit 0 i ∧ (itemRange 0 i).1 ≤ evenDiv (st.runA.getD i 0 + means.getD i 0) 2 ∧ evenDiv (st.runA.getD i 0 + means.getD i 0) 2 ≤ (itemRange 0 i).2))) ∧
    (∃ (f : Nat) (test : RunStats) (s : State) (st : LaneStep), litUp s = true ∧ f < 16 ∧ calMode s f ≠ 2 ∧ (rotOf s f).rx = some st ∧ st.phase = .rx ∧ RunStats.failed true 1048576 { test with lost := test.lost || (fibreOf s f).apr } = 0 ∧ st.runs % 2 = 0) ∧
    (∃ (kind : Nat) (f : Nat) (x : Nat) (item : Nat) (a : Int) (b : Int) (s : State), (judgeItem kind f x item a b s).1 = false) ∧
    (∃ (s : State) (r : JourRec) (rest : List JourRec), svOn s = true ∧ s.pwr.nvInhibit = false ∧ s.cal.queue = r :: rest ∧ holdsNewest s.cal.journal s.cal.head = false) ∧
    (∃ (s : State), (svOn s = false ∨ s.pwr.nvInhibit = true ∨ s.cal.queue = [])) ∧
    (∃ (temps : List Int) (s : State), litUp s = true ∧ temps.length = 5) ∧
    (∃ (s : State), litUp s = true ∧ twf {} s.opt.combs = true) :=
  ⟨⟨(15 : Nat), (awake : State), by decide +kernel⟩,
   ⟨(15 : Nat), (lit : State), by decide +kernel⟩,
   ⟨(15 : Nat), (32 : Nat), ((((lit.modCal fun zz => { zz with rot := [(15, ({ line := 31 } : Rotation))] }).modOpt fun zz => { zz with combs := [(3, ({ lit := true, locked := true } : Comb))], links := [({ fibre := 15, lanes := [31, 32], inService := true } : PhysLink)] }).modJob fun zz => { zz with image := some ({ periodNs := 20000, stretchNs := 30000, slots := some {} } : Image) }) : State), by decide +kernel⟩,
   ⟨(15 : Nat), (32 : Nat), (((lit.modCal fun zz => { zz with rot := [(15, ({ line := 31 } : Rotation))] }).modOpt fun zz => { zz with combs := [(3, ({ lit := true, locked := true } : Comb))], links := [({ fibre := 15, lanes := [31, 32], inService := true } : PhysLink)], lanes := [(15 * 33 + 0, ({ spare := true } : Lane)), (15 * 33 + 32, ({ inService := true } : Lane))] }) : State), ({ fibre := 15, lanes := [31, 32], inService := true } : PhysLink), (0 : Nat), by decide +kernel⟩,
   ⟨(15 : Nat), (32 : Nat), (((lit.modCal fun zz => { zz with rot := [(15, ({ line := 31 } : Rotation))] }).modOpt fun zz => { zz with combs := [(3, ({ lit := true, locked := true } : Comb))], fibres := [(12, ({ mode := .xn5 } : Fibre))] }) : State), by decide +kernel⟩,
   ⟨(15 : Nat), (false : Bool), (lit : State), by decide +kernel⟩,
   ⟨(15 : Nat), ({ role := true, tag := true, samples := 1048576 } : RunStats), ((lit.modCal fun zz => { zz with rot := [(15, ({ running := true, step := some { lane := 32, rolled := true } } : Rotation))] }) : State), (({ lane := 32, rolled := true } : LaneStep) : LaneStep), (0 : Nat), by decide +kernel⟩,
   ⟨(15 : Nat), ({ lost := true } : RunStats), ((lit.modCal fun zz => { zz with rot := [(15, ({ running := true, step := some { lane := 32, rolled := true, runs := 1, hasA := true, runA := [0, 0, 0, 0, 0, 0, 1000, 0] } } : Rotation))] }) : State), (({ lane := 32, rolled := true, runs := 1, hasA := true, runA := [0, 0, 0, 0, 0, 0, 1000, 0] } : LaneStep) : LaneStep), (1 : Nat), by decide +kernel⟩,
   ⟨(15 : Nat), ({ role := true, tag := true, samples := 1048576 } : RunStats), ([40, 40, 40, 40, 80, 80, 1100, 80] : List Int), ((lit.modCal fun zz => { zz with rot := [(15, ({ running := true, step := some { lane := 32, rolled := true, runs := 1, hasA := true, runA := [0, 0, 0, 0, 0, 0, 1000, 0] } } : Rotation))] }) : State), (({ lane := 32, rolled := true, runs := 1, hasA := true, runA := [0, 0, 0, 0, 0, 0, 1000, 0] } : LaneStep) : LaneStep), (0 : Nat), by decide +kernel⟩,
   ⟨(15 : Nat), ({ role := true, tag := true, samples := 1048576 } : RunStats), ((lit.modCal fun zz => { zz with rot := [(15, ({ rx := some { lane := 32, phase := .rx } } : Rotation))] }) : State), (({ lane := 32, phase := .rx } : LaneStep) : LaneStep), by decide +kernel⟩,
   ⟨(0 : Nat), (15 : Nat), (32 : Nat), (0 : Nat), (0 : Int), (100 : Int), (lit : State), by decide +kernel⟩,
   ⟨((lit.modCal fun zz => { zz with queue := [({ kind := 1, fibre := 15, lane := 32 } : JourRec)] }) : State), (({ kind := 1, fibre := 15, lane := 32 } : JourRec) : JourRec), ([] : List JourRec), by decide +kernel⟩,
   ⟨(lit : State), by decide +kernel⟩,
   ⟨([50000, 50000, 50000, 50000, 50000] : List Int), (lit : State), by decide +kernel⟩,
   ⟨(lit : State), by decide +kernel⟩⟩

theorem witness_CalibratedValuesAreInterpolated :
    (∃ (t : Int), t ≤ 3500) ∧
    (∃ (t : Int), 7500 ≤ t) ∧
    (∃ (i : Nat) (r : Nat), i < 4 ∧ r < 1000) ∧
    (∃ (pts : List Int) (item : Nat) (t : Int), 2 * (1000 * calRound pts item t - calAt pts item t).natAbs = 1000) :=
  ⟨⟨(3500 : Int), by decide +kernel⟩,
   ⟨(7500 : Int), by decide +kernel⟩,
   ⟨(3 : Nat), (999 : Nat), by decide +kernel⟩,
   ⟨([0, 0, 0, 0, 0, 0, 0, 0, 1] : List Int), (0 : Nat), (4000 : Int), by decide +kernel⟩⟩

theorem witness_CalibrationOpcodes :
    (∃ (p : Pkt) (interval : BitVec 32) (mask : BitVec 16) (s : State) (u : State), bodyState p 0x0701 (le 4 interval.toNat ++ le 2 mask.toNat) s = some u ∧ (interval = 0 ∨ (60 ≤ interval.toNat ∧ interval.toNat ≤ 86400))) ∧
    (∃ (p : Pkt) (interval : BitVec 32) (mask : BitVec 16) (s : State) (u : State), bodyState p 0x0701 (le 4 interval.toNat ++ le 2 mask.toNat) s = some u ∧ interval ≠ 0 ∧ (interval.toNat < 60 ∨ 86400 < interval.toNat)) ∧
    (∃ (p : Pkt) (f : BitVec 8) (x : BitVec 8) (s : State) (u : State), bodyState p 0x0702 (le 1 f.toNat ++ le 1 x.toNat) s = some u ∧ (16 ≤ f.toNat ∨ 33 ≤ x.toNat)) ∧
    (∃ (p : Pkt) (f : BitVec 8) (x : BitVec 8) (s : State) (u : State), bodyState p 0x0702 (le 1 f.toNat ++ le 1 x.toNat) s = some u ∧ f.toNat < 16 ∧ x.toNat < 33 ∧ litUp u = false) ∧
    (∃ (p : Pkt) (f : BitVec 8) (x : BitVec 8) (s : State) (u : State), bodyState p 0x0702 (le 1 f.toNat ++ le 1 x.toNat) s = some u ∧ f.toNat < 16 ∧ x.toNat < 33 ∧ litUp u = true ∧ (laneOf u f.toNat x.toNat).failed = true) ∧
    (∃ (p : Pkt) (f : BitVec 8) (x : BitVec 8) (s : State) (u : State), bodyState p 0x0702 (le 1 f.toNat ++ le 1 x.toNat) s = some u ∧ f.toNat < 16 ∧ x.toNat < 33 ∧ litUp u = true ∧ (rotOf u f.toNat).step ≠ none ∧ (laneSkipped u f.toNat x.toNat).1 = false) ∧
    (∃ (p : Pkt) (f : BitVec 8) (x : BitVec 8) (s : State) (u : State), bodyState p 0x0702 (le 1 f.toNat ++ le 1 x.toNat) s = some u ∧ f.toNat < 16 ∧ x.toNat < 33 ∧ litUp u = true ∧ calMode u f.toNat = 2 ∧ (laneOf u f.toNat x.toNat).failed = false ∧ (txLinkOf u f.toNat x.toNat).isSome = true ∧ calReady u f.toNat = true ∧ (fibreOf u f.toNat).apr = false ∧ (rotOf u f.toNat).want = []) ∧
    (∃ (p : Pkt) (kind : BitVec 8) (f : BitVec 8) (x : BitVec 8) (buf : Buf) (s : State) (u : State), bodyState p 0x0703 (le 1 kind.toNat ++ le 1 f.toNat ++ le 1 x.toNat ++ buf.bytes) s = some u ∧ (kind.toNat = 0 ∨ 2 < kind.toNat ∨ 16 ≤ f.toNat ∨ 33 ≤ x.toNat)) ∧
    (∃ (p : Pkt) (kind : BitVec 8) (f : BitVec 8) (x : BitVec 8) (buf : Buf) (s : State) (u : State), bodyState p 0x0703 (le 1 kind.toNat ++ le 1 f.toNat ++ le 1 x.toNat ++ buf.bytes) s = some u ∧ 1 ≤ kind.toNat ∧ kind.toNat ≤ 2 ∧ f.toNat < 16 ∧ x.toNat < 33 ∧ newestRec u.cal.journal (calKey (kind.toNat - 1) f.toNat x.toNat) = none) ∧
    (∃ (p : Pkt) (kind : BitVec 8) (f : BitVec 8) (x : BitVec 8) (buf : Buf) (s : State) (u : State) (e : Nat × JourRec), bodyState p 0x0703 (le 1 kind.toNat ++ le 1 f.toNat ++ le 1 x.toNat ++ buf.bytes) s = some u ∧ 1 ≤ kind.toNat ∧ kind.toNat ≤ 2 ∧ f.toNat < 16 ∧ x.toNat < 33 ∧ newestRec u.cal.journal (calKey (kind.toNat - 1) f.toNat x.toNat) = some e ∧ e.2.bytes.length ≤ buf.len.toNat) ∧
    (∃ (j : List (Nat × JourRec)) (key : Nat) (e : Nat × JourRec), newestRec j key = some e) ∧
    (∃ (p : Pkt) (buf : Buf) (s : State) (u : State), bodyState p 0x0704 buf.bytes s = some u ∧ 3380 ≤ buf.len.toNat) ∧
    (∃ (p : Pkt) (index : BitVec 16) (value : BitVec 128) (s : State) (u : State), bodyState p 0x0705 (le 1 0 ++ le 2 index.toNat ++ le 16 value.toNat) s = some u ∧ 5 ≤ index.toNat) ∧
    (∃ (p : Pkt) (index : BitVec 16) (value : BitVec 128) (s : State) (u : State), bodyState p 0x0705 (le 1 0 ++ le 2 index.toNat ++ le 16 value.toNat) s = some u ∧ index.toNat < 5 ∧ ((combOf u index.toNat).lit = true ∨ ceReach u 0 = false)) ∧
    (∃ (p : Pkt) (index : BitVec 16) (value : BitVec 128) (s : State) (u : State), bodyState p 0x0705 (le 1 0 ++ le 2 index.toNat ++ le 16 value.toNat) s = some u ∧ index.toNat < 5 ∧ (combOf u index.toNat).lit = false ∧ ceReach u 0 = true ∧ twf {} u.opt.combs = true) ∧
    (∃ (p : Pkt) (index : BitVec 16) (value : BitVec 128) (s : State) (u : State), bodyState p 0x0705 (le 1 1 ++ le 2 index.toNat ++ le 16 value.toNat) s = some u ∧ 825 ≤ index.toNat) ∧
    (∃ (p : Pkt) (index : BitVec 16) (value : BitVec 128) (s : State) (u : State), bodyState p 0x0705 (le 1 1 ++ le 2 index.toNat ++ le 16 value.toNat) s = some u ∧ index.toNat < 825 ∧ twf 0 u.cal.eob = true) ∧
    (∃ (p : Pkt) (f : BitVec 8) (x : BitVec 8) (side : BitVec 8) (s : State) (u : State), bodyState p 0x0706 (le 1 f.toNat ++ le 1 x.toNat ++ le 1 side.toNat) s = some u ∧ (16 ≤ f.toNat ∨ 33 ≤ x.toNat ∨ 2 ≤ side.toNat)) ∧
    (∃ (p : Pkt) (f : BitVec 8) (x : BitVec 8) (side : BitVec 8) (s : State) (u : State), bodyState p 0x0706 (le 1 f.toNat ++ le 1 x.toNat ++ le 1 side.toNat) s = some u ∧ f.toNat < 16 ∧ x.toNat < 33 ∧ twf {} u.opt.lanes = true ∧ side = 0) ∧
    (∃ (p : Pkt) (f : BitVec 8) (x : BitVec 8) (side : BitVec 8) (s : State) (u : State), bodyState p 0x0706 (le 1 f.toNat ++ le 1 x.toNat ++ le 1 side.toNat) s = some u ∧ f.toNat < 16 ∧ x.toNat < 33 ∧ twf {} u.opt.lanes = true ∧ side = 1) :=
  ⟨⟨(pk : Pkt), (86400 : BitVec 32), (0 : BitVec 16), (lit : State), (begun (pk : Pkt) 0x0701 (le 4 (86400 : BitVec 32).toNat ++ le 2 (0 : BitVec 16).toNat) (lit : State) : State), by decide +kernel⟩,
   ⟨(pk : Pkt), (86401 : BitVec 32), (0 : BitVec 16), (lit : State), (begun (pk : Pkt) 0x0701 (le 4 (86401 : BitVec 32).toNat ++ le 2 (0 : BitVec 16).toNat) (lit : State) : State), by decide +kernel⟩,
   ⟨(pk : Pkt), (16 : BitVec 8), (0 : BitVec 8), (lit : State), (begun (pk : Pkt) 0x0702 (le 1 (16 : BitVec 8).toNat ++ le 1 (0 : BitVec 8).toNat) (lit : State) : State), by decide +kernel⟩,
   ⟨(pk : Pkt), (15 : BitVec 8), (32 : BitVec 8), (awake : State), (begun (pk : Pkt) 0x0702 (le 1 (15 : BitVec 8).toNat ++ le 1 (32 : BitVec 8).toNat) (awake : State) : State), by decide +kernel⟩,
   ⟨(pk : Pkt), (15 : BitVec 8), (32 : BitVec 8), ((lit.modOpt fun zz => { zz with lanes := [(15 * 33 + 32, ({ failed := true } : Lane))] }) : State), (begun (pk : Pkt) 0x0702 (le 1 (15 : BitVec 8).toNat ++ le 1 (32 : BitVec 8).toNat) ((lit.modOpt fun zz => { zz with lanes := [(15 * 33 + 32, ({ failed := true } : Lane))] }) : State) : State), by decide +kernel⟩,
   ⟨(pk : Pkt), (15 : BitVec 8), (32 : BitVec 8), ((((lit.modCal fun zz => { zz with rot := [(15, ({ line := 31, step := some { lane := 3 } } : Rotation))] }).modOpt fun zz => { zz with combs := [(3, ({ lit := true, locked := true } : Comb))], links := [({ fibre := 15, lanes := [31, 32], inService := true } : PhysLink)] }).modJob fun zz => { zz with image := some ({ periodNs := 20000, stretchNs := 30000, slots := some {} } : Image) }) : State), (begun (pk : Pkt) 0x0702 (le 1 (15 : BitVec 8).toNat ++ le 1 (32 : BitVec 8).toNat) ((((lit.modCal fun zz => { zz with rot := [(15, ({ line := 31, step := some { lane := 3 } } : Rotation))] }).modOpt fun zz => { zz with combs := [(3, ({ lit := true, locked := true } : Comb))], links := [({ fibre := 15, lanes := [31, 32], inService := true } : PhysLink)] }).modJob fun zz => { zz with image := some ({ periodNs := 20000, stretchNs := 30000, slots := some {} } : Image) }) : State) : State), by decide +kernel⟩,
   ⟨(pk : Pkt), (15 : BitVec 8), (32 : BitVec 8), ((((lit.modCal fun zz => { zz with rot := [(15, ({ line := 31 } : Rotation))] }).modOpt fun zz => { zz with combs := [(3, ({ lit := true, locked := true } : Comb))], links := [({ fibre := 15, lanes := [31, 32], inService := true } : PhysLink)] }).modJob fun zz => { zz with image := some ({ periodNs := 20000, stretchNs := 30000, slots := some {} } : Image) }) : State), (begun (pk : Pkt) 0x0702 (le 1 (15 : BitVec 8).toNat ++ le 1 (32 : BitVec 8).toNat) ((((lit.modCal fun zz => { zz with rot := [(15, ({ line := 31 } : Rotation))] }).modOpt fun zz => { zz with combs := [(3, ({ lit := true, locked := true } : Comb))], links := [({ fibre := 15, lanes := [31, 32], inService := true } : PhysLink)] }).modJob fun zz => { zz with image := some ({ periodNs := 20000, stretchNs := 30000, slots := some {} } : Image) }) : State) : State), by decide +kernel⟩,
   ⟨(pk : Pkt), (3 : BitVec 8), (0 : BitVec 8), (0 : BitVec 8), ({ addr := 0x1000, len := 0xFFFFFFFF } : Buf), (lit : State), (begun (pk : Pkt) 0x0703 (le 1 (3 : BitVec 8).toNat ++ le 1 (0 : BitVec 8).toNat ++ le 1 (0 : BitVec 8).toNat ++ ({ addr := 0x1000, len := 0xFFFFFFFF } : Buf).bytes) (lit : State) : State), by decide +kernel⟩,
   ⟨(pk : Pkt), (2 : BitVec 8), (15 : BitVec 8), (32 : BitVec 8), ({ addr := 0x1000, len := 0xFFFFFFFF } : Buf), (lit : State), (begun (pk : Pkt) 0x0703 (le 1 (2 : BitVec 8).toNat ++ le 1 (15 : BitVec 8).toNat ++ le 1 (32 : BitVec 8).toNat ++ ({ addr := 0x1000, len := 0xFFFFFFFF } : Buf).bytes) (lit : State) : State), by decide +kernel⟩,
   ⟨(pk : Pkt), (1 : BitVec 8), (15 : BitVec 8), (32 : BitVec 8), ({ addr := 0x1000, len := 0xFFFFFFFF } : Buf), ((lit.modCal fun zz => { zz with journal := [(5, ({ kind := 1, fibre := 15, lane := 32 } : JourRec))] }) : State), (begun (pk : Pkt) 0x0703 (le 1 (1 : BitVec 8).toNat ++ le 1 (15 : BitVec 8).toNat ++ le 1 (32 : BitVec 8).toNat ++ ({ addr := 0x1000, len := 0xFFFFFFFF } : Buf).bytes) ((lit.modCal fun zz => { zz with journal := [(5, ({ kind := 1, fibre := 15, lane := 32 } : JourRec))] }) : State) : State), ((5, ({ kind := 1, fibre := 15, lane := 32 } : JourRec)) : Nat × JourRec), by decide +kernel⟩,
   ⟨([(5, ({ kind := 1, fibre := 15, lane := 32 } : JourRec))] : List (Nat × JourRec)), (calKey 0 15 32 : Nat), ((5, ({ kind := 1, fibre := 15, lane := 32 } : JourRec)) : Nat × JourRec), by decide +kernel⟩,
   ⟨(pk : Pkt), ({ addr := 0x1000, len := 0xFFFFFFFF } : Buf), (lit : State), (begun (pk : Pkt) 0x0704 ({ addr := 0x1000, len := 0xFFFFFFFF } : Buf).bytes (lit : State) : State), by decide +kernel⟩,
   ⟨(pk : Pkt), (5 : BitVec 16), (0 : BitVec 128), (lit : State), (begun (pk : Pkt) 0x0705 (le 1 0 ++ le 2 (5 : BitVec 16).toNat ++ le 16 (0 : BitVec 128).toNat) (lit : State) : State), by decide +kernel⟩,
   ⟨(pk : Pkt), (4 : BitVec 16), (0 : BitVec 128), ((lit.modOpt fun zz => { zz with combs := [(4, ({ lit := true } : Comb))] }) : State), (begun (pk : Pkt) 0x0705 (le 1 0 ++ le 2 (4 : BitVec 16).toNat ++ le 16 (0 : BitVec 128).toNat) ((lit.modOpt fun zz => { zz with combs := [(4, ({ lit := true } : Comb))] }) : State) : State), by decide +kernel⟩,
   ⟨(pk : Pkt), (4 : BitVec 16), (5 : BitVec 128), (lit : State), (begun (pk : Pkt) 0x0705 (le 1 0 ++ le 2 (4 : BitVec 16).toNat ++ le 16 (5 : BitVec 128).toNat) (lit : State) : State), by decide +kernel⟩,
   ⟨(pk : Pkt), (825 : BitVec 16), (0 : BitVec 128), (lit : State), (begun (pk : Pkt) 0x0705 (le 1 1 ++ le 2 (825 : BitVec 16).toNat ++ le 16 (0 : BitVec 128).toNat) (lit : State) : State), by decide +kernel⟩,
   ⟨(pk : Pkt), (824 : BitVec 16), (0x10000 : BitVec 128), (lit : State), (begun (pk : Pkt) 0x0705 (le 1 1 ++ le 2 (824 : BitVec 16).toNat ++ le 16 (0x10000 : BitVec 128).toNat) (lit : State) : State), by decide +kernel⟩,
   ⟨(px : Pkt), (0 : BitVec 8), (0 : BitVec 8), (2 : BitVec 8), (lit : State), (begun (px : Pkt) 0x0706 (le 1 (0 : BitVec 8).toNat ++ le 1 (0 : BitVec 8).toNat ++ le 1 (2 : BitVec 8).toNat) (lit : State) : State), by decide +kernel⟩,
   ⟨(px : Pkt), (15 : BitVec 8), (32 : BitVec 8), (0 : BitVec 8), (lit : State), (begun (px : Pkt) 0x0706 (le 1 (15 : BitVec 8).toNat ++ le 1 (32 : BitVec 8).toNat ++ le 1 (0 : BitVec 8).toNat) (lit : State) : State), by decide +kernel⟩,
   ⟨(px : Pkt), (15 : BitVec 8), (32 : BitVec 8), (1 : BitVec 8), (lit : State), (begun (px : Pkt) 0x0706 (le 1 (15 : BitVec 8).toNat ++ le 1 (32 : BitVec 8).toNat ++ le 1 (1 : BitVec 8).toNat) (lit : State) : State), by decide +kernel⟩⟩

theorem witness_ClaimsAreOrdered :
    (∃ (e : Nat), e < 2 ^ 31) :=
  ⟨(0 : Nat), by decide +kernel⟩

theorem witness_GatesObeyTheAcceptedClaim :
    (∃ (g : Nat) (u : Bool) (c : BitVec 32) (s : State), svOn s = true ∧ g < 10 ∧ claimUnit c = u ∧ epochOf c = epochOf (gateOf s g).claim + 1) ∧
    (∃ (g : Nat) (u : Bool) (c : BitVec 32) (s : State), svOn s = true ∧ g < 10 ∧ claimUnit c = u ∧ (epochOf (gateOf s g).claim + 1 < epochOf c ∨ epochOf c < epochOf (gateOf s g).claim ∨ (epochOf c = epochOf (gateOf s g).claim ∧ (gateOf s g).paired = false ∧ c < (gateOf s g).claim))) ∧
    (∃ (g : Nat) (u : Bool) (c : BitVec 32) (s : State), svOn s = true ∧ g < 10 ∧ claimUnit c = u ∧ epochOf c = epochOf (gateOf s g).claim ∧ (gateOf s g).paired = false ∧ (gateOf s g).claim < c) ∧
    (∃ (g : Nat) (u : Bool) (c : BitVec 32) (s : State), svOn s = true ∧ g < 10 ∧ claimUnit c = u ∧ epochOf c = epochOf (gateOf s g).claim ∧ ((gateOf s g).paired = true ∨ c = (gateOf s g).claim)) ∧
    (∃ (g : Nat) (u : Bool) (c : GateCmd) (s : State), svOn s = true ∧ g < 10 ∧ claimUnit c.claim = u) ∧
    (∃ (g : Nat) (u : Bool) (c : GateCmd) (s : State), svOn s = true ∧ g < 10 ∧ claimUnit c.claim = u ∧ gateObeys (gateOf s g) c.claim = false) ∧
    (∃ (g : Nat) (u : Bool) (c : GateCmd) (s : State), svOn s = true ∧ g < 10 ∧ claimUnit c.claim = u ∧ gateObeys (gateOf s g) c.claim = true ∧ c.seq.toNat = (gateOf s g).ack.toNat + 1 ∧ (gateOf s g).ahead = [] ∧ (gateOf s g).paired = false) ∧
    (∃ (g : Nat) (u : Bool) (c : GateCmd) (s : State), svOn s = true ∧ g < 10 ∧ claimUnit c.claim = u ∧ gateObeys (gateOf s g) c.claim = true ∧ c.seq.toNat = (gateOf s g).ack.toNat + 1 ∧ (gateOf s g).ahead = [] ∧ (gateOf s g).paired = true ∧ (gateOf s g).first = none) ∧
    (∃ (g : Nat) (u : Bool) (c : GateCmd) (s : State) (a : GateCmd), svOn s = true ∧ g < 10 ∧ claimUnit c.claim = u ∧ gateObeys (gateOf s g) c.claim = true ∧ c.seq.toNat = (gateOf s g).ack.toNat + 1 ∧ (gateOf s g).ahead = [] ∧ (gateOf s g).paired = true ∧ (gateOf s g).first = some a ∧ a.claim ≠ c.claim ∧ a.same c = true) ∧
    (∃ (g : Nat) (u : Bool) (c : GateCmd) (s : State), svOn s = true ∧ g < 10 ∧ claimUnit c.claim = u ∧ gateObeys (gateOf s g) c.claim = true ∧ c.seq.toNat ≤ (gateOf s g).ack.toNat ∧ twf {} s.pfx.gates = true) ∧
    (∃ (g : Nat) (u : Bool) (c : GateCmd) (s : State), svOn s = true ∧ g < 10 ∧ claimUnit c.claim = u ∧ gateObeys (gateOf s g) c.claim = true ∧ (gateOf s g).ack.toNat + 1 < c.seq.toNat ∧ (gateOf s g).ahead.length < 16) ∧
    (∃ (g : Nat) (s : State) (c : GateCmd), svOn s = true ∧ (gateOf s g).first = some c ∧ (gateOf s g).ahead = []) ∧
    (∃ (g : Nat) (s : State), (gateOf s g).first = none) ∧
    (∃ (g : Nat) (s : State), svOn s = true ∧ g < 10) ∧
    (∃ (g : Nat) (u : Bool) (s : State), unitAlive s u = true ∧ unitSends (unitOf s u).role = true ∧ g < 10) ∧
    (∃ (u : Bool) (s : State), unitSends (unitOf s u).role = false) :=
  ⟨⟨(9 : Nat), (true : Bool), (9 : BitVec 32), ((lit.modPfx fun zz => { zz with gates := [(9, ({ claim := 7 } : Gate))] }) : State), by decide +kernel⟩,
   ⟨(9 : Nat), (false : Bool), (6 : BitVec 32), ((lit.modPfx fun zz => { zz with gates := [(9, ({ claim := 7 } : Gate))] }) : State), by decide +kernel⟩,
   ⟨(9 : Nat), (true : Bool), (7 : BitVec 32), ((lit.modPfx fun zz => { zz with gates := [(9, ({ claim := 6 } : Gate))] }) : State), by decide +kernel⟩,
   ⟨(9 : Nat), (true : Bool), (7 : BitVec 32), ((lit.modPfx fun zz => { zz with gates := [(9, ({ claim := 7 } : Gate))] }) : State), by decide +kernel⟩,
   ⟨(9 : Nat), (true : Bool), (({ claim := 7 } : GateCmd) : GateCmd), ((lit.modPfx fun zz => { zz with gates := [(9, ({ claim := 7 } : Gate))] }) : State), by decide +kernel⟩,
   ⟨(9 : Nat), (true : Bool), (({ claim := 9 } : GateCmd) : GateCmd), ((lit.modPfx fun zz => { zz with gates := [(9, ({ claim := 7 } : Gate))] }) : State), by decide +kernel⟩,
   ⟨(9 : Nat), (true : Bool), (({ claim := 7, seq := 1, opc := 3 } : GateCmd) : GateCmd), ((lit.modPfx fun zz => { zz with gates := [(9, ({ claim := 7 } : Gate))] }) : State), by decide +kernel⟩,
   ⟨(9 : Nat), (true : Bool), (({ claim := 7, seq := 1, opc := 3 } : GateCmd) : GateCmd), ((lit.modPfx fun zz => { zz with gates := [(9, ({ claim := 7, paired := true } : Gate))] }) : State), by decide +kernel⟩,
   ⟨(9 : Nat), (true : Bool), (({ claim := 7, seq := 1, opc := 3 } : GateCmd) : GateCmd), ((lit.modPfx fun zz => { zz with gates := [(9, ({ claim := 7, paired := true, first := some { claim := 6, seq := 1, opc := 3 } } : Gate))] }) : State), (({ claim := 6, seq := 1, opc := 3 } : GateCmd) : GateCmd), by decide +kernel⟩,
   ⟨(9 : Nat), (true : Bool), (({ claim := 7, seq := 1 } : GateCmd) : GateCmd), ((lit.modPfx fun zz => { zz with gates := [(9, ({ claim := 7, ack := 1 } : Gate))] }) : State), by decide +kernel⟩,
   ⟨(9 : Nat), (true : Bool), (({ claim := 7, seq := 3 } : GateCmd) : GateCmd), ((lit.modPfx fun zz => { zz with gates := [(9, ({ claim := 7, ack := 1 } : Gate))] }) : State), by decide +kernel⟩,
   ⟨(9 : Nat), ((lit.modPfx fun zz => { zz with gates := [(9, ({ claim := 7, paired := true, first := some { claim := 7, seq := 1 } } : Gate))] }) : State), (({ claim := 7, seq := 1 } : GateCmd) : GateCmd), by decide +kernel⟩,
   ⟨(0 : Nat), (lit : State), by decide +kernel⟩,
   ⟨(9 : Nat), (lit : State), by decide +kernel⟩,
   ⟨(9 : Nat), (false : Bool), (lit : State), by decide +kernel⟩,
   ⟨(true : Bool), (lit : State), by decide +kernel⟩⟩

theorem witness_PrefectsWatchEachOther :
    (∃ (u : Bool) (s : State), unitAlive s u = true) ∧
    (∃ (u : Bool) (s : State), unitAlive s u = false) ∧
    (∃ (u : Bool) (b : Bytes) (s : State), (hbGood b = false ∨ bit (rd b 0 16) 127 = u ∨ unitAlive s u = false)) ∧
    (∃ (u : Bool) (b : Bytes) (s : State), hbGood b = true ∧ bit (rd b 0 16) 127 = (!u) ∧ unitAlive s u = true ∧ fld (rd b 0 16) 32 20 = (unitOf s u).rxCount.toNat) ∧
    (∃ (u : Bool) (b : Bytes) (s : State), hbGood b = true ∧ bit (rd b 0 16) 127 = (!u) ∧ unitAlive s u = true ∧ fld (rd b 0 16) 32 20 ≠ (unitOf s u).rxCount.toNat ∧ fld (rd b 0 16) 84 3 = 7) ∧
    (∃ (u : Bool) (b : Bytes) (s : State), hbGood b = true ∧ bit (rd b 0 16) 127 = (!u) ∧ unitAlive s u = true ∧ fld (rd b 0 16) 32 20 ≠ (unitOf s u).rxCount.toNat ∧ fld (rd b 0 16) 84 3 ≠ 7 ∧ (unitOf s (!u)).role ≠ .failed ∧ epochOf (acceptedClaim s) < 0x7FFFFFFF) ∧
    (∃ (u : Bool) (s : State), unitAlive s u = true ∧ (unitOf s u).misses + 1 ≠ 3) ∧
    (∃ (u : Bool) (s : State), unitAlive s u = true ∧ (unitOf s u).misses + 1 = 3 ∧ (unitOf s u).partnerClaimed = false ∧ (unitOf s (!u)).role ≠ .failed ∧ epochOf (acceptedClaim s) < 0x7FFFFFFF) ∧
    (∃ (u : Bool) (s : State), unitAlive s u = true ∧ (unitOf s u).misses + 1 = 3 ∧ (unitOf s u).partnerClaimed = true) ∧
    (∃ (g : Nat) (u : Bool) (a : BitVec 32) (s : State), unitAlive s u = true ∧ g < 10 ∧ (unitOf s u).claiming = true ∧ a = (unitOf s u).claim ∧ allHold s a = true) ∧
    (∃ (g : Nat) (u : Bool) (pair : Bool) (a : BitVec 32) (s : State), unitAlive s u = true ∧ g < 10 ∧ (unitOf s u).claim < a ∧ pair = false ∧ (unitSends (unitOf s u).role = true ∨ (unitOf s u).claiming = true ∨ (unitOf s u).settling = true)) ∧
    (∃ (g : Nat) (u : Bool) (pair : Bool) (a : BitVec 32) (s : State), unitAlive s u = true ∧ g < 10 ∧ epochOf (unitOf s u).claim < epochOf a ∧ pair = true ∧ (unitOf s u).pathFault = false) ∧
    (∃ (u : Bool) (s : State), unitAlive s u = true ∧ (unitOf s u).settling = true ∧ allHold s (unitOf s u).claim = true) ∧
    (∃ (u : Bool) (s : State), (unitOf s u).settling = false) ∧
    (∃ (u : Bool) (s : State), unitAlive s u = true ∧ ((unitOf s u).claiming = false ∨ (∃ g, g < 10 ∧ (gateOf s g).claim = (unitOf s u).claim))) ∧
    (∃ (u : Bool) (s : State), unitAlive s u = true ∧ (unitOf s u).claiming = true ∧ ((∀ g, g < 10 → (gateOf s g).claim ≠ (unitOf s u).claim)) ∧ (unitOf s u).retries < 3) ∧
    (∃ (u : Bool) (s : State), unitAlive s u = true ∧ (unitOf s u).claiming = true ∧ ((∀ g, g < 10 → (gateOf s g).claim ≠ (unitOf s u).claim)) ∧ 3 ≤ (unitOf s u).retries ∧ ((∀ e ∈ (unitOf s u).ackSeen, (gateOf s e.1).ack = e.2))) ∧
    (∃ (u : Bool) (s : State), unitAlive s u = true ∧ (unitOf s u).claiming = true ∧ ((∀ g, g < 10 → (gateOf s g).claim ≠ (unitOf s u).claim)) ∧ 3 ≤ (unitOf s u).retries ∧ ((∃ e ∈ (unitOf s u).ackSeen, (gateOf s e.1).ack ≠ e.2))) ∧
    (∃ (g : Nat) (u : Bool) (s : State), unitAlive s u = true ∧ g < 10 ∧ (gateOf s g).paired = true ∧ (unitOf s u).role = .pairedSender ∧ (if u then (gateOf s g).seenB else (gateOf s g).seenA).toNat + 8 < (gateOf s g).ack.toNat ∧ epochOf (acceptedClaim s) < 0x7FFFFFFF) ∧
    (∃ (g : Nat) (u : Bool) (s : State), unitAlive s u = true ∧ g < 10 ∧ (gateOf s g).paired = false) ∧
    (∃ (c : Bool) (s : State), svOn s = true ∧ c = controller s ∧ s.pfx.noAccepted = false ∧ (unitOf s (!c)).role = .standby ∧ (unitOf s (!c)).health.toNat % 16 = 15 ∧ epochOf (acceptedClaim s) < 0x7FFFFFFF) ∧
    (∃ (c : Bool) (s : State), svOn s = true ∧ c = controller s ∧ s.pfx.noAccepted = false ∧ (unitOf s c).role ≠ .off ∧ (unitOf s (!c)).role = .failed) ∧
    (∃ (c : Bool) (s : State), svOn s = true ∧ c = controller s ∧ s.pfx.noAccepted = true) :=
  ⟨⟨(false : Bool), (lit : State), by decide +kernel⟩,
   ⟨(false : Bool), (State.reset : State), by decide +kernel⟩,
   ⟨(false : Bool), ([] : Bytes), (lit : State), by decide +kernel⟩,
   ⟨(false : Bool), ((le 4 (crc32c (le 12 39614081257163693994163568640)) ++ le 12 39614081257163693994163568640) : Bytes), (lit : State), by decide +kernel⟩,
   ⟨(false : Bool), ((le 4 (crc32c (le 12 39614081257163693994163568645)) ++ le 12 39614081257163693994163568645) : Bytes), (lit : State), by decide +kernel⟩,
   ⟨(false : Bool), ((le 4 (crc32c (le 12 39614081257145679595654086661)) ++ le 12 39614081257145679595654086661) : Bytes), (lit : State), by decide +kernel⟩,
   ⟨(false : Bool), (lit : State), by decide +kernel⟩,
   ⟨(false : Bool), ((lit.modPfx fun zz => { zz with pa := { role := .controlling, misses := 2, partnerClaimed := false } }) : State), by decide +kernel⟩,
   ⟨(false : Bool), ((lit.modPfx fun zz => { zz with pa := { role := .controlling, misses := 2, partnerClaimed := true } }) : State), by decide +kernel⟩,
   ⟨(9 : Nat), (true : Bool), (3 : BitVec 32), ((lit.modPfx fun zz => { zz with gates := (List.range 10).map fun k => (k, ({ claim := 3 } : Gate)), pb := { role := .standby, claiming := true, claim := 3 } }) : State), by decide +kernel⟩,
   ⟨(9 : Nat), (false : Bool), (false : Bool), (5 : BitVec 32), (lit : State), by decide +kernel⟩,
   ⟨(9 : Nat), (false : Bool), (true : Bool), (5 : BitVec 32), (lit : State), by decide +kernel⟩,
   ⟨(true : Bool), ((lit.modPfx fun zz => { zz with gates := (List.range 10).map fun k => (k, ({ claim := 3 } : Gate)), pb := { role := .standby, settling := true, claim := 3 } }) : State), by decide +kernel⟩,
   ⟨(true : Bool), (lit : State), by decide +kernel⟩,
   ⟨(true : Bool), (lit : State), by decide +kernel⟩,
   ⟨(true : Bool), ((lit.modPfx fun zz => { zz with pb := { role := .standby, claiming := true, claim := 3, retries := 2 } }) : State), by decide +kernel⟩,
   ⟨(true : Bool), ((lit.modPfx fun zz => { zz with pb := { role := .standby, claiming := true, claim := 3, retries := 3 } }) : State), by decide +kernel⟩,
   ⟨(true : Bool), ((lit.modPfx fun zz => { zz with pb := { role := .standby, claiming := true, claim := 3, retries := 3, ackSeen := [(2, 5)] } }) : State), by decide +kernel⟩,
   ⟨(9 : Nat), (true : Bool), ((lit.modPfx fun zz => { zz with pa := { role := .pairedSender }, pb := { role := .pairedSender }, gates := (List.range 10).map fun k => (k, ({ claim := 2, paired := true, ack := 9 } : Gate)) }) : State), by decide +kernel⟩,
   ⟨(9 : Nat), (false : Bool), (lit : State), by decide +kernel⟩,
   ⟨(false : Bool), (lit : State), by decide +kernel⟩,
   ⟨(false : Bool), ((lit.modPfx fun zz => { zz with pb := { role := .failed } }) : State), by decide +kernel⟩,
   ⟨(false : Bool), ((lit.modPfx fun zz => { zz with noAccepted := true }) : State), by decide +kernel⟩⟩

theorem witness_ModesRevertsAndPrefectOpcodes :
    (∃ (s : State), svOn s = true ∧ homeReady s = true ∧ s.pfx.revertEn = true ∧ noClaim s = true ∧ planBusy s = true) ∧
    (∃ (s : State), svOn s = true ∧ homeReady s = true ∧ s.pfx.revertEn = true ∧ noClaim s = true ∧ planBusy s = false ∧ hourReverts s < 3 ∧ epochOf (acceptedClaim s) < 0x7FFFFFFF) ∧
    (∃ (s : State), svOn s = true ∧ homeReady s = true ∧ s.pfx.revertEn = true ∧ noClaim s = true ∧ planBusy s = false ∧ 3 ≤ hourReverts s) ∧
    (∃ (s : State), homeReady s = false) ∧
    (∃ (s : State) (hot : Bool) (r : PktRef), svOn s = true ∧ s.pfx.modePkt = some (hot, some r)) ∧
    (∃ (s : State) (hot : Bool), svOn s = true ∧ s.pfx.modePkt = some (hot, none)) ∧
    (∃ (s : State), s.pfx.modePkt = none) ∧
    (∃ (p : Pkt) (s : State) (u : State), bodyState p 0x0801 [] s = some u) ∧
    (∃ (p : Pkt) (limit : BitVec 16) (s : State) (u : State), bodyState p 0x0802 (le 2 limit.toNat) s = some u ∧ 4096 < limit.toNat) ∧
    (∃ (p : Pkt) (limit : BitVec 16) (s : State) (u : State), bodyState p 0x0802 (le 2 limit.toNat) s = some u ∧ limit.toNat ≤ 4096) ∧
    (∃ (p : Pkt) (unit : BitVec 8) (hold : BitVec 16) (s : State) (u : State), bodyState p 0x0803 (le 1 unit.toNat ++ le 2 hold.toNat) s = some u ∧ (2 ≤ unit.toNat ∨ hold = 0 ∨ 3600 < hold.toNat)) ∧
    (∃ (p : Pkt) (unit : BitVec 8) (hold : BitVec 16) (s : State) (u : State), bodyState p 0x0803 (le 1 unit.toNat ++ le 2 hold.toNat) s = some u ∧ unit.toNat < 2 ∧ 1 ≤ hold.toNat ∧ hold.toNat ≤ 3600) ∧
    (∃ (p : Pkt) (s : State) (u : State), bodyState p 0x0804 [] s = some u) ∧
    (∃ (p : Pkt) (c : Bool) (s : State) (u : State), bodyState p 0x0805 [] s = some u ∧ c = controller u ∧ (u.pfx.noAccepted = true ∨ healthy u (!c) = false ∨ planBusy u = true ∨ noClaim u = false)) ∧
    (∃ (p : Pkt) (c : Bool) (s : State) (u : State), bodyState p 0x0805 [] s = some u ∧ c = controller u ∧ u.pfx.noAccepted = false ∧ healthy u (!c) = true ∧ planBusy u = false ∧ noClaim u = true ∧ (unitOf u (!c)).role = .standby ∧ epochOf (acceptedClaim u) < 0x7FFFFFFF) :=
  ⟨⟨(((lit.modPfx fun zz => { zz with pa := { role := .standby, health := 0x3F }, pb := { role := .controlling, health := 0x3F }, gates := (List.range 10).map fun k => (k, ({ claim := 3 } : Gate)) }).modSw fun zz => { zz with fbRun := some { fallback := some 4 } }) : State), by decide +kernel⟩,
   ⟨((lit.modPfx fun zz => { zz with pa := { role := .standby, health := 0x3F }, pb := { role := .controlling, health := 0x3F }, gates := (List.range 10).map fun k => (k, ({ claim := 3 } : Gate)) }) : State), by decide +kernel⟩,
   ⟨((lit.modPfx fun zz => { zz with pa := { role := .standby, health := 0x3F }, pb := { role := .controlling, health := 0x3F }, gates := (List.range 10).map fun k => (k, ({ claim := 3 } : Gate)), reverts := [0, 0, 0] }) : State), by decide +kernel⟩,
   ⟨(lit : State), by decide +kernel⟩,
   ⟨((lit.modPfx fun zz => { zz with modePkt := some (true, some {}) }) : State), (true : Bool), ({} : PktRef), by decide +kernel⟩,
   ⟨((lit.modPfx fun zz => { zz with modePkt := some (true, none) }) : State), (true : Bool), by decide +kernel⟩,
   ⟨(lit : State), by decide +kernel⟩,
   ⟨(pk : Pkt), (lit : State), (begun (pk : Pkt) 0x0801 [] (lit : State) : State), by decide +kernel⟩,
   ⟨(pk : Pkt), (4097 : BitVec 16), (lit : State), (begun (pk : Pkt) 0x0802 (le 2 (4097 : BitVec 16).toNat) (lit : State) : State), by decide +kernel⟩,
   ⟨(pk : Pkt), (4096 : BitVec 16), (lit : State), (begun (pk : Pkt) 0x0802 (le 2 (4096 : BitVec 16).toNat) (lit : State) : State), by decide +kernel⟩,
   ⟨(pk : Pkt), (1 : BitVec 8), (3601 : BitVec 16), (lit : State), (begun (pk : Pkt) 0x0803 (le 1 (1 : BitVec 8).toNat ++ le 2 (3601 : BitVec 16).toNat) (lit : State) : State), by decide +kernel⟩,
   ⟨(pk : Pkt), (1 : BitVec 8), (3600 : BitVec 16), (lit : State), (begun (pk : Pkt) 0x0803 (le 1 (1 : BitVec 8).toNat ++ le 2 (3600 : BitVec 16).toNat) (lit : State) : State), by decide +kernel⟩,
   ⟨(pk : Pkt), (lit : State), (begun (pk : Pkt) 0x0804 [] (lit : State) : State), by decide +kernel⟩,
   ⟨(px : Pkt), (controller (begun (px : Pkt) 0x0805 [] ((lit.modPfx fun zz => { zz with noAccepted := true }) : State) : State) : Bool), ((lit.modPfx fun zz => { zz with noAccepted := true }) : State), (begun (px : Pkt) 0x0805 [] ((lit.modPfx fun zz => { zz with noAccepted := true }) : State) : State), by decide +kernel⟩,
   ⟨(px : Pkt), (controller (begun (px : Pkt) 0x0805 [] (lit : State) : State) : Bool), (lit : State), (begun (px : Pkt) 0x0805 [] (lit : State) : State), by decide +kernel⟩⟩

theorem witness_EveryStepKeepsTheMemoryForm :
    (∃ (s : State) (t : State), step s = .next t ∧ s.memWf = true) ∧
    (∃ (s : State) (t : State), step s = .next t ∧ s.mergesDistinct) :=
  ⟨⟨({ lit with pending := [.timeStatus pk] } : State), (after (.timeStatus pk) lit : State), ⟨rfl, by decide +kernel⟩⟩,
   ⟨({ lit with pending := [.timeStatus pk] } : State), (after (.timeStatus pk) lit : State), ⟨rfl, ⟨by decide +kernel, by decide +kernel⟩⟩⟩⟩

theorem witness_MemoryChangesOnlyByItsCommands :
    (∃ (c : Instr) (s : State) (t : State), exec c s = .next t ∧ writesLpddr c = false) ∧
    (∃ (c : Instr) (s : State) (t : State), exec c s = .next t ∧ writesTiles c = false) :=
  ⟨⟨(.timeStatus pk : Instr), (lit : State), (after (.timeStatus pk : Instr) (lit : State) : State), ⟨rfl, rfl⟩⟩,
   ⟨(.timeStatus pk : Instr), (lit : State), (after (.timeStatus pk : Instr) (lit : State) : State), ⟨rfl, rfl⟩⟩⟩

theorem witness_GuardedStateChangesOnlyByItsCommands :
    (∃ (c : Instr) (s : State) (t : State), exec c s = .next t ∧ extendsMeasurements c = false) ∧
    (∃ (c : Instr) (s : State) (t : State), exec c s = .next t ∧ commandsGates c = false) ∧
    (∃ (c : Instr) (s : State) (t : State), exec c s = .next t ∧ setsTime c = false) ∧
    (∃ (c : Instr) (s : State) (t : State), exec c s = .next t ∧ loadsImages c = false) :=
  ⟨⟨(.timeStatus pk : Instr), (lit : State), (after (.timeStatus pk : Instr) (lit : State) : State), ⟨rfl, rfl⟩⟩,
   ⟨(.timeStatus pk : Instr), (lit : State), (after (.timeStatus pk : Instr) (lit : State) : State), ⟨rfl, rfl⟩⟩,
   ⟨(.timeStatus pk : Instr), (lit : State), (after (.timeStatus pk : Instr) (lit : State) : State), ⟨rfl, rfl⟩⟩,
   ⟨(.timeStatus pk : Instr), (lit : State), (after (.timeStatus pk : Instr) (lit : State) : State), ⟨rfl, rfl⟩⟩⟩

theorem witness_InterleaveHashIsABijection :
    (∃ (d : Nat) (o : Nat), d < 4 ∧ o < 0x18000000000) ∧
    (∃ (c : Coord), c.ch < 256 ∧ c.sub < 2 ∧ c.bank < 16 ∧ c.row < 98304 ∧ c.burst < 256) ∧
    (∃ (err : ReadErr) (q : MemSrc) (a : Nat) (n : Nat) (s : State) (t : State) (d : Bytes), a + n ≤ 0x60000000000 ∧ 0 < n ∧ a % 32 + n ≤ 32 ∧ chanUp s (toCoord s.mem.ikey.toNat (a / 0x18000000000) (a % 0x18000000000)).ch = true ∧ readBurst err (toCoord s.mem.ikey.toNat (a / 0x18000000000) (a % 0x18000000000)) q s = (some d, t)) ∧
    (∃ (p : Pkt) (addr : BitVec 64) (number : BitVec 64) (seed : BitVec 64) (key : BitVec 64) (len : BitVec 32) (s : State) (u : State), bodyState p 0x0204 (le 8 addr.toNat ++ le 4 len.toNat ++ le 8 number.toNat ++ le 8 seed.toNat ++ le 8 key.toNat) s = some u ∧ (key.toNat >>> 35 ≠ 0 ∨ (∃ i, i < 5 ∧ 6 ≤ (key.toNat >>> (3 * i)) &&& 7))) :=
  ⟨⟨(3 : Nat), (0x17FFFFFFFFF : Nat), by decide +kernel⟩,
   ⟨({ ch := 255, sub := 1, bank := 15, row := 98303, burst := 255 } : Coord), by decide +kernel⟩,
   ⟨({} : ReadErr), ({ kind := 1 } : MemSrc), (0x5FFFFFFFFFB : Nat), (5 : Nat), (lit : State), ((readBurst ({} : ReadErr) (toCoord (lit : State).mem.ikey.toNat ((0x5FFFFFFFFFB : Nat) / 0x18000000000) ((0x5FFFFFFFFFB : Nat) % 0x18000000000)) ({ kind := 1 } : MemSrc) (lit : State)).2 : State), (zeros 32 : Bytes), by decide +kernel⟩,
   ⟨(pk : Pkt), (0 : BitVec 64), (0 : BitVec 64), (0 : BitVec 64), (0x800000000 : BitVec 64), (0 : BitVec 32), (lit : State), (begun (pk : Pkt) 0x0204 (le 8 (0 : BitVec 64).toNat ++ le 4 (0 : BitVec 32).toNat ++ le 8 (0 : BitVec 64).toNat ++ le 8 (0 : BitVec 64).toNat ++ le 8 (0x800000000 : BitVec 64).toNat) (lit : State) : State), by decide +kernel⟩⟩

theorem witness_WrittenBurstsReadBack :
    (∃ (d : Bytes), d.length = 32) ∧
    (∃ (a : Nat) (d : Bytes) (s : State) (c : Coord), a % 32 = 0 ∧ a + 32 ≤ 0x60000000000 ∧ d.length = 32 ∧ Memory.wf s.mem.cells = true ∧ c = toCoord s.mem.ikey.toNat (a / 0x18000000000) (a % 0x18000000000) ∧ chanUp s c.ch = true ∧ (s.mem.merge.map (·.key)).Nodup) ∧
    (∃ (a : Nat) (d : Bytes) (s : State) (c : Coord) (i : Nat), a % 32 = 0 ∧ a + 32 ≤ 0x60000000000 ∧ d.length = 32 ∧ Memory.wf s.mem.cells = true ∧ c = toCoord s.mem.ikey.toNat (a / 0x18000000000) (a % 0x18000000000) ∧ chanUp s c.ch = true ∧ (s.mem.merge.map (·.key)).Nodup ∧ i < 32) ∧
    (∃ (a : Nat) (d : Bytes) (s : State) (c : Coord) (b : Nat), a % 32 = 0 ∧ a + 32 ≤ 0x60000000000 ∧ d.length = 32 ∧ Memory.wf s.mem.cells = true ∧ c = toCoord s.mem.ikey.toNat (a / 0x18000000000) (a % 0x18000000000) ∧ chanUp s c.ch = true ∧ (s.mem.merge.map (·.key)).Nodup ∧ (b < 36 * c.no s ∨ 36 * c.no s + 36 ≤ b)) ∧
    (∃ (a : Nat) (d : Bytes) (s : State), a % 8 = 0 ∧ 0x80000000000 ≤ a ∧ a + 8 ≤ 0x80080000000 ∧ d.length = 8 ∧ Memory.wf s.ts.cells = true) ∧
    (∃ (a : Nat) (d : Bytes) (s : State) (b : Nat), a % 8 = 0 ∧ 0x80000000000 ≤ a ∧ a + 8 ≤ 0x80080000000 ∧ d.length = 8 ∧ Memory.wf s.ts.cells = true ∧ (b < a - 0x80000000000 ∨ a - 0x80000000000 + 8 ≤ b)) :=
  ⟨⟨([1] ++ zeros 31 : Bytes), by decide +kernel⟩,
   ⟨(0x5FFFFFFFFE0 : Nat), ([1, 2] ++ zeros 29 ++ [3] : Bytes), (lit : State), (toCoord (lit : State).mem.ikey.toNat ((0x5FFFFFFFFE0 : Nat) / 0x18000000000) ((0x5FFFFFFFFE0 : Nat) % 0x18000000000) : Coord), by decide +kernel⟩,
   ⟨(0x5FFFFFFFFE0 : Nat), ([1, 2] ++ zeros 29 ++ [3] : Bytes), (lit : State), (toCoord (lit : State).mem.ikey.toNat ((0x5FFFFFFFFE0 : Nat) / 0x18000000000) ((0x5FFFFFFFFE0 : Nat) % 0x18000000000) : Coord), (31 : Nat), by decide +kernel⟩,
   ⟨(0x5FFFFFFFFE0 : Nat), ([1, 2] ++ zeros 29 ++ [3] : Bytes), (lit : State), (toCoord (lit : State).mem.ikey.toNat ((0x5FFFFFFFFE0 : Nat) / 0x18000000000) ((0x5FFFFFFFFE0 : Nat) % 0x18000000000) : Coord), (5 : Nat), by decide +kernel⟩,
   ⟨(0x8007FFFFFF8 : Nat), ([1, 2, 3, 4, 5, 6, 7, 8] : Bytes), (lit : State), by decide +kernel⟩,
   ⟨(0x8007FFFFFF8 : Nat), ([1, 2, 3, 4, 5, 6, 7, 8] : Bytes), (lit : State), (5 : Nat), by decide +kernel⟩⟩

theorem witness_SymbolErrorsAreCorrected :
    (∃ (d : Bytes) (p : Nat) (e : BitVec 8), d.length = 32 ∧ p < 36 ∧ e ≠ 0) ∧
    (∃ (d : Bytes) (p : Nat) (q : Nat) (e : BitVec 8) (f : BitVec 8), d.length = 32 ∧ p < q ∧ q < 36 ∧ e ≠ 0 ∧ f ≠ 0) :=
  ⟨⟨([1] ++ zeros 31 : Bytes), (35 : Nat), (1 : BitVec 8), by decide +kernel⟩,
   ⟨([1] ++ zeros 31 : Bytes), (34 : Nat), (35 : Nat), (1 : BitVec 8), (255 : BitVec 8), by decide +kernel⟩⟩

/-! ### Commands that name no unit of the module are not well formed -/

theorem ill_fibre : Instr.wf (.aprEntry 16) = false ∧ Instr.wf (.aprEntry 15) = true := by decide
theorem ill_lane : Instr.wf (.xn5LineIdle 0 33) = false ∧ Instr.wf (.xn5LineIdle 16 0) = false ∧ Instr.wf (.xn5LineIdle 15 32) = true := by decide
theorem ill_link : Instr.wf (.serviceCellSlot 0 8) = false ∧ Instr.wf (.serviceCellSlot 15 7) = true := by decide
theorem ill_gate : Instr.wf (.gateReadbackRequest 10) = false ∧ Instr.wf (.gateReadbackRequest 9) = true := by decide
theorem ill_loop : Instr.wf (.loopSample 6 0 [] [] [] false) = false ∧ Instr.wf (.loopSample 0 512 [] [] [] false) = false ∧
    Instr.wf (.loopSample 5 511 [] [] [] false) = true := by decide
theorem ill_die : Instr.wf (.idleRefresh 4 0) = false ∧ Instr.wf (.idleRefresh 0 16) = false ∧ Instr.wf (.idleRefresh 3 15) = true := by decide
theorem ill_hx : Instr.wf (.hxTransferEnd 2 0 [] true {}) = false ∧ Instr.wf (.hxTransferEnd 0 16 [] true {}) = false ∧ Instr.wf (.hxTransferEnd 1 15 [] true {}) = true := by decide
theorem ill_forward : Instr.wf (.streamTxStalled 0 2) = false ∧ Instr.wf (.streamTxStalled 0 1) = true := by decide
theorem ill_package : Instr.wf (.emergencyRefreshDue 64) = false ∧ Instr.wf (.emergencyRefreshDue 63) = true := by decide
theorem ill_cage : Instr.wf (.cagePresencePoll 4 0 true [] true) = false ∧ Instr.wf (.cagePresencePoll 0 2 true [] true) = false ∧ Instr.wf (.cagePresencePoll 3 1 true [] true) = true := by decide
theorem ill_comb : Instr.wf (.combSourceFault 5 0 0) = false ∧ Instr.wf (.combSourceFault 4 0 0) = true := by decide
theorem ill_link_port : Instr.wf (.p2pAck 128 []) = false ∧ Instr.wf (.p2pAck 127 []) = true := by decide
theorem ill_face_port : Instr.wf (.faceplatePortDown 64) = false ∧ Instr.wf (.faceplatePortDown 63) = true := by decide
theorem ill_ptp_port : Instr.wf (.announceSend 0) = false ∧ Instr.wf (.announceSend 25) = false ∧ Instr.wf (.announceSend 24) = true := by decide
theorem ill_bell : Instr.wf (.internalBellRing 64) = false ∧ Instr.wf (.internalBellRing 63) = true ∧ Instr.wf (.pinBellRing 8) = false ∧ Instr.wf (.pinBellRing 7) = true := by decide
theorem ill_ring_port : Instr.wf (.ringStepComplete 32 17 0 0 true) = false ∧ Instr.wf (.ringStepComplete 32 16 15 0 true) = true := by decide
theorem ill_test : Instr.wf (.calRunComplete 0 false [] {} 0) = false ∧ Instr.wf (.calRunComplete 0 false [] { arms := [{}, {}, {}, {}] } 0) = true := by decide
theorem ill_aperture : Instr.wf (.apertureWrite 1048576 []) = false ∧ Instr.wf (.apertureWrite 1048575 []) = true := by decide
theorem ill_bar0 : Instr.wf (.ftNowLowRead 33554432 4) = false ∧ Instr.wf (.ftNowLowRead 33554428 4) = true := by decide
theorem ill_bar2 : Instr.wf (.bar2Write 68719476736 []) = false ∧ Instr.wf (.bar2Write 68719476735 []) = true := by decide

/-! ### The table gives its commands no bits -/

theorem test_no_word (n w : Nat) : decodeTableWord n w = none := rfl
theorem test_idle : step State.reset = .next (tick State.reset) := rfl

/-! ### Values that the spec works out -/

/-- Chapter 2: C2.MX17, C1.HX00 and SV.CE5. -/
theorem test_stations : mkStn 2 1 17 = 0x2111 ∧ mkStn 1 6 0 = 0x1600 ∧ mkStn 4 7 5 = 0x4705 := by decide

/-- Chapter 2: an MXFP8 tile of 248 rows of 256 columns. -/
theorem test_mx_tile : (⟨0x15, 248, 256, 0, 0, 0⟩ : Shape).elemLen = 63488 ∧ (⟨0x15, 248, 256, 0, 0, 0⟩ : Shape).scaleOff = 1984 ∧
    (⟨0x15, 248, 256, 0, 0, 0⟩ : Shape).plen = 65472 := by decide +kernel

/-- Chapter 3: an MMA at offset 583. -/
theorem test_issue_word : iwOff 0x000091C40C007F080200000000000000#128 = 583 ∧
    iwArgs 0x000091C40C007F080200000000000000#128 = [0, 1, 63, 2, 0, 2, 0] := by decide +kernel

/-- Chapter 4: four BF16 addends on the grid −8. -/
theorem test_grid : (([0x4380, 0x3F81, 0xC380, 0x3BC0].map fun c => (contrib (readElem 0x02 c 0) (-8)).2) : List Int) = [65536, 258, -65536, 2] := by decide +kernel

/-- Chapter 4: the same addends in BF16, in two orders. -/
theorem test_rounding :
    let w := fun (v : Val) => ((fltOf 0x02).map fun t => (t.write 0 0 v).1).getD 0
    let r := fun (c : Nat) => readElem 0x02 c 0
    let p := fun (a b : Nat) => w ((r a).add (r b))
    p (p (p 0x4380 0x3F81) 0xC380) 0x3BC0 = 0x4000 ∧ p (p (p 0x4380 0xC380) 0x3F81) 0x3BC0 = 0x3F82 := by decide +kernel

/-- Chapter 5: a column of 64 granules with a pitch of 4,160 granules takes one channel with key 0 and 32 with key 8. -/
theorem test_hash : ((List.range 64).map fun i => (toCoord 0 0 (1064960 * i)).ch).eraseDups.length = 1 ∧
    ((List.range 64).map fun i => (toCoord 8 0 (1064960 * i)).ch).eraseDups.length = 32 := by decide +kernel

/-- Chapter 6: bit error rates of 4.0 × 10⁻³ and 2.0 × 10⁻⁴. -/
theorem test_ber : berLogOf 40 10000 = 239 ∧ berLogOf 20 100000 = 369 := by decide +kernel

/-- Chapter 9: the Pdelay exchange of module 0x02C. -/
theorem test_pdelay : (timeDiff (64000630 * 64 + 26 : BitVec 64) (64000000 * 64) - 358) / 2 = 19994 := by decide +kernel

/-- Chapter 11: 133.2 in force rounds to 133. -/
theorem test_calibration : calRound (zeros 8 |>.map (fun _ => (0 : Int)) |>.append [120, 0, 0, 0, 0, 0, 0, 0, 180]) 0 4720 = 133 := by decide +kernel

/-- Chapter 13: the header of a plan's packet. -/
theorem test_header : pktHeader { seq := 0x1A2C, tag := 0x31, fence := true } 0x0401 (zeros 512) =
    [0x00, 0x00, 0x00, 0x00, 0x01, 0xFF, 0x31, 0x00, 0x2C, 0x1A, 0x00, 0x00, 0x42, 0x00, 0x01, 0x04] := by decide +kernel

/-- Chapter 19: the receive ring of L20 on F9 is actuator 0x80B9 of CE2. -/
theorem test_ring_loop : ringOfLoop 2 (BitVec.ofNat 256 (0x80B9 * 2 ^ 208)) = some (calKey 1 9 20, 4) := by decide +kernel

/-- FIPS 180-4: SHA-384 of the bytes 61, 62, 63. -/
theorem test_sha : (sha384 [0x61, 0x62, 0x63]).take 8 = [0xcb, 0x00, 0x75, 0x3f, 0x45, 0xa3, 0x5e, 0x8b] := by decide +kernel

/-- The check values of the two CRCs over the digits 1 to 9. -/
theorem test_crc : crc32c [0x31, 0x32, 0x33, 0x34, 0x35, 0x36, 0x37, 0x38, 0x39] = 0xE3069283 ∧
    fcs [0x31, 0x32, 0x33, 0x34, 0x35, 0x36, 0x37, 0x38, 0x39] = 0xCBF43926 := by decide +kernel

/-- A burst with one wrong symbol is corrected. -/
theorem test_symbol : rsDecode false ((rsWord (zeros 32)).set 5 7) = .fixed (zeros 32) [5] := by decide +kernel

end Sys2Proof.Tests
end

section
/-!
SUPPORT. What the commands of a gate and the steps of a path plan leave alone, for the statements on fallback plans.
-/

namespace Sys2Proof.Scope

open Sys2Proof.Machine Sys2Proof.Laws

/-! ### Folds -/

/-- What every step of a fold leaves alone, the fold leaves alone. -/
theorem foldl_keeps {α β γ : Type} (π : α → γ) (f : α → β → α) (h : ∀ a b, π (f a b) = π a) : ∀ (l : List β) (a : α), π (l.foldl f a) = π a
  | [], _ => rfl
  | b :: l, a => (foldl_keeps π f h l (f a b)).trans (h a b)

/-! ### Commands to a gate -/

/-- The state without what a command to a gate may change: the Prefects and the gates, the outputs, and what raising an event
changes. -/
def asideGate (s : State) : State := { aside s with pfx := {}, out := [] }

theorem raise_asideGate (c x : Nat) (p : Bytes) (s : State) : asideGate (raise c x p s) = asideGate s :=
  congrArg (fun t : State => { t with pfx := {}, out := [] }) (raise_aside c x p s)

theorem gateDiscard_asideGate (g : Nat) (c : BitVec 32) (s : State) : asideGate (gateDiscard g c s) = asideGate s :=
  raise_asideGate ..

theorem secondCopy_asideGate (g : Nat) (a b : GateCmd) (s : State) : asideGate (secondCopy g a b s) = asideGate s := by
  unfold secondCopy
  split
  · rfl
  · exact raise_asideGate ..

theorem inSequence_asideGate (g : Nat) (c : GateCmd) (s : State) : asideGate (inSequence g c s) = asideGate s := by
  unfold inSequence
  dsimp only
  split
  · rfl
  · split
    · rfl
    · split
      · rfl
      · exact secondCopy_asideGate ..

theorem runAhead_asideGate : ∀ (n g : Nat) (s : State), asideGate (runAhead n g s) = asideGate s
  | 0, _, _ => rfl
  | n + 1, g, s => by
    unfold runAhead
    split
    · exact (runAhead_asideGate n g _).trans (inSequence_asideGate ..)
    · rfl

theorem gateCommand_asideGate (g : Nat) (u : Bool) (c : GateCmd) (s : State) : asideGate (gateCommand g u c s) = asideGate s := by
  unfold gateCommand
  dsimp only
  split
  · split
    · split
      · exact raise_asideGate ..
      · rfl
    · rfl
  · split
    · exact (runAhead_asideGate ..).trans (inSequence_asideGate ..)
    · split <;> rfl

theorem gateTake_asideGate (g : Nat) (u : Bool) (c : GateCmd) (s : State) : asideGate (gateTake g u c s) = asideGate s := by
  unfold gateTake
  dsimp only
  split
  · exact gateCommand_asideGate ..
  · exact gateDiscard_asideGate ..

/-- A command to a gate changes the Prefects, the gates, the outputs and what raising an event changes (R13, R306 to R309). -/
theorem gateIssue_asideGate (g what : Nat) (args : List Nat) (s : State) : asideGate (gateIssue g what args s) = asideGate s := by
  unfold gateIssue
  refine foldl_keeps asideGate _ (fun t u => ?_) _ s
  rw [gateTake_asideGate]
  rfl

@[simp] theorem gateIssue_sw (g what : Nat) (args : List Nat) (s : State) : (gateIssue g what args s).sw = s.sw :=
  have h := congrArg State.sw (gateIssue_asideGate g what args s); h

/-! ### Steps of a plan that leave the switch plane alone -/

@[simp] theorem replyOpt_sw (r : Option PktRef) (st : Nat) (d : Bytes) (s : State) : (replyOpt r st d s).sw = s.sw := by
  cases r
  · rfl
  · exact reply_sw ..

@[simp] theorem modLane_sw (f k : Nat) (g : Lane → Lane) (s : State) : (modLane f k g s).sw = s.sw := by
  unfold modLane
  split <;> rfl

@[simp] theorem modLanes_sw (f : Nat) (ks : List Nat) (g : Lane → Lane) (s : State) : (modLanes f ks g s).sw = s.sw :=
  foldl_keeps State.sw _ (fun t k => modLane_sw f k g t) ks s

@[simp] theorem announce_sw (f k : Nat) (r : LaneRole) (l : BitVec 6) (p w : Nat) (s : State) : (announce f k r l p w s).sw = s.sw :=
  gateIssue_sw ..

@[simp] theorem announceRole_sw (f k : Nat) (r : LaneRole) (s : State) : (announceRole f k r s).sw = s.sw :=
  announce_sw ..

@[simp] theorem linkLeave_sw (n : Nat) (s : State) : (linkLeave n s).sw = s.sw := by
  unfold linkLeave
  refine foldl_keeps State.sw _ (fun t q => ?_) _ s
  rfl

@[simp] theorem leaveService_sw (l : PhysLink) (s : State) : (leaveService l s).sw = s.sw := by
  unfold leaveService
  dsimp only
  split
  · split
    · simp only [linkLeave_sw, modLanes_sw]
      rfl
    · exact modLanes_sw ..
  · rfl

@[simp] theorem removeLink_sw (l : PhysLink) (s : State) : (removeLink l s).sw = s.sw :=
  leaveService_sw l s

@[simp] theorem addLink_sw (l : PhysLink) (s : State) : (addLink l s).sw = s.sw := by
  unfold addLink
  dsimp only
  split
  · unfold assignLanes
    refine foldl_keeps State.sw _ (fun t q => ?_) _ _
    exact modLane_sw ..
  · rfl

theorem spareBack_sw (f k : Nat) (s : State) : (spareBack f k s).sw = s.sw := by
  unfold spareBack
  dsimp only
  split
  · rfl
  · exact announceRole_sw ..

theorem abandonRelief_sw (f : Nat) (s : State) : (abandonRelief f s).sw = s.sw := by
  unfold abandonRelief
  split
  · rfl
  · rw [replyOpt_sw, spareBack_sw]
    rfl

theorem laneReturns_sw (f x : Nat) (s : State) : (laneReturns f x s).sw = s.sw := by
  unfold laneReturns
  split
  · rfl
  · simp only [announceRole_sw, announce_sw]

theorem abandonStep_sw (f c : Nat) (back : Bool) (s : State) : (abandonStep f c back s).sw = s.sw := by
  unfold abandonStep
  split
  · exact abandonRelief_sw f s
  · simp only [replyOpt_sw, stepAbandoned, raise_sw, modRot, modCal_sw]
    split
    · rw [laneReturns_sw, abandonRelief_sw]
    · exact abandonRelief_sw f s

theorem abandonOn_sw (gone : List PhysLink) (s : State) : (abandonOn gone s).sw = s.sw := by
  unfold abandonOn
  refine foldl_keeps State.sw _ (fun t f => ?_) _ s
  dsimp only
  rw [apply_ite State.sw, modLane_sw, abandonStep_sw, ite_self]

theorem dropPlanLinks_sw (rb : List (BitVec 12 × BitVec 10 × Bool × BitVec 4 × BitVec 6 × Nat)) (gone : List PhysLink) (s : State) :
    (dropPlanLinks rb gone s).sw = s.sw := by
  refine foldl_keeps State.sw _ (fun t l => ?_) _ s
  dsimp only
  split
  · split
    · exact removeLink_sw l t
    · exact (raise_sw ..).trans (removeLink_sw l t)
  · exact removeLink_sw l t

theorem settleSpare_sw (f : Nat) (s : State) : (settleSpare f s).sw = s.sw := by
  unfold settleSpare
  dsimp only
  split
  · rfl
  · split
    · rw [announceRole_sw, modLane_sw]
    · rfl

theorem stagger_sw (p : BitVec 32) (n : Nat) (s : State) : (stagger p n s).sw = s.sw := by
  unfold stagger
  dsimp only
  split
  · exact raise_sw ..
  · rfl

/-- A message between Prefects changes only what a message in the queue of a link changes (R324). -/
theorem p2pSend_keeps {γ : Type} (π : State → γ) (hπ : ∀ l ty b t, π (queueMsg l ty b t) = π t) (ty kind : Nat) (dst : BitVec 12) (q : BitVec 24)
    (ack : Bool) (body : Bytes) (s : State) : π (p2pSend ty kind dst q ack body s) = π s := by
  unfold p2pSend
  split
  · rfl
  · exact foldl_keeps π _ (fun t u => hπ ..) _ s

theorem sendFault_sw (m : BitVec 12) (f : Nat) (s : State) : (sendFault m f s).sw = s.sw := by
  unfold sendFault
  split
  · rfl
  · exact p2pSend_keeps State.sw (fun _ _ _ _ => rfl) ..

/-! ### The fallback plans that a plan's activation leaves as they are -/

theorem clearXps_fallbacks (p : Xp → Bool) (s : State) : (clearXps p s).sw.fallbacks = s.sw.fallbacks :=
  foldl_keeps (fun t : State => t.sw.fallbacks) _ (fun t _ => congrArg Paths.fallbacks (gateIssue_sw 4 2 _ t)) _ _

theorem setXp_fallbacks (x : Xp) (s : State) : (setXp x s).sw.fallbacks = s.sw.fallbacks := by
  unfold setXp
  split
  · rfl
  · rw [gateIssue_sw]
    rfl

theorem foldl_setXp_fallbacks (l : List Xp) (s : State) : (l.foldl (fun t x => setXp x t) s).sw.fallbacks = s.sw.fallbacks :=
  foldl_keeps (fun t : State => t.sw.fallbacks) _ (fun t x => setXp_fallbacks x t) l s

theorem foldl_addLink_sw (l : List PhysLink) (s : State) : (l.foldl (fun t x => addLink x t) s).sw = s.sw :=
  foldl_keeps State.sw _ (fun t x => addLink_sw x t) l s

theorem foldl_settleSpare_sw (l : List Nat) (s : State) : (l.foldl (fun t f => settleSpare f t) s).sw = s.sw :=
  foldl_keeps State.sw _ (fun t f => settleSpare_sw f t) l s

/-- A plan that is applied leaves the stored fallback plans as they are (R190, R194). -/
theorem applyPlan_fallbacks (p : Plan) (fb : Bool) (s : State) : (applyPlan p fb s).2.2.sw.fallbacks = s.sw.fallbacks := by
  unfold applyPlan
  simp only [admitNow, modSw_sw, stagger_sw, raise_sw, foldl_settleSpare_sw, foldl_addLink_sw, foldl_setXp_fallbacks, clearXps_fallbacks,
    dropPlanLinks_sw, abandonOn_sw]

/-- The notices of a fallback plan leave the switch plane alone (R196). -/
theorem foldl_sendFault_sw (f : Nat) (l : List (BitVec 12)) (s : State) : (l.foldl (fun t m => sendFault m f t) s).sw = s.sw :=
  foldl_keeps State.sw _ (fun t m => sendFault_sw m f t) l s

/-- A fallback plan that runs leaves the stored ones as they are. -/
theorem runFallback_fallbacks (i : Nat) (sig : BitVec 32) (s : State) : (runFallback i sig s).sw.fallbacks = s.sw.fallbacks := by
  simp only [runFallback, foldl_sendFault_sw, useFree_sw, raise_sw, modSw_sw, applyPlan_fallbacks]

/-- The plan stored at an index is the one that runs (R196). -/
theorem runFallback_fbRun (i : Nat) (sig : BitVec 32) (s : State) :
    ∃ r, (runFallback i sig s).sw.fbRun = some r ∧ r.fallback = some i ∧ r.plan = (tget {} s.sw.fallbacks i).plan := by
  simp only [runFallback, foldl_sendFault_sw, useFree_sw, raise_sw, modSw_sw]
  exact ⟨_, rfl, rfl, rfl⟩

/-! ### Canonical tables -/

section Table

variable {α : Type} [DecidableEq α]

/-- Every key of a canonical table is at or above its bound. -/
theorem le_of_mem_twfFrom (d : α) : ∀ (t : List (Nat × α)) (lo : Nat), twfFrom d lo t = true → ∀ e ∈ t, lo ≤ e.1
  | [], _, _, _, he => nomatch he
  | (k, v) :: t, lo, h, e, he => by
    simp only [twfFrom, Bool.and_eq_true, decide_eq_true_eq] at h
    obtain ⟨⟨hk, -⟩, ht⟩ := h
    rcases List.mem_cons.mp he with rfl | he
    · exact hk
    · have := le_of_mem_twfFrom d t (k + 1) ht e he
      omega

/-- The keys of a canonical table rise. -/
theorem pairwise_of_twfFrom (d : α) : ∀ (t : List (Nat × α)) (lo : Nat), twfFrom d lo t = true → t.Pairwise fun a b => a.1 < b.1
  | [], _, _ => .nil
  | (k, v) :: t, lo, h => by
    simp only [twfFrom, Bool.and_eq_true, decide_eq_true_eq] at h
    exact .cons (le_of_mem_twfFrom d t (k + 1) h.2) (pairwise_of_twfFrom d t (k + 1) h.2)

/-- The keys of a canonical table rise. -/
theorem pairwise_of_twf (d : α) (t : List (Nat × α)) (h : twf d t = true) : t.Pairwise fun a b => a.1 < b.1 :=
  pairwise_of_twfFrom d t 0 h

omit [DecidableEq α] in
/-- An entry of a table with rising keys is what a read at its key gives. -/
theorem tget_of_mem (d : α) (i : Nat) (v : α) : ∀ t : List (Nat × α), (t.Pairwise fun a b => a.1 < b.1) → (i, v) ∈ t → tget d t i = v
  | (k, w) :: t, h, hm => by
    obtain ⟨hlt, ht⟩ := List.pairwise_cons.mp h
    rcases List.mem_cons.mp hm with he | hm
    · cases he
      simp [tget]
    · have hk : k ≠ i := Nat.ne_of_lt (hlt _ hm)
      simp only [tget, hk, if_false]
      exact tget_of_mem d i v t ht hm

omit [DecidableEq α] in
/-- The entries at a key of a table with rising keys are one entry. -/
theorem filter_key_of_mem (i : Nat) (v : α) (t : List (Nat × α)) (h : t.Pairwise fun a b => a.1 < b.1) (hm : (i, v) ∈ t) :
    t.filter (fun e => decide (e.1 = i)) = [(i, v)] := by
  obtain ⟨as, bs, rfl⟩ := List.append_of_mem hm
  obtain ⟨-, hb, hab⟩ := List.pairwise_append.mp h
  obtain ⟨hib, -⟩ := List.pairwise_cons.mp hb
  have has : as.filter (fun e => decide (e.1 = i)) = [] :=
    List.filter_eq_nil_iff.mpr fun e he => by simpa using Nat.ne_of_lt (hab e he _ List.mem_cons_self)
  have hbs : bs.filter (fun e => decide (e.1 = i)) = [] :=
    List.filter_eq_nil_iff.mpr fun e he => by simpa using Nat.ne_of_gt (hib e he)
  simp [has, hbs]

omit [DecidableEq α] in
/-- In a table with rising keys, what a search finds stands below every other entry that would have met its test. -/
theorem find?_least (p : Nat × α → Bool) (t : List (Nat × α)) (h : t.Pairwise fun a b => a.1 < b.1) (e : Nat × α) (hf : t.find? p = some e)
    (x : Nat × α) (hx : x ∈ t) (hlt : x.1 < e.1) : p x = false := by
  obtain ⟨-, as, bs, rfl, has⟩ := List.find?_eq_some_iff_append.mp hf
  rcases List.mem_append.mp hx with hx | hx
  · simpa using has x hx
  · obtain ⟨-, hb, -⟩ := List.pairwise_append.mp h
    rcases List.mem_cons.mp hx with rfl | hx
    · omega
    · have := (List.pairwise_cons.mp hb).1 x hx
      omega

end Table

/-! ### A fault that matches a plan -/

/-- Disarming the armed plan at an index changes the stored plans alone, at that index (R194, R196). -/
theorem disarm_sw (c i : Nat) (f : Fallback) (s : State) (hp : s.sw.fallbacks.Pairwise fun a b => a.1 < b.1) (hm : (i, f) ∈ s.sw.fallbacks)
    (ha : f.armed = true) :
    (disarm c (fun e => decide (e.1 = i)) s).sw =
      { s.sw with fallbacks := tmod {} s.sw.fallbacks i fun f => { f with armed := false } } := by
  unfold disarm
  rw [← List.filter_filter, filter_key_of_mem i f _ hp hm]
  simp [ha]

/-- Cancelling the waiting host plan changes no more of the switch plane than the host plan (R14). -/
theorem cancelByFallback_sw (i : Nat) (s : State) :
    ∃ q, (cancelByFallback i s).sw = { s.sw with plan := q } ∧ (s.sw.plan = none → q = none) := by
  unfold cancelByFallback
  split
  · split
    · exact ⟨none, by simp only [raise_sw, replyOpt_sw, modSw_sw], fun _ => rfl⟩
    · exact ⟨s.sw.plan, rfl, id⟩
  · exact ⟨s.sw.plan, rfl, id⟩

/-- The state in which a matched plan runs or waits: disarmed, used, and the waiting host plan cancelled (R14, R196). -/
def matchedState (i : Nat) (s : State) : State :=
  (cancelByFallback i (disarm 1 (fun e => decide (e.1 = i)) s)).modSw fun w => { w with fallbacks := tmod {} w.fallbacks i fun f => { f with used := true } }

/-- A matched plan runs in that state, or waits behind the plan at work (R197). -/
theorem fireFallback_eq (i : Nat) (sig : BitVec 32) (s : State) :
    fireFallback i sig s =
      if (matchedState i s).sw.plan.isSome || (matchedState i s).sw.fbRun.isSome then
        (matchedState i s).modSw fun w => { w with fbNext := w.fbNext ++ [(i, sig)] }
      else runFallback i sig (matchedState i s) := rfl

theorem fireFallback_fallbacks (i : Nat) (sig : BitVec 32) (s : State) :
    (fireFallback i sig s).sw.fallbacks = (matchedState i s).sw.fallbacks := by
  rw [fireFallback_eq]
  split
  · rfl
  · exact runFallback_fallbacks ..

section Match

variable (i : Nat) (sig : BitVec 32) (f : Fallback) (s : State) (hw : twf {} s.sw.fallbacks = true) (hm : (i, f) ∈ s.sw.fallbacks) (ha : f.armed = true)

include hw hm ha

/-- What a match makes of the switch plane before the plan runs or waits. -/
theorem matchedState_sw :
    tget {} (matchedState i s).sw.fallbacks i = { f with armed := false, used := true } ∧ (matchedState i s).sw.fbRun = s.sw.fbRun ∧
      (matchedState i s).sw.fbNext = s.sw.fbNext ∧ (s.sw.plan = none → (matchedState i s).sw.plan = none) := by
  have hp := pairwise_of_twf _ _ hw
  obtain ⟨q, hq, hnone⟩ := cancelByFallback_sw i (disarm 1 (fun e => decide (e.1 = i)) s)
  rw [disarm_sw 1 i f s hp hm ha] at hq hnone
  unfold matchedState
  rw [modSw_sw, hq]
  refine ⟨?_, rfl, rfl, hnone⟩
  dsimp only
  rw [tmod, tget_tset_same _ _ _ _ (twf_tmod _ _ _ _ hw), tmod, tget_tset_same _ _ _ _ hw, tget_of_mem {} i f _ hp hm]

/-- A matched plan is disarmed and used (R196). -/
theorem fireFallback_entry : tget {} (fireFallback i sig s).sw.fallbacks i = { f with armed := false, used := true } := by
  rw [fireFallback_fallbacks]
  exact (matchedState_sw i f s hw hm ha).1

/-- With no plan at work a matched plan runs (R196). -/
theorem fireFallback_runs (hplan : s.sw.plan = none) (hrun : s.sw.fbRun = none) :
    ∃ r, (fireFallback i sig s).sw.fbRun = some r ∧ r.fallback = some i ∧ r.plan = f.plan := by
  obtain ⟨hget, hr, -, hq⟩ := matchedState_sw i f s hw hm ha
  obtain ⟨r, h1, h2, h3⟩ := runFallback_fbRun i sig (matchedState i s)
  rw [fireFallback_eq, hr, hq hplan, hrun]
  exact ⟨r, h1, h2, by rw [h3, hget]⟩

/-- Behind a fallback plan that runs a matched plan waits (R197). -/
theorem fireFallback_waits (hrun : s.sw.fbRun.isSome = true) : (fireFallback i sig s).sw.fbNext = s.sw.fbNext ++ [(i, sig)] := by
  obtain ⟨-, hr, hn, -⟩ := matchedState_sw i f s hw hm ha
  rw [fireFallback_eq, hr, hrun, Bool.or_true, if_pos rfl, modSw_sw, hn]

end Match

/-- The stored plans that a fault may match: those of its kind, fibre and link, of the profile in force, and none where the fault stands on a
group in XN5 mode (R167, R195). -/
def candidates (sig : BitVec 32) (s : State) : List (Nat × Fallback) :=
  s.sw.fallbacks.filter fun e => decide (e.2.sig.toNat / 512 = sig.toNat / 512) && decide (e.2.profId = s.prof.fabId) && !xnFault sig s

/-- With an accepted Prefect, and none restarting, a fault is matched (R196, R319, R371). -/
theorem fault_eq_matchFault (sig : BitVec 32) (s : State) (hd : prefectsDown s = false) (hc : ceReach s 0 = true) :
    fault sig s = matchFault sig (prefectInput s) := by
  simp [fault, hd, hc]

/-- A fault with an armed candidate fires the first one (R196). -/
theorem matchFault_some (sig : BitVec 32) (i : Nat) (f : Fallback) (s : State) (h : (candidates sig s).find? (fun e => e.2.armed) = some (i, f)) :
    matchFault sig s = fireFallback i sig s := by
  unfold candidates at h
  simp only [matchFault, h]

/-- A fault without a candidate is recorded (R196). -/
theorem matchFault_none (sig : BitVec 32) (s : State) (h : candidates sig s = []) :
    matchFault sig s = raise evFallbackNoMatch (pfxSrc s) (le 4 sig.toNat) s := by
  unfold candidates at h
  simp [matchFault, h]

/-- A fault that matches: the first armed candidate disarms and is used, and every armed one stands at its index or above; it runs with no plan
at work, and waits behind a fallback plan that runs (R196, R197). -/
theorem fault_matches (sig : BitVec 32) (s : State) (hd : prefectsDown s = false) (hc : ceReach s 0 = true) (i : Nat) (f : Fallback)
    (hf : (candidates sig s).find? (fun e => e.2.armed) = some (i, f)) (hw : twf {} s.sw.fallbacks = true) :
    (tget {} (fault sig s).sw.fallbacks i).armed = false ∧ (tget {} (fault sig s).sw.fallbacks i).used = true ∧
      (∀ j g, j < i → (j, g) ∈ s.sw.fallbacks → g.sig.toNat / 512 = sig.toNat / 512 → g.profId = s.prof.fabId → g.armed = false) ∧
      (s.sw.plan = none → s.sw.fbRun = none → ∃ r, (fault sig s).sw.fbRun = some r ∧ r.fallback = some i ∧ r.plan = f.plan) ∧
      (s.sw.fbRun.isSome = true → (fault sig s).sw.fbNext = s.sw.fbNext ++ [(i, sig)]) := by
  have ha : f.armed = true := by simpa using List.find?_some hf
  obtain ⟨hm, hcand⟩ := List.mem_filter.mp (List.mem_of_find?_eq_some hf)
  have hx : xnFault sig s = false := by simpa using (Bool.and_eq_true_iff.mp hcand).2
  rw [(fault_eq_matchFault sig s hd hc).trans (matchFault_some sig i f (prefectInput s) hf),
    fireFallback_entry i sig f (prefectInput s) hw hm ha]
  refine ⟨rfl, rfl, fun j g hj hg hsig hprof => ?_, fireFallback_runs i sig f (prefectInput s) hw hm ha,
    fireFallback_waits i sig f (prefectInput s) hw hm ha⟩
  have hg' : (j, g) ∈ candidates sig s := List.mem_filter.mpr ⟨hg, by simp [hsig, hprof, hx]⟩
  exact find?_least _ _ ((pairwise_of_twf _ _ hw).filter _) _ hf _ hg' hj

/-- A fault of a kind, fibre and link that no stored plan has is recorded (R195, R196). -/
theorem fault_unmatched (sig : BitVec 32) (s : State) (hd : prefectsDown s = false) (hc : ceReach s 0 = true)
    (h : (s.sw.fallbacks.all fun e => decide (e.2.sig.toNat / 512 ≠ sig.toNat / 512)) = true) :
    fault sig s = raise evFallbackNoMatch (pfxSrc s) (le 4 sig.toNat) (prefectInput s) := by
  have hnil : candidates sig (prefectInput s) = [] := List.filter_eq_nil_iff.mpr fun e he => by
    have hne : e.2.sig.toNat / 512 ≠ sig.toNat / 512 := of_decide_eq_true (List.all_eq_true.mp h e he)
    simp only [hne, decide_false, Bool.false_and, Bool.false_eq_true, not_false_eq_true]
  rw [fault_eq_matchFault sig s hd hc, matchFault_none sig _ hnil]
  rfl

/-! ### The commands -/

/-- STORE_FALLBACK with an index and a signature in range (R194, R195). -/
theorem exec_storeFallback_valid (p : Pkt) (index : BitVec 8) (sig : BitVec 32) (plan : Bytes) (s u : State)
    (h : bodyState p 0x0403 (le 1 index.toNat ++ le 4 sig.toNat ++ plan) s = some u) (hi : index.toNat < 16) (h1 : 1 ≤ fld sig.toNat 28 4)
    (h5 : fld sig.toNat 28 4 ≤ 5) :
    exec (.storeFallback p index sig plan) s = .next (storeFallback index.toNat sig plan (p.ref 0x0403) u) := by
  refine congrArg Host.Outcome.next ((runPkt_body p _ _ _ _ s u h).trans ?_)
  simp [hi, h1, h5]

/-- STORE_FALLBACK out of range (R339). -/
theorem exec_storeFallback_invalid (p : Pkt) (index : BitVec 8) (sig : BitVec 32) (plan : Bytes) (s u : State)
    (h : bodyState p 0x0403 (le 1 index.toNat ++ le 4 sig.toNat ++ plan) s = some u)
    (hr : 16 ≤ index.toNat ∨ fld sig.toNat 28 4 = 0 ∨ 5 < fld sig.toNat 28 4) :
    exec (.storeFallback p index sig plan) s = .next (reply (p.ref 0x0403) 0x0105 [] u) := by
  refine congrArg Host.Outcome.next ((runPkt_body p _ _ _ _ s u h).trans (if_neg ?_))
  simp only [Bool.and_eq_true, decide_eq_true_eq]
  omega

/-- A plan that passes its checks is stored and armed (R194). -/
theorem storeFallback_stores (i : Nat) (sig : BitVec 32) (b : Bytes) (ref : PktRef) (u : State) (h : planCheck true (readPlan b) u = 0) :
    ∃ f : Fallback, f.plan = readPlan b ∧ f.sig = sig ∧ f.armed = true ∧ f.profId = u.prof.fabId ∧
      (storeFallback i sig b ref u).sw = { u.sw with fallbacks := tset {} u.sw.fallbacks i f } ∧ (storeFallback i sig b ref u).opt = u.opt := by
  unfold storeFallback
  rw [if_neg fun hne => hne h]
  exact ⟨_, rfl, rfl, rfl, rfl, reply_sw .., reply_opt ..⟩

/-- A plan that fails a check is answered with its code (R188, R194). -/
theorem storeFallback_refuses (i : Nat) (sig : BitVec 32) (b : Bytes) (ref : PktRef) (u : State) (h : planCheck true (readPlan b) u ≠ 0) :
    storeFallback i sig b ref u = reply ref (planCheck true (readPlan b) u) [] u :=
  if_pos h

/-- A stored plan after FALLBACK_ARM (R194, R196). -/
def rearmed (mask : BitVec 16) (arm : Bool) (id : BitVec 384) (e : Nat × Fallback) : Nat × Fallback :=
  if mask.getLsbD e.1 && (!arm || decide (e.2.profId = id)) then (e.1, { e.2 with armed := arm, used := e.2.used && !arm }) else e

theorem rearmed_fst (mask : BitVec 16) (arm : Bool) (id : BitVec 384) (e : Nat × Fallback) : (rearmed mask arm id e).1 = e.1 := by
  unfold rearmed
  split <;> rfl

theorem rearmed_of_hit {mask : BitVec 16} {id : BitVec 384} {e : Nat × Fallback} (hm : mask.getLsbD e.1 = true) (hp : e.2.profId = id) :
    rearmed mask true id e = (e.1, { e.2 with armed := true, used := false }) := by
  simp [rearmed, hm, hp]

theorem rearmed_of_miss {mask : BitVec 16} {arm : Bool} {id : BitVec 384} {e : Nat × Fallback} (hm : mask.getLsbD e.1 = false) :
    rearmed mask arm id e = e := by
  simp [rearmed, hm]

/-- What is armed after arming was armed before, or is in the mask and of the profile in force (R194). -/
theorem armed_of_rearmed {mask : BitVec 16} {id : BitVec 384} {e : Nat × Fallback} (h : (rearmed mask true id e).2.armed = true) :
    e.2.armed = true ∨ (mask.getLsbD e.1 = true ∧ e.2.profId = id) := by
  unfold rearmed at h
  split at h
  · next hit => exact .inr (by simpa using hit)
  · exact .inl h

theorem rearmed_disarms {mask : BitVec 16} {id : BitVec 384} {e : Nat × Fallback} (hm : mask.getLsbD e.1 = true) :
    (rearmed mask false id e).2.armed = false := by
  simp [rearmed, hm]

theorem rearmed_profId (mask : BitVec 16) (arm : Bool) (id : BitVec 384) (e : Nat × Fallback) : (rearmed mask arm id e).2.profId = e.2.profId := by
  unfold rearmed
  split <;> rfl

theorem armBody_fallbacks (mask : BitVec 16) (arm : Bool) (ref : PktRef) (u : State) :
    (armBody mask arm ref u).sw.fallbacks = u.sw.fallbacks.map (rearmed mask arm u.prof.fabId) := by
  unfold armBody
  rw [reply_sw]
  rfl

theorem armBody_opt (mask : BitVec 16) (arm : Bool) (ref : PktRef) (u : State) : (armBody mask arm ref u).opt = u.opt := by
  unfold armBody
  rw [reply_opt]
  rfl

theorem exec_fallbackArm (p : Pkt) (mask : BitVec 16) (s u : State) (h : bodyState p 0x0404 (le 2 mask.toNat ++ le 1 1) s = some u) :
    exec (.fallbackArm p mask) s = .next (armBody mask true (p.ref 0x0404) u) :=
  congrArg Host.Outcome.next (runPkt_body p _ _ true _ s u h)

theorem exec_fallbackDisarm (p : Pkt) (mask : BitVec 16) (s u : State) (h : bodyState p 0x0404 (le 2 mask.toNat ++ le 1 0) s = some u) :
    exec (.fallbackDisarm p mask) s = .next (armBody mask false (p.ref 0x0404) u) :=
  congrArg Host.Outcome.next (runPkt_body p _ _ true _ s u h)

/-- FALLBACK_READ with an index in range (R355). -/
theorem exec_fallbackRead (p : Pkt) (index : BitVec 8) (buf : Buf) (s u : State)
    (h : bodyState p 0x0405 (le 1 index.toNat ++ buf.bytes) s = some u) (hi : index.toNat < 16) :
    (∀ e, (u.sw.fallbacks.find? fun e => decide (e.1 = index.toNat)) = some e →
      exec (.fallbackRead p index buf) s = .next (replyBuf (p.ref 0x0405) buf (e.2.image ++ le 4 e.2.sig.toNat ++ le 1 (b2n e.2.armed)) [] u)) ∧
    ((u.sw.fallbacks.find? fun e => decide (e.1 = index.toNat)) = none → exec (.fallbackRead p index buf) s = .next (reply (p.ref 0x0405) 0x0201 [] u)) := by
  constructor
  · intro e he
    refine congrArg Host.Outcome.next ((runPkt_body p _ _ _ _ s u h).trans ?_)
    simp only [hi, decide_true, if_true, he]
  · intro he
    refine congrArg Host.Outcome.next ((runPkt_body p _ _ _ _ s u h).trans ?_)
    simp only [hi, decide_true, if_true, he]
    rfl

theorem p2pAck_pfx (b : Bytes) (s : State) : (p2pAck b s).pfx = s.pfx :=
  p2pSend_keeps State.pfx (fun _ _ _ _ => rfl) ..

/-- An acknowledgement does not change which messages have been taken (R324). -/
theorem p2pSeen_p2pAck (m b : Bytes) (s : State) : p2pSeen m (p2pAck b s) = p2pSeen m s := by
  unfold p2pSeen
  rw [p2pAck_pfx]

/-- A fault notice on a link of a module that is Lit is taken as a message between Prefects (R196, R324). -/
theorem exec_faultNotice (port : Nat) (msg : Bytes) (s : State) (hl : litUp s = true) (hk : pmKind msg = 1) (hp : port < 1024) :
    exec (.faultNotice port msg) s = .next (takeP2p 2 msg (fault (BitVec.ofNat 32 (rd msg 16 4))) s) := by
  refine (if_neg ?_ : execFaultNotice port msg s = _)
  simp [hl, hk, hp]

/-- A message for another module is relayed (R324). -/
theorem takeP2p_relay (ty : Nat) (b : Bytes) (act : State → State) (s : State) (h : pmDst b ≠ moduleId s) :
    takeP2p ty b act s = p2pRelay ty b (prefectInput s) :=
  if_pos h

/-- A message for this module is acknowledged where it asks for that, and acted on the first time (R324). -/
theorem takeP2p_here (ty : Nat) (b : Bytes) (act : State → State) (s : State) (h : pmDst b = moduleId s) :
    takeP2p ty b act s =
      if p2pSeen b s then (if pmAckReq b then p2pAck b (prefectInput s) else prefectInput s)
      else act (p2pNote b (if pmAckReq b then p2pAck b (prefectInput s) else prefectInput s)) := by
  have hseen : p2pSeen b (if pmAckReq b then p2pAck b (prefectInput s) else prefectInput s) = p2pSeen b s := by
    split
    · exact p2pSeen_p2pAck ..
    · rfl
  refine (if_neg fun hne => hne h).trans ?_
  rw [hseen]

/-! ### The statement -/

/-- Settles O41: each clause is the lemma on its command or on `fault`. -/
theorem fallbackPlans : Obligations.FallbackPlans := by
  unfold Obligations.FallbackPlans
  refine ⟨fun p index sig plan s u h => ⟨fun hi h1 h5 => ⟨fun hc => ?store, fun hc => ?refuse⟩, exec_storeFallback_invalid p index sig plan s u h⟩,
    fun p mask s u => ⟨fun h => ?arm, fun h => ?armed, fun h => ?disarm⟩, exec_fallbackRead, ?fault, fun sig s hd => if_pos hd,
    fun sig s hd hc => ?unreached, fun port msg s hl hk hp => ?notice⟩
  case store =>
    obtain ⟨f, hplan, hsig, harm, hprof, hsw, hopt⟩ := storeFallback_stores index.toNat sig plan (p.ref 0x0403) u hc
    have hne : f ≠ {} := fun e => by rw [e] at harm; cases harm
    refine ⟨_, exec_storeFallback_valid p index sig plan s u h hi h1 h5, ?_⟩
    rw [hsw, tget_tset_ne _ _ _ _ hne]
    exact ⟨hplan, hsig, harm, hprof, fun k hk => tget_tset_other _ _ _ _ _ hk, hopt, rfl⟩
  case refuse => rw [exec_storeFallback_valid p index sig plan s u h hi h1 h5, storeFallback_refuses _ _ _ _ _ hc]
  case arm =>
    refine ⟨_, exec_fallbackArm p mask s u h, ?_, armBody_opt .., ?_⟩ <;> rw [armBody_fallbacks]
    · simp [rearmed_fst]
    · intro e he harm
      obtain ⟨d, hd, rfl⟩ := List.mem_map.mp he
      rw [rearmed_fst, rearmed_profId]
      exact (armed_of_rearmed harm).imp_left fun ha => ⟨d, hd, rfl, ha⟩
  case armed =>
    refine ⟨_, exec_fallbackArm p mask s u h, fun e he hm hp => ?_⟩
    rw [armBody_fallbacks, ← rearmed_of_hit hm hp]
    exact List.mem_map_of_mem he
  case disarm =>
    refine ⟨_, exec_fallbackDisarm p mask s u h, ?_, ?_⟩ <;> rw [armBody_fallbacks]
    · intro e he hm
      obtain ⟨d, -, rfl⟩ := List.mem_map.mp he
      rw [rearmed_fst] at hm
      exact rearmed_disarms hm
    · intro e he hm
      exact List.mem_map.mpr ⟨e, he, rearmed_of_miss hm⟩
  case fault => exact fun sig s hd hc => ⟨fault_unmatched sig s hd hc, fault_matches sig s hd hc⟩
  case unreached => simp [fault, hd, hc]
  case notice =>
    rw [exec_faultNotice port msg s hl hk hp]
    refine ⟨fun hdst hseen => ?_, fun hdst hseen => ?_, fun hdst => by rw [takeP2p_relay _ _ _ _ hdst]⟩
    · rw [takeP2p_here _ _ _ _ hdst, hseen, if_neg (by decide)]
    · rw [takeP2p_here _ _ _ _ hdst, hseen, if_pos rfl]

end Sys2Proof.Scope
end

section
/-!
SUPPORT. A state that refutes the statement on the line assignment: its clause on XN5_ACTIVATION takes lane tables in any form, and in one
that is not canonical a lane's record can hide another.
-/

namespace Sys2Proof.Scope

open Sys2Proof.Machine

/-- A GRANT of L0 and L1 to module 0xFFF, toward module 3. -/
def grantOfTwo : XaMsg := { op := 2, txn := 7, src := 0xFFF, dst := 3, lines := 3 }

/-- Module 0xFFF, Lit, on a ring with module 3 on F4, where the grant awaits its activation. L0 and L1 are on one link as yet. The lane table holds
two records of L1: one in service, and behind it one that has failed. -/
def hiddenRecord : State :=
  { State.reset with
    pwr := { State.reset.pwr with aon := true, ps := .lit }
    ident := { State.reset.ident with active := 0xFFF }
    prof := { State.reset.prof with
      fab := some { modules := [0xFFF, 3], links := [{ a := 0xFFF, aFibre := 4, b := 3, bFibre := 4 }, { a := 3, aFibre := 4, b := 0xFFF, bFibre := 4 }] } }
    opt := { State.reset.opt with
      fibres := [(4, { mode := .xn5 })]
      links := [{ fibre := 4, lanes := [0, 1] }]
      lanes := [(laneKey 4 1, { inService := true }), (laneKey 4 1, { failed := true })] }
    net := { State.reset.net with xaPend := [(grantOfTwo, 4)] } }

/-- Clearing L0 takes the link away, which leaves L1's record at the default: its entry goes, and the failed one behind it shows. -/
theorem hiddenRecord_shows : (laneOf hiddenRecord 4 1).failed = false ∧ (laneOf (lineClear 4 0 hiddenRecord) 4 1).failed = true := by
  decide +kernel

/-- So the activation passes L1 over, and its line is not in use. -/
theorem hiddenRecord_unused : tget 0 (stateOf hiddenRecord (exec (.xn5Activation 7) hiddenRecord)).net.xaLines (laneKey 4 1) = 0 := by
  decide +kernel

/-- Refutes O37: at the activation time of a grant, a granted line whose lane has not failed is not in use, where the lane table is not in
canonical form. The clause has no hypothesis `twf {} s.opt.lanes`. -/
theorem not_linesAreAssigned : ¬ Obligations.LinesAreAssigned := by
  unfold Obligations.LinesAreAssigned
  rintro ⟨-, -, -, -, -, -, -, -, -, -, activation, -⟩
  obtain ⟨t, ht, -, hline⟩ := activation 7 hiddenRecord grantOfTwo 4 1 (by decide +kernel) (by decide +kernel) (by decide +kernel)
    hiddenRecord_shows.1 (by decide +kernel)
  have hunused := hiddenRecord_unused
  rw [ht] at hunused
  have huse : lineUse hiddenRecord 4 grantOfTwo = 1 := by decide +kernel
  exact absurd (hunused.symm.trans (hline.trans huse)) (by decide)

end Sys2Proof.Scope
end

section
/-!
SUPPORT. A state that refutes the statement on the power states: its clauses on a last step promise the packet's final reply where the reply ring
is enabled before the step, and leaving Lit can disable it first.
-/

namespace Sys2Proof.Scope

open Sys2Proof.Machine

/-- Lit, on the way to Awake: the reply ring is enabled, the packet of the transition waits for its final reply, and a BAR2 write waits for its
host port. -/
def leavingLit : State :=
  { State.reset with
    pwr := { State.reset.pwr with aon := true, ps := .lit, target := some .awake, targetPkt := some {} }
    hi := { State.reset.hi with pcieUp := true, ringEn := true, hostPort := [{ kind := 1 }] } }

/-- The same after the host's write that disables the reply ring, which the BAR2 write holds back (R333). -/
def disableHeld : State := leavingLit.modHi fun h => { h with heldWrites := [(0x1018, le 4 0)] }

/-- The command that disables the ring leads from the one to the other. -/
theorem exec_replyRingDisable_leavingLit : exec (.replyRingDisable 0) leavingLit = .next disableHeld := rfl

/-- Leaving Lit drains the host port, so the held write takes place: the ring is disabled before the final reply, which is discarded (R119, R333,
R345). -/
theorem disableHeld_discards : (stateOf disableHeld (exec (.powerStateReached []) disableHeld)).hi.replies = [] := by
  decide +kernel

/-- Refutes O14: at the step from Lit to Awake the packet's final reply is not queued, although the ring is enabled as the step begins, where a
held write that disables the ring is released by the step itself. -/
theorem not_powerStateTransitions : ¬ Obligations.PowerStateTransitions := by
  unfold Obligations.PowerStateTransitions
  rintro ⟨-, -, -, -, -, -, awakeFromLit, -⟩
  obtain ⟨t, ht, -, -, -, -, -, replied⟩ := awakeFromLit [] disableHeld rfl rfl rfl rfl
  have hnone := disableHeld_discards
  rw [ht] at hnone
  have hmem := replied {} rfl rfl rfl
  rw [show t.hi.replies = [] from hnone] at hmem
  exact List.not_mem_nil hmem

end Sys2Proof.Scope
end

section
/-!
SUPPORT. A state that refutes the statement on lanes and spares: its clause on a lane-ready that does not come has the Daybook's count of records
grow, and that count, of 48 bits, returns to 0.
-/

namespace Sys2Proof.Scope

open Sys2Proof.Machine

/-- Lit, with a bridge on F15 that waits for lane-ready (R160), and with the Daybook's count at its last value. -/
def bridgedAtLastCount : State :=
  { State.reset with
    pwr := { State.reset.pwr with aon := true, ps := .lit }
    db := { State.reset.db with count := BitVec.allOnes 48 }
    opt := { State.reset.opt with reliefs := [{ fibre := 15, spare := 0, lane := 32, link := 7, pos := 1, step := 2 }] } }

/-- The record of SPARE_BLOCKED takes the last number, and the count returns to 0. -/
theorem bridgedAtLastCount_wraps : (stateOf bridgedAtLastCount (exec (.laneReadyTimeout 15) bridgedAtLastCount)).db.count = 0 := by
  decide +kernel

/-- Refutes O35: without lane-ready, with records accepted, the Daybook's count does not grow where it stands at 2⁴⁸ − 1. The clause asks for
`s.db.count < t.db.count`, not for the count's successor. -/
theorem not_lanesFailAndSparesRelieveThem : ¬ Obligations.LanesFailAndSparesRelieveThem := by
  unfold Obligations.LanesFailAndSparesRelieveThem
  rintro ⟨-, -, -, -, -, -, -, -, -, readyTimeout, -⟩
  obtain ⟨t, ht, -, -, -, counted⟩ := readyTimeout 15 bridgedAtLastCount _ rfl rfl rfl rfl
  have hzero := bridgedAtLastCount_wraps
  rw [ht] at hzero
  have hlt := counted rfl rfl rfl
  rw [show t.db.count = 0 from hzero] at hlt
  exact BitVec.not_lt_zero hlt

end Sys2Proof.Scope
end

section
/-!
SUPPORT. What a word does that issues at a station: when its body runs, what every issued word leaves alone, and what its traps do. Nothing here
depends on the word's opcode.
-/

namespace Sys2Proof.Scope

open Sys2Proof.Machine Sys2Proof.Laws

/-! ### When a word issues (R56) -/

theorem wordAt_opc {opc : Nat} {x : BitVec 16} {s : State} {e : Ew} (h : wordAt opc x s = some e) : iwOpc e.w = opc := by
  unfold wordAt at h
  split at h
  · exact absurd h (by simp)
  · split at h
    · next hok =>
      cases h
      simp only [Bool.and_eq_true, decide_eq_true_eq] at hok
      simp only [hok]
    · exact absurd h (by simp)

theorem wordDue_iff {opc : Nat} {x : BitVec 16} {s u : State} {e : Ew} :
    wordDue opc x s = some (e, u) ↔
      wordAt opc x u = some e ∧ (∀ st ∈ wordStreams u x e.w, (ctxOf u st).state ≠ .invalid) ∧ u = advanceStn x s := by
  unfold wordDue
  constructor
  · intro h
    split at h
    · next e' hw =>
      split at h
      · next hall =>
        cases h
        exact ⟨hw, by simpa using hall, rfl⟩
      · exact absurd h (by simp)
    · exact absurd h (by simp)
  · rintro ⟨hw, hall, rfl⟩
    rw [hw]
    exact if_pos (by simpa using hall)

theorem wordDue_opc {opc : Nat} {x : BitVec 16} {s u : State} {e : Ew} (h : wordDue opc x s = some (e, u)) : iwOpc e.w = opc :=
  wordAt_opc (wordDue_iff.mp h).1

/-- A word at hand whose fetch, contexts and objects read without error has its effect where its condition is met, and waits otherwise
(R36, R56, R131). -/
theorem issueIf_of_due {opc : Nat} {x : BitVec 16} {err : ReadErr} {cond : Ew → State → Bool} {body : Ew → State → State} {s u : State} {e : Ew}
    (hclean : err.ctlClean) (h : wordDue opc x s = some (e, u)) :
    issueIf opc x err cond body s = if cond e u then progress x (body e u) else s := by
  obtain ⟨hword, hvalid, rfl⟩ := wordDue_iff.mp h
  obtain ⟨hprog, hctx⟩ := hclean
  have hstreams : ((wordStreams (advanceStn x s) x e.w).find? fun st => decide ((ctxOf (advanceStn x s) st).state = .invalid)) = none := by
    simpa using hvalid
  simp [issueIf, hword, hprog, hctx, hstreams]

theorem issue_of_due {opc : Nat} {x : BitVec 16} {err : ReadErr} {cond : Ew → State → Bool} {body : Ew → State → State} {s u : State} {e : Ew}
    (hclean : err.ctlClean) (h : wordDue opc x s = some (e, u)) (hin : inputsReady x e u = true) :
    issue opc x err cond body s = if cond e u then progress x (body e u) else s := by
  unfold inputsReady at hin
  unfold issue
  rw [issueIf_of_due hclean h, hin, Bool.true_and]

/-- A word without input operands waits for none. -/
theorem inputsReady_of_no_inputs {x : BitVec 16} {e : Ew} {s : State} (h : iwInputs e.w = []) : inputsReady x e s = true := by
  unfold inputsReady usesOf
  rw [h]
  rfl

/-- Tiles whose headers all pass go to the word (R27). -/
theorem withTiles_of_read {err : ReadErr} {x : BitVec 16} {e : Ew} {k : List InUse → List TileIn → State → State} {u v : State} {ts : List TileIn}
    (h : readTiles err x e (usesOf u x e.w) u = (none, ts, v)) : withTiles err x e k u = k (usesOf u x e.w) ts v := by
  unfold withTiles
  simp only [h]

/-! ### The transitions of a job leave the stations alone (R70) -/

@[simp] theorem raiseTraps_stn (s : State) : (raiseTraps s).stn = s.stn := by
  unfold raiseTraps
  refine foldl_keeps State.stn _ (fun t x => ?_) _ s
  split
  · exact raise_stn ..
  · rfl

@[simp] theorem enterHeld_stn (bits : Nat) (noResume : Bool) (x : Nat) (s : State) : (enterHeld bits noResume x s).stn = s.stn := by
  unfold enterHeld
  rw [raise_stn, modJob_stn, raiseTraps_stn]
  rfl

@[simp] theorem enterComplete_stn (s : State) : (enterComplete s).stn = s.stn := by
  unfold enterComplete
  dsimp only
  rw [foldl_keeps State.stn _ (fun t h => reply_stn ..), raise_stn, modJob_stn]

@[simp] theorem answerHolds_stn (l : List (Bool × Nat × Bool × PktRef)) (s : State) : (answerHolds l s).stn = s.stn :=
  foldl_keeps State.stn _ (fun _ _ => reply_stn ..) l s

@[simp] theorem looseCheck_stn (s : State) : (looseCheck s).stn = s.stn := by
  unfold looseCheck
  split
  · rfl
  · split
    · exact enterComplete_stn s
    · dsimp only
      split
      · rfl
      · rw [answerHolds_stn, enterHeld_stn, modJob_stn]

/-- The state of a station is in the table of the stations' states. -/
theorem stnOf_of_st {s t : State} (x : BitVec 16) (h : s.stn.st = t.stn.st) : stnOf s x = stnOf t x :=
  congrArg (fun y => tget ({} : StnState) y x.toNat) h

/-- A station that has stopped at a trap does not go on to its next period (R61). -/
theorem advanceStn_of_trap {x : BitVec 16} {s : State} {r : TrapRec} (h : (stnOf s x).trap = some r) : advanceStn x s = s := by
  unfold advanceStn
  simp [h]

theorem progress_stn_of_trap {x : BitVec 16} {s : State} {r : TrapRec} (h : (stnOf s x).trap = some r) : (progress x s).stn = s.stn := by
  unfold progress
  rw [looseCheck_stn, advanceStn_of_trap h]

/-! ### Traps (R61) -/

/-- The record that a trapping word leaves at its station. -/
def trapRecOf (x : BitVec 16) (e : Ew) (cause detail : Nat) (s : State) : TrapRec :=
  { bell := BitVec.ofNat 64 s.job.bell, wperiod := BitVec.ofNat 32 (stnOf s x).period, stn := x, index := BitVec.ofNat 16 e.idx,
    iter := BitVec.ofNat 16 e.iter, offset := BitVec.ofNat 26 e.off, opc := BitVec.ofNat 8 (iwOpc e.w), cause := BitVec.ofNat 16 cause,
    detail := BitVec.ofNat 112 detail }

/-- A trap changes nothing of the stations but the state of the one that traps. -/
theorem trapWord_stn (x : BitVec 16) (e : Ew) (cause : Nat) (pl : Bytes) (detail : Nat) (s : State) :
    (trapWord x e cause pl detail s).stn = (modStn x (fun y => { y with trap := some (trapRecOf x e cause detail s) }) s).stn := by
  have hheld : ∀ t : State, (if looseMode s then enterHeld 2 true 0xFFFF t else t).stn = t.stn := fun t => by
    split
    · exact enterHeld_stn ..
    · rfl
  unfold trapWord
  dsimp only
  rw [hheld, modJob_stn]
  simp only [modStn, modStn_stn, raise_stn]
  rfl

/-- A command whose word traps: the station has its trap record, and of the stations nothing else changes. -/
theorem exec_traps {i : Instr} {x : BitVec 16} {e : Ew} {cause : Nat} {pl : Bytes} {s u : State}
    (h : exec i s = .next (progress x (trapPl x e cause pl u))) :
    ∃ t r, exec i s = .next t ∧ (stnOf t x).trap = some r ∧ r.cause = BitVec.ofNat 16 cause ∧ { t.stn with st := u.stn.st } = u.stn := by
  have hstn := trapWord_stn x e cause (le 2 x.toNat ++ pl) (ofLe pl) u
  generalize hr : trapRecOf x e cause (ofLe pl) u = r at hstn
  have hcause : r.cause = BitVec.ofNat 16 cause := hr ▸ rfl
  have hentry : stnOf (modStn x (fun y => { y with trap := some r }) u) x = { stnOf u x with trap := some r } :=
    stnOf_modStn_ne _ _ _ fun hd => Option.some_ne_none r (congrArg StnState.trap hd)
  have htrap : (stnOf (trapPl x e cause pl u) x).trap = some r := by
    rw [stnOf_of_st x (s := trapPl x e cause pl u) (congrArg Stations.st hstn), hentry]
  have hkept := progress_stn_of_trap htrap
  refine ⟨_, r, h, ?_, hcause, ?_⟩
  · rw [stnOf_of_st x (congrArg Stations.st hkept), htrap]
  · rw [hkept, show (trapPl x e cause pl u).stn = _ from hstn]
    rfl

theorem exec_traps_cause {i : Instr} {x : BitVec 16} {e : Ew} {cause : Nat} {pl : Bytes} {s u : State}
    (h : exec i s = .next (progress x (trapPl x e cause pl u))) :
    ∃ t r, exec i s = .next t ∧ (stnOf t x).trap = some r ∧ r.cause = BitVec.ofNat 16 cause := by
  obtain ⟨t, r, ht, htrap, hcause, -⟩ := exec_traps h
  exact ⟨t, r, ht, htrap, hcause⟩

/-! ### What an issued word changes of its station (R56, R57) -/

/-- Its station goes on to the next word. -/
theorem issued_pc (x : BitVec 16) (e : Ew) (s : State) : (stnOf (issued x e s) x).pc = (stnOf s x).pc + 1 := by
  have hdone : ∀ (slip fin : Nat) (y : StnState), (doneBy e slip fin y).pc = y.pc := fun slip fin y => by
    unfold doneBy
    split <;> rfl
  unfold issued
  dsimp only
  generalize hg : (fun y : StnState => _) = g
  have hpc : ∀ y, (g y).pc = y.pc + 1 := fun y => by
    rw [← hg]
    dsimp only
    split
    · rfl
    · rw [hdone]
  have hne : g (stnOf s x) ≠ {} := fun hd => Nat.succ_ne_zero _ ((hpc _).symm.trans (congrArg StnState.pc hd))
  rw [show ∀ (t : State) f, stnOf (t.modJob f) x = stnOf t x from fun _ _ => rfl, stnOf_modStn_ne _ _ _ hne, hpc]

@[simp] theorem issued_outst (x : BitVec 16) (e : Ew) (s : State) : (issued x e s).stn.outst = s.stn.outst := rfl
@[simp] theorem issued_sx (x : BitVec 16) (e : Ew) (s : State) : (issued x e s).stn.sx = s.stn.sx := rfl
@[simp] theorem issued_expmax (x : BitVec 16) (e : Ew) (s : State) : (issued x e s).stn.expmax = s.stn.expmax := rfl
@[simp] theorem issued_strm (x : BitVec 16) (e : Ew) (s : State) : (issued x e s).strm = s.strm := rfl
@[simp] theorem issued_ts (x : BitVec 16) (e : Ew) (s : State) : (issued x e s).ts = s.ts := rfl

/-- The state without the positions in the binding tables. -/
def asideBind (s : State) : State := s.modStn fun y => { y with bind := [] }

theorem takeIns_aside (x : BitVec 16) (us : List InUse) (s : State) : asideBind (takeIns x us s) = asideBind s := by
  unfold takeIns
  refine foldl_keeps asideBind _ (fun t u => ?_) us s
  rfl

@[simp] theorem takeIns_st (x : BitVec 16) (us : List InUse) (s : State) : (takeIns x us s).stn.st = s.stn.st :=
  have h := congrArg (fun t : State => t.stn.st) (takeIns_aside x us s); h
@[simp] theorem takeIns_outst (x : BitVec 16) (us : List InUse) (s : State) : (takeIns x us s).stn.outst = s.stn.outst :=
  have h := congrArg (fun t : State => t.stn.outst) (takeIns_aside x us s); h
@[simp] theorem takeIns_sx (x : BitVec 16) (us : List InUse) (s : State) : (takeIns x us s).stn.sx = s.stn.sx :=
  have h := congrArg (fun t : State => t.stn.sx) (takeIns_aside x us s); h
@[simp] theorem takeIns_expmax (x : BitVec 16) (us : List InUse) (s : State) : (takeIns x us s).stn.expmax = s.stn.expmax :=
  have h := congrArg (fun t : State => t.stn.expmax) (takeIns_aside x us s); h
@[simp] theorem takeIns_strm (x : BitVec 16) (us : List InUse) (s : State) : (takeIns x us s).strm = s.strm :=
  have h := congrArg State.strm (takeIns_aside x us s); h
@[simp] theorem takeIns_ts (x : BitVec 16) (us : List InUse) (s : State) : (takeIns x us s).ts = s.ts :=
  have h := congrArg State.ts (takeIns_aside x us s); h

/-- The state without the outputs in flight. -/
def asideOutst (s : State) : State := s.modStn fun y => { y with outst := [] }

theorem noOut_aside (x : BitVec 16) (e : Ew) (us : List InUse) (s : State) : asideOutst (noOut x e us s) = asideOutst s := by
  unfold noOut
  split <;> rfl

@[simp] theorem noOut_st (x : BitVec 16) (e : Ew) (us : List InUse) (s : State) : (noOut x e us s).stn.st = s.stn.st :=
  have h := congrArg (fun t : State => t.stn.st) (noOut_aside x e us s); h
@[simp] theorem noOut_sx (x : BitVec 16) (e : Ew) (us : List InUse) (s : State) : (noOut x e us s).stn.sx = s.stn.sx :=
  have h := congrArg (fun t : State => t.stn.sx) (noOut_aside x e us s); h
@[simp] theorem noOut_strm (x : BitVec 16) (e : Ew) (us : List InUse) (s : State) : (noOut x e us s).strm = s.strm :=
  have h := congrArg State.strm (noOut_aside x e us s); h
@[simp] theorem noOut_ts (x : BitVec 16) (e : Ew) (us : List InUse) (s : State) : (noOut x e us s).ts = s.ts :=
  have h := congrArg State.ts (noOut_aside x e us s); h

/-! ### The output tile (R21, R25, R127) -/

/-- The state without what a write to tile store may change: the tile store, and what noting an error of its old content changes. -/
def asideTs (s : State) : State := { aside s with ts := {}, mem := { s.mem with corSince := 0 }, free := 0 }

theorem asideTs_of_aside {s t : State} (h : aside s = aside t) : asideTs s = asideTs t :=
  congrArg (fun u : State => { u with ts := {}, mem := { u.mem with corSince := 0 }, free := 0 }) h

theorem asideTs_modTs (s : State) (g) : asideTs (s.modTs g) = asideTs s := rfl

theorem raise_asideTs (c x : Nat) (p : Bytes) (s : State) : asideTs (raise c x p s) = asideTs s := asideTs_of_aside (raise_aside c x p s)

theorem noteWord_asideTs (kind : Nat) (q : MemSrc) (w : Nat) (k : SramKind) (s : State) : asideTs (noteWord kind q w k s) = asideTs s := by
  cases k with
  | correctable =>
    show asideTs (raise _ _ _ _) = _
    rw [raise_asideTs]
    rfl
  | uncorrectable =>
    show asideTs (raise _ _ _ _) = _
    rw [raise_asideTs]
    rfl
  | poisoned =>
    show asideTs (raise _ _ _ _) = _
    rw [raise_asideTs]

theorem tsRmw_asideTs (err : ReadErr) (m : MergeEnt) (s : State) : asideTs (tsRmw err m s) = asideTs s := by
  unfold tsRmw
  dsimp only
  split
  · rfl
  · rw [asideTs_modTs, asideTs_modTs, noteWord_asideTs]
  · rw [asideTs_modTs, asideTs_modTs, noteWord_asideTs]

theorem narrowTs_asideTs (err : ReadErr) (w off : Nat) (d : Bytes) (s : State) : asideTs (narrowTs err w off d s) = asideTs s := by
  unfold narrowTs
  dsimp only
  split
  · split <;> rfl
  · split
    · split
      · exact tsRmw_asideTs ..
      · rfl
    · rfl

theorem narrowIf_asideTs (err : ReadErr) (a : Nat) (d : Bytes) (s : State) : asideTs (narrowIf err a d s) = asideTs s := by
  unfold narrowIf
  split
  · rfl
  · exact narrowTs_asideTs ..

/-- A write to tile store changes the tile store and what noting an error changes (R126, R127). -/
theorem tsWrite_asideTs (err : ReadErr) (a : Nat) (d : Bytes) (s : State) : asideTs (tsWrite err a d s) = asideTs s :=
  (narrowIf_asideTs ..).trans (narrowIf_asideTs ..)

@[simp] theorem tsWrite_stn (err : ReadErr) (a : Nat) (d : Bytes) (s : State) : (tsWrite err a d s).stn = s.stn :=
  have h := congrArg State.stn (tsWrite_asideTs err a d s); h

@[simp] theorem tsWrite_strm (err : ReadErr) (a : Nat) (d : Bytes) (s : State) : (tsWrite err a d s).strm = s.strm :=
  have h := congrArg State.strm (tsWrite_asideTs err a d s); h

theorem noteSxovf_aside (x : BitVec 16) (st : BitVec 20) (n : BitVec 32) (o : TileOut) (s : State) : aside (noteSxovf x st n o s) = aside s := by
  unfold noteSxovf
  split
  · exact raise_aside ..
  · rfl

@[simp] theorem noteSxovf_stn (x : BitVec 16) (st : BitVec 20) (n : BitVec 32) (o : TileOut) (s : State) : (noteSxovf x st n o s).stn = s.stn :=
  have h := congrArg State.stn (noteSxovf_aside x st n o s); h

@[simp] theorem noteSxovf_strm (x : BitVec 16) (st : BitVec 20) (n : BitVec 32) (o : TileOut) (s : State) : (noteSxovf x st n o s).strm = s.strm :=
  have h := congrArg State.strm (noteSxovf_aside x st n o s); h

/-- The three things that writing an output tile does: the slot is written, the tile is in flight, and `SXOVF` may be noted (R21, R57, R106). -/
theorem writeOut_eq (x : BitVec 16) (e : Ew) (b : Nat) (us : List InUse) (o : TileOut) (s : State) :
    ∃ (a : Nat) (d : Bytes) (q : Outst) (o' : TileOut),
      writeOut x e b us o s = noteSxovf x q.stream q.tseq o' ((tsWrite {} a d s).modStn fun y => { y with outst := y.outst ++ [q] }) ∧
      q.stn = x ∧ q.stream = (bindAt s x b).stream ∧ q.tseq = nextOut s (bindAt s x b).stream ∧ q.left = 0 ∧ q.noTile = false :=
  ⟨_, _, { stn := x, stream := (bindAt s x b).stream, tseq := nextOut s (bindAt s x b).stream, doneCc := _, left := 0, rel := _, noTile := false,
           sf := _, idx := _, slip := _ }, _, rfl, rfl, rfl, rfl, rfl, rfl⟩

/-- An output tile changes nothing of the stations but that it is in flight, the newest (R21, R57). -/
theorem writeOut_stn (x : BitVec 16) (e : Ew) (b : Nat) (us : List InUse) (o : TileOut) (s : State) :
    ∃ q : Outst, (writeOut x e b us o s).stn = { s.stn with outst := s.stn.outst ++ [q] } ∧ q.stn = x ∧ q.stream = (bindAt s x b).stream ∧
      q.tseq = nextOut s (bindAt s x b).stream ∧ q.left = 0 ∧ q.noTile = false := by
  obtain ⟨a, d, q, o', h, hq⟩ := writeOut_eq x e b us o s
  refine ⟨q, ?_, hq⟩
  rw [h, noteSxovf_stn, modStn_stn, tsWrite_stn]

@[simp] theorem writeOut_strm (x : BitVec 16) (e : Ew) (b : Nat) (us : List InUse) (o : TileOut) (s : State) : (writeOut x e b us o s).strm = s.strm := by
  obtain ⟨a, d, q, o', h, -⟩ := writeOut_eq x e b us o s
  rw [h, noteSxovf_strm, modStn_strm, tsWrite_strm]

end Sys2Proof.Scope
end

section
/-!
SUPPORT. The words of an exact-sum station (R99 to R104): when each runs, and what it does to its accumulation and to the station's EXPMAX register.
-/

namespace Sys2Proof.Scope

open Sys2Proof.Machine Sys2Proof.Laws

/-! ### When the words run -/

section
variable {x : BitVec 16} {err : ReadErr} {s u v : State} {e : Ew}

theorem iwInputs_of_sumOpen (h : wordDue 0x30 x s = some (e, u)) : iwInputs e.w = [] := by
  simp [iwInputs, wordDue_opc h]

theorem iwInputs_of_sumClose (h : wordDue 0x32 x s = some (e, u)) : iwInputs e.w = [] := by
  simp [iwInputs, wordDue_opc h]

theorem exec_sumOpen (hclean : err.ctlClean) (h : wordDue 0x30 x s = some (e, u)) :
    exec (.sumOpen x err) s = .next (if decide (iwArg e.w 1 ≠ 2) || expmaxDone x u then progress x (sumOpen x e u) else s) :=
  congrArg Host.Outcome.next (issue_of_due hclean h (inputsReady_of_no_inputs (iwInputs_of_sumOpen h)))

theorem exec_sumAdd (hclean : err.ctlClean) (h : wordDue 0x31 x s = some (e, u)) (hin : inputsReady x e u = true) {ts : List TileIn}
    (hread : readTiles err x e (usesOf u x e.w) u = (none, ts, v)) :
    exec (.sumAdd x err) s = .next (progress x (sumAddBody x e (usesOf u x e.w) ts v)) := by
  refine congrArg Host.Outcome.next ((issue_of_due hclean h hin).trans ?_)
  rw [if_pos rfl, withTiles_of_read hread]

theorem exec_sumClose (hclean : err.ctlClean) (h : wordDue 0x32 x s = some (e, u)) (hout : outFree x e u = true) :
    exec (.sumClose x err) s = .next (progress x (sumClose x e u)) :=
  congrArg Host.Outcome.next ((issue_of_due hclean h (inputsReady_of_no_inputs (iwInputs_of_sumClose h))).trans (if_pos hout))

theorem exec_expmax (hclean : err.ctlClean) (h : wordDue 0x33 x s = some (e, u)) (hin : inputsReady x e u = true) (hout : outFree x e u = true)
    {ts : List TileIn} (hread : readTiles err x e (usesOf u x e.w) u = (none, ts, v)) :
    exec (.expmax x err) s = .next (progress x (expmaxBody x e (usesOf u x e.w) ts v)) := by
  refine congrArg Host.Outcome.next ((issue_of_due hclean h hin).trans ?_)
  rw [if_pos hout, withTiles_of_read hread]

end

/-! ### The effects of the words -/

section
variable (x : BitVec 16) (e : Ew) (us : List InUse) (acc : Nat) (m : SxAcc) (s : State)

theorem sxOf_of_sx {s t : State} (h : s.stn.sx = t.stn.sx) : sxOf s x acc = sxOf t x acc :=
  congrArg (fun y => tget ({} : SxAcc) y (x.toNat * 4 + acc)) h

theorem sxOf_setSx_ne (h : m ≠ {}) : sxOf (setSx x acc m s) x acc = m := tget_tset_ne _ _ _ _ h

theorem sxOf_setSx (h : twf {} s.stn.sx = true) : sxOf (setSx x acc m s) x acc = m := tget_tset_same _ _ _ _ h

/-- An accumulation that is open is not the one of reset. -/
theorem sxAcc_ne_of_open {m : SxAcc} (h : m.isOpen = true) : m ≠ {} := fun hd => Bool.noConfusion (h.symm.trans (congrArg SxAcc.isOpen hd))

/-- What SUM_OPEN leaves. -/
theorem opened_effect (h : m.isOpen = true) :
    (stnOf (issued x e (setSx x acc m s)) x).pc = (stnOf s x).pc + 1 ∧ sxOf (issued x e (setSx x acc m s)) x acc = m := by
  refine ⟨issued_pc .., ?_⟩
  rw [sxOf_of_sx x acc (issued_sx ..), sxOf_setSx_ne x acc m s (sxAcc_ne_of_open h)]

/-- What SUM_ADD leaves. -/
theorem added_effect {t : State} (ht : t = issued x e (takeIns x us (noOut x e us (setSx x acc m s)))) (h : m.isOpen = true) :
    (stnOf t x).pc = (stnOf s x).pc + 1 ∧ t.ts = s.ts ∧ t.strm = s.strm ∧ sxOf t x acc = m := by
  subst ht
  refine ⟨?_, ?_, ?_, ?_⟩
  · rw [issued_pc, stnOf_of_st x (takeIns_st ..), stnOf_of_st x (noOut_st ..)]
    rfl
  · rw [issued_ts, takeIns_ts, noOut_ts]
    rfl
  · rw [issued_strm, takeIns_strm, noOut_strm]
    rfl
  · rw [sxOf_of_sx x acc (issued_sx ..), sxOf_of_sx x acc (takeIns_sx ..), sxOf_of_sx x acc (noOut_sx ..),
      sxOf_setSx_ne x acc m s (sxAcc_ne_of_open h)]

end

/-- What a word leaves that changes some table of its station, puts an output tile in flight and takes its inputs: SUM_CLOSE and EXPMAX. The
table is neither that of the stations' states nor that of the outputs in flight. -/
theorem written_effect {x : BitVec 16} {e : Ew} {b : Nat} {us vs : List InUse} {o : TileOut} {s t : State} {f : Stations → Stations}
    (ht : t = issued x e (takeIns x us (writeOut x e b vs o (s.modStn f)))) (hst : (f s.stn).st = s.stn.st) (hout : (f s.stn).outst = s.stn.outst) :
    (stnOf t x).pc = (stnOf s x).pc + 1 ∧ outputAdded x b s t ∧ t.strm = s.strm ∧ t.stn.sx = (f s.stn).sx ∧ t.stn.expmax = (f s.stn).expmax := by
  obtain ⟨q, hstn, hx, hstream, htseq, hleft, htile⟩ := writeOut_stn x e b vs o (s.modStn f)
  have hnext : nextOut (s.modStn f) (bindAt s x b).stream = nextOut s (bindAt s x b).stream := by
    unfold nextOut
    rw [modStn_stn, hout]
    rfl
  subst ht
  refine ⟨?_, ⟨q, ?_, hx, hstream, htseq.trans hnext, hleft, htile⟩, ?_, ?_, ?_⟩
  · rw [issued_pc, stnOf_of_st x (takeIns_st ..), stnOf_of_st x ((congrArg Stations.st hstn).trans hst)]
  · rw [issued_outst, takeIns_outst, hstn, ← hout]
    rfl
  · rw [issued_strm, takeIns_strm, writeOut_strm, modStn_strm]
  · rw [issued_sx, takeIns_sx, hstn]
    rfl
  · rw [issued_expmax, takeIns_expmax, hstn]
    rfl

/-! ### The EXPMAX register (R100) -/

theorem padTo_length (n : Nat) (b : Bytes) : (padTo n b).length = n := by
  rw [padTo, zeros, List.length_take, List.length_append, List.length_replicate]
  omega

theorem padTo_nil (n : Nat) : padTo n [] = zeros n := by
  simp [padTo, zeros]

theorem padTo_of_length {n : Nat} {b : Bytes} (h : b.length = n) : padTo n b = b := by
  simp [padTo, zeros, ← h]

theorem maxBytes_length (r b : Bytes) : (maxBytes r b).length = r.length := by
  simp [maxBytes, number]

/-- The register reads as it was written, also where it is all zero and its table has no entry. -/
theorem expReg_setExpReg {x : BitVec 16} {r : Bytes} {s : State} (hlen : r.length = 2048) (h : twf [] s.stn.expmax = true) :
    expReg (setExpReg x r s) x = r := by
  have hread : expReg (setExpReg x r s) x = padTo 2048 (if r.all fun b => decide (b = 0) then [] else r) :=
    congrArg (padTo 2048) (tget_tset_same _ _ _ _ h)
  rw [hread]
  split
  · next hzero =>
    have hall : r = zeros 2048 := List.eq_replicate_iff.mpr ⟨hlen, by simpa using hzero⟩
    rw [padTo_nil, hall]
  · exact padTo_of_length hlen

/-! ### SUM_ADD by the state of its accumulation (R102 to R104) -/

section
variable {x : BitVec 16} {e : Ew} {w : InUse} {us : List InUse} {a : TileIn} {r : List TileIn} {s : State}

/-- The accumulation as the first tile gives it its shape and its grids (R102). -/
def shapedBy (m : SxAcc) (a : TileIn) (mode : Nat) (g : List Int) : SxAcc :=
  { m with rows := a.shape.rows, cols := a.shape.cols, layout := BitVec.ofNat 2 a.shape.layout, place := BitVec.ofNat 2 (blockPlace a.shape),
           gridMode := BitVec.ofNat 2 mode, grids := g }

theorem sumAddBody_closed (hopen : (sxOf s x (iwArg e.w 0)).isOpen = false) :
    sumAddBody x e (w :: us) (a :: r) s = trapAcc x e (iwArg e.w 0) false s := by
  simp [sumAddBody, hopen]

theorem sumAddBody_first {mode : Nat} {g : List Int} (hopen : (sxOf s x (iwArg e.w 0)).isOpen = true) (hadded : (sxOf s x (iwArg e.w 0)).added = false)
    (hgrid : firstGrids (sxOf s x (iwArg e.w 0)) a = some (mode, g)) :
    sumAddBody x e (w :: us) (a :: r) s = issued x e (takeIns x (w :: us) (noOut x e (w :: us)
      (setSx x (iwArg e.w 0) (addSx (shapedBy (sxOf s x (iwArg e.w 0)) a mode g) a) s))) := by
  simp [sumAddBody, hopen, hadded, hgrid, shapedBy]

theorem sumAddBody_first_no_grid (hopen : (sxOf s x (iwArg e.w 0)).isOpen = true) (hadded : (sxOf s x (iwArg e.w 0)).added = false)
    (hgrid : firstGrids (sxOf s x (iwArg e.w 0)) a = none) : sumAddBody x e (w :: us) (a :: r) s = trapGrid x e w.stream w.tile s := by
  simp [sumAddBody, hopen, hadded, hgrid]

theorem sumAddBody_other_shape (hopen : (sxOf s x (iwArg e.w 0)).isOpen = true) (hadded : (sxOf s x (iwArg e.w 0)).added = true)
    (hshape : a.shape.rows ≠ (sxOf s x (iwArg e.w 0)).rows ∨ a.shape.cols ≠ (sxOf s x (iwArg e.w 0)).cols) :
    sumAddBody x e (w :: us) (a :: r) s =
      trapPl x e evTileHeaderMismatch (le 4 w.stream.toNat ++ le 4 w.tile.toNat ++ le 4 a.hdr.tseq.toNat ++ le 1 1) s := by
  simp [sumAddBody, hopen, hadded, hshape]

theorem sumAddBody_other_grid {d : Int × Int} (hopen : (sxOf s x (iwArg e.w 0)).isOpen = true) (hadded : (sxOf s x (iwArg e.w 0)).added = true)
    (hrows : a.shape.rows = (sxOf s x (iwArg e.w 0)).rows) (hcols : a.shape.cols = (sxOf s x (iwArg e.w 0)).cols)
    (hsrc : (sxOf s x (iwArg e.w 0)).src = 1) (hdiff : gridDiff (sxOf s x (iwArg e.w 0)) a = some d) :
    sumAddBody x e (w :: us) (a :: r) s = trapPl x e evGridMismatch (le 2 e.idx ++ le 4 w.stream.toNat ++ leInt 2 d.1 ++ leInt 2 d.2) s := by
  simp [sumAddBody, hopen, hadded, hrows, hcols, hsrc, hdiff]

theorem sumAddBody_next (hopen : (sxOf s x (iwArg e.w 0)).isOpen = true) (hadded : (sxOf s x (iwArg e.w 0)).added = true)
    (hrows : a.shape.rows = (sxOf s x (iwArg e.w 0)).rows) (hcols : a.shape.cols = (sxOf s x (iwArg e.w 0)).cols)
    (hmatch : (sxOf s x (iwArg e.w 0)).src = 1 → gridDiff (sxOf s x (iwArg e.w 0)) a = none) :
    sumAddBody x e (w :: us) (a :: r) s = issued x e (takeIns x (w :: us) (noOut x e (w :: us)
      (setSx x (iwArg e.w 0) (addSx (sxOf s x (iwArg e.w 0)) a) s))) := by
  by_cases hsrc : (sxOf s x (iwArg e.w 0)).src = 1
  · simp [sumAddBody, hopen, hadded, hrows, hcols, hsrc, hmatch hsrc]
  · have hother : (sxOf s x (iwArg e.w 0)).src ≠ 1#2 := hsrc
    simp [sumAddBody, hopen, hadded, hrows, hcols, hother]

end

/-! ### SUM_OPEN, SUM_CLOSE and EXPMAX -/

section
variable {x : BitVec 16} {e : Ew} {s : State}

/-- The accumulation that SUM_OPEN opens (R101, R102). -/
def openedBy (x : BitVec 16) (e : Ew) (s : State) : SxAcc :=
  { isOpen := true, src := BitVec.ofNat 2 (iwArg e.w 1), perBlock := iwArg e.w 1 = 2 ∧ bit (iwMod e.w) 1, h40 := iwArg e.w 1 = 2 ∧ bit (iwMod e.w) 0,
    reg := if iwArg e.w 1 = 2 then expReg s x else [] }

theorem sumOpen_closed (h : (sxOf s x (iwArg e.w 0)).isOpen = false) :
    sumOpen x e s = issued x e (setSx x (iwArg e.w 0) (openedBy x e s) s) := by
  simp [sumOpen, h, openedBy]

theorem sumOpen_open (h : (sxOf s x (iwArg e.w 0)).isOpen = true) : sumOpen x e s = trapAcc x e (iwArg e.w 0) true s := by
  simp [sumOpen, h]

theorem sumClose_added (hopen : (sxOf s x (iwArg e.w 0)).isOpen = true) (hadded : (sxOf s x (iwArg e.w 0)).added = true) :
    sumClose x e s = issued x e (takeIns x [] (writeOut x e (iwArg e.w 1) []
      (sxOut (bindAt s x (iwArg e.w 1)).shape (outCtx x e (iwArg e.w 1) s) (sxOf s x (iwArg e.w 0))) (setSx x (iwArg e.w 0) {} s))) := by
  simp [sumClose, hopen, hadded, takeIns]

theorem sumClose_not_added (h : (sxOf s x (iwArg e.w 0)).isOpen = false ∨ (sxOf s x (iwArg e.w 0)).added = false) :
    sumClose x e s = trapAcc x e (iwArg e.w 0) (sxOf s x (iwArg e.w 0)).isOpen s := by
  rcases h with h | h <;> simp [sumClose, h]

end

/-- What EXPMAX leaves in the register (R99, R100). -/
theorem expmaxBody_effect {x : BitVec 16} {e : Ew} {us : List InUse} {a : TileIn} {r : List TileIn} {s : State} (h : twf [] s.stn.expmax = true) :
    let t := expmaxBody x e us (a :: r) s
    (stnOf t x).pc = (stnOf s x).pc + 1 ∧ outputAdded x (iwArg e.w 1) s t ∧
      expReg t x = maxBytes (if bit (iwMod e.w) 2 then zeros 2048 else expReg s x) (expBytes (iwMod e.w) a) := by
  intro t
  generalize hreg : maxBytes (if bit (iwMod e.w) 2 then zeros 2048 else expReg s x) (expBytes (iwMod e.w) a) = reg
  have hlen : reg.length = 2048 := by
    rw [← hreg, maxBytes_length]
    split
    · exact List.length_replicate
    · exact padTo_length ..
  have ht : t = issued x e (takeIns x us (writeOut x e (iwArg e.w 1) us
      { body := reg.take (expBytes (iwMod e.w) a).length, flags := a.flags, had := true } (setExpReg x reg s))) := by
    rw [← hreg]
    rfl
  obtain ⟨hpc, hout, -, -, hexp⟩ := written_effect ht rfl rfl
  refine ⟨hpc, hout, ?_⟩
  rw [← expReg_setExpReg hlen h]
  exact congrArg (fun y => padTo 2048 (tget [] y x.toNat)) hexp

/-- Settles O26: each clause runs its word and is the lemma on what the word then does; the others are traps. -/
theorem exactSumWords : Obligations.ExactSumWords := by
  unfold Obligations.ExactSumWords
  refine ⟨fun x err s u e hclean hdue hcond => ?opens, fun x err s u v e a r hclean hdue hin huses hread => ?adds,
    fun x err s u e hclean hdue hout => ?closes, fun x err s u v e a r hclean hdue hin hout hread htwf => ?maximum,
    fun x err s u e hclean hdue hsrc hwait => ?waits⟩
  case opens =>
    have hrun : exec (.sumOpen x err) s = .next (progress x (sumOpen x e u)) := by
      rw [exec_sumOpen hclean hdue, if_pos (by simpa using hcond)]
    refine ⟨fun hopen => ?_, fun hopen => ?_⟩
    · rw [sumOpen_closed hopen] at hrun
      obtain ⟨hpc, hsx⟩ := opened_effect x e (iwArg e.w 0) (openedBy x e u) u rfl
      exact ⟨_, hrun, hpc, hsx⟩
    · rw [sumOpen_open hopen] at hrun
      exact exec_traps_cause hrun
  case adds =>
    obtain ⟨w, us, huse⟩ := List.exists_cons_of_ne_nil huses
    have hrun := exec_sumAdd hclean hdue hin hread
    rw [huse] at hrun
    refine ⟨fun mode g hopen hadded hgrid => ?first, fun hopen hadded hmatch hrows hcols => ?next, fun hopen => ?closed,
      fun hopen hadded hgrid => ?noGrid, fun hopen hadded hshape => ?shape, fun d hopen hadded hsrc hrows hcols hdiff => ?grid⟩
    case first => exact ⟨_, hrun, added_effect x e _ _ _ v (sumAddBody_first hopen hadded hgrid) hopen⟩
    case next =>
      obtain ⟨hpc, hts, hstrm, hsx⟩ := added_effect x e _ _ _ v (sumAddBody_next (us := us) (w := w) (r := r) hopen hadded hrows hcols hmatch) hopen
      exact ⟨_, hrun, hpc, hsx, hts, hstrm⟩
    case closed =>
      rw [sumAddBody_closed hopen] at hrun
      exact exec_traps_cause hrun
    case noGrid =>
      rw [sumAddBody_first_no_grid hopen hadded hgrid] at hrun
      exact exec_traps_cause hrun
    case shape =>
      rw [sumAddBody_other_shape hopen hadded hshape] at hrun
      obtain ⟨t, q, ht, htrap, hcause, hkept⟩ := exec_traps hrun
      have hsx := congrArg Stations.sx hkept
      exact ⟨t, q, ht, htrap, hcause, hsx⟩
    case grid =>
      rw [sumAddBody_other_grid hopen hadded hrows hcols hsrc hdiff] at hrun
      obtain ⟨t, q, ht, htrap, hcause, hkept⟩ := exec_traps hrun
      have hsx := congrArg Stations.sx hkept
      exact ⟨t, q, ht, htrap, hcause, hsx⟩
  case closes =>
    have hrun := exec_sumClose hclean hdue hout
    refine ⟨fun hopen hadded htwf => ?_, fun hstate => ?_⟩
    · obtain ⟨hpc, hadd, hstrm, hsx, -⟩ := written_effect (sumClose_added hopen hadded) rfl rfl
      exact ⟨_, hrun, hpc, (sxOf_of_sx x _ hsx).trans (sxOf_setSx x _ _ u htwf), hadd, hstrm⟩
    · rw [sumClose_not_added hstate] at hrun
      exact exec_traps_cause hrun
  case maximum => exact ⟨_, exec_expmax hclean hdue hin hout hread, expmaxBody_effect htwf⟩
  case waits =>
    rw [exec_sumOpen hclean hdue, if_neg (by simp [hsrc, hwait])]

end Sys2Proof.Scope
end
